-- ==== Sys2Proof/Word.lean ====
section
/-! DEFINITION. The word types of the D7 and the plainest arithmetic on them. -/
namespace Sys2Proof

/-- The 64-bit word of the general file (spec/01_machine.md R18). -/
abbrev Word := BitVec 64

/-- One byte of storage. -/
abbrev Byte := BitVec 8

/-- A torus coordinate in the peer encoding: x in [13:9], y in [8:4], z in [3:0] (spec/01_machine.md R12). -/
abbrev Coord := BitVec 16

/-- A buffer record (spec/11_storage.md R156). -/
abbrev Record := BitVec 256

/-- `sext(v, n)` of spec/07_scalar_control.md R84: the low `n` bits of `v`, sign-extended. -/
abbrev sext (n : Nat) (v : Word) : Word := (v.setWidth n).signExtend 64

/-- `zext(v, n)` of R84: the low `n` bits of `v`, zero-extended. -/
abbrev zext (n : Nat) (v : Word) : Word := (v.setWidth n).setWidth 64

/-- `a[h:l]` of R84 with `w = h - l + 1`. -/
abbrev bits (l w : Nat) {n : Nat} (v : BitVec n) : BitVec w := v.extractLsb' l w

end Sys2Proof
end

