-- ==== Sys2Proof/Syntax.lean ====
section
/-! DEFINITION. The rows of the opcode table as a Lean type: field structures of the slots' layouts, payloads of the
events, and the one inductive `Instr`. -/
namespace Sys2Proof

/-- Which of the A and B slots carries an integer instruction (spec/03_bundles.md R36). -/
inductive AB where
  | a
  | b
  deriving DecidableEq, Repr

/-- A general register read through a scalar port in a C-slot payload (R33). -/
structure GP where
  reg : BitVec 5
  port : BitVec 2
  deriving DecidableEq, Repr

/-- The payload of `tree` (R29): shape, four tests (polarity in bit 3, predicate below), five signed line offsets. -/
structure TreeF where
  shape : BitVec 3
  test1 : BitVec 4
  test2 : BitVec 4
  test3 : BitVec 4
  test4 : BitVec 4
  off0 : BitVec 14
  off1 : BitVec 14
  off2 : BitVec 14
  off3 : BitVec 14
  off4 : BitVec 14
  deriving DecidableEq, Repr

/-- The payload of `rpt` (R33): signed cope-address stride, signed row stride, count (0 meaning 128). -/
structure RptF where
  stride : BitVec 14
  rowStride : BitVec 4
  count : BitVec 7
  deriving DecidableEq, Repr

/-- The payload of `phint` (R33). -/
structure PhintF where
  index : BitVec 12
  planes : BitVec 4
  trees : BitVec 8
  queues : BitVec 32
  regs : BitVec 32
  deriving DecidableEq, Repr

/-- The RR layout of the A and B slots (R34), the opcode aside. -/
structure RR where
  guard : BitVec 4
  dst : BitVec 5
  src1 : BitVec 5
  port1 : BitVec 2
  src2 : BitVec 5
  port2 : BitVec 2
  modf : BitVec 3
  deriving DecidableEq, Repr

/-- The RI layout (R34): one source and a ten-bit immediate. -/
structure RI where
  guard : BitVec 4
  dst : BitVec 5
  src1 : BitVec 5
  port1 : BitVec 2
  imm : BitVec 10
  deriving DecidableEq, Repr

/-- The MI layout (R34): a seventeen-bit immediate. -/
structure MI where
  guard : BitVec 4
  dst : BitVec 5
  imm : BitVec 17
  deriving DecidableEq, Repr

/-- The RC layout (R34): a condition and a seven-bit immediate. -/
structure RC where
  guard : BitVec 4
  dst : BitVec 5
  src1 : BitVec 5
  port1 : BitVec 2
  imm : BitVec 7
  cond : BitVec 3
  deriving DecidableEq, Repr

/-- The V-slot layout (R38), the opcode aside; `modf` holds bits [47:41]. -/
structure VF where
  guard : BitVec 4
  dst : BitVec 5
  src1 : BitVec 5
  keep1 : Bool
  src2 : BitVec 5
  keep2 : Bool
  src3 : BitVec 5
  keep3 : Bool
  mask : BitVec 3
  ty : BitVec 4
  modf : BitVec 7
  deriving DecidableEq, Repr

/-- The M-slot layout (R40), the opcode aside. -/
structure MF where
  guard : BitVec 4
  queue : BitVec 5
  plane : BitVec 2
  caddr : BitVec 17
  row : BitVec 7
  modf : BitVec 8
  deriving DecidableEq, Repr

/-- The L-slot layout (R41), the opcode aside. -/
structure LF where
  guard : BitVec 4
  b : BitVec 4
  n : BitVec 3
  o : BitVec 5
  oport : BitVec 2
  d : BitVec 5
  dport : BitVec 2
  imm : BitVec 16
  f : BitVec 5
  fr : Bool
  fe : BitVec 2
  modf : BitVec 8
  deriving DecidableEq, Repr

/-- `xsv`, low half of the X slot (R42). -/
structure XsvF where
  guard : BitVec 4
  pair : BitVec 5
  port : BitVec 2
  sel : BitVec 2
  deriving DecidableEq, Repr

/-- `xkm`, low half of the X slot (R42). -/
structure XkmF where
  guard : BitVec 4
  pred : BitVec 4
  mask : BitVec 3
  deriving DecidableEq, Repr

/-- `xvs`, high half of the X slot (R42). -/
structure XvsF where
  guard : BitVec 4
  pair : BitVec 5
  keep : Bool
  lane : BitVec 5
  width : BitVec 2
  deriving DecidableEq, Repr

/-- `xmk`, high half of the X slot (R42). -/
structure XmkF where
  guard : BitVec 4
  pred : BitVec 4
  mask : BitVec 3
  all : Bool
  deriving DecidableEq, Repr

/-- The S-slot layout (R43); a count of 0 means 8. -/
structure SF where
  guard : BitVec 4
  flag : BitVec 5
  count : BitVec 3
  deriving DecidableEq, Repr

/-- A context of the die: core within the die and context within the core (spec/01_machine.md R11). -/
structure CtxId where
  core : BitVec 6
  ctx : BitVec 2
  deriving DecidableEq, Repr

/-- A tile version: identity and version (spec/21_tasks.md R307). -/
structure VersionId where
  ident : BitVec 48
  ver : BitVec 16
  deriving DecidableEq, Repr

/-- What a broadcast tells of a version, and which die sent it (spec/21_tasks.md R331). -/
structure VersionNews where
  src : Coord
  version : VersionId
  deriving DecidableEq, Repr

/-- What an access asks of a page (spec/11_storage.md R163). -/
inductive Access where
  | read
  | write
  | atomic
  | fetch
  deriving DecidableEq, Repr

/-- The access a table walk serves (R163): address space, virtual address, access, user mode, and the space of the
record (0 HBM, 1 second tier) where the walk checks KIND. -/
structure WalkArg where
  asid : BitVec 16
  va : BitVec 64
  access : Access
  user : Bool
  space : Option (BitVec 2)
  deriving DecidableEq, Repr

/-- Where an error in on-die state lies (spec/09_traps.md R148, R149). -/
inductive ErrorPlace where
  | registers (c : CtxId)
  | array (core : BitVec 6)
  | scratchpad (cluster : BitVec 3)
  deriving DecidableEq, Repr

/-- A fabric packet: the header fields of spec/23_fabric.md R341 and the payload bytes. -/
structure Packet where
  dst : Coord
  src : Coord
  type : BitVec 6
  cls : BitVec 2
  dl : Bool
  tag : BitVec 8
  core : BitVec 6
  ctx : BitVec 2
  part : BitVec 24
  scope : BitVec 3
  asid : BitVec 16
  offset : BitVec 40
  len : Nat
  aux : BitVec 8
  opa : BitVec 64
  opb : BitVec 64
  clk : List (BitVec 6 × BitVec 16)
  payload : List (BitVec 8)
  deriving DecidableEq, Repr

/-- A host write into the submission window (spec/26_host.md R385): byte offset and the bytes of one transaction. -/
structure HostWrite where
  offset : Nat
  bytes : List (BitVec 8)
  deriving DecidableEq, Repr

/-- The windows of the host function (spec/26_host.md R382): BAR0, BAR2 and BAR4. -/
inductive HostBar where
  | registers
  | submission
  | memory
  deriving DecidableEq, Repr

/-- A host access through a BAR (R382): an offset in it, and the bytes written or the number of bytes read. -/
structure WindowAccess where
  bar : HostBar
  offset : Nat
  write : Option (List (BitVec 8))
  len : Nat
  deriving DecidableEq, Repr

/-- What a shakeout found, and its duration in ms; the times of its steps in ms, the bit errors of each link, and the failing
core and address of each failed check (R399, R400). -/
structure ShakeResult where
  zeroFailed : Bool
  measFailed : Bool
  selfFailed : Bool
  marchFailed : Bool
  berFailed : Bool
  timeMs : BitVec 32
  stepMs : List (BitVec 32)
  linkErrors : List (BitVec 64)
  failures : List (BitVec 6 × BitVec 64)
  deriving DecidableEq, Repr

/-- One sample of the package's sensors (spec/28_package.md R402, R407): temperatures in °C, powers in W. -/
structure PowerReading where
  junction : Nat
  hbm : Nat
  inlet : Nat
  package : Nat
  module : Nat
  deriving DecidableEq, Repr


/-- The rows of spec/opcode_table.json, one constructor each, in the table's order: the instructions of a bundle's
slots, then the events of the machine's other units and of the agents outside it, with what each carries. -/
inductive Instr where
  | tree (f : TreeF)
  | jmp (off : BitVec 25)
  | jmpr (r : GP)
  | call (off : BitVec 25)
  | ret (r : GP)
  | loopImmediate (count : BitVec 16) (len : BitVec 6)
  | loopRegister (r : GP) (len : BitVec 6)
  | rpt (f : RptF)
  | setfmtImmediate (v : BitVec 32)
  | setfmtRegister (r : GP)
  | yield
  | phint (f : PhintF)
  | trap (code : BitVec 8)
  | sysc (code : BitVec 8)
  | eret
  | done
  | succ
  | spawn (r : GP)
  | launch (r : GP)
  | wdogSetZero (r : GP)
  | wdogSuspend (r : GP)
  | wdogResume (r : GP)
  | wdogExpire (r : GP)
  | add (u : AB) (f : RR)
  | sub (u : AB) (f : RR)
  | mul (u : AB) (f : RR)
  | mulh (u : AB) (f : RR)
  | mulhn (u : AB) (f : RR)
  | div (f : RR)
  | rem (f : RR)
  | and (u : AB) (f : RR)
  | or (u : AB) (f : RR)
  | xor (u : AB) (f : RR)
  | andn (u : AB) (f : RR)
  | shl (u : AB) (f : RR)
  | shr (u : AB) (f : RR)
  | sar (u : AB) (f : RR)
  | min (u : AB) (f : RR)
  | max (u : AB) (f : RR)
  | minn (u : AB) (f : RR)
  | maxn (u : AB) (f : RR)
  | clz (u : AB) (f : RR)
  | popc (u : AB) (f : RR)
  | brev (u : AB) (f : RR)
  | bfx (u : AB) (f : RR)
  | bfi (u : AB) (f : RR)
  | lea (u : AB) (f : RI)
  | sel (u : AB) (f : RR)
  | addi (u : AB) (f : RI)
  | andi (u : AB) (f : RI)
  | ori (u : AB) (f : RI)
  | shli (u : AB) (f : RI)
  | movi (u : AB) (f : MI)
  | movhi (u : AB) (f : MI)
  | cmp (u : AB) (f : RR)
  | cmpi (u : AB) (f : RC)
  | kop (u : AB) (f : RR)
  | chk (u : AB) (f : RR)
  | rdsys (f : RI)
  | rdsysTrapinfo (f : RI)
  | wrsys (f : RI)
  | wrsysFmt (f : RI)
  | wrsysFstat (f : RI)
  | wrsysFprog (f : RI)
  | wrsysMlprog (f : RI)
  | wrsysPourskew (f : RI)
  | wrsysWdlim (f : RI)
  | wrsysTvec (f : RI)
  | wrsysTrapinfo (f : RI)
  | wrsysDutymode (f : RI)
  | wrsysPeer (f : RI)
  | wrsysFlag (f : RI)
  | fadd (f : RR)
  | fsub (f : RR)
  | fmul (f : RR)
  | fma (f : RR)
  | fdiv (f : RR)
  | fsqrt (f : RR)
  | fmin (f : RR)
  | fmax (f : RR)
  | fsgn (f : RR)
  | fcmp (f : RR)
  | fcvt (f : RR)
  | fclass (f : RR)
  | wclr (f : RR)
  | wset (f : RR)
  | wadd (f : RR)
  | wget (f : RR)
  | wsum (f : RR)
  | wfind (f : RR)
  | wcut (f : RR)
  | wtot (f : RR)
  | wmov (f : RR)
  | vadd (f : VF)
  | vsub (f : VF)
  | vmul (f : VF)
  | vfma (f : VF)
  | vfms (f : VF)
  | vmin (f : VF)
  | vmax (f : VF)
  | vabs (f : VF)
  | vneg (f : VF)
  | vdiv (f : VF)
  | vsqrt (f : VF)
  | vrsqrt (f : VF)
  | vrcp (f : VF)
  | vexp2 (f : VF)
  | vlog2 (f : VF)
  | vcvt (f : VF)
  | vcmp (f : VF)
  | vsel (f : VF)
  | vand (f : VF)
  | vor (f : VF)
  | vxor (f : VF)
  | vnot (f : VF)
  | vshl (f : VF)
  | vshr (f : VF)
  | vsar (f : VF)
  | vredsum (f : VF)
  | vredmax (f : VF)
  | vredmin (f : VF)
  | vscan (f : VF)
  | vperm (f : VF)
  | vslide (f : VF)
  | vbcast (f : VF)
  | vdup (f : VF)
  | vdrop (f : VF)
  | viota (f : VF)
  | vclamp (f : VF)
  | vlen (f : VF)
  | mand (f : VF)
  | mor (f : VF)
  | mnot (f : VF)
  | vmovi (f : VF)
  | xsv (f : XsvF)
  | xkm (f : XkmF)
  | xvs (f : XvsF)
  | xmk (f : XmkF)
  | wflag (f : SF)
  | pflag (f : SF)
  | bar (f : SF)
  | rsync (f : SF)
  | flagWaitRelease (core : BitVec 6) (flag : BitVec 5)
  | mpush (f : MF)
  | mshift (f : MF)
  | macc (f : MF)
  | mdrain (f : MF)
  | mzero (f : MF)
  | mfill (f : MF)
  | mload (f : MF)
  | mflu (f : MF)
  | mfch (f : MF)
  | mfqr (f : MF)
  | mtrs (f : MF)
  | mrdp (f : MF)
  | mstat (f : MF)
  | mwait (f : MF)
  | mloadComplete (c : CtxId)
  | factorisationComplete (c : CtxId)
  | factorisationPivotStop (c : CtxId)
  | factorisationInterruptionPoint (c : CtxId)
  | tld (f : LF)
  | tst (f : LF)
  | tldn (f : LF)
  | tstn (f : LF)
  | tprf (f : LF)
  | bxf (f : LF)
  | vld (f : LF)
  | vst (f : LF)
  | sld (f : LF)
  | sst (f : LF)
  | tlook (f : LF)
  | ttag (f : LF)
  | tinv (f : LF)
  | feset (f : LF)
  | feclr (f : LF)
  | amo (f : LF)
  | amoc (f : LF)
  | fenceAcq (f : LF)
  | fenceRel (f : LF)
  | fenceAr (f : LF)
  | tfence (f : LF)
  | tfenceInv (f : LF)
  | tfenceAll (f : LF)
  | recld (f : LF)
  | recst (f : LF)
  | recmk (f : LF)
  | swait (f : LF)
  | ssig (f : LF)
  | wvis (f : LF)
  | swaitPost (c : CtxId) (watch : Nat)
  | arOpen (f : LF)
  | arJoin (f : LF)
  | arLd (f : LF)
  | arSt (f : LF)
  | arCommit (f : LF)
  | arAbort (f : LF)
  | arLeave (f : LF)
  | wfill (f : LF)
  | wfillApply (op : Nat)
  | wdump (f : LF)
  | rput (f : LF)
  | rputReg (f : LF)
  | rget (f : LF)
  | reos (f : LF)
  | ringSpill (ring : BitVec 64)
  | translationWalkComplete (core : BitVec 6) (w : WalkArg)
  | operationComplete (op : Nat)
  | engineFault (op : Nat)
  | trapDelivery (c : CtxId)
  | watchdogExpiry (c : CtxId)
  | correctableError (place : ErrorPlace)
  | freezeEnd (core : BitVec 6)
  | uncorrectableError (place : ErrorPlace)
  | preemptionRequest (c : CtxId)
  | saveComplete (c : CtxId)
  | saveOverrun (c : CtxId)
  | heldRegionWriteout (core : BitVec 6) (index : Nat)
  | contextRestore (c : CtxId)
  | regionDeadline (obj : BitVec 40)
  | regionAbortDelivery (c : CtxId)
  | launchPacket (packet : BitVec 512)
  | taskDispatch
  | taskAging (key : Nat)
  | waitWordQualify (key : Nat)
  | unparkWordStore (v : BitVec 64)
  | interruptWordStore (v : BitVec 64)
  | taskPublication (key : Nat)
  | replicaAcknowledge (v : VersionId) (die : BitVec 16)
  | dmaxUpdate
  | setCompletion (src : BitVec 16) (packet : BitVec 512)
  | setFailure (src : BitVec 16) (packet : BitVec 512) (reason : Nat)
  | hbmUncorrectableError (tier2 : Bool) (addr : Nat) (len : Nat)
  | lossBroadcast (v : VersionNews) (lost : Bool)
  | need (v : VersionId) (pri : BitVec 3)
  | rebuildRetire (v : VersionId) (faulted : Bool)
  | restoreComplete (v : VersionId) (bytes : List (BitVec 8))
  | mirrorUpdate (entry : BitVec 1024)
  | readRequest (p : Packet)
  | writeRequest (p : Packet)
  | atomicRequest (p : Packet)
  | compareSwapRequest (p : Packet)
  | signalSetRequest (p : Packet)
  | signalAddRequest (p : Packet)
  | flagPostRequest (p : Packet)
  | tentativeReadRequest (p : Packet)
  | tentativeWriteRequest (p : Packet)
  | regionOpenRequest (p : Packet)
  | regionJoinRequest (p : Packet)
  | regionCommitRequest (p : Packet)
  | regionAbortRequest (p : Packet)
  | regionLeaveRequest (p : Packet)
  | clockPacket (p : Packet)
  | dataResponse (p : Packet)
  | acknowledgement (p : Packet)
  | errorResponse (p : Packet)
  | retryResponse (p : Packet)
  | retryResend (index : Nat)
  | slotTimeout (c : CtxId) (slot : BitVec 3)
  | packetForward (port : BitVec 3) (p : Packet)
  | packetAgeDrop (p : Packet)
  | requestAgeDrop (index : Nat)
  | managementArrival (p : Packet)
  | domainTable (table : List (BitVec 16))
  | graticuleInstall (x y z : List (BitVec 2))
  | linkReplay (port : BitVec 3) (resent : Nat)
  | linkRetrain (port : BitVec 3)
  | retrainEnd (port : BitVec 3) (ok : Bool)
  | fabricControlWrite (v : BitVec 64)
  | submission (w : HostWrite)
  | submissionProcess
  | memoryWindowAccess (w : WindowAccess)
  | controlRegisterWrite (offset : Nat) (v : BitVec 64)
  | dutymodeWrite (v : BitVec 64)
  | assistRequest (fn : BitVec 3) (request : BitVec 512)
  | assistreply (seq : Nat) (reply : BitVec 512)
  | assistTimeout (seq : Nat)
  | shakecmd (nonce : BitVec 64)
  | shakeoutComplete (r : ShakeResult)
  | firmwareRestart
  | firmwareEventDelivery
  | imageLoad (image : List (BitVec 8))
  | fuseCommit (v : BitVec 8) (sig : List (BitVec 8))
  | measurementExtend (reg : BitVec 4) (m : BitVec 512)
  | getDigests
  | getCertificate (offset len : Nat)
  | challenge (nonce : BitVec 256)
  | getMeasurements (nonce : BitVec 256)
  | powerSample (p : PowerReading)
  | timeSync (reference : Nat)
  | sensorSample (p : PowerReading)
  | powerOnReset
  | packageReset
  | dieReset (die : BitVec 16)
  | fixedLatencyResultLanding (c : CtxId) (index : Nat)
  | arrayPushLanding (c : CtxId) (queue : BitVec 5)
  | copyEngineFailure (op : Nat)
  | domainReset
  | dieReturn (die : BitVec 16)
  | firmwareLinkRetrain (port : BitVec 3) (ok : Bool)
  | defwdlimWrite (v : BitVec 64)
  | agelimWrite (v : BitVec 64)
  deriving DecidableEq, Repr

end Sys2Proof
end

