-- ==== Sys2Proof/WellFormed.lean ====
section
/-! DEFINITION. The encoding checks of spec/03_bundles.md R53 that one slot decides alone: reserved fields and codes, fields
an instruction does not use, and guards.  The checks across slots are in Machine/Bundle.lean. -/
namespace Sys2Proof

/-- Guards 10 to 15 are reserved (R28). -/
def guardOk (x : BitVec 4) : Bool := x < 10

/-- A field that names a predicate holds k0 to k15 and a zero above (R35). -/
def predOk (x : BitVec 5) : Bool := x < 16

/-- The system-register numbers of R37. -/
def sysRegOk (x : BitVec 10) : Bool := x < 0x018 || (0x020 ≤ x && x < 0x040)

/-- Element-type classes of spec/13_vector.md R191. -/
def tyInt (t : BitVec 4) : Bool := t < 8
def tySigned (t : BitVec 4) : Bool := t < 4
def tyFloat (t : BitVec 4) : Bool := 8 ≤ t && t < 12
def tyRes (t : BitVec 4) : Bool := t == 12 || t == 13

/-- Width in bits of an element type (R39; RX4 has 4). -/
def tyWidth (t : BitVec 4) : Nat :=
  match t.toNat with
  | 0 | 4 | 12 => 8
  | 1 | 5 | 8 | 9 => 16
  | 2 | 6 | 10 => 32
  | 13 => 4
  | _ => 64

/-- Lanes of a 1024-bit entry (spec/05_formats.md R59). -/
def laneCount (t : BitVec 4) : Nat := 1024 / tyWidth t

/-- A V-slot instruction with `n` sources leaves the fields of the others zero (R38). -/
def vSources (n : Nat) (f : VF) : Bool :=
  (n ≥ 1 || (f.src1 == 0 && !f.keep1)) && (n ≥ 2 || (f.src2 == 0 && !f.keep2)) &&
    (n ≥ 3 || (f.src3 == 0 && !f.keep3))

/-- The type pairs and parts `vcvt` accepts (R210). -/
def cvtOk (src dst : BitVec 4) (p : BitVec 2) : Bool :=
  let hi := max (tyWidth src) (tyWidth dst)
  let lo := min (tyWidth src) (tyWidth dst)
  dst < 14 && hi / lo ≤ 4 && p.toNat < hi / lo && !(tyRes src && src == dst)

/-- Test fields and target fields that the shape does not use are zero (R31). -/
def treeOk (f : TreeF) : Bool :=
  let tests := match f.shape.toNat with | 0 => 0 | 1 => 1 | 2 | 3 => 2 | 4 | 5 | 6 => 3 | _ => 4
  (tests ≥ 1 || f.test1 == 0) && (tests ≥ 2 || f.test2 == 0) && (tests ≥ 3 || f.test3 == 0) &&
    (tests ≥ 4 || f.test4 == 0) && (tests ≥ 1 || f.off1 == 0) && (tests ≥ 2 || f.off2 == 0) &&
    (tests ≥ 3 || f.off3 == 0) && (tests ≥ 4 || f.off4 == 0)

/-- The flag column of R168: optional, required, absent, and that of `bxf`, where fr may be 1. -/
def postOpt (f : LF) : Bool := !f.fr && (bits 6 1 f.modf == 1 || f.f == 0)
def postReq (f : LF) : Bool := !f.fr && bits 6 1 f.modf == 1
def postNo (f : LF) : Bool := !f.fr && bits 6 1 f.modf == 0 && f.f == 0
def postBxf (f : LF) : Bool := bits 6 1 f.modf == 1 || (f.f == 0 && !f.fr)

/-- The encoding checks of R53 on one slot's instruction.  The events have no encoding and hold vacuously. -/
def wellFormed : Instr → Bool
  | .tree f => treeOk f
  | .jmp _ => true
  | .jmpr _ => true
  | .call _ => true
  | .ret _ => true
  | .loopImmediate _ _ => true
  | .loopRegister _ _ => true
  | .rpt _ => true
  | .setfmtImmediate _ => true
  | .setfmtRegister _ => true
  | .yield => true
  | .phint f => bits 0 1 f.regs == 0
  | .trap _ => true
  | .sysc _ => true
  | .eret => true
  | .done => true
  | .succ => true
  | .spawn _ => true
  | .launch _ => true
  | .wdogSetZero _ => true
  | .wdogSuspend _ => true
  | .wdogResume _ => true
  | .wdogExpire _ => true
  | .add _ f => guardOk f.guard && f.modf < 4
  | .sub _ f => guardOk f.guard && f.modf < 4
  | .mul _ f => guardOk f.guard && f.modf < 2
  | .mulh _ f => guardOk f.guard && f.modf == 0
  | .mulhn _ f => guardOk f.guard && f.modf == 0
  | .div f => guardOk f.guard && f.modf < 2
  | .rem f => guardOk f.guard && f.modf < 2
  | .and _ f => guardOk f.guard && f.modf == 0
  | .or _ f => guardOk f.guard && f.modf == 0
  | .xor _ f => guardOk f.guard && f.modf == 0
  | .andn _ f => guardOk f.guard && f.modf == 0
  | .shl _ f => guardOk f.guard && f.modf < 2
  | .shr _ f => guardOk f.guard && f.modf < 2
  | .sar _ f => guardOk f.guard && f.modf < 2
  | .min _ f => guardOk f.guard && f.modf == 0
  | .max _ f => guardOk f.guard && f.modf == 0
  | .minn _ f => guardOk f.guard && f.modf == 0
  | .maxn _ f => guardOk f.guard && f.modf == 0
  | .clz _ f => guardOk f.guard && f.src2 == 0 && f.port2 == 0 && f.modf == 0
  | .popc _ f => guardOk f.guard && f.src2 == 0 && f.port2 == 0 && f.modf == 0
  | .brev _ f => guardOk f.guard && f.src2 == 0 && f.port2 == 0 && f.modf == 0
  | .bfx _ f => guardOk f.guard && f.modf < 2
  | .bfi _ f => guardOk f.guard && f.modf == 0
  | .lea _ f => guardOk f.guard
  | .sel _ f => guardOk f.guard
  | .addi _ f => guardOk f.guard
  | .andi _ f => guardOk f.guard
  | .ori _ f => guardOk f.guard
  | .shli _ f => guardOk f.guard && f.imm < 64
  | .movi _ f => guardOk f.guard
  | .movhi _ f => guardOk f.guard
  | .cmp _ f => guardOk f.guard && predOk f.dst && f.modf != 7
  | .cmpi _ f => guardOk f.guard && predOk f.dst && f.cond != 7
  | .kop _ f => guardOk f.guard && predOk f.dst && predOk f.src1 && f.port1 == 0 && predOk f.src2 && f.port2 == 0
  | .chk _ f => guardOk f.guard && f.dst == 0 && f.src2 == 0 && f.port2 == 0 && f.modf == 0
  | .rdsys f => guardOk f.guard && f.src1 == 0 && f.port1 == 0 && sysRegOk f.imm && f.imm != 0x00A
  | .rdsysTrapinfo f => guardOk f.guard && f.src1 == 0 && f.port1 == 0 && f.imm == 0x00A
  | .wrsys f => guardOk f.guard && f.dst == 0 && (f.imm == 0x00C || f.imm == 0x00D || f.imm == 0x00E)
  | .wrsysFmt f => guardOk f.guard && f.dst == 0 && f.imm == 0x000
  | .wrsysFstat f => guardOk f.guard && f.dst == 0 && f.imm == 0x001
  | .wrsysFprog f => guardOk f.guard && f.dst == 0 && f.imm == 0x004
  | .wrsysMlprog f => guardOk f.guard && f.dst == 0 && f.imm == 0x005
  | .wrsysPourskew f => guardOk f.guard && f.dst == 0 && f.imm == 0x007
  | .wrsysWdlim f => guardOk f.guard && f.dst == 0 && f.imm == 0x008
  | .wrsysTvec f => guardOk f.guard && f.dst == 0 && f.imm == 0x009
  | .wrsysTrapinfo f => guardOk f.guard && f.dst == 0 && f.imm == 0x00A
  | .wrsysDutymode f => guardOk f.guard && f.dst == 0 && f.imm == 0x00B
  | .wrsysPeer f => guardOk f.guard && f.dst == 0 && 0x011 ≤ f.imm && f.imm ≤ 0x017
  | .wrsysFlag f => guardOk f.guard && f.dst == 0 && 0x020 ≤ f.imm && f.imm ≤ 0x03F
  | .fadd f => guardOk f.guard
  | .fsub f => guardOk f.guard
  | .fmul f => guardOk f.guard
  | .fma f => guardOk f.guard
  | .fdiv f => guardOk f.guard
  | .fsqrt f => guardOk f.guard && f.src2 == 0 && f.port2 == 0
  | .fmin f => guardOk f.guard && bits 0 2 f.modf == 0
  | .fmax f => guardOk f.guard && bits 0 2 f.modf == 0
  | .fsgn f => guardOk f.guard && bits 0 2 f.modf != 3
  | .fcmp f => guardOk f.guard && predOk f.dst
  | .fcvt f => guardOk f.guard && f.src2 < 10 && f.port2 == 0 && !(f.src2 == 0 && f.modf != 0 && f.modf < 4)
  | .fclass f => guardOk f.guard && f.src2 == 0 && f.port2 == 0 && bits 0 2 f.modf == 0
  | .wclr f => guardOk f.guard && f.src2 == 0 && f.port2 == 0 && f.dst == 0
  | .wset f => guardOk f.guard && f.dst < 2
  | .wadd f => guardOk f.guard && f.dst < 2
  | .wget f => guardOk f.guard && f.src2 < 2 && f.port2 == 0
  | .wsum f => guardOk f.guard && f.src2 < 2 && f.port2 == 0
  | .wfind f => guardOk f.guard && f.src2 < 2 && f.port2 == 0
  | .wcut f => guardOk f.guard && f.src2 < 2 && f.port2 == 0
  | .wtot f => guardOk f.guard && f.src2 < 2 && f.port2 == 0 && f.src1 == 0 && f.port1 == 0
  | .wmov f => guardOk f.guard && f.src2 == 0 && f.port2 == 0 && f.src1 < 8 && f.port1 == 0 && f.dst == 0
  | .vadd f => guardOk f.guard && vSources 2 f && f.ty < 14 && (f.modf == 0 || (f.modf == 1 && tyInt f.ty))
  | .vsub f => guardOk f.guard && vSources 2 f && f.ty < 14 && (f.modf == 0 || (f.modf == 1 && tyInt f.ty))
  | .vmul f => guardOk f.guard && vSources 2 f && f.ty < 14 && (f.modf == 0 || (f.modf == 1 && tyInt f.ty))
  | .vfma f => guardOk f.guard && vSources 3 f && f.ty < 14 && (f.modf == 0 || (f.modf == 1 && tyInt f.ty))
  | .vfms f => guardOk f.guard && vSources 3 f && f.ty < 14 && (f.modf == 0 || (f.modf == 1 && tyInt f.ty))
  | .vmin f => guardOk f.guard && vSources 2 f && f.ty < 14 && f.modf == 0
  | .vmax f => guardOk f.guard && vSources 2 f && f.ty < 14 && f.modf == 0
  | .vabs f => guardOk f.guard && vSources 1 f && f.ty < 14 && (f.modf == 0 || (f.modf == 1 && tySigned f.ty))
  | .vneg f => guardOk f.guard && vSources 1 f && f.ty < 14 && (f.modf == 0 || (f.modf == 1 && tyInt f.ty))
  | .vdiv f => guardOk f.guard && vSources 2 f && tyFloat f.ty && (f.modf == 0 || f.modf == 0x40)
  | .vsqrt f => guardOk f.guard && vSources 1 f && tyFloat f.ty && f.modf == 0
  | .vrsqrt f => guardOk f.guard && vSources 1 f && tyFloat f.ty && f.modf == 0
  | .vrcp f => guardOk f.guard && vSources 1 f && tyFloat f.ty && f.modf == 0
  | .vexp2 f => guardOk f.guard && vSources 1 f && tyFloat f.ty && f.modf == 0
  | .vlog2 f => guardOk f.guard && vSources 1 f && tyFloat f.ty && f.modf == 0
  | .vcvt f => guardOk f.guard && vSources 1 f && f.ty < 14 && cvtOk f.ty (bits 0 4 f.modf) (bits 4 2 f.modf) && bits 6 1 f.modf == 0
  | .vcmp f => guardOk f.guard && vSources 2 f && f.ty < 13 && (f.modf < 6 || (f.modf == 6 && tyFloat f.ty)) && f.dst < 8
  | .vsel f => guardOk f.guard && vSources 2 f && f.ty < 14 && f.modf == 0
  | .vand f => guardOk f.guard && vSources 2 f && tyInt f.ty && f.modf == 0
  | .vor f => guardOk f.guard && vSources 2 f && tyInt f.ty && f.modf == 0
  | .vxor f => guardOk f.guard && vSources 2 f && tyInt f.ty && f.modf == 0
  | .vnot f => guardOk f.guard && vSources 1 f && tyInt f.ty && f.modf == 0
  | .vshl f => guardOk f.guard && vSources 2 f && tyInt f.ty && f.modf == 0
  | .vshr f => guardOk f.guard && vSources 2 f && tyInt f.ty && f.modf == 0
  | .vsar f => guardOk f.guard && vSources 2 f && tyInt f.ty && f.modf == 0
  | .vredsum f => guardOk f.guard && vSources 1 f && f.ty < 14 && f.modf == 0
  | .vredmax f => guardOk f.guard && vSources 1 f && f.ty < 14 && f.modf == 0
  | .vredmin f => guardOk f.guard && vSources 1 f && f.ty < 14 && f.modf == 0
  | .vscan f => guardOk f.guard && vSources 1 f && f.ty < 12 && f.modf < 2
  | .vperm f => guardOk f.guard && vSources 2 f && f.ty < 13 && f.modf < 2
  | .vslide f => guardOk f.guard && f.ty < 14 && (if f.modf < 0x20 then vSources 2 f && (bits 0 5 f.modf).toNat < laneCount f.ty else vSources 3 f && f.modf == 0x20)
  | .vbcast f => guardOk f.guard && f.ty < 14 && (if f.modf < 0x20 then vSources 1 f && (bits 0 5 f.modf).toNat < laneCount f.ty else vSources 2 f && f.modf == 0x20)
  | .vdup f => guardOk f.guard && vSources 1 f && f.ty < 14 && (bits 2 3 f.modf).toNat < 2 ^ (bits 0 2 f.modf).toNat && bits 5 2 f.modf == 0
  | .vdrop f => guardOk f.guard && vSources 1 f && f.ty < 14 && (bits 2 3 f.modf).toNat < 2 ^ (bits 0 2 f.modf).toNat && bits 5 2 f.modf == 0
  | .viota f => guardOk f.guard && vSources 0 f && f.ty < 12 && f.modf == 0
  | .vclamp f => guardOk f.guard && vSources 3 f && f.ty < 14 && f.modf == 0
  | .vlen f => guardOk f.guard && vSources 1 f && f.ty < 14 && f.modf == 0 && f.dst < 8 && f.mask == 0
  | .mand f => guardOk f.guard && vSources 2 f && f.ty == 0 && f.mask == 0 && !f.keep1 && !f.keep2 && f.modf == 0 && f.dst < 8 && f.src1 < 8 && f.src2 < 8
  | .mor f => guardOk f.guard && vSources 2 f && f.ty == 0 && f.mask == 0 && !f.keep1 && !f.keep2 && f.modf == 0 && f.dst < 8 && f.src1 < 8 && f.src2 < 8
  | .mnot f => guardOk f.guard && vSources 1 f && f.ty == 0 && f.mask == 0 && !f.keep1 && !f.keep2 && f.modf == 0 && f.dst < 8 && f.src1 < 8
  | .vmovi f => guardOk f.guard && f.ty < 14 && f.modf == 0 && !f.keep3 && f.src3 < 16
  | .xsv f => guardOk f.guard && f.sel != 3
  | .xkm f => guardOk f.guard
  | .xvs f => guardOk f.guard && f.width != 3 && (f.width != 2 || f.lane < 16)
  | .xmk f => guardOk f.guard
  | .wflag f => guardOk f.guard
  | .pflag f => guardOk f.guard
  | .bar f => guardOk f.guard && f.flag == 0
  | .rsync f => guardOk f.guard
  | .flagWaitRelease _ _ => true
  | .mpush f => guardOk f.guard && f.row == 0 && f.caddr == 0 && f.plane == 0 && f.modf < 8 && bits 0 3 f.modf != 5 && bits 0 3 f.modf != 7
  | .mshift f => guardOk f.guard && f.row == 0 && f.caddr == 0 && f.plane == 0 && f.queue == 0
  | .macc f => guardOk f.guard && f.queue == 0 && f.modf < 4
  | .mdrain f => guardOk f.guard && f.caddr == 0 && f.modf < 4
  | .mzero f => guardOk f.guard && f.modf == 0 && f.row == 0 && f.caddr == 0 && f.queue == 0
  | .mfill f => guardOk f.guard && f.caddr == 0 && f.modf < 8
  | .mload f => guardOk f.guard && f.plane == 0 && f.queue < 16 && f.modf < 8
  | .mflu f => guardOk f.guard && f.row == 0 && f.caddr == 0 && f.queue == 0 && f.modf < 2
  | .mfch f => guardOk f.guard && f.modf == 0 && f.row == 0 && f.caddr == 0 && f.queue == 0
  | .mfqr f => guardOk f.guard && f.modf == 0 && f.row == 0 && f.caddr == 0 && f.queue == 0
  | .mtrs f => guardOk f.guard && f.row == 0 && f.caddr == 0 && f.queue == 0 && f.modf < 64 && bits 4 2 f.modf != f.plane
  | .mrdp f => guardOk f.guard && f.modf == 0 && f.row == 0 && f.caddr == 0 && f.plane == 0
  | .mstat f => guardOk f.guard && f.row == 0 && f.caddr == 0 && f.plane == 0 && f.modf < 3
  | .mwait f => guardOk f.guard && f.modf == 0 && f.row == 0 && f.caddr == 0 && f.plane == 0 && f.queue == 0
  | .mloadComplete _ => true
  | .factorisationComplete _ => true
  | .factorisationPivotStop _ => true
  | .factorisationInterruptionPoint _ => true
  | .tld f => guardOk f.guard && postOpt f && f.fe == 0 && bits 0 6 f.modf == 0
  | .tst f => guardOk f.guard && postOpt f && f.fe == 0 && bits 7 1 f.modf == 0 && bits 0 6 f.modf == 0
  | .tldn f => guardOk f.guard && postOpt f && f.fe == 0 && bits 7 1 f.modf == 0 && bits 0 6 f.modf == 0
  | .tstn f => guardOk f.guard && postOpt f && f.fe == 0 && bits 7 1 f.modf == 0 && bits 0 6 f.modf == 0
  | .tprf f => guardOk f.guard && f.n == 0 && f.imm == 0 && postOpt f && f.fe == 0 && bits 7 1 f.modf == 0 && bits 0 6 f.modf == 0
  | .bxf f => guardOk f.guard && f.d == 0 && f.dport == 0 && postBxf f && f.fe == 0 && bits 7 1 f.modf == 0 && bits 4 2 f.modf == 0 && f.imm < 64
  | .vld f => guardOk f.guard && f.dport == 0 && postNo f && f.fe != 3 && bits 0 6 f.modf == 0
  | .vst f => guardOk f.guard && f.dport == 0 && postOpt f && f.fe != 3 && bits 7 1 f.modf == 0 && bits 1 5 f.modf == 0
  | .sld f => guardOk f.guard && f.dport == 0 && postNo f && f.fe != 3 && bits 3 3 f.modf == 0
  | .sst f => guardOk f.guard && postOpt f && f.fe != 3 && bits 7 1 f.modf == 0 && bits 2 4 f.modf == 0
  | .tlook f => guardOk f.guard && f.b == 0 && f.n == 0 && f.dport == 0 && f.imm == 0 && postNo f && f.fe == 0 && bits 7 1 f.modf == 0 && bits 0 6 f.modf == 0
  | .ttag f => guardOk f.guard && f.b == 0 && f.n == 0 && f.imm == 0 && postNo f && f.fe == 0 && bits 7 1 f.modf == 0 && bits 0 6 f.modf == 0
  | .tinv f => guardOk f.guard && f.b == 0 && f.n == 0 && f.d == 0 && f.dport == 0 && f.imm == 0 && postNo f && f.fe == 0 && bits 7 1 f.modf == 0 && bits 0 6 f.modf == 0
  | .feset f => guardOk f.guard && f.n == 0 && f.d == 0 && f.dport == 0 && postNo f && f.fe == 0 && bits 7 1 f.modf == 0 && bits 0 6 f.modf == 0
  | .feclr f => guardOk f.guard && f.n == 0 && f.d == 0 && f.dport == 0 && postNo f && f.fe == 0 && bits 7 1 f.modf == 0 && bits 0 6 f.modf == 0
  | .amo f => guardOk f.guard && postOpt f && f.fe == 0 && bits 7 1 f.modf == 0 && bits 0 3 f.modf < 6 && (bits 3 1 f.modf == 0 || bits 0 3 f.modf == 1 || bits 0 3 f.modf == 2)
  | .amoc f => guardOk f.guard && postOpt f && f.fe == 0 && bits 7 1 f.modf == 0 && bits 0 4 f.modf == 0 && bits 5 1 f.modf == 0 && f.imm < 128
  | .fenceAcq f => guardOk f.guard && f.b == 0 && f.n == 0 && f.o == 0 && f.oport == 0 && f.d == 0 && f.dport == 0 && postNo f && f.fe == 0 && bits 7 1 f.modf == 0 && bits 0 6 f.modf == 1 && f.imm < 6
  | .fenceRel f => guardOk f.guard && f.b == 0 && f.n == 0 && f.o == 0 && f.oport == 0 && f.d == 0 && f.dport == 0 && postNo f && f.fe == 0 && bits 7 1 f.modf == 0 && bits 0 6 f.modf == 2 && f.imm < 6
  | .fenceAr f => guardOk f.guard && f.b == 0 && f.n == 0 && f.o == 0 && f.oport == 0 && f.d == 0 && f.dport == 0 && postNo f && f.fe == 0 && bits 7 1 f.modf == 0 && bits 0 6 f.modf == 3 && f.imm < 6
  | .tfence f => guardOk f.guard && f.b == 0 && f.n == 0 && f.o == 0 && f.oport == 0 && f.d == 0 && f.dport == 0 && postNo f && f.fe == 0 && bits 7 1 f.modf == 0 && bits 0 6 f.modf == 0 && 3 ≤ f.imm && f.imm < 6
  | .tfenceInv f => guardOk f.guard && f.b == 0 && f.n == 0 && f.d == 0 && f.dport == 0 && postNo f && f.fe == 0 && bits 7 1 f.modf == 0 && bits 0 6 f.modf == 1 && 3 ≤ f.imm && f.imm < 6
  | .tfenceAll f => guardOk f.guard && f.b == 0 && f.n == 0 && f.o == 0 && f.oport == 0 && f.d == 0 && f.dport == 0 && postNo f && f.fe == 0 && bits 7 1 f.modf == 0 && bits 0 6 f.modf == 2 && 3 ≤ f.imm && f.imm < 6
  | .recld f => guardOk f.guard && f.n == 0 && f.d == 0 && f.dport == 0 && postNo f && f.fe == 0 && bits 7 1 f.modf == 0 && bits 0 6 f.modf == 0
  | .recst f => guardOk f.guard && f.n == 0 && f.d == 0 && f.dport == 0 && postOpt f && f.fe == 0 && bits 7 1 f.modf == 0 && bits 0 6 f.modf == 0
  | .recmk f => guardOk f.guard && f.n == 0 && f.d == 0 && f.dport == 0 && postNo f && f.fe == 0 && bits 7 1 f.modf == 0 && bits 0 6 f.modf < 6 && f.imm < 16
  | .swait f => guardOk f.guard && f.n == 0 && postReq f && f.fe == 0 && bits 7 1 f.modf == 0 && bits 0 6 f.modf == 0
  | .ssig f => guardOk f.guard && postOpt f && f.fe == 0 && bits 7 1 f.modf == 0 && bits 1 5 f.modf == 0
  | .wvis f => guardOk f.guard && f.n == 0 && f.o == 0 && f.oport == 0 && f.d == 0 && f.dport == 0 && f.imm == 0 && postReq f && f.fe == 0 && bits 7 1 f.modf == 0 && bits 0 6 f.modf == 0
  | .swaitPost _ _ => true
  | .arOpen f => guardOk f.guard && f.dport == 0 && postNo f && f.fe == 0 && bits 7 1 f.modf == 0 && bits 0 6 f.modf == 0
  | .arJoin f => guardOk f.guard && f.b == 0 && f.n == 0 && f.o == 0 && f.oport == 0 && f.imm == 0 && postNo f && f.fe == 0 && bits 7 1 f.modf == 0 && bits 0 6 f.modf == 0
  | .arLd f => guardOk f.guard && f.dport == 0 && postNo f && f.fe == 0 && bits 7 1 f.modf == 0 && bits 3 3 f.modf == 0
  | .arSt f => guardOk f.guard && postNo f && f.fe == 0 && bits 7 1 f.modf == 0 && bits 2 4 f.modf == 0
  | .arCommit f => guardOk f.guard && f.b == 0 && f.n == 0 && f.o == 0 && f.oport == 0 && f.d == 0 && f.dport == 0 && f.imm == 0 && postOpt f && f.fe == 0 && bits 7 1 f.modf == 0 && bits 0 6 f.modf == 0
  | .arAbort f => guardOk f.guard && f.b == 0 && f.n == 0 && f.o == 0 && f.oport == 0 && f.d == 0 && f.dport == 0 && f.imm == 0 && postNo f && f.fe == 0 && bits 7 1 f.modf == 0 && bits 0 6 f.modf == 0
  | .arLeave f => guardOk f.guard && f.b == 0 && f.n == 0 && f.o == 0 && f.oport == 0 && f.d == 0 && f.dport == 0 && f.imm == 0 && postNo f && f.fe == 0 && bits 7 1 f.modf == 0 && bits 0 6 f.modf == 0
  | .wfill f => guardOk f.guard && f.n == 0 && f.d == 0 && f.dport == 0 && postOpt f && f.fe != 3 && bits 7 1 f.modf == 0 && bits 4 2 f.modf == 0
  | .wfillApply _ => true
  | .wdump f => guardOk f.guard && f.n == 0 && f.d == 0 && f.dport == 0 && postOpt f && f.fe != 3 && bits 7 1 f.modf == 0 && bits 4 2 f.modf == 0
  | .rput f => guardOk f.guard && f.n == 0 && f.dport == 0 && postOpt f && f.fe == 0 && bits 7 1 f.modf == 0 && bits 1 5 f.modf == 0 && f.imm < 16
  | .rputReg f => guardOk f.guard && f.n == 0 && f.d == 0 && f.dport == 0 && postOpt f && f.fe == 0 && bits 7 1 f.modf == 0 && bits 0 6 f.modf == 2 && f.imm < 16
  | .rget f => guardOk f.guard && f.n == 0 && f.dport == 0 && postNo f && f.fe == 0 && bits 7 1 f.modf == 0 && bits 0 6 f.modf == 0 && f.imm < 32
  | .reos f => guardOk f.guard && f.n == 0 && f.d == 0 && f.dport == 0 && postOpt f && f.fe == 0 && bits 7 1 f.modf == 0 && bits 0 6 f.modf == 0 && f.imm < 16
  | .ringSpill _ => true
  | .translationWalkComplete _ _ => true
  | .operationComplete _ => true
  | .engineFault _ => true
  | .trapDelivery _ => true
  | .watchdogExpiry _ => true
  | .correctableError _ => true
  | .freezeEnd _ => true
  | .uncorrectableError _ => true
  | .preemptionRequest _ => true
  | .saveComplete _ => true
  | .saveOverrun _ => true
  | .heldRegionWriteout _ _ => true
  | .contextRestore _ => true
  | .regionDeadline _ => true
  | .regionAbortDelivery _ => true
  | .launchPacket _ => true
  | .taskDispatch => true
  | .taskAging _ => true
  | .waitWordQualify _ => true
  | .unparkWordStore _ => true
  | .interruptWordStore _ => true
  | .taskPublication _ => true
  | .replicaAcknowledge _ _ => true
  | .dmaxUpdate => true
  | .setCompletion _ _ => true
  | .setFailure _ _ _ => true
  | .hbmUncorrectableError _ _ _ => true
  | .lossBroadcast _ _ => true
  | .need _ _ => true
  | .rebuildRetire _ _ => true
  | .restoreComplete _ _ => true
  | .mirrorUpdate _ => true
  | .readRequest _ => true
  | .writeRequest _ => true
  | .atomicRequest _ => true
  | .compareSwapRequest _ => true
  | .signalSetRequest _ => true
  | .signalAddRequest _ => true
  | .flagPostRequest _ => true
  | .tentativeReadRequest _ => true
  | .tentativeWriteRequest _ => true
  | .regionOpenRequest _ => true
  | .regionJoinRequest _ => true
  | .regionCommitRequest _ => true
  | .regionAbortRequest _ => true
  | .regionLeaveRequest _ => true
  | .clockPacket _ => true
  | .dataResponse _ => true
  | .acknowledgement _ => true
  | .errorResponse _ => true
  | .retryResponse _ => true
  | .retryResend _ => true
  | .slotTimeout _ _ => true
  | .packetForward _ _ => true
  | .packetAgeDrop _ => true
  | .requestAgeDrop _ => true
  | .managementArrival _ => true
  | .domainTable _ => true
  | .graticuleInstall _ _ _ => true
  | .linkReplay _ _ => true
  | .linkRetrain _ => true
  | .retrainEnd _ _ => true
  | .fabricControlWrite _ => true
  | .submission _ => true
  | .submissionProcess => true
  | .memoryWindowAccess _ => true
  | .controlRegisterWrite _ _ => true
  | .dutymodeWrite _ => true
  | .assistRequest _ _ => true
  | .assistreply _ _ => true
  | .assistTimeout _ => true
  | .shakecmd _ => true
  | .shakeoutComplete _ => true
  | .firmwareRestart => true
  | .firmwareEventDelivery => true
  | .imageLoad _ => true
  | .fuseCommit _ _ => true
  | .measurementExtend _ _ => true
  | .getDigests => true
  | .getCertificate _ _ => true
  | .challenge _ => true
  | .getMeasurements _ => true
  | .powerSample _ => true
  | .timeSync _ => true
  | .sensorSample _ => true
  | .powerOnReset => true
  | .packageReset => true
  | .dieReset _ => true
  | .fixedLatencyResultLanding _ _ => true
  | .arrayPushLanding _ _ => true
  | .copyEngineFailure _ => true
  | .domainReset => true
  | .dieReturn _ => true
  | .firmwareLinkRetrain _ _ => true
  | .defwdlimWrite _ => true
  | .agelimWrite _ => true

end Sys2Proof
end

