-- ==== Sys2Proof/Decode.lean ====
section
/-! DEFINITION. Decoding: from the bytes of a bundle to the instructions of its slots, rejecting by name, and the encoder
written from the same tables (spec/03_bundles.md R23 to R45). -/
namespace Sys2Proof

/-- Why bytes are no bundle (R53, R26). -/
inductive DecodeError where
  | reservedOpcode
  | reservedField
  | badSize
  | absentHalves
  | pastLine
  deriving DecidableEq, Repr

/-- The slots of R23; the X slot's halves are told apart (R42). -/
inductive SlotKind where
  | c | a | b | v | m | l | xlo | xhi | s
  deriving DecidableEq, Repr

/-- The header bit of a slot (R23). -/
def SlotKind.bit : SlotKind → Nat
  | .c => 0 | .a => 1 | .b => 2 | .v => 3 | .m => 4 | .l => 5 | .xlo => 6 | .xhi => 6 | .s => 7

/-- The slot of an A-or-B instruction. -/
def unitSlot : AB → SlotKind
  | .a => .a
  | .b => .b

/-! ## Fields -/

def unpackRR (w : BitVec 32) : RR :=
  { guard := bits 0 4 w, dst := bits 10 5 w, src1 := bits 15 5 w, port1 := bits 20 2 w, src2 := bits 22 5 w,
    port2 := bits 27 2 w, modf := bits 29 3 w }

def unpackRI (w : BitVec 32) : RI :=
  { guard := bits 0 4 w, dst := bits 10 5 w, src1 := bits 15 5 w, port1 := bits 20 2 w, imm := bits 22 10 w }

def unpackMI (w : BitVec 32) : MI := { guard := bits 0 4 w, dst := bits 10 5 w, imm := bits 15 17 w }

def unpackRC (w : BitVec 32) : RC :=
  { guard := bits 0 4 w, dst := bits 10 5 w, src1 := bits 15 5 w, port1 := bits 20 2 w, imm := bits 22 7 w,
    cond := bits 29 3 w }

def unpackV (w : BitVec 48) : VF :=
  { guard := bits 0 4 w, dst := bits 11 5 w, src1 := bits 16 5 w, keep1 := w.getLsbD 21, src2 := bits 22 5 w,
    keep2 := w.getLsbD 27, src3 := bits 28 5 w, keep3 := w.getLsbD 33, mask := bits 34 3 w, ty := bits 37 4 w,
    modf := bits 41 7 w }

def unpackM (w : BitVec 48) : MF :=
  { guard := bits 0 4 w, queue := bits 9 5 w, plane := bits 14 2 w, caddr := bits 16 17 w, row := bits 33 7 w,
    modf := bits 40 8 w }

def unpackL (w : BitVec 64) : LF :=
  { guard := bits 0 4 w, b := bits 11 4 w, n := bits 15 3 w, o := bits 18 5 w, oport := bits 23 2 w, d := bits 25 5 w,
    dport := bits 30 2 w, imm := bits 32 16 w, f := bits 48 5 w, fr := w.getLsbD 53, fe := bits 54 2 w,
    modf := bits 56 8 w }

def unpackS (w : BitVec 16) : SF := { guard := bits 0 4 w, flag := bits 8 5 w, count := bits 13 3 w }

/-! ## Packing, the inverse (R34, R38, R40 to R43) -/

def packRR (op : BitVec 6) (f : RR) : BitVec 32 :=
  f.modf ++ f.port2 ++ f.src2 ++ f.port1 ++ f.src1 ++ f.dst ++ op ++ f.guard

def packRI (op : BitVec 6) (f : RI) : BitVec 32 := f.imm ++ f.port1 ++ f.src1 ++ f.dst ++ op ++ f.guard

def packMI (op : BitVec 6) (f : MI) : BitVec 32 := f.imm ++ f.dst ++ op ++ f.guard

def packRC (op : BitVec 6) (f : RC) : BitVec 32 := f.cond ++ f.imm ++ f.port1 ++ f.src1 ++ f.dst ++ op ++ f.guard

def packV (op : BitVec 7) (f : VF) : BitVec 48 :=
  f.modf ++ f.ty ++ f.mask ++ BitVec.ofBool f.keep3 ++ f.src3 ++ BitVec.ofBool f.keep2 ++ f.src2 ++
    BitVec.ofBool f.keep1 ++ f.src1 ++ f.dst ++ op ++ f.guard

def packM (op : BitVec 5) (f : MF) : BitVec 48 := f.modf ++ f.row ++ f.caddr ++ f.plane ++ f.queue ++ op ++ f.guard

def packL (op : BitVec 7) (f : LF) : BitVec 64 :=
  f.modf ++ f.fe ++ BitVec.ofBool f.fr ++ f.f ++ f.imm ++ f.dport ++ f.d ++ f.oport ++ f.o ++ f.n ++ f.b ++ op ++ f.guard

def packS (op : BitVec 4) (f : SF) : BitVec 16 := f.count ++ f.flag ++ op ++ f.guard

def packXsv (f : XsvF) : BitVec 32 :=
  ((0 : BitVec 16) ++ f.sel ++ f.port ++ f.pair ++ (1 : BitVec 3) ++ f.guard : BitVec 32)

def packXkm (f : XkmF) : BitVec 32 :=
  ((0 : BitVec 18) ++ f.mask ++ f.pred ++ (2 : BitVec 3) ++ f.guard : BitVec 32)

def packXvs (f : XvsF) : BitVec 32 :=
  (f.width ++ f.lane ++ BitVec.ofBool f.keep ++ f.pair ++ (1 : BitVec 3) ++ (0 : BitVec 12) ++ f.guard : BitVec 32)

def packXmk (f : XmkF) : BitVec 32 :=
  ((0 : BitVec 5) ++ BitVec.ofBool f.all ++ f.mask ++ f.pred ++ (2 : BitVec 3) ++ (0 : BitVec 12) ++ f.guard : BitVec 32)

def packTree (f : TreeF) : BitVec 96 :=
  f.off4 ++ f.off3 ++ f.off2 ++ f.off1 ++ f.off0 ++ f.shape ++ f.test4 ++ f.test3 ++ f.test2 ++ f.test1 ++
    (1 : BitVec 5) ++ (2 : BitVec 2)

/-! ## Decoding one slot -/

/-- `rdsys`: the row for TRAPINFO stands apart (R131). -/
def decodeRdsys (f : RI) : Instr := if f.imm = 0x00A then .rdsysTrapinfo f else .rdsys f

/-- `wrsys`: the table gives one row to each kind of register (R37, R114). -/
def decodeWrsys (f : RI) : Instr :=
  match f.imm.toNat with
  | 0x000 => .wrsysFmt f
  | 0x001 => .wrsysFstat f
  | 0x004 => .wrsysFprog f
  | 0x005 => .wrsysMlprog f
  | 0x007 => .wrsysPourskew f
  | 0x008 => .wrsysWdlim f
  | 0x009 => .wrsysTvec f
  | 0x00A => .wrsysTrapinfo f
  | 0x00B => .wrsysDutymode f
  | n => if 0x010 ≤ n ∧ n < 0x018 then .wrsysPeer f else if 0x020 ≤ n ∧ n < 0x040 then .wrsysFlag f else .wrsys f

/-- The A and B slots by opcode (R35, R36, R45). -/
def decodeAB (u : AB) (w : BitVec 32) : Option Instr :=
  match (bits 4 6 w).toNat with
  | 1 => some (.add u (unpackRR w))
  | 2 => some (.sub u (unpackRR w))
  | 3 => some (.mul u (unpackRR w))
  | 4 => some (.mulh u (unpackRR w))
  | 5 => some (.mulhn u (unpackRR w))
  | 6 => if u = .a then some (.div (unpackRR w)) else none
  | 7 => if u = .a then some (.rem (unpackRR w)) else none
  | 8 => some (.and u (unpackRR w))
  | 9 => some (.or u (unpackRR w))
  | 10 => some (.xor u (unpackRR w))
  | 11 => some (.andn u (unpackRR w))
  | 12 => some (.shl u (unpackRR w))
  | 13 => some (.shr u (unpackRR w))
  | 14 => some (.sar u (unpackRR w))
  | 15 => some (.min u (unpackRR w))
  | 16 => some (.max u (unpackRR w))
  | 17 => some (.minn u (unpackRR w))
  | 18 => some (.maxn u (unpackRR w))
  | 19 => some (.clz u (unpackRR w))
  | 20 => some (.popc u (unpackRR w))
  | 21 => some (.brev u (unpackRR w))
  | 22 => some (.bfx u (unpackRR w))
  | 23 => some (.bfi u (unpackRR w))
  | 24 => some (.lea u (unpackRI w))
  | 25 => some (.sel u (unpackRR w))
  | 26 => some (.addi u (unpackRI w))
  | 27 => some (.andi u (unpackRI w))
  | 28 => some (.ori u (unpackRI w))
  | 29 => some (.shli u (unpackRI w))
  | 30 => some (.movi u (unpackMI w))
  | 31 => some (.movhi u (unpackMI w))
  | 32 => some (.cmp u (unpackRR w))
  | 33 => some (.cmpi u (unpackRC w))
  | 34 => some (.kop u (unpackRR w))
  | 35 => some (.chk u (unpackRR w))
  | 36 => if u = .a then some (decodeRdsys (unpackRI w)) else none
  | 37 => if u = .a then some (decodeWrsys (unpackRI w)) else none
  | 40 => if u = .b then some (.fadd (unpackRR w)) else none
  | 41 => if u = .b then some (.fsub (unpackRR w)) else none
  | 42 => if u = .b then some (.fmul (unpackRR w)) else none
  | 43 => if u = .b then some (.fma (unpackRR w)) else none
  | 44 => if u = .b then some (.fdiv (unpackRR w)) else none
  | 45 => if u = .b then some (.fsqrt (unpackRR w)) else none
  | 46 => if u = .b then some (.fmin (unpackRR w)) else none
  | 47 => if u = .b then some (.fmax (unpackRR w)) else none
  | 48 => if u = .b then some (.fsgn (unpackRR w)) else none
  | 49 => if u = .b then some (.fcmp (unpackRR w)) else none
  | 50 => if u = .b then some (.fcvt (unpackRR w)) else none
  | 51 => if u = .b then some (.fclass (unpackRR w)) else none
  | 52 => if u = .b then some (.wclr (unpackRR w)) else none
  | 53 => if u = .b then some (.wset (unpackRR w)) else none
  | 54 => if u = .b then some (.wadd (unpackRR w)) else none
  | 55 => if u = .b then some (.wget (unpackRR w)) else none
  | 56 => if u = .b then some (.wsum (unpackRR w)) else none
  | 57 => if u = .b then some (.wfind (unpackRR w)) else none
  | 58 => if u = .b then some (.wcut (unpackRR w)) else none
  | 59 => if u = .b then some (.wtot (unpackRR w)) else none
  | 60 => if u = .b then some (.wmov (unpackRR w)) else none
  | _ => none

/-- The V slot by opcode (R45). -/
def decodeV (w : BitVec 48) : Option Instr :=
  match (bits 4 7 w).toNat with
  | 1 => some (.vadd (unpackV w))
  | 2 => some (.vsub (unpackV w))
  | 3 => some (.vmul (unpackV w))
  | 4 => some (.vfma (unpackV w))
  | 5 => some (.vfms (unpackV w))
  | 6 => some (.vmin (unpackV w))
  | 7 => some (.vmax (unpackV w))
  | 8 => some (.vabs (unpackV w))
  | 9 => some (.vneg (unpackV w))
  | 10 => some (.vdiv (unpackV w))
  | 11 => some (.vsqrt (unpackV w))
  | 12 => some (.vrsqrt (unpackV w))
  | 13 => some (.vrcp (unpackV w))
  | 14 => some (.vexp2 (unpackV w))
  | 15 => some (.vlog2 (unpackV w))
  | 16 => some (.vcvt (unpackV w))
  | 17 => some (.vcmp (unpackV w))
  | 18 => some (.vsel (unpackV w))
  | 19 => some (.vand (unpackV w))
  | 20 => some (.vor (unpackV w))
  | 21 => some (.vxor (unpackV w))
  | 22 => some (.vnot (unpackV w))
  | 23 => some (.vshl (unpackV w))
  | 24 => some (.vshr (unpackV w))
  | 25 => some (.vsar (unpackV w))
  | 26 => some (.vredsum (unpackV w))
  | 27 => some (.vredmax (unpackV w))
  | 28 => some (.vredmin (unpackV w))
  | 29 => some (.vscan (unpackV w))
  | 30 => some (.vperm (unpackV w))
  | 31 => some (.vslide (unpackV w))
  | 32 => some (.vbcast (unpackV w))
  | 33 => some (.vdup (unpackV w))
  | 34 => some (.vdrop (unpackV w))
  | 35 => some (.viota (unpackV w))
  | 36 => some (.vclamp (unpackV w))
  | 37 => some (.vlen (unpackV w))
  | 38 => some (.mand (unpackV w))
  | 39 => some (.mor (unpackV w))
  | 40 => some (.mnot (unpackV w))
  | 41 => some (.vmovi (unpackV w))
  | _ => none

/-- The M slot by opcode (R45). -/
def decodeM (w : BitVec 48) : Option Instr :=
  match (bits 4 5 w).toNat with
  | 1 => some (.mpush (unpackM w))
  | 2 => some (.mshift (unpackM w))
  | 3 => some (.macc (unpackM w))
  | 4 => some (.mdrain (unpackM w))
  | 5 => some (.mzero (unpackM w))
  | 6 => some (.mfill (unpackM w))
  | 7 => some (.mload (unpackM w))
  | 8 => some (.mflu (unpackM w))
  | 9 => some (.mfch (unpackM w))
  | 10 => some (.mfqr (unpackM w))
  | 11 => some (.mtrs (unpackM w))
  | 12 => some (.mrdp (unpackM w))
  | 13 => some (.mstat (unpackM w))
  | 14 => some (.mwait (unpackM w))
  | _ => none

/-- The L slot by opcode; the kinds of `fence` and `tfence` and the forms of `rput` are rows of their own. -/
def decodeL (w : BitVec 64) : Option Instr :=
  match (bits 4 7 w).toNat with
  | 1 => some (.tld (unpackL w))
  | 2 => some (.tst (unpackL w))
  | 3 => some (.tldn (unpackL w))
  | 4 => some (.tstn (unpackL w))
  | 5 => some (.tprf (unpackL w))
  | 6 => some (.bxf (unpackL w))
  | 7 => some (.vld (unpackL w))
  | 8 => some (.vst (unpackL w))
  | 9 => some (.sld (unpackL w))
  | 10 => some (.sst (unpackL w))
  | 11 => some (.tlook (unpackL w))
  | 12 => some (.ttag (unpackL w))
  | 13 => some (.tinv (unpackL w))
  | 14 => some (.feset (unpackL w))
  | 15 => some (.feclr (unpackL w))
  | 16 => some (.amo (unpackL w))
  | 17 => some (.amoc (unpackL w))
  | 20 => some (.recld (unpackL w))
  | 21 => some (.recst (unpackL w))
  | 22 => some (.recmk (unpackL w))
  | 23 => some (.swait (unpackL w))
  | 24 => some (.ssig (unpackL w))
  | 25 => some (.wvis (unpackL w))
  | 26 => some (.arOpen (unpackL w))
  | 27 => some (.arJoin (unpackL w))
  | 28 => some (.arLd (unpackL w))
  | 29 => some (.arSt (unpackL w))
  | 30 => some (.arCommit (unpackL w))
  | 31 => some (.arAbort (unpackL w))
  | 32 => some (.arLeave (unpackL w))
  | 33 => some (.wfill (unpackL w))
  | 34 => some (.wdump (unpackL w))
  | 36 => some (.rget (unpackL w))
  | 37 => some (.reos (unpackL w))
  | 18 => match (bits 56 2 w).toNat with
    | 1 => some (.fenceAcq (unpackL w))
    | 2 => some (.fenceRel (unpackL w))
    | 3 => some (.fenceAr (unpackL w))
    | _ => none
  | 19 => match (bits 56 2 w).toNat with
    | 0 => some (.tfence (unpackL w))
    | 1 => some (.tfenceInv (unpackL w))
    | 2 => some (.tfenceAll (unpackL w))
    | _ => none
  | 35 => if w.getLsbD 57 then some (.rputReg (unpackL w)) else some (.rput (unpackL w))
  | _ => none

/-- The low half of the X slot (R42): none where the half is absent. -/
def decodeXlo (w : BitVec 32) : Except DecodeError (Option Instr) :=
  match (bits 4 3 w).toNat with
  | 0 => if bits 7 9 w = 0 then .ok none else .error .reservedField
  | 1 => .ok (some (.xsv { guard := bits 0 4 w, pair := bits 7 5 w, port := bits 12 2 w, sel := bits 14 2 w }))
  | 2 => if bits 14 2 w = 0
      then .ok (some (.xkm { guard := bits 0 4 w, pred := bits 7 4 w, mask := bits 11 3 w })) else .error .reservedField
  | _ => .error .reservedOpcode

/-- The high half of the X slot (R42), under the guard of the low bits. -/
def decodeXhi (w : BitVec 32) : Except DecodeError (Option Instr) :=
  match (bits 16 3 w).toNat with
  | 0 => if bits 19 13 w = 0 then .ok none else .error .reservedField
  | 1 => .ok (some (.xvs { guard := bits 0 4 w, pair := bits 19 5 w, keep := w.getLsbD 24, lane := bits 25 5 w,
                           width := bits 30 2 w }))
  | 2 => if bits 27 5 w = 0
      then .ok (some (.xmk { guard := bits 0 4 w, pred := bits 19 4 w, mask := bits 23 3 w, all := w.getLsbD 26 }))
      else .error .reservedField
  | _ => .error .reservedOpcode

/-- The S slot by opcode (R43). -/
def decodeS (w : BitVec 16) : Option Instr :=
  match (bits 4 4 w).toNat with
  | 1 => some (.wflag (unpackS w))
  | 2 => some (.pflag (unpackS w))
  | 3 => some (.bar (unpackS w))
  | 4 => some (.rsync (unpackS w))
  | _ => none

/-- The register and port of a C-slot payload at [13:7]. -/
def unpackGP (w : BitVec 96) : GP := { reg := bits 7 5 w, port := bits 12 2 w }

/-- A C-slot instruction with all bits from `lo` to the end of its size zero above its payload. -/
def reserved (w : BitVec 96) (lo : Nat) (i : Instr) : Except DecodeError Instr :=
  if w.toNat / 2 ^ lo = 0 then .ok i else .error .reservedField

/-- The C slot by opcode and size code (R32, R33); `w` holds the slot's bits, zero above its size. -/
def decodeC (w : BitVec 96) : Except DecodeError Instr :=
  match (bits 2 5 w).toNat, (bits 0 2 w).toNat with
  | 1, 2 => .ok (.tree { shape := bits 23 3 w, test1 := bits 7 4 w, test2 := bits 11 4 w, test3 := bits 15 4 w,
                         test4 := bits 19 4 w, off0 := bits 26 14 w, off1 := bits 40 14 w, off2 := bits 54 14 w,
                         off3 := bits 68 14 w, off4 := bits 82 14 w })
  | 2, 0 => .ok (.jmp (bits 7 25 w))
  | 3, 0 => reserved w 14 (.jmpr (unpackGP w))
  | 4, 0 => .ok (.call (bits 7 25 w))
  | 5, 0 => reserved w 14 (.ret (unpackGP w))
  | 6, 1 =>
    if w.getLsbD 36 then
      if bits 7 7 w = 0 then reserved w 37 (.loopImmediate (bits 20 16 w) (bits 14 6 w)) else .error .reservedField
    else reserved w 20 (.loopRegister (unpackGP w) (bits 14 6 w))
  | 7, 0 => .ok (.rpt { stride := bits 18 14 w, rowStride := bits 14 4 w, count := bits 7 7 w })
  | 8, 1 =>
    if w.getLsbD 7 then reserved w 15 (.setfmtRegister { reg := bits 8 5 w, port := bits 13 2 w })
    else reserved w 40 (.setfmtImmediate (bits 8 32 w))
  | 9, 0 => reserved w 7 .yield
  | 10, 2 => reserved w 95 (.phint { index := bits 83 12 w, planes := bits 79 4 w, trees := bits 71 8 w,
                                     queues := bits 39 32 w, regs := bits 7 32 w })
  | 11, 0 => reserved w 15 (.trap (bits 7 8 w))
  | 12, 0 => reserved w 15 (.sysc (bits 7 8 w))
  | 13, 0 => reserved w 7 .eret
  | 14, 0 => reserved w 7 .done
  | 15, 0 => reserved w 7 .succ
  | 16, 0 => reserved w 14 (.spawn (unpackGP w))
  | 17, 0 => reserved w 14 (.launch (unpackGP w))
  | 18, 0 => reserved w 14 (.wdogSetZero (unpackGP w))
  | op, _ => if 1 ≤ op ∧ op ≤ 18 then .error .badSize else .error .reservedOpcode

/-- The instruction of one slot, with the slot's own encoding checks. -/
def checked (o : Option Instr) : Except DecodeError Instr :=
  match o with
  | none => .error .reservedOpcode
  | some i => if wellFormed i then .ok i else .error .reservedField

def decodeSlot (k : SlotKind) (w : BitVec 96) : Except DecodeError Instr :=
  match k with
  | .c => match decodeC w with
    | .ok i => checked (some i)
    | .error e => .error e
  | .a => checked (decodeAB .a (bits 0 32 w))
  | .b => checked (decodeAB .b (bits 0 32 w))
  | .v => checked (decodeV (bits 0 48 w))
  | .m => checked (decodeM (bits 0 48 w))
  | .l => checked (decodeL (bits 0 64 w))
  | .xlo => match decodeXlo (bits 0 32 w) with
    | .ok (some i) => checked (some i)
    | .ok none => .error .absentHalves
    | .error e => .error e
  | .xhi => match decodeXhi (bits 0 32 w) with
    | .ok (some i) => checked (some i)
    | .ok none => .error .absentHalves
    | .error e => .error e
  | .s => checked (decodeS (bits 0 16 w))

/-! ## Decoding a bundle -/

/-- Bytes of the C slot by its size code; code 0b11 has none (R32, R56). -/
def sizeBytes (code : BitVec 2) : Option Nat :=
  match code.toNat with
  | 0 => some 4
  | 1 => some 8
  | 2 => some 12
  | _ => none

/-- Little-endian value of bytes (R24). -/
def leNat : List Byte → Nat
  | [] => 0
  | b :: r => b.toNat + 256 * leNat r

/-- `n` little-endian bytes of a number. -/
def leBytes : Nat → Nat → List Byte
  | 0, _ => []
  | n + 1, v => BitVec.ofNat 8 v :: leBytes n (v / 256)

/-- Bytes of the slots of a header other than C (R23). -/
def slotBytes (h : Byte) : Nat :=
  (if h.getLsbD 1 then 4 else 0) + (if h.getLsbD 2 then 4 else 0) + (if h.getLsbD 3 then 6 else 0) +
    (if h.getLsbD 4 then 6 else 0) + (if h.getLsbD 5 then 8 else 0) + (if h.getLsbD 6 then 4 else 0) +
    (if h.getLsbD 7 then 2 else 0)

/-- Length of the bundle whose header and following bytes are given; none for a C slot of size code 0b11 (R24, R56). -/
def bundleLength (h : Byte) (next : Byte) : Option Nat :=
  if h.getLsbD 0 then (sizeBytes (bits 0 2 next)).map (fun c => 1 + c + slotBytes h) else some (1 + slotBytes h)

/-- The slots a header marks, in header-bit order, with their widths in bytes; the X slot is read as two halves of one
word. -/
def headerSlots (h : Byte) (c : Nat) : List (SlotKind × Nat) :=
  (if h.getLsbD 0 then [(SlotKind.c, c)] else []) ++ (if h.getLsbD 1 then [(SlotKind.a, 4)] else []) ++
    (if h.getLsbD 2 then [(SlotKind.b, 4)] else []) ++ (if h.getLsbD 3 then [(SlotKind.v, 6)] else []) ++
    (if h.getLsbD 4 then [(SlotKind.m, 6)] else []) ++ (if h.getLsbD 5 then [(SlotKind.l, 8)] else []) ++
    (if h.getLsbD 6 then [(SlotKind.xlo, 4)] else []) ++ (if h.getLsbD 7 then [(SlotKind.s, 2)] else [])

/-- The instructions of one slot's word: one, or for the X slot the halves that are present. -/
def slotInstrs (k : SlotKind) (w : BitVec 96) : Except DecodeError (List Instr) :=
  match k with
  | .xlo =>
    match decodeXlo (bits 0 32 w), decodeXhi (bits 0 32 w) with
    | .ok none, .ok none => .error .absentHalves
    | .ok lo, .ok hi =>
      let is := lo.toList ++ hi.toList
      if is.all wellFormed then .ok is else .error .reservedField
    | .error e, _ => .error e
    | _, .error e => .error e
  | k => match decodeSlot k w with
    | .ok i => .ok [i]
    | .error e => .error e

def decodeSlots : List (SlotKind × Nat) → List Byte → Except DecodeError (List Instr)
  | [], _ => .ok []
  | (k, n) :: r, bs =>
    match slotInstrs k (BitVec.ofNat 96 (leNat (bs.take n))), decodeSlots r (bs.drop n) with
    | .ok is, .ok rest => .ok (is ++ rest)
    | .error e, _ => .error e
    | _, .error e => .error e

/-- A bundle read from the bytes that follow its address in its fetch line: its instructions in header-bit order and its
length (R23, R24, R26).  The header is not 0x00, which is the line-end mark. -/
def decodeBundle (bs : List Byte) : Except DecodeError (List Instr × Nat) :=
  match bs with
  | [] => .error .pastLine
  | h :: rest =>
    match bundleLength h (rest.headD 0) with
    | none => .error .badSize
    | some len =>
      if bs.length < len then .error .pastLine
      else
        match decodeSlots (headerSlots h (len - 1 - slotBytes h)) rest with
        | .ok is => .ok (is, len)
        | .error e => .error e

/-! ## Encoding -/

/-- The slot and the word of an instruction (R29, R33 to R43); the events have none. -/
def encode : Instr → Option (SlotKind × BitVec 96)
  | .tree f => some (.c, packTree f)
  | .jmp off => some (.c, ((off ++ (2 : BitVec 5) ++ (0 : BitVec 2)) : BitVec 32).setWidth 96)
  | .jmpr r => some (.c, (((0 : BitVec 18) ++ r.port ++ r.reg ++ (3 : BitVec 5) ++ (0 : BitVec 2)) : BitVec 32).setWidth 96)
  | .call off => some (.c, ((off ++ (4 : BitVec 5) ++ (0 : BitVec 2)) : BitVec 32).setWidth 96)
  | .ret r => some (.c, (((0 : BitVec 18) ++ r.port ++ r.reg ++ (5 : BitVec 5) ++ (0 : BitVec 2)) : BitVec 32).setWidth 96)
  | .loopImmediate count len => some (.c, (((0 : BitVec 27) ++ (1 : BitVec 1) ++ count ++ len ++ (0 : BitVec 7) ++ (6 : BitVec 5) ++ (1 : BitVec 2)) : BitVec 64).setWidth 96)
  | .loopRegister r len => some (.c, (((0 : BitVec 44) ++ len ++ r.port ++ r.reg ++ (6 : BitVec 5) ++ (1 : BitVec 2)) : BitVec 64).setWidth 96)
  | .rpt f => some (.c, ((f.stride ++ f.rowStride ++ f.count ++ (7 : BitVec 5) ++ (0 : BitVec 2)) : BitVec 32).setWidth 96)
  | .setfmtImmediate v => some (.c, (((0 : BitVec 24) ++ v ++ (0 : BitVec 1) ++ (8 : BitVec 5) ++ (1 : BitVec 2)) : BitVec 64).setWidth 96)
  | .setfmtRegister r => some (.c, (((0 : BitVec 49) ++ r.port ++ r.reg ++ (1 : BitVec 1) ++ (8 : BitVec 5) ++ (1 : BitVec 2)) : BitVec 64).setWidth 96)
  | .yield => some (.c, (((0 : BitVec 25) ++ (9 : BitVec 5) ++ (0 : BitVec 2)) : BitVec 32).setWidth 96)
  | .phint f => some (.c, ((0 : BitVec 1) ++ f.index ++ f.planes ++ f.trees ++ f.queues ++ f.regs ++ (10 : BitVec 5) ++ (2 : BitVec 2)))
  | .trap code => some (.c, (((0 : BitVec 17) ++ code ++ (11 : BitVec 5) ++ (0 : BitVec 2)) : BitVec 32).setWidth 96)
  | .sysc code => some (.c, (((0 : BitVec 17) ++ code ++ (12 : BitVec 5) ++ (0 : BitVec 2)) : BitVec 32).setWidth 96)
  | .eret => some (.c, (((0 : BitVec 25) ++ (13 : BitVec 5) ++ (0 : BitVec 2)) : BitVec 32).setWidth 96)
  | .done => some (.c, (((0 : BitVec 25) ++ (14 : BitVec 5) ++ (0 : BitVec 2)) : BitVec 32).setWidth 96)
  | .succ => some (.c, (((0 : BitVec 25) ++ (15 : BitVec 5) ++ (0 : BitVec 2)) : BitVec 32).setWidth 96)
  | .spawn r => some (.c, (((0 : BitVec 18) ++ r.port ++ r.reg ++ (16 : BitVec 5) ++ (0 : BitVec 2)) : BitVec 32).setWidth 96)
  | .launch r => some (.c, (((0 : BitVec 18) ++ r.port ++ r.reg ++ (17 : BitVec 5) ++ (0 : BitVec 2)) : BitVec 32).setWidth 96)
  | .wdogSetZero r => some (.c, (((0 : BitVec 18) ++ r.port ++ r.reg ++ (18 : BitVec 5) ++ (0 : BitVec 2)) : BitVec 32).setWidth 96)
  | .wdogSuspend r => some (.c, (((0 : BitVec 18) ++ r.port ++ r.reg ++ (18 : BitVec 5) ++ (0 : BitVec 2)) : BitVec 32).setWidth 96)
  | .wdogResume r => some (.c, (((0 : BitVec 18) ++ r.port ++ r.reg ++ (18 : BitVec 5) ++ (0 : BitVec 2)) : BitVec 32).setWidth 96)
  | .wdogExpire r => some (.c, (((0 : BitVec 18) ++ r.port ++ r.reg ++ (18 : BitVec 5) ++ (0 : BitVec 2)) : BitVec 32).setWidth 96)
  | .add u f => some (unitSlot u, (packRR 1 f).setWidth 96)
  | .sub u f => some (unitSlot u, (packRR 2 f).setWidth 96)
  | .mul u f => some (unitSlot u, (packRR 3 f).setWidth 96)
  | .mulh u f => some (unitSlot u, (packRR 4 f).setWidth 96)
  | .mulhn u f => some (unitSlot u, (packRR 5 f).setWidth 96)
  | .div f => some (.a, (packRR 6 f).setWidth 96)
  | .rem f => some (.a, (packRR 7 f).setWidth 96)
  | .and u f => some (unitSlot u, (packRR 8 f).setWidth 96)
  | .or u f => some (unitSlot u, (packRR 9 f).setWidth 96)
  | .xor u f => some (unitSlot u, (packRR 10 f).setWidth 96)
  | .andn u f => some (unitSlot u, (packRR 11 f).setWidth 96)
  | .shl u f => some (unitSlot u, (packRR 12 f).setWidth 96)
  | .shr u f => some (unitSlot u, (packRR 13 f).setWidth 96)
  | .sar u f => some (unitSlot u, (packRR 14 f).setWidth 96)
  | .min u f => some (unitSlot u, (packRR 15 f).setWidth 96)
  | .max u f => some (unitSlot u, (packRR 16 f).setWidth 96)
  | .minn u f => some (unitSlot u, (packRR 17 f).setWidth 96)
  | .maxn u f => some (unitSlot u, (packRR 18 f).setWidth 96)
  | .clz u f => some (unitSlot u, (packRR 19 f).setWidth 96)
  | .popc u f => some (unitSlot u, (packRR 20 f).setWidth 96)
  | .brev u f => some (unitSlot u, (packRR 21 f).setWidth 96)
  | .bfx u f => some (unitSlot u, (packRR 22 f).setWidth 96)
  | .bfi u f => some (unitSlot u, (packRR 23 f).setWidth 96)
  | .lea u f => some (unitSlot u, (packRI 24 f).setWidth 96)
  | .sel u f => some (unitSlot u, (packRR 25 f).setWidth 96)
  | .addi u f => some (unitSlot u, (packRI 26 f).setWidth 96)
  | .andi u f => some (unitSlot u, (packRI 27 f).setWidth 96)
  | .ori u f => some (unitSlot u, (packRI 28 f).setWidth 96)
  | .shli u f => some (unitSlot u, (packRI 29 f).setWidth 96)
  | .movi u f => some (unitSlot u, (packMI 30 f).setWidth 96)
  | .movhi u f => some (unitSlot u, (packMI 31 f).setWidth 96)
  | .cmp u f => some (unitSlot u, (packRR 32 f).setWidth 96)
  | .cmpi u f => some (unitSlot u, (packRC 33 f).setWidth 96)
  | .kop u f => some (unitSlot u, (packRR 34 f).setWidth 96)
  | .chk u f => some (unitSlot u, (packRR 35 f).setWidth 96)
  | .rdsys f => some (.a, (packRI 36 f).setWidth 96)
  | .rdsysTrapinfo f => some (.a, (packRI 36 f).setWidth 96)
  | .wrsys f => some (.a, (packRI 37 f).setWidth 96)
  | .wrsysFmt f => some (.a, (packRI 37 f).setWidth 96)
  | .wrsysFstat f => some (.a, (packRI 37 f).setWidth 96)
  | .wrsysFprog f => some (.a, (packRI 37 f).setWidth 96)
  | .wrsysMlprog f => some (.a, (packRI 37 f).setWidth 96)
  | .wrsysPourskew f => some (.a, (packRI 37 f).setWidth 96)
  | .wrsysWdlim f => some (.a, (packRI 37 f).setWidth 96)
  | .wrsysTvec f => some (.a, (packRI 37 f).setWidth 96)
  | .wrsysTrapinfo f => some (.a, (packRI 37 f).setWidth 96)
  | .wrsysDutymode f => some (.a, (packRI 37 f).setWidth 96)
  | .wrsysPeer f => some (.a, (packRI 37 f).setWidth 96)
  | .wrsysFlag f => some (.a, (packRI 37 f).setWidth 96)
  | .fadd f => some (.b, (packRR 40 f).setWidth 96)
  | .fsub f => some (.b, (packRR 41 f).setWidth 96)
  | .fmul f => some (.b, (packRR 42 f).setWidth 96)
  | .fma f => some (.b, (packRR 43 f).setWidth 96)
  | .fdiv f => some (.b, (packRR 44 f).setWidth 96)
  | .fsqrt f => some (.b, (packRR 45 f).setWidth 96)
  | .fmin f => some (.b, (packRR 46 f).setWidth 96)
  | .fmax f => some (.b, (packRR 47 f).setWidth 96)
  | .fsgn f => some (.b, (packRR 48 f).setWidth 96)
  | .fcmp f => some (.b, (packRR 49 f).setWidth 96)
  | .fcvt f => some (.b, (packRR 50 f).setWidth 96)
  | .fclass f => some (.b, (packRR 51 f).setWidth 96)
  | .wclr f => some (.b, (packRR 52 f).setWidth 96)
  | .wset f => some (.b, (packRR 53 f).setWidth 96)
  | .wadd f => some (.b, (packRR 54 f).setWidth 96)
  | .wget f => some (.b, (packRR 55 f).setWidth 96)
  | .wsum f => some (.b, (packRR 56 f).setWidth 96)
  | .wfind f => some (.b, (packRR 57 f).setWidth 96)
  | .wcut f => some (.b, (packRR 58 f).setWidth 96)
  | .wtot f => some (.b, (packRR 59 f).setWidth 96)
  | .wmov f => some (.b, (packRR 60 f).setWidth 96)
  | .vadd f => some (.v, (packV 1 f).setWidth 96)
  | .vsub f => some (.v, (packV 2 f).setWidth 96)
  | .vmul f => some (.v, (packV 3 f).setWidth 96)
  | .vfma f => some (.v, (packV 4 f).setWidth 96)
  | .vfms f => some (.v, (packV 5 f).setWidth 96)
  | .vmin f => some (.v, (packV 6 f).setWidth 96)
  | .vmax f => some (.v, (packV 7 f).setWidth 96)
  | .vabs f => some (.v, (packV 8 f).setWidth 96)
  | .vneg f => some (.v, (packV 9 f).setWidth 96)
  | .vdiv f => some (.v, (packV 10 f).setWidth 96)
  | .vsqrt f => some (.v, (packV 11 f).setWidth 96)
  | .vrsqrt f => some (.v, (packV 12 f).setWidth 96)
  | .vrcp f => some (.v, (packV 13 f).setWidth 96)
  | .vexp2 f => some (.v, (packV 14 f).setWidth 96)
  | .vlog2 f => some (.v, (packV 15 f).setWidth 96)
  | .vcvt f => some (.v, (packV 16 f).setWidth 96)
  | .vcmp f => some (.v, (packV 17 f).setWidth 96)
  | .vsel f => some (.v, (packV 18 f).setWidth 96)
  | .vand f => some (.v, (packV 19 f).setWidth 96)
  | .vor f => some (.v, (packV 20 f).setWidth 96)
  | .vxor f => some (.v, (packV 21 f).setWidth 96)
  | .vnot f => some (.v, (packV 22 f).setWidth 96)
  | .vshl f => some (.v, (packV 23 f).setWidth 96)
  | .vshr f => some (.v, (packV 24 f).setWidth 96)
  | .vsar f => some (.v, (packV 25 f).setWidth 96)
  | .vredsum f => some (.v, (packV 26 f).setWidth 96)
  | .vredmax f => some (.v, (packV 27 f).setWidth 96)
  | .vredmin f => some (.v, (packV 28 f).setWidth 96)
  | .vscan f => some (.v, (packV 29 f).setWidth 96)
  | .vperm f => some (.v, (packV 30 f).setWidth 96)
  | .vslide f => some (.v, (packV 31 f).setWidth 96)
  | .vbcast f => some (.v, (packV 32 f).setWidth 96)
  | .vdup f => some (.v, (packV 33 f).setWidth 96)
  | .vdrop f => some (.v, (packV 34 f).setWidth 96)
  | .viota f => some (.v, (packV 35 f).setWidth 96)
  | .vclamp f => some (.v, (packV 36 f).setWidth 96)
  | .vlen f => some (.v, (packV 37 f).setWidth 96)
  | .mand f => some (.v, (packV 38 f).setWidth 96)
  | .mor f => some (.v, (packV 39 f).setWidth 96)
  | .mnot f => some (.v, (packV 40 f).setWidth 96)
  | .vmovi f => some (.v, (packV 41 f).setWidth 96)
  | .xsv f => some (.xlo, (packXsv f).setWidth 96)
  | .xkm f => some (.xlo, (packXkm f).setWidth 96)
  | .xvs f => some (.xhi, (packXvs f).setWidth 96)
  | .xmk f => some (.xhi, (packXmk f).setWidth 96)
  | .wflag f => some (.s, (packS 1 f).setWidth 96)
  | .pflag f => some (.s, (packS 2 f).setWidth 96)
  | .bar f => some (.s, (packS 3 f).setWidth 96)
  | .rsync f => some (.s, (packS 4 f).setWidth 96)
  | .flagWaitRelease _ _ => none
  | .mpush f => some (.m, (packM 1 f).setWidth 96)
  | .mshift f => some (.m, (packM 2 f).setWidth 96)
  | .macc f => some (.m, (packM 3 f).setWidth 96)
  | .mdrain f => some (.m, (packM 4 f).setWidth 96)
  | .mzero f => some (.m, (packM 5 f).setWidth 96)
  | .mfill f => some (.m, (packM 6 f).setWidth 96)
  | .mload f => some (.m, (packM 7 f).setWidth 96)
  | .mflu f => some (.m, (packM 8 f).setWidth 96)
  | .mfch f => some (.m, (packM 9 f).setWidth 96)
  | .mfqr f => some (.m, (packM 10 f).setWidth 96)
  | .mtrs f => some (.m, (packM 11 f).setWidth 96)
  | .mrdp f => some (.m, (packM 12 f).setWidth 96)
  | .mstat f => some (.m, (packM 13 f).setWidth 96)
  | .mwait f => some (.m, (packM 14 f).setWidth 96)
  | .mloadComplete _ => none
  | .factorisationComplete _ => none
  | .factorisationPivotStop _ => none
  | .factorisationInterruptionPoint _ => none
  | .tld f => some (.l, (packL 1 f).setWidth 96)
  | .tst f => some (.l, (packL 2 f).setWidth 96)
  | .tldn f => some (.l, (packL 3 f).setWidth 96)
  | .tstn f => some (.l, (packL 4 f).setWidth 96)
  | .tprf f => some (.l, (packL 5 f).setWidth 96)
  | .bxf f => some (.l, (packL 6 f).setWidth 96)
  | .vld f => some (.l, (packL 7 f).setWidth 96)
  | .vst f => some (.l, (packL 8 f).setWidth 96)
  | .sld f => some (.l, (packL 9 f).setWidth 96)
  | .sst f => some (.l, (packL 10 f).setWidth 96)
  | .tlook f => some (.l, (packL 11 f).setWidth 96)
  | .ttag f => some (.l, (packL 12 f).setWidth 96)
  | .tinv f => some (.l, (packL 13 f).setWidth 96)
  | .feset f => some (.l, (packL 14 f).setWidth 96)
  | .feclr f => some (.l, (packL 15 f).setWidth 96)
  | .amo f => some (.l, (packL 16 f).setWidth 96)
  | .amoc f => some (.l, (packL 17 f).setWidth 96)
  | .fenceAcq f => some (.l, (packL 18 f).setWidth 96)
  | .fenceRel f => some (.l, (packL 18 f).setWidth 96)
  | .fenceAr f => some (.l, (packL 18 f).setWidth 96)
  | .tfence f => some (.l, (packL 19 f).setWidth 96)
  | .tfenceInv f => some (.l, (packL 19 f).setWidth 96)
  | .tfenceAll f => some (.l, (packL 19 f).setWidth 96)
  | .recld f => some (.l, (packL 20 f).setWidth 96)
  | .recst f => some (.l, (packL 21 f).setWidth 96)
  | .recmk f => some (.l, (packL 22 f).setWidth 96)
  | .swait f => some (.l, (packL 23 f).setWidth 96)
  | .ssig f => some (.l, (packL 24 f).setWidth 96)
  | .wvis f => some (.l, (packL 25 f).setWidth 96)
  | .swaitPost _ _ => none
  | .arOpen f => some (.l, (packL 26 f).setWidth 96)
  | .arJoin f => some (.l, (packL 27 f).setWidth 96)
  | .arLd f => some (.l, (packL 28 f).setWidth 96)
  | .arSt f => some (.l, (packL 29 f).setWidth 96)
  | .arCommit f => some (.l, (packL 30 f).setWidth 96)
  | .arAbort f => some (.l, (packL 31 f).setWidth 96)
  | .arLeave f => some (.l, (packL 32 f).setWidth 96)
  | .wfill f => some (.l, (packL 33 f).setWidth 96)
  | .wfillApply _ => none
  | .wdump f => some (.l, (packL 34 f).setWidth 96)
  | .rput f => some (.l, (packL 35 f).setWidth 96)
  | .rputReg f => some (.l, (packL 35 f).setWidth 96)
  | .rget f => some (.l, (packL 36 f).setWidth 96)
  | .reos f => some (.l, (packL 37 f).setWidth 96)
  | .ringSpill _ => none
  | .translationWalkComplete _ _ => none
  | .operationComplete _ => none
  | .engineFault _ => none
  | .trapDelivery _ => none
  | .watchdogExpiry _ => none
  | .correctableError _ => none
  | .freezeEnd _ => none
  | .uncorrectableError _ => none
  | .preemptionRequest _ => none
  | .saveComplete _ => none
  | .saveOverrun _ => none
  | .heldRegionWriteout _ _ => none
  | .contextRestore _ => none
  | .regionDeadline _ => none
  | .regionAbortDelivery _ => none
  | .launchPacket _ => none
  | .taskDispatch => none
  | .taskAging _ => none
  | .waitWordQualify _ => none
  | .unparkWordStore _ => none
  | .interruptWordStore _ => none
  | .taskPublication _ => none
  | .replicaAcknowledge _ _ => none
  | .dmaxUpdate => none
  | .setCompletion _ _ => none
  | .setFailure _ _ _ => none
  | .hbmUncorrectableError _ _ _ => none
  | .lossBroadcast _ _ => none
  | .need _ _ => none
  | .rebuildRetire _ _ => none
  | .restoreComplete _ _ => none
  | .mirrorUpdate _ => none
  | .readRequest _ => none
  | .writeRequest _ => none
  | .atomicRequest _ => none
  | .compareSwapRequest _ => none
  | .signalSetRequest _ => none
  | .signalAddRequest _ => none
  | .flagPostRequest _ => none
  | .tentativeReadRequest _ => none
  | .tentativeWriteRequest _ => none
  | .regionOpenRequest _ => none
  | .regionJoinRequest _ => none
  | .regionCommitRequest _ => none
  | .regionAbortRequest _ => none
  | .regionLeaveRequest _ => none
  | .clockPacket _ => none
  | .dataResponse _ => none
  | .acknowledgement _ => none
  | .errorResponse _ => none
  | .retryResponse _ => none
  | .retryResend _ => none
  | .slotTimeout _ _ => none
  | .packetForward _ _ => none
  | .packetAgeDrop _ => none
  | .requestAgeDrop _ => none
  | .managementArrival _ => none
  | .domainTable _ => none
  | .graticuleInstall _ _ _ => none
  | .linkReplay _ _ => none
  | .linkRetrain _ => none
  | .retrainEnd _ _ => none
  | .fabricControlWrite _ => none
  | .submission _ => none
  | .submissionProcess => none
  | .memoryWindowAccess _ => none
  | .controlRegisterWrite _ _ => none
  | .dutymodeWrite _ => none
  | .assistRequest _ _ => none
  | .assistreply _ _ => none
  | .assistTimeout _ => none
  | .shakecmd _ => none
  | .shakeoutComplete _ => none
  | .firmwareRestart => none
  | .firmwareEventDelivery => none
  | .imageLoad _ => none
  | .fuseCommit _ _ => none
  | .measurementExtend _ _ => none
  | .getDigests => none
  | .getCertificate _ _ => none
  | .challenge _ => none
  | .getMeasurements _ => none
  | .powerSample _ => none
  | .timeSync _ => none
  | .sensorSample _ => none
  | .powerOnReset => none
  | .packageReset => none
  | .dieReset _ => none
  | .fixedLatencyResultLanding _ _ => none
  | .arrayPushLanding _ _ => none
  | .copyEngineFailure _ => none
  | .domainReset => none
  | .dieReturn _ => none
  | .firmwareLinkRetrain _ _ => none
  | .defwdlimWrite _ => none
  | .agelimWrite _ => none

/-- The header bit and the width in bytes of an encoded slot (R23, R32). -/
def slotWidth (k : SlotKind) (w : BitVec 96) : Nat :=
  match k with
  | .c => (sizeBytes (bits 0 2 w)).getD 4
  | .a | .b | .xlo | .xhi => 4
  | .v | .m => 6
  | .l => 8
  | .s => 2

/-- The bytes of the bundle that holds one instruction alone (R23, R24). -/
def encodeAlone (i : Instr) : List Byte :=
  match encode i with
  | none => []
  | some (k, w) => BitVec.ofNat 8 (2 ^ k.bit) :: leBytes (slotWidth k w) w.toNat

/-! ## The host's words -/

/-- The bundle header and slot in which a lone word of `nbits` bits is read.  The table numbers a slot's bits without
naming its slot: a word of 16 bits or fewer is read in the S slot; one of 17 to 32 bits in the first of A, B, C and X
that takes it; one of 33 to 48 bits in V or M; one of 49 to 64 bits in L or C; a longer one in C (log entry 11). -/
def tableSlots (nbits : Nat) : List SlotKind :=
  if nbits ≤ 16 then [.s] else if nbits ≤ 32 then [.a, .b, .c, .xlo, .xhi] else if nbits ≤ 48 then [.v, .m]
  else if nbits ≤ 64 then [.l, .c] else [.c]

/-- An instruction that may stand alone: a guard of 0 or of the one node of a bundle without a tree (R28). -/
def standsAlone : List SlotKind → BitVec 96 → Option (SlotKind × Instr)
  | [], _ => none
  | k :: r, w =>
    match decodeSlot k w with
    | .ok i => if k = .c ∨ bits 0 4 w < 2 then some (k, i) else standsAlone r w
    | .error _ => standsAlone r w

/-- The instruction the decoder reads from a slot word whose bits are `w`. -/
def decodeTableWord (nbits w : Nat) : Option Instr :=
  (standsAlone (tableSlots nbits) (BitVec.ofNat 96 w)).map Prod.snd

/-- The bytes of the bundle that holds that word alone. -/
def tableBundle (nbits w : Nat) : List Byte :=
  match standsAlone (tableSlots nbits) (BitVec.ofNat 96 w) with
  | some (k, _) => BitVec.ofNat 8 (2 ^ k.bit) :: leBytes (slotWidth k (BitVec.ofNat 96 w)) w
  | none => []

end Sys2Proof
end

