-- ==== Sys2Proof/Config.lean ====
section
/-! DEFINITION. What is fixed for the machine modelled, and the free values of the manual: opaque constants, of which no
proof can see a value. -/
namespace Sys2Proof.Config

/-- The torus extents (R12).  DESIGN CHOICE (log entry 5): one package, 2 x 2 x 1. -/
abbrev torusX : Nat := 2
abbrev torusY : Nat := 2
abbrev torusZ : Nat := 1

/-- The coordinate of the die modelled.  DESIGN CHOICE (log entry 5): die 0 of a package at the origin. -/
abbrev ownCoord : Coord := 0

/-- Which die of its package the die modelled is (R6).  DESIGN CHOICE (log entry 5). -/
abbrev ownDie : BitVec 2 := 0

/-- Bytes of HBM in the package: 512 GiB (spec/01_machine.md R10). -/
abbrev hbmBytes : Nat := 2 ^ 39

/-- Bytes of HBM that the stacks of one compute die hold: 128 GiB, two stacks (R6). -/
abbrev dieHbmBytes : Nat := 2 ^ 37

/-- The stacks 2d and 2d + 1 of the die modelled, as a range of package physical addresses, stack 0 lowest (R6; log entry 5). -/
abbrev ownHbmFrom : Nat := ownDie.toNat * dieHbmBytes
abbrev ownHbmEnd : Nat := ownHbmFrom + dieHbmBytes

/-- The silicon revision, B0 (spec/00_scope.md R1): a letter and a digit, one byte each (log entry 7). -/
abbrev revision : BitVec 16 := 0x0B00

/-- Bytes of second-tier memory: 2048 GiB (R10). -/
abbrev tier2Bytes : Nat := 2 ^ 41

/-- Bytes of a cluster's scratchpad: 32 MiB (R153). -/
abbrev scratchBytes : Nat := 2 ^ 25

/-- 64-byte units of a cope store (R152). -/
abbrev copeUnits : Nat := 131072

/-- Virtual base of the symmetric heap (R161). -/
abbrev heapBase : Nat := 0x0080000000000000

/-- Reserved HBM of the die: the addresses the manual leaves to the device.  PRESUMED (log entry 6). -/
abbrev infoPage : Nat := 0x1FFFFFF000
abbrev infoVA : Nat := 0x00FFFFFFFFFFE000
abbrev noticeBase : Nat := 0x1FFFE00000
abbrev noticeVA : Nat := 0x00FFFFFFFFE00000
abbrev packetBase : Nat := 0x1FE0000000
abbrev packetVA : Nat := 0x00FFFFFFE0000000
abbrev packetCopies : Nat := 2 ^ 21
abbrev saveBase : Nat := 0x1C00000000
abbrev saveBlocks : Nat := 12288
abbrev replicaBase : Nat := 0x1F00000000
abbrev cadBase : Nat := 0x1FD0000000
abbrev trapLogBase : Nat := 0x1FFFA00000
abbrev supervisorVA : Nat := 0x00FFFFFFFFFFF000
abbrev devicePage : Nat := 0x1FFFFFD000
abbrev sensorHostPage : Nat := 0x1FFFFFE000

/-- The free value of spec/00_scope.md R2: a 64-bit word the manual calls undefined, one for each index.  It has no body:
no proof can see it, so a statement about it holds for every value (log entry 4). -/
opaque freeWord : Nat → BitVec 64

/-- A free queue entry or E half (1024 bits), one for each index. -/
opaque freeEntry : Nat → BitVec 1024

/-- A free poison tag or predicate, one for each index (R50). -/
opaque freeBit : Nat → Bool

/-- Free words of one event, by event and position: the elements of a plane row that the manual leaves undefined. -/
opaque freeCell : Nat → Nat → BitVec 64

/-- The value a floating-point sum takes within the bound of R81, from its format code, its terms and the mode, before the
bound is applied to it (log entry 8). -/
opaque dotChoice : Nat → List (BitVec 64 × BitVec 64) → BitVec 64

/-- Which neighbour `vrsqrt`, `vrcp`, `vexp2` and `vlog2` on FP32 and FP64 return (R199): true for the one of larger
magnitude; from the opcode, the type and the operand (log entry 9). -/
opaque neighbourChoice : Nat → Nat → BitVec 64 → Bool

/-- Whether a die lies outside the DMASK of the predecessor of a set, while no instance of that predecessor is known there:
by the set's instance (spec/21_tasks.md R314; log entry 52). -/
opaque outsideMask : Nat → Bool

/-- The code addresses that firmware writes to the notice table, by KIND (R319; log entry 53). -/
opaque noticeEntry : Nat → BitVec 64

/-- The KINDs of notices that are addressed to firmware (spec/26_host.md R388; log entry 70). -/
opaque firmwareNotice : BitVec 8 → Bool

/-- The 64 bytes of an assist request, by function, for what it carries (R397; log entry 15). -/
opaque assistBody : BitVec 3 → List Byte → BitVec 512

/-- What the 64 bytes of an assist reply bring (R397; log entry 15): coordinates in visit order; versions to rebuild, in order,
each as IDENT and VER; a leaf entry and its level, or none; for none, whether the fault code is a permission fault. -/
opaque replyPlaces : BitVec 512 → List (BitVec 16 × BitVec 16 × BitVec 16)
opaque replyRebuilds : BitVec 512 → List (BitVec 64)
opaque replyLeaf : BitVec 512 → Option (BitVec 64 × Nat)
opaque replyPermission : BitVec 512 → Bool

/-- Byte `i` of the shakeout report beyond the word and the nonce, for what the report holds (R400; log entry 22). -/
opaque reportByte : List Byte → Nat → Byte

/-- DEFWDLIM of another die of the package at a cycle (spec/28_package.md R409; log entry 6). -/
opaque otherDefwdlim : Nat → Nat → BitVec 32

/-- A router counter of another die of the package at a cycle (spec/26_host.md R382; log entry 5): by die, cycle and place. -/
opaque otherCounter : Nat → Nat → Nat → BitVec 64

/-- Verification of an ML-DSA-87 signature (FIPS 204, outside this manual): key, message, signature (log entry 7). -/
opaque mldsaVerify : BitVec 64 → List Byte → List Byte → Bool

/-- Signing under the identity key, which the root of trust never exports (R395; log entry 7). -/
opaque identitySign : List Byte → List Byte

/-- The certificate chain of the device identity key of a part, by the revision that it names (R1, R395; log entry 7). -/
opaque certificateOf : BitVec 16 → List Byte

/-- The chain that the D7 presents: it names revision B0 (R1). -/
abbrev certificateChain : List Byte := certificateOf revision

/-- The hash of the boot ROM (R394; log entry 7). -/
opaque bootRomHash : BitVec 512

/-- First 8 bytes of the SHA3-512 of the vendor public key (R390; log entry 7). -/
opaque vendorKeyId : BitVec 64

end Sys2Proof.Config
end

