-- ==== Sys2Proof/Machine/State.lean ====
section
/-! DEFINITION. The state of one compute die with the package around it, as plain data, and its reset. -/
namespace Sys2Proof.Machine

/-! ## Sparse stores -/

/-- A sparse store: pairs of a key and a value, keys rising, no pair that holds what an unlisted key reads as. -/
abbrev SMap (α : Type) := List (Nat × α)

/-- Byte memory in that form (`Host.Cell`). -/
abbrev Memory := List Host.Cell

/-! ## One context -/

/-- The two modes (spec/01_machine.md R19). -/
inductive Mode where
  | user
  | supervisor
  deriving DecidableEq, Repr

/-- An entry of a queue register (spec/13_vector.md R184 to R188). -/
structure QEntry where
  bits : BitVec 1024
  poison : Bool
  /-- in flight when false -/
  landed : Bool
  /-- the entry comes from an interlocked push (R185) -/
  interlocked : Bool
  /-- first cycle that may read a fixed-latency entry (R186) -/
  due : Nat
  /-- the operation that owes an interlocked entry -/
  op : Nat
  deriving DecidableEq, Repr

/-- The destination of a fixed-latency result (spec/03_bundles.md R50). -/
inductive Dest where
  | g (r : BitVec 5)
  | k (r : BitVec 4)
  | m (r : BitVec 3)
  | fstat
  deriving DecidableEq, Repr

/-- A fixed-latency result in flight: where it goes, what it brings, and its bound (R50, R79). -/
structure Pending where
  dest : Dest
  value : BitVec 128
  poison : Bool
  flags : BitVec 10
  due : Nat
  landed : Bool
  deriving DecidableEq, Repr

/-- A register an interlocked operation still owes a value to (R50). -/
inductive OwedReg where
  | g (r : BitVec 5)
  | b (r : BitVec 4)
  deriving DecidableEq, Repr

/-- A write of FMT within its delay: the value and the bundles still to issue under the old one (R51). -/
structure FmtWrite where
  value : BitVec 32
  left : Nat
  deriving DecidableEq, Repr

/-- An open loop level (spec/07_scalar_control.md R91): first body bundle, body length, last body bundle, passes left.  The last
bundle is not known while a line of the body cannot be fetched. -/
structure Level where
  first : Word
  len : Nat
  last : Option Word
  left : Nat
  deriving DecidableEq, Repr

/-- A beat of a repeat window that has still to issue (R52, R257): the operation at its row and address, and for `mfill`
the queue entry it took at the `rpt` bundle. -/
structure Beat where
  instr : Instr
  fmt : BitVec 32
  entry : Option QEntry
  deriving DecidableEq, Repr

/-- Interrupted array work (spec/09_traps.md R138): the instruction with its operands, and the bundle that issued it. -/
structure PendingInstr where
  instr : Instr
  record : Record
  offset : Int
  dst : Coord
  pc : Word
  logged : List Byte
  /-- flags that a factorisation raised before it was interrupted (spec/17_matrix.md R270) -/
  flags : BitVec 10 := 0
  deriving DecidableEq, Repr

/-- The causes of spec/09_traps.md R127. -/
inductive Cause where
  | illegal | privilege | misalignedTarget | fetchFault | misalignedOperand | poison | loopNest | noHandler
  | softwareTrap | formatValue | operandValue | queueFull | queueUnderflow | queueOverflow | fpException | repeatRange
  | pivot | translationFault | permissionFault | bounds | fabricTimeout | engineFault | regionAborted | livenessEntry
  | watchdog | uncorrectable | saveOverrun | pourStopped | predecessorFailed
  deriving DecidableEq, Repr

/-- A trap to be taken (R122 to R131): what the record and TRAPINFO hold of it, the return point where it is not the
bundle the context would issue next, and the cycle in which it arose (R410). -/
structure TrapReq where
  cause : Cause
  aux : BitVec 8
  faddr : Word
  slot : BitVec 3
  pc : Word
  logged : List Byte
  ret : Option Word
  cycle : Nat
  deriving DecidableEq, Repr

/-- The hint in force (R140, R141). -/
structure Hint where
  f : PhintF
  deriving DecidableEq, Repr

/-- A response slot (spec/23_fabric.md R349, R352): held, generation, operation, time the timer last started (ns). -/
structure Slot where
  held : Bool
  gen : BitVec 5
  op : Nat
  since : Nat
  deriving DecidableEq, Repr

/-- The kinds of memory of a page (R162). -/
inductive Tier where
  | hbm
  | second
  deriving DecidableEq, Repr

/-- A watch (spec/11_storage.md R178): on the bytes of a word, in scratchpad or in memory, that must reach a value (a
clamped byte reads 0), on the predecessor set, or on what never comes. -/
inductive WatchKind where
  | scratch (bytes : List (Option Nat)) (value : Word)
  | memory (bytes : List (Option (Tier × Nat))) (value : Word)
  | never
  | set (scope : BitVec 3)
  deriving DecidableEq, Repr

structure Watch where
  kind : WatchKind
  flag : BitVec 5
  deriving DecidableEq, Repr

/-- A region (spec/19_trees_regions.md R289): the fields of its handle, and the address space in which OBJ is its heap
offset. -/
structure RegionName where
  home : Coord
  gen : BitVec 14
  obj : BitVec 34
  asid : BitVec 16
  deriving DecidableEq, Repr

/-- Membership of a region (R293): whether the member has voted, and the post that its `ar.commit` asks for. -/
structure Member where
  region : RegionName
  voted : Bool
  flag : Option (BitVec 5)
  /-- the dies of the domain, by index, to whose shards its `ar.st` have gone -/
  shards : BitVec 64
  deriving DecidableEq, Repr

/-- The answer of a region's home to a held `ar` bundle (R291): a value, with the address space of the region. -/
inductive HomeAnswer where
  | asked (op : Nat)
  | done (value : Word) (asid : BitVec 16)
  | refused (cause : Cause) (faddr : Word)
  deriving DecidableEq, Repr

/-- A dependence template (spec/21_tasks.md R306): output term, output place, input terms and wait terms. -/
structure Tmpl where
  out : BitVec 256
  place : BitVec 256
  ins : List (BitVec 256)
  waits : List (BitVec 256)
  deriving DecidableEq, Repr

/-- What the queue unit read when it first selected a task (R307): its template and output record, or the cause with which
the task retires before its first bundle. -/
structure Selection where
  tmpl : Tmpl
  record : Record
  fault : Option Cause
  deriving DecidableEq, Repr

/-- A task as the queue unit and a context hold it (spec/21_tasks.md R302, R303, R334). -/
structure TaskRef where
  serial : Nat
  /-- the instance of its set on this die (R314); 0 for a notice -/
  inst : Nat
  packet : BitVec 512
  packetAddr : Nat
  x : BitVec 16
  y : BitVec 16
  z : BitVec 16
  /-- a notice of the privileged queue (R319) -/
  notice : Bool
  /-- a rebuild of a version (R334) -/
  rebuild : Option VersionId
  /-- it runs as part of a pour (R14) -/
  pour : Bool
  /-- what was read at the first selection; none before it, and for a notice -/
  sel : Option Selection := none
  deriving DecidableEq, Repr

/-- Residency of a context (R101, R129, R142): free, running a task, waiting for its operations to end after a task
retired, or being saved. -/
inductive Residency where
  | free
  | running
  | retiring
  | saving
  deriving DecidableEq, Repr

/-- The array registers a context holds (spec/17_matrix.md R242). -/
structure ArrayCtx where
  e : BitVec 2048
  ePoison : Bool
  es : BitVec 32
  amax : BitVec 64
  umax : BitVec 64
  tau : Vector (BitVec 64) 32
  pvec : BitVec 160
  fprog : BitVec 64
  mlprog : BitVec 64
  lastFlags : BitVec 64
  deriving DecidableEq, Repr

/-- The system registers and status a context holds besides its files (spec/01_machine.md R19). -/
structure SysCtx where
  fmt : BitVec 32
  fmtDelay : List FmtWrite
  fstat : BitVec 10
  wdlim : BitVec 32
  /-- cycles counted before `wdSince` -/
  wdCount : Nat
  /-- the core cycle from which the present stretch counts -/
  wdSince : Nat
  wdSuspended : Bool
  wdForced : Bool
  /-- the core cycle of the last act on WDLIM or on the watchdog (R410) -/
  wdArmed : Nat
  tvec : Word
  trapinfo : BitVec 640
  sel : BitVec 4
  fabstale : BitVec 32
  mode : Mode
  handler : Bool
  asid : BitVec 16
  deriving DecidableEq, Repr

/-- What a pre-empted task keeps in place (R142, R143). -/
inductive HeldKind where
  | plane (i : BitVec 2)
  | tree (i : BitVec 3)
  | scratch (start len : Nat)
  | cope (start len : Nat)
  deriving DecidableEq, Repr

/-- What a pre-emption keeps beside the state that is always saved (spec/09_traps.md R140). -/
structure LiveSet where
  regs : BitVec 32
  queues : BitVec 32
  trees : BitVec 8
  planes : BitVec 4
  ranges : List HeldKind
  deriving DecidableEq, Repr

/-- Control flow, waiting and residency of a context. -/
structure FlowCtx where
  pc : Word
  /-- the bundle issued last -/
  lastPc : Word
  residency : Residency
  levels : List Level
  kept : List Level
  rptLeft : Nat
  beats : List Beat
  /-- the bundle whose flag wait has been served (R183) -/
  flagGrant : Option Word
  /-- the bundle that has arrived at the barrier and waits (R183) -/
  barWaiting : Option Word
  /-- the bundle whose barrier generation has been released (R183) -/
  barGrant : Option Word
  /-- where the wait of `sysc` holds the context (spec/07_scalar_control.md R99) -/
  serviceWait : Option Word
  homeAnswer : Option HomeAnswer
  /-- boundary causes due, the first to arise first (R410) -/
  due : List TrapReq
  /-- a trap that waits for the drain (R123) -/
  taking : Option TrapReq
  preempt : Bool
  /-- a factorisation has reached an interruption point since the last boundary (R139) -/
  factPoint : Bool
  /-- the request is being served: the live set of the save that waits for the drain (R142) -/
  saveWait : Option LiveSet
  hint : Option Hint
  pendingArray : List PendingInstr
  /-- a `done` has committed and waits for the plane operations of its context (R101) -/
  doneWait : Bool
  task : Option TaskRef
  succDone : Bool
  slots : Vector Slot 8
  watches : List Watch
  region : Option Member
  /-- the task that ends here retired faulted (R129) -/
  faulted : Bool
  /-- bundles of its pour's stream that the context has taken, and the core cycle at which the pour began (R14) -/
  pourPos : Nat
  pourStart : Nat
  /-- planes and trees that a restore left undefined for the task while other contexts used the core (R97, R140), and that
  nothing has used since -/
  blankPlanes : BitVec 4
  blankTrees : BitVec 8
  /-- number of the first operation of the bundle that commits (spec/15_ordering.md R220) -/
  firstOp : Nat
  deriving DecidableEq, Repr

/-- One context: its register files (R18) and the state above. -/
structure Ctx where
  g : Vector Word 32
  gPoison : BitVec 32
  k : BitVec 16
  m : Vector (BitVec 128) 8
  b : Vector Record 16
  n : Vector Coord 8
  q : Vector (List QEntry) 32
  pend : List Pending
  owed : List (OwedReg × Nat)
  arr : ArrayCtx
  sys : SysCtx
  flow : FlowCtx
  deriving DecidableEq, Repr

/-! ## One core -/

/-- KIND of a plane (R242). -/
inductive PlaneKind where
  | none
  | fp32
  | fp64
  | residue
  deriving DecidableEq, Repr

/-- One accumulator element: a floating-point pattern with its two sticky bits (R73), or three residues with a NaV bit
and a term count (R68, R70, R71). -/
inductive Elem where
  | fp (bits : BitVec 64) (iv of : Bool)
  | res (e253 e255 e256 : BitVec 8) (nav : Bool) (count : BitVec 20)
  deriving DecidableEq, Repr

/-- What R81 measures an accumulated element against: the exact sum of its terms, the sum of their magnitudes, each as
mantissa and exponent, and how many there are. -/
structure RunSum where
  sum : Int × Int
  mag : Int × Int
  count : Nat
  deriving DecidableEq, Repr

/-- One plane row (R242).  An element that is not listed reads as `+0` or as residue zero.  `sums` belongs to the elements
that `macc` has accumulated in a floating mode; it is empty where no beat has, and then the element itself counts as one
term, or none where it is zero (log entry 8). -/
structure Row where
  elems : List Elem
  poison : Bool
  pair : Option (BitVec 32 × BitVec 32)
  sums : List RunSum := []
  deriving DecidableEq, Repr

structure Plane where
  kind : PlaneKind
  rows : SMap Row
  deriving DecidableEq, Repr

/-- A waiter on a counting flag, in order of arrival (R183). -/
structure Waiter where
  ctx : BitVec 2
  flag : BitVec 5
  count : BitVec 16
  deriving DecidableEq, Repr

/-- A factorisation in progress (R260 to R263). -/
structure Fact where
  ctx : BitVec 2
  instr : Instr
  fmt : BitVec 32
  pc : Word
  logged : List Byte
  flags : BitVec 10
  /-- flags of the same instruction from before an interruption -/
  seen : BitVec 10 := 0
  deriving DecidableEq, Repr

/-- A cached translation (R164). -/
structure TlbEntry where
  asid : BitVec 16
  page : Nat
  size : Nat
  pte : BitVec 64
  deriving DecidableEq, Repr

structure Held where
  owner : Nat
  kind : HeldKind
  deriving DecidableEq, Repr

/-- A held region as the save engine has written it out (R143): with the FAULT lines of a scratchpad range, and the poisoned
units and tile scales of a cope-store range. -/
inductive HeldData where
  | plane (i : BitVec 2) (p : Plane)
  | tree (i : BitVec 3) (leaves : SMap (BitVec 32))
  | scratch (start len : Nat) (bytes : List Byte) (faults : List Nat)
  | cope (start len : Nat) (bytes : List Byte) (poison : List Nat) (scales : List (Nat × BitVec 32))
  deriving DecidableEq, Repr

structure Core where
  id : BitVec 6
  sel : BitVec 2
  parked : SMap Ctx
  cycle : Nat
  /-- cycles of the arithmetic clock up to which the core has had its turns (log entry 2) -/
  now : Nat
  f : Vector (BitVec 16) 32
  waiters : List Waiter
  trees : Vector (SMap (BitVec 32)) 8
  planes : Vector Plane 4
  cope : Memory
  copePoison : SMap Bool
  copeScale : SMap (BitVec 32)
  fact : Option Fact
  cecount : BitVec 32
  seq : BitVec 32
  /-- cycles of a correctable-error freeze still to pass (R148) -/
  frozenLeft : Nat
  tlb : List TlbEntry
  prefetch : List TaskRef
  held : List Held
  deriving DecidableEq, Repr

/-! ## One cluster -/

/-- The open generation of a cluster barrier (R183): its count and the contexts that arrived and wait. -/
structure Barrier where
  count : Nat
  arrived : List CtxId
  deriving DecidableEq, Repr

/-- A pour on a cluster (spec/01_machine.md R14; spec/09_traps.md R130): the bundles that the sequencer has issued, each with
its cycle counted from the start of the pour, the bundles that each row still executes once the stream has stopped, and the
traps of its cores, by row, with their log slots. -/
structure Pour where
  serial : Nat
  skew : BitVec 6
  stream : List (Word × Nat)
  stop : Option (List Nat)
  causes : List (Nat × BitVec 8 × Word)
  deriving DecidableEq, Repr

structure Cluster where
  id : BitVec 3
  sp : Memory
  full : SMap Bool
  tags : SMap (BitVec 64)
  pourskew : BitVec 6
  barrier : Option Barrier
  pours : List Pour
  deriving DecidableEq, Repr

/-! ## Operations in flight -/

/-- A request that waits at its target (spec/23_fabric.md R348, R351): the packet, the clock it carried (R230), and the time in
ns at which it arrived. -/
structure HeldRequest where
  req : Packet
  clock : SMap (BitVec 64)
  since : Nat
  /-- it is never answered -/
  stuck : Bool := false
  deriving DecidableEq, Repr

/-- One request of a remote operation (spec/23_fabric.md R343): the packet sent, the position of its first byte in the
operation, and how it was answered. -/
structure Part where
  req : Packet
  pos : Nat
  answered : Bool
  /-- answered with status poisoned bytes -/
  poisoned : Bool
  unreachable : Bool
  deriving DecidableEq, Repr

structure Remote where
  dst : Coord
  slot : BitVec 3
  gen : BitVec 5
  parts : List Part
  failed : Bool
  /-- bytes received so far for a register, by position -/
  data : List (Nat × Byte)
  deriving DecidableEq, Repr

/-- What an uncompleted L-slot or M-slot operation does when it is performed. -/
inductive OpKind where
  | tileLoad (spec : Bool) (sp : Nat) (shape : BitVec 16)
  | tileStore (sp : Nat) (shape : BitVec 16)
  | rowsLoad (sp : Nat) (desc : BitVec 512)
  | rowsStore (sp : Nat) (desc : BitVec 512)
  | lineFill (entry : Nat)
  | blockCopy (src : Record) (remoteFlag : Option (BitVec 6 × BitVec 5))
  | vecLoad (q : BitVec 5) (spec : Bool) (value : Option (BitVec 1024 × Bool))
  | vecStore (data : BitVec 1024)
  | elemLoad (g : BitVec 5) (size : Nat) (signed spec : Bool) (value : Option (Word × Bool))
  | elemStore (size : Nat) (data : Word)
  | amo (g : BitVec 5) (op : BitVec 3) (unsigned wide noReturn : Bool) (arg : Word)
  | amoc (g : BitVec 5) (wide : Bool) (cmp new : Word)
  | recLoad (b : BitVec 4)
  | recStore (data : Record)
  | signal (add : Bool) (value : Word)
  | rsync (flag : BitVec 5) (count : BitVec 16) (waits : List Nat)
  /-- the acquire that follows an access (spec/15_ordering.md R223), not yet performed -/
  | acquire (waits : List Nat)
  | treeFill (tree : BitVec 3) (fp : Bool) (fe : BitVec 2)
  | treeDump (leaves : SMap (BitVec 32)) (fp : Bool) (fe : BitVec 2)
  | mload (f : MF) (fmt : BitVec 8) (done : Nat)
  | push (q : BitVec 5) (value : BitVec 1024) (poison : Bool) (flags : BitVec 10)
  | ringGet (ring : Word) (q : BitVec 5) (status : BitVec 5)
  | regionLoad (g : BitVec 5) (size : Nat) (signed : Bool) (region : RegionName)
  | regionStore (size : Nat) (data : Word) (region : RegionName)
  | regionAsk (aux : BitVec 8) (handle : Word)
  | posted
  deriving DecidableEq, Repr

structure Op where
  id : Nat
  owner : CtxId
  serial : Nat
  kind : OpKind
  record : Record
  offset : Int
  asid : BitVec 16
  user : Bool
  post : Option (BitVec 5)
  pc : Word
  logged : List Byte
  remote : Option Remote
  /-- the memory bytes of a translated access, none where a clamped offset names no byte -/
  cells : List (Option (Tier × Nat))
  /-- a speculative tile load that has already faulted (R165) -/
  doomed : Bool
  /-- the byte range it touches, and in which space, for R166 -/
  space : BitVec 3
  lo : Nat
  hi : Nat
  /-- a second such range on the own die: the source of a block transfer -/
  alt : Option (BitVec 3 × Nat × Nat)
  isWrite : Bool
  isRead : Bool
  /-- it counts among the L-slot operations of R167 -/
  counted : Bool
  /-- operations of its own bundle that are performed before it (spec/15_ordering.md R220) -/
  after : List Nat := []
  /-- the full-empty qualifier of an access of scratchpad that is performed when it completes -/
  fe : BitVec 2 := 0
  deriving DecidableEq, Repr

/-! ## The die -/

/-- A task in the queue unit (R310 to R316). -/
structure QTask where
  ref : TaskRef
  bank : BitVec 4
  pri : BitVec 3
  /-- the clock count from which it waits at its priority (R313) -/
  since : Nat
  /-- the signal word whose page is not resident (R316) -/
  parked : Option Word
  /-- the wait terms were found unmet and the unit watches their words (R316) -/
  watching : Bool
  /-- save record to restore instead of starting afresh (R144) -/
  saved : Option Nat
  deriving DecidableEq, Repr

/-- Who finds the coordinates of a packet that a die keeps (R310): its queue unit, or the host, which has been asked or has
answered (spec/26_host.md R397). -/
inductive DistOrder where
  | own
  | asked
  | given (left : List (BitVec 16 × BitVec 16 × BitVec 16))
  deriving DecidableEq, Repr

/-- An instance of a set that the die knows, in the order in which the instances became known (R310, R311, R314, R315). -/
structure SetEntry where
  inst : Nat
  /-- who finds the coordinates that the die keeps -/
  order : DistOrder
  setid : BitVec 32
  packet : BitVec 512
  dmask : BitVec 64
  /-- the packet was accepted on this die -/
  here : Bool
  /-- the instance of its predecessor set; none while no instance is known, or where PREDID is 0 -/
  pred : Option Nat
  /-- tasks of the set on this die that have not retired -/
  live : Nat
  /-- next grid index the distribution of the packet will visit; none once it is complete -/
  cursor : Option Nat
  succ : Bool
  failed : Bool
  /-- dies whose completion or failure of the set is known here -/
  doneAt : List Coord
  /-- slot of the die's copy of the packet, and the place of its arrival among those of other packets -/
  copy : Nat
  arrived : Nat
  deriving DecidableEq, Repr

/-- A retired task whose writes have still to complete before it is published (R101, R318). -/
structure Publication where
  key : Nat
  owner : CtxId
  ref : TaskRef
  faulted : Bool
  deriving DecidableEq, Repr

/-- A version of this die that is being copied, or has been, to its replica dies, and those that hold a copy (R328). -/
structure Replica where
  version : VersionId
  acks : List Coord
  deriving DecidableEq, Repr

/-- The save record of a pre-empted task (R142): its context as saved, and where it ran. -/
structure Saved where
  index : Nat
  home : CtxId
  ctx : Ctx
  saving : Bool
  expired : Bool
  /-- the core cycle at which step 2 began (R142) -/
  since : Nat
  store : List HeldData
  deriving DecidableEq, Repr

/-- An item of a ring's sequence (R322): an entry, with its place in the memory ring while it is spilled, or an end token. -/
inductive RingItem where
  | entry (lane : BitVec 4) (data : BitVec 1024) (poison : Bool) (at_ : Option (Tier × Nat))
  | token (lane : BitVec 4)
  deriving DecidableEq, Repr

/-- An active ring (R321, R322): the descriptor's fields, the sequence, which task holds each lane. -/
structure Ring where
  place : Tier × Nat
  asid : BitVec 16
  spill : Word
  quota : BitVec 32
  nprod : BitVec 4
  reg : BitVec 16
  closed : BitVec 16
  ended : Bool
  items : List RingItem
  /-- entries moved to the memory ring so far -/
  spilled : Nat
  owners : List (BitVec 4 × Nat)
  gets : List Nat
  deriving DecidableEq, Repr

/-- A line of a region's write set at this die's shard (R295, R296): the tentative bytes, and those that non-members have
written since the line entered, which come after the region's if it commits (R297). -/
structure ShardLine where
  region : RegionName
  line : Nat
  bytes : List (Nat × Byte)
  late : List (Nat × Byte)
  /-- the region has come to its commit point, and the line is locked (R298) -/
  locked : Bool
  deriving DecidableEq, Repr

/-- The home's record of a region's members (R293, R298). -/
structure MemberRef where
  die : Coord
  ctx : CtxId
  /-- the task, for a member on this die -/
  serial : Nat
  /-- the post that its vote asked for -/
  flag : Option (BitVec 5)
  deriving DecidableEq, Repr

structure RegionHome where
  name : RegionName
  /-- where the object lies in physical memory -/
  place : Tier × Nat
  members : List MemberRef
  /-- the dies of the domain, by index, to whose shards the voters' `ar.st` have gone -/
  shards : BitVec 64
  /-- after the commit point: the dies whose shards have still to lock their lines -/
  commit : Option (List Coord)
  deriving DecidableEq, Repr

/-- State of a link (R359 to R361). -/
inductive LinkState where
  | up
  | retraining (tries : Nat)
  | down
  deriving DecidableEq, Repr

structure PortCounters where
  flittx : BitVec 64
  flitrx : BitVec 64
  chkerr : BitVec 64
  retry : BitVec 64
  retrain : BitVec 64
  down : BitVec 64
  deriving DecidableEq, Repr

/-- A packet at an input of the router that waits for its output link (R348, R360). -/
structure WaitingPacket where
  /-- the port by which it came in; none for a packet of this die -/
  from_ : Option Nat
  /-- the port by which it is to leave -/
  port : Nat
  since : Nat
  pkt : Packet
  deriving DecidableEq, Repr

structure Router where
  routeX : List (BitVec 2)
  routeY : List (BitVec 2)
  routeZ : List (BitVec 2)
  control : BitVec 64
  links : Vector LinkState 6
  replay : Vector (List Packet) 6
  /-- by port, the number of the flit that failed its check or was lost last, and how many resends of it in a row have failed
  (R359, R361) -/
  fails : Vector (Option (Nat × Nat)) 6
  ports : Vector PortCounters 6
  agedrop : BitVec 64
  unreach : BitVec 64
  badpkt : BitVec 64
  mgmtdrop : BitVec 64
  timeout : BitVec 64
  stale : BitVec 64
  mgmtRing : List Packet
  mgmtHeld : List Packet
  outbox : List Packet
  retries : List (Nat × Packet)
  /-- requests held for their causal predecessors (R230) -/
  heldRequests : List HeldRequest
  waiting : List WaitingPacket
  deriving DecidableEq, Repr

/-- The task queue unit and the privileged queue. -/
structure Queues where
  tasks : List QTask
  sets : List SetEntry
  serial : Nat
  badPlace : Nat
  agelim : BitVec 64
  lastCore : BitVec 6
  lastBank : BitVec 4
  notices : List (BitVec 512)
  noticeSeq : BitVec 16
  noticeDrop : Nat
  /-- code addresses by KIND, as firmware has written them (R319) -/
  noticeTable : List (Nat × Word)
  publications : List Publication
  /-- versions that are lost, each with its home (R331) -/
  unavailable : List (VersionId × Coord)
  /-- needs that have been sent to other homes (R332) -/
  asked : List (VersionId × BitVec 3)
  saved : List Saved
  deriving DecidableEq, Repr

/-- The cadastre, its control word and the recovery state (R327 to R337). -/
structure Lineage where
  entries : List (BitVec 1024)
  control : BitVec 64
  rho : Nat × Nat
  published : Nat
  lossBase : BitVec 32
  losscount : BitVec 32
  replicas : List Replica
  /-- versions adopted from lost dies, and whether the page of the output place is mapped anew (R330) -/
  adopted : List (VersionId × Bool)
  deriving DecidableEq, Repr

/-- The causal clocks (R230, R357). -/
structure Clocks where
  own : SMap (BitVec 64)
  sent : List ((Coord × BitVec 2) × SMap (BitVec 64))
  received : List ((Coord × BitVec 2) × SMap (BitVec 64))
  deriving DecidableEq, Repr

/-- What a host that fills translations answered in place of a table entry (spec/26_host.md R397): a fault code, or nothing, so
that the walker does the work. -/
inductive FillEnd where
  | fault (permission : Bool)
  | walk
  deriving DecidableEq, Repr

structure Die where
  coord : Coord
  domain : List Coord
  asTable : SMap Nat
  /-- table entries that the host has supplied, in use until an invalidation (R164), and its other answers, in use until the
  access that asked has ended -/
  fills : List TlbEntry
  fillEnds : List (WalkArg × FillEnd)
  ops : List Op
  nextId : Nat
  queues : Queues
  /-- the trap log by slot, and the number of records written (R133) -/
  trapLog : SMap (BitVec 512)
  trapCount : Nat
  lineage : Lineage
  rings : List Ring
  shard : List ShardLine
  regions : List RegionHome
  /-- the last region of each object of another home that is known to have ended (R295) -/
  ended : List RegionName
  /-- members whose tasks retired after their vote, by core: their posts are still owed (R298) -/
  votes : List (BitVec 6 × Member)
  clocks : Clocks
  router : Router
  defwdlim : BitVec 32
  sensor : BitVec 64
  resetting : Bool
  deriving DecidableEq, Repr

/-! ## The package -/

/-- The host's control registers (spec/26_host.md R383, R389, R396, R400). -/
structure HostRegs where
  subtail : BitVec 64
  subdone : BitVec 64
  subdrop : BitVec 64
  subbad : BitVec 64
  subrej : BitVec 64
  rejlast : BitVec 64
  fwstate : BitVec 64
  dutymode : BitVec 64
  winbase : BitVec 64
  assistbase : BitVec 64
  shakestat : BitVec 64
  reportaddr : BitVec 64
  infoaddr : BitVec 64
  /-- the MSI-X table, by byte (R382) -/
  msix : Memory
  deriving DecidableEq, Repr

/-- An answer or a write the device sends to the host. -/
inductive HostOut where
  | vector (n : Nat)
  | memory (addr : BitVec 64) (bytes : List Byte)
  | completion (bytes : List Byte) (poisoned : Bool)
  | doe (bytes : List Byte)
  deriving DecidableEq, Repr

/-- What a core of the firmware complex does for an event (R388): an entry of the submission log, a notice, a message of the DOE
mailbox, or an assist reply. -/
inductive FwWork where
  | submission (p : BitVec 512)
  | notice (n : BitVec 512)
  | digests
  | certificate (offset len : Nat)
  | challenge (nonce : BitVec 256)
  | measurements (nonce : BitVec 256)
  | fuse (v : BitVec 8) (sig : List Byte)
  | extend (r : BitVec 4) (m : BitVec 512)
  | load (image : List Byte)
  | reply (seq : Nat) (r : BitVec 512)
  deriving DecidableEq, Repr

/-- An event of the firmware complex with its ordering key (R388). -/
structure FwEvent where
  key : Nat
  work : FwWork
  deriving DecidableEq, Repr

/-- What the host is asked to do (R397): the coordinates of a set's packet, the rebuilds for a lost version, a table entry, the
route tables, DMAX for a window's losses and publications, or a step of a shakeout. -/
inductive AssistWork where
  | dist (inst : Nat)
  | walk (v : VersionId)
  | fill (w : WalkArg)
  | routes
  | retain (losses published : Nat)
  | shake (step : Nat)
  /-- a request whose contents the model cannot read, since their layout is not given -/
  | other
  deriving DecidableEq, Repr

/-- An assist request without a reply (R397). -/
structure Assist where
  seq : Nat
  fn : BitVec 3
  work : AssistWork
  deriving DecidableEq, Repr

/-- Why firmware does not run as usual while STATE is 3: it rewrites the domain table, or a package reset has still to start it
again (R389). -/
inductive FwPhase where
  | usual
  | rewriting
  | booting
  deriving DecidableEq, Repr

structure Firmware where
  log : List (BitVec 512)
  events : List FwEvent
  busy : List FwEvent
  eventDrop : Nat
  assists : List Assist
  assistSeq : Nat
  assistFallback : Nat
  store : List Byte
  running : List Byte
  /-- an image that the host has loaded and that waits for a restart (R393); empty for none -/
  loaded : List Byte
  fuse : BitVec 8
  mr : Vector (BitVec 512) 16
  nonce : BitVec 64
  rowsLogged : List (Nat × Nat)
  phase : FwPhase
  deriving DecidableEq, Repr

structure Power where
  freq : Nat
  calm : Nat
  stepdn : BitVec 64
  floorns : BitVec 64
  trips : BitVec 64
  diereset : Vector (BitVec 64) 4
  deriving DecidableEq, Repr

structure Package where
  hbm : Memory
  tier2 : Memory
  hbmPoison : SMap Bool
  tier2Poison : SMap Bool
  timePs : Nat
  /-- correction of the time base, in ps, that is still to be slewed in, and the cycles' parts of it not yet applied
  (spec/28_package.md R403) -/
  slew : Int
  slewAcc : Nat
  /-- the package holds the time of its domain (R404) -/
  timeHeld : Bool
  /-- cycles of the arithmetic clock that have passed (spec/00_scope.md R3) -/
  clocks : Nat
  power : Power
  regs : HostRegs
  fw : Firmware
  out : List HostOut
  deriving DecidableEq, Repr

/-! ## The whole state -/

/-- One compute die and the package around it.  `cur` is the context the model acts for, `core` and `cluster` are its core
and cluster; every other context, core and cluster is parked (absent: as after reset). -/
structure State where
  cur : Ctx
  core : Core
  cluster : Cluster
  cores : SMap Core
  clusters : SMap Cluster
  die : Die
  pkg : Package
  /-- rows that happen next, in order: events of engines and of agents outside the die -/
  inputs : List Instr
  /-- cores that take the next turns -/
  turns : List (BitVec 6)
  /-- the other slots of the bundle that is issuing; empty between steps -/
  rest : List Instr
  /-- index of the next free value -/
  freeCount : Nat
  deriving DecidableEq, Repr

/-! ## Why a step stops -/

/-- Why the machine stops. -/
inductive Fault where
  /-- Raised by an access whose physical address lies in no memory that the die reaches: beyond the installed memory of the
  package (spec/01_machine.md R10), or in the HBM stacks of another die, which it reaches only through the fabric (R6).  No
  rule says what such an access does.  Safe: the model stops where the device may go on. -/
  | absentMemory
  deriving DecidableEq, Repr

/-- Why an instruction has no meaning here. -/
inductive Refusal where
  /-- Raised by `exec` for a row that the model does not give a meaning to.  Safe. -/
  | notModelled (mnemonic : String)
  deriving DecidableEq, Repr

/-! ## Reset -/

/-- The array registers at reset: FPROG and MLPROG as R259 and R261 give, the others by log entry 3. -/
def ArrayCtx.reset : ArrayCtx :=
  { e := 0, ePoison := false, es := 0, amax := 0, umax := 0, tau := Vector.replicate 32 0, pvec := 0, fprog := 0,
    mlprog := 0, lastFlags := 0 }

/-- System registers at reset: FMT 0x0000_4990 (R76), FSTAT 0 (R78), TRAPINFO 0 (R131). -/
def SysCtx.reset : SysCtx :=
  { fmt := 0x00004990, fmtDelay := [], fstat := 0, wdlim := 0, wdCount := 0, wdSince := 0, wdSuspended := false, wdForced := false,
    wdArmed := 0, tvec := 0, trapinfo := 0, sel := 0, fabstale := 0, mode := .user, handler := false, asid := 0 }

/-- A free response slot of generation 0 (R349). -/
def Slot.reset : Slot := { held := false, gen := 0, op := 0, since := 0 }

def FlowCtx.reset : FlowCtx :=
  { pc := 0, lastPc := 0, residency := .free, levels := [], kept := [], rptLeft := 0, beats := [],
    flagGrant := none, barWaiting := none, barGrant := none, serviceWait := none, homeAnswer := none, due := [],
    taking := none, preempt := false, factPoint := false, saveWait := none, hint := none, pendingArray := [], doneWait := false,
    task := none, succDone := false, slots := Vector.replicate 8 Slot.reset, watches := [], region := none, faulted := false,
    pourPos := 0, pourStart := 0, blankPlanes := 0, blankTrees := 0, firstOp := 0 }

/-- A context at reset: files zero (spec/26_host.md R399), queues empty, n0 the own die. -/
def Ctx.reset : Ctx :=
  { g := Vector.replicate 32 0, gPoison := 0, k := 0, m := Vector.replicate 8 0, b := Vector.replicate 16 0,
    n := (Vector.replicate 8 (0 : Coord)).set 0 Config.ownCoord, q := Vector.replicate 32 [], pend := [], owed := [],
    arr := ArrayCtx.reset, sys := SysCtx.reset, flow := FlowCtx.reset }

/-- A core at reset: flags 0 (R182), trees zero (R273), planes of KIND none (R242). -/
def Core.reset (id : BitVec 6) : Core :=
  { id := id, sel := 0, parked := [], cycle := 0, now := 0, f := Vector.replicate 32 0, waiters := [],
    trees := Vector.replicate 8 [], planes := Vector.replicate 4 { kind := .none, rows := [] }, cope := [],
    copePoison := [], copeScale := [], fact := none, cecount := 0, seq := 0, frozenLeft := 0, tlb := [],
    prefetch := [], held := [] }

/-- A cluster at reset: scratchpad zero, every granule empty, no tag valid (R154, R155, R399). -/
def Cluster.reset (id : BitVec 3) : Cluster :=
  { id := id, sp := [], full := [], tags := [], pourskew := 0, barrier := none, pours := [] }

def PortCounters.reset : PortCounters :=
  { flittx := 0, flitrx := 0, chkerr := 0, retry := 0, retrain := 0, down := 0 }

/-- The fabric control word's reset: FABTMO 2,000, RETRYLIM 8, LINKEN 0x3F (spec/23_fabric.md R361). -/
def fabricControlReset : BitVec 64 := 0x7D08003F

def Router.reset : Router :=
  { routeX := 0 :: 1 :: List.replicate 30 3, routeY := 0 :: 1 :: List.replicate 30 3, routeZ := 0 :: List.replicate 15 3,
    control := fabricControlReset, links := Vector.replicate 6 .up, replay := Vector.replicate 6 [], fails := Vector.replicate 6 none,
    ports := Vector.replicate 6 PortCounters.reset, agedrop := 0, unreach := 0, badpkt := 0, mgmtdrop := 0, timeout := 0,
    stale := 0, mgmtRing := [], mgmtHeld := [], outbox := [], retries := [], heldRequests := [], waiting := [] }

/-- The router after a reset that is no shakeout: its counters stay (spec/23_fabric.md R362). -/
def Router.restarted (r : Router) : Router :=
  { Router.reset with ports := r.ports, agedrop := r.agedrop, unreach := r.unreach, badpkt := r.badpkt, mgmtdrop := r.mgmtdrop,
                      timeout := r.timeout, stale := r.stale }

def Queues.reset : Queues :=
  { tasks := [], sets := [], serial := 0, badPlace := 0, agelim := 0x100000, lastCore := 63, lastBank := 15,
    notices := [], noticeSeq := 0, noticeDrop := 0, noticeTable := [], publications := [], unavailable := [], asked := [],
    saved := [] }

/-- The cadastre at reset: no entry in use, COST 0x0020, DMAX 16 (spec/21_tasks.md R327, R329). -/
def Lineage.reset : Lineage :=
  { entries := [], control := 0x200010, rho := (0, 1), published := 0, lossBase := 0, losscount := 0, replicas := [],
    adopted := [] }

def Die.reset : Die :=
  { coord := Config.ownCoord, domain := [0x0000, 0x0200, 0x0010, 0x0210] ++ List.replicate 60 0xFFFF, asTable := [], fills := [], fillEnds := [], ops := [], nextId := 0,
    queues := Queues.reset, trapLog := [], trapCount := 0, lineage := Lineage.reset, rings := [], shard := [], regions := [], ended := [], votes := [],
    clocks := { own := [], sent := [], received := [] }, router := Router.reset, defwdlim := 0x40000000,
    sensor := 0x044C000000000000, resetting := false }

def HostRegs.reset : HostRegs :=
  { subtail := 0, subdone := 0, subdrop := 0, subbad := 0, subrej := 0, rejlast := 0, fwstate := 0, dutymode := 0,
    winbase := 0, assistbase := 0, shakestat := 0, reportaddr := 0,
    infoaddr := BitVec.ofNat 64 Config.sensorHostPage, msix := [] }

def Firmware.reset : Firmware :=
  { log := [], events := [], busy := [], eventDrop := 0, assists := [], assistSeq := 0, assistFallback := 0, store := [],
    running := [], loaded := [], fuse := 0, mr := Vector.replicate 16 0, nonce := 0, rowsLogged := [], phase := .usual }

def Power.reset : Power :=
  { freq := 1100, calm := 0, stepdn := 0, floorns := 0, trips := 0, diereset := Vector.replicate 4 0 }

def Package.reset : Package :=
  { hbm := [], tier2 := [], hbmPoison := [], tier2Poison := [], timePs := 0, slew := 0, slewAcc := 0, timeHeld := true, clocks := 0, power := Power.reset,
    regs := HostRegs.reset, fw := Firmware.reset, out := [] }

/-- The machine right after reset (spec/28_package.md R405): no task is resident, memory lists nothing. -/
def State.reset : State :=
  { cur := Ctx.reset, core := Core.reset 0, cluster := Cluster.reset 0, cores := [], clusters := [], die := Die.reset,
    pkg := Package.reset, inputs := [], turns := [], rest := [], freeCount := 0 }

end Sys2Proof.Machine
end

