-- ==== Sys2Proof/Machine/Ops.lean ====
section
/-! DEFINITION. Named operations over the state: sparse stores, contexts and cores of the die, register files, queues,
fixed-latency results, counting flags, the cycle, notices, and taking and leaving a trap. -/
namespace Sys2Proof.Machine

/-! ## Sparse stores -/

/-- The value a store holds at a key; an unlisted key reads as `d`. -/
def smGet {α : Type} (d : α) (m : SMap α) (k : Nat) : α := (m.lookup k).getD d

/-- Inserts a pair before the first larger key. -/
def smInsert {α : Type} (k : Nat) (v : α) : SMap α → SMap α
  | [] => [(k, v)]
  | p :: r => if k < p.1 then (k, v) :: p :: r else p :: smInsert k v r

/-- Removes a key. -/
def smErase {α : Type} (k : Nat) (m : SMap α) : SMap α := m.filter (fun p => p.1 != k)

/-- Writes a key; writing the value that an unlisted key reads as removes the entry. -/
def smSet {α : Type} [DecidableEq α] (d : α) (m : SMap α) (k : Nat) (v : α) : SMap α :=
  if v = d then smErase k m else smInsert k v (smErase k m)

/-- Keys rise strictly and no entry equals what an unlisted key reads as. -/
def smWf {α : Type} [DecidableEq α] (d : α) : SMap α → Bool
  | [] => true
  | [p] => p.2 != d
  | p :: q :: r => p.2 != d && p.1 < q.1 && smWf d (q :: r)

/-- Byte memory: an unlisted byte reads as 0 (spec/26_host.md R399). -/
def memGet (m : Memory) (a : Nat) : Byte := smGet 0 m a

def memSet (m : Memory) (a : Nat) (v : Byte) : Memory := smSet 0 m a v

/-- The canonical form of a byte memory. -/
def Memory.wf (m : Memory) : Bool := smWf (0 : Byte) m

/-- `n` bytes from address `a` upward. -/
def memRead (m : Memory) (a n : Nat) : List Byte := (List.range n).map (fun i => memGet m (a + i))

/-- Writes bytes from address `a` upward. -/
def memWrite (m : Memory) (a : Nat) : List Byte → Memory
  | [] => m
  | b :: r => memWrite (memSet m a b) (a + 1) r

/-- A little-endian word of `n` bytes. -/
def memWord (m : Memory) (a n : Nat) : Nat := leNat (memRead m a n)

/-! ## Parts of the state -/

def State.modCtx (f : Ctx → Ctx) (s : State) : State := { s with cur := f s.cur }
def State.modCore (f : Core → Core) (s : State) : State := { s with core := f s.core }
def State.modCluster (f : Cluster → Cluster) (s : State) : State := { s with cluster := f s.cluster }
def State.modDie (f : Die → Die) (s : State) : State := { s with die := f s.die }
def State.modPkg (f : Package → Package) (s : State) : State := { s with pkg := f s.pkg }
def Ctx.modSys (f : SysCtx → SysCtx) (c : Ctx) : Ctx := { c with sys := f c.sys }
def Ctx.modFlow (f : FlowCtx → FlowCtx) (c : Ctx) : Ctx := { c with flow := f c.flow }
def Ctx.modArr (f : ArrayCtx → ArrayCtx) (c : Ctx) : Ctx := { c with arr := f c.arr }
def State.modSys (f : SysCtx → SysCtx) (s : State) : State := s.modCtx (Ctx.modSys f)
def State.modFlow (f : FlowCtx → FlowCtx) (s : State) : State := s.modCtx (Ctx.modFlow f)
def State.modArr (f : ArrayCtx → ArrayCtx) (s : State) : State := s.modCtx (Ctx.modArr f)
def State.modQueues (f : Queues → Queues) (s : State) : State := s.modDie (fun d => { d with queues := f d.queues })
def State.modLineage (f : Lineage → Lineage) (s : State) : State := s.modDie (fun d => { d with lineage := f d.lineage })
def State.modRouter (f : Router → Router) (s : State) : State := s.modDie (fun d => { d with router := f d.router })
def State.modFw (f : Firmware → Firmware) (s : State) : State := s.modPkg (fun p => { p with fw := f p.fw })
def State.modRegs (f : HostRegs → HostRegs) (s : State) : State := s.modPkg (fun p => { p with regs := f p.regs })

/-- The context that the model acts for. -/
def State.curId (s : State) : CtxId := { core := s.core.id, ctx := s.core.sel }

/-- Cluster of a core: CORE = CLUSTER·8 + ROW (spec/01_machine.md R11). -/
def clusterOf (core : BitVec 6) : BitVec 3 := bits 3 3 core

/-- `RANK` of a context (R11). -/
def rankOf (c : CtxId) : BitVec 16 := Config.ownDie ++ c.core ++ clusterOf c.core ++ bits 0 3 c.core ++ c.ctx

/-! ## Contexts, cores and clusters wherever they are -/

def coreAt (id : BitVec 6) (s : State) : Core :=
  if id = s.core.id then s.core else smGet (Core.reset id) s.cores id.toNat

def setCoreAt (id : BitVec 6) (c : Core) (s : State) : State :=
  if id = s.core.id then { s with core := c } else { s with cores := smSet (Core.reset id) s.cores id.toNat c }

def clusterAt (id : BitVec 3) (s : State) : Cluster :=
  if id = s.cluster.id then s.cluster else smGet (Cluster.reset id) s.clusters id.toNat

def setClusterAt (id : BitVec 3) (c : Cluster) (s : State) : State :=
  if id = s.cluster.id then { s with cluster := c }
  else { s with clusters := smSet (Cluster.reset id) s.clusters id.toNat c }

def ctxAt (id : CtxId) (s : State) : Ctx :=
  if id = s.curId then s.cur else smGet Ctx.reset (coreAt id.core s).parked id.ctx.toNat

def setCtxAt (id : CtxId) (c : Ctx) (s : State) : State :=
  if id = s.curId then { s with cur := c }
  else
    let k := coreAt id.core s
    setCoreAt id.core { k with parked := smSet Ctx.reset k.parked id.ctx.toNat c } s

def modCtxAt (id : CtxId) (f : Ctx → Ctx) (s : State) : State := setCtxAt id (f (ctxAt id s)) s
def modCoreAt (id : BitVec 6) (f : Core → Core) (s : State) : State := setCoreAt id (f (coreAt id s)) s
def modClusterAt (id : BitVec 3) (f : Cluster → Cluster) (s : State) : State := setClusterAt id (f (clusterAt id s)) s

/-! ## Fixed-latency results (spec/03_bundles.md R50) -/

/-- Flags of FSTAT by bit (spec/05_formats.md R78). -/
abbrev Flags := BitVec 10
def fIV : Flags := 1
def fDZ : Flags := 2
def fOF : Flags := 4
def fUF : Flags := 8
def fIX : Flags := 16
def fRU : Flags := 32
def fNPD : Flags := 64
def fZP : Flags := 128
def fTN : Flags := 256
def fTS : Flags := 512

/-- Writes of g0, k0 and m0 are discarded (R18). -/
def Dest.isZero : Dest → Bool
  | .g r => r == 0
  | .k r => r == 0
  | .m r => r == 0
  | .fstat => false

def setBit {n : Nat} (v : BitVec n) (i : Nat) (b : Bool) : BitVec n :=
  (v &&& ~~~(BitVec.ofNat n (2 ^ i))) ||| (if b then BitVec.ofNat n (2 ^ i) else 0)

/-- The write of a result at its destination; a clean result clears the tag (spec/09_traps.md R136). -/
def Ctx.writeDest (c : Ctx) (d : Dest) (v : BitVec 128) (poison : Bool) : Ctx :=
  if d.isZero then c
  else
    match d with
    | .g r => { c with g := c.g.set r.toNat (v.setWidth 64), gPoison := setBit c.gPoison r.toNat poison }
    | .k r => { c with k := setBit c.k r.toNat (v.getLsbD 0) }
    | .m r => { c with m := c.m.set r.toNat v }
    | .fstat => c

/-- Flags enter FSTAT (R79). -/
def Ctx.orFlags (c : Ctx) (f : Flags) : Ctx := c.modSys (fun y => { y with fstat := y.fstat ||| f })

/-- One result lands. -/
def Ctx.landOne (c : Ctx) (p : Pending) : Ctx :=
  ((if p.landed then c else c.writeDest p.dest p.value p.poison).orFlags p.flags)

/-- The results whose bound has come land, in program order. -/
def Ctx.landPend (cyc : Nat) (c : Ctx) : Ctx :=
  { c.pend.foldl (fun c p => if p.due ≤ cyc then c.landOne p else c) c with
    pend := c.pend.filter (fun p => cyc < p.due) }

/-- Entries land in push order: a fixed-latency entry at its bound, an interlocked one when its engine delivers it
(spec/13_vector.md R186). -/
def landQueue (cyc : Nat) : List QEntry → List QEntry
  | [] => []
  | e :: r =>
    if e.landed then e :: landQueue cyc r
    else if !e.interlocked && e.due ≤ cyc then { e with landed := true } :: landQueue cyc r
    else e :: r

def Ctx.land (cyc : Nat) (c : Ctx) : Ctx :=
  let c := c.landPend cyc
  { c with q := c.q.map (landQueue cyc) }

/-- An older result with a later bound is discarded, and its flags alone still land (R50). -/
def supersede (d : Dest) (due : Nat) (p : Pending) : Pending :=
  if p.dest = d ∧ due < p.due then { p with dest := .fstat } else p

/-- A fixed-latency result is issued: it lands `bound` cycles after this one. -/
def State.result (d : Dest) (v : BitVec 128) (poison : Bool) (flags : Flags) (bound : Nat) (s : State) : State :=
  let due := s.core.cycle + bound
  let d := if d.isZero then Dest.fstat else d
  s.modCtx (fun c => { c with pend := c.pend.map (supersede d due) ++
    [{ dest := d, value := v, poison := poison, flags := flags, due := due, landed := false }] })

/-- A result for a general register. -/
def State.resultG (r : BitVec 5) (v : Word) (poison : Bool) (flags : Flags) (bound : Nat) (s : State) : State :=
  s.result (.g r) (v.setWidth 128) poison flags bound

/-- A result for a predicate. -/
def State.resultK (r : BitVec 4) (v : Bool) (flags : Flags) (bound : Nat) (s : State) : State :=
  s.result (.k r) (if v then 1 else 0) false flags bound

/-- A result for a mask. -/
def State.resultM (r : BitVec 3) (v : BitVec 128) (flags : Flags) (bound : Nat) (s : State) : State :=
  s.result (.m r) v false flags bound

/-- A result that is flags alone. -/
def State.resultFlags (flags : Flags) (bound : Nat) (s : State) : State :=
  if flags = 0 then s else s.result .fstat 0 false flags bound

/-! ## Reading registers -/

/-- A destination has a result in flight: a read of it returns a free value (R50, R126). -/
def Ctx.inFlight (c : Ctx) (d : Dest) : Bool := c.pend.any (fun p => p.dest == d)

/-- Index of the free value that field `key` of the bundle takes at this issue. -/
def State.freeIdx (s : State) (key : Nat) : Nat := s.freeCount * 64 + key

/-- A general register with its poison tag.  `key` tells the reading fields of a bundle apart. -/
def State.readG (key : Nat) (r : BitVec 5) (s : State) : Word × Bool :=
  if r = 0 then (0, false)
  else if s.cur.inFlight (.g r) then (Config.freeWord (s.freeIdx key), Config.freeBit (s.freeIdx key))
  else (s.cur.g[r.toNat], s.cur.gPoison.getLsbD r.toNat)

/-- A predicate; k0 reads 1. -/
def State.readK (key : Nat) (r : BitVec 4) (s : State) : Bool :=
  if r = 0 then true
  else if s.cur.inFlight (.k r) then Config.freeBit (s.freeIdx key)
  else s.cur.k.getLsbD r.toNat

/-- A mask; m0 is all ones. -/
def State.readM (key : Nat) (r : BitVec 3) (s : State) : BitVec 128 :=
  if r = 0 then BitVec.allOnes 128
  else if s.cur.inFlight (.m r) then (Config.freeEntry (s.freeIdx key)).setWidth 128
  else s.cur.m[r.toNat]

def State.readB (r : BitVec 4) (s : State) : Record := s.cur.b[r.toNat]
def State.readN (r : BitVec 3) (s : State) : Coord := s.cur.n[r.toNat]

/-- A buffer record is written (interlocked, R50). -/
def State.writeB (r : BitVec 4) (v : Record) (s : State) : State :=
  s.modCtx (fun c => { c with b := c.b.set r.toNat v })

/-- Whether an interlocked operation still owes a value to a register. -/
def Ctx.isOwed (c : Ctx) (r : OwedReg) : Bool := c.owed.any (fun p => p.1 == r)

/-- An interlocked operation will write a register: older fixed-latency results for it never land (R50). -/
def State.owe (r : OwedReg) (op : Nat) (s : State) : State :=
  s.modCtx (fun c =>
    let pend := match r with
      | .g x => c.pend.map (fun p => if p.dest == .g x then { p with dest := .fstat } else p)
      | .b _ => c.pend
    { c with pend := pend, owed := c.owed ++ [(r, op)] })

/-- FMT in force for the bundle that issues (R51). -/
def State.fmt (s : State) : BitVec 32 := s.cur.sys.fmt

/-! ## Queues (spec/13_vector.md R184 to R190) -/

def Ctx.queue (c : Ctx) (r : BitVec 5) : List QEntry := c.q[r.toNat]

def Ctx.setQueue (c : Ctx) (r : BitVec 5) (l : List QEntry) : Ctx := { c with q := c.q.set r.toNat l }

/-- The head as a bundle reads it (R188): none, an entry to wait for, or bits and tag. -/
inductive Head where
  | underflow
  | waits
  | value (bits : BitVec 1024) (poison : Bool)
  deriving DecidableEq, Repr

/-- One entry as a read of it sees it. -/
def State.entryHead (key : Nat) (e : QEntry) (s : State) : Head :=
  if e.landed then .value e.bits e.poison
  else if e.interlocked then .waits
  else .value (Config.freeEntry (s.freeIdx key)) (Config.freeBit (s.freeIdx key))

def State.head (key : Nat) (r : BitVec 5) (s : State) : Head :=
  match s.cur.queue r with
  | [] => .underflow
  | e :: _ => s.entryHead key e

def State.popQ (r : BitVec 5) (s : State) : State := s.modCtx (fun c => c.setQueue r (c.queue r).tail)

/-- A fixed-latency push (R185). -/
def State.pushQ (r : BitVec 5) (v : BitVec 1024) (poison : Bool) (bound : Nat) (s : State) : State :=
  s.modCtx (fun c => c.setQueue r (c.queue r ++
    [{ bits := v, poison := poison, landed := false, interlocked := false, due := s.core.cycle + bound, op := 0 }]))

/-- An interlocked push that operation `op` owes. -/
def State.pushOwed (r : BitVec 5) (op : Nat) (s : State) : State :=
  s.modCtx (fun c => c.setQueue r (c.queue r ++
    [{ bits := 0, poison := false, landed := false, interlocked := true, due := 0, op := op }]))

/-- The engine delivers an interlocked entry: it lands once every older entry has. -/
def Ctx.deliverQ (cyc : Nat) (r : BitVec 5) (op : Nat) (v : BitVec 1024) (poison : Bool) (c : Ctx) : Ctx :=
  c.setQueue r (landQueue cyc ((c.queue r).map (fun e =>
    if e.interlocked && e.op == op then { e with bits := v, poison := poison, interlocked := false, due := cyc } else e)))

/-! ## Counting flags (spec/15_ordering.md; spec/11_storage.md R182) -/

/-- A post adds and saturates. -/
def satAdd16 (a : BitVec 16) (n : Nat) : BitVec 16 := BitVec.ofNat 16 (min (a.toNat + n) 65535)

def Core.post (f : BitVec 5) (n : Nat) (c : Core) : Core :=
  { c with f := c.f.set f.toNat (satAdd16 c.f[f.toNat] n) }

/-- A post to a flag of any core of the die. -/
def postFlag (core : BitVec 6) (f : BitVec 5) (n : Nat) (s : State) : State := modCoreAt core (Core.post f n) s

/-- The head waiter of a flag. -/
def Core.firstWaiter (c : Core) (f : BitVec 5) : Option Waiter := c.waiters.find? (fun w => w.flag == f)

def Core.dropWaiters (x : BitVec 2) (c : Core) : Core := { c with waiters := c.waiters.filter (fun w => w.ctx != x) }

/-- A context waits on a flag, once, in order of arrival (R183). -/
def Core.addWaiter (x : BitVec 2) (f : BitVec 5) (n : BitVec 16) (c : Core) : Core :=
  if c.waiters.any (fun w => w.ctx == x && w.flag == f) then c
  else { c with waiters := c.waiters ++ [{ ctx := x, flag := f, count := n }] }

/-- A wait of context `x` for count `n` is met: it is the first waiter, or there is none, and the flag holds `n`. -/
def Core.flagMet (x : BitVec 2) (f : BitVec 5) (n : BitVec 16) (c : Core) : Bool :=
  (match c.firstWaiter f with | none => true | some w => w.ctx == x) && n ≤ c.f[f.toNat]

/-- The wait is served: the count leaves the flag, down to 0, and the waiter its queue. -/
def Core.serveFlag (x : BitVec 2) (f : BitVec 5) (n : BitVec 16) (c : Core) : Core :=
  { c with f := c.f.set f.toNat (BitVec.ofNat 16 (c.f[f.toNat].toNat - n.toNat)),
           waiters := c.waiters.filter (fun w => !(w.ctx == x && w.flag == f)) }

/-! ## The watchdog count (spec/09_traps.md R146) -/

/-- The count rises while the task is resident, be it in its save, WDLIM is not 0 and counting is not suspended. -/
def Ctx.counting (c : Ctx) : Bool :=
  (c.flow.residency == .running || c.flow.residency == .saving) && c.sys.wdlim != 0 && !c.sys.wdSuspended

def Ctx.wdValue (cyc : Nat) (c : Ctx) : Nat :=
  c.sys.wdCount + (if c.counting then cyc - c.sys.wdSince else 0)

/-- Fixes the count reached, so that what follows counts from this cycle. -/
def Ctx.wdSettle (cyc : Nat) (c : Ctx) : Ctx :=
  let n := c.wdValue cyc
  c.modSys (fun y => { y with wdCount := n, wdSince := cyc })

def Ctx.wdZero (cyc : Nat) (c : Ctx) : Ctx := c.modSys (fun y => { y with wdCount := 0, wdSince := cyc })

/-- The count is at or above a WDLIM that is not 0, or `wdog` has forced expiry. -/
def Ctx.wdOver (cyc : Nat) (c : Ctx) : Bool := c.sys.wdForced || (c.sys.wdlim != 0 && c.sys.wdlim.toNat ≤ c.wdValue cyc)

/-- The watchdog expires at the next boundary. -/
def Ctx.wdExpired (cyc : Nat) (c : Ctx) : Bool := (c.flow.residency == .running) && c.wdOver cyc

/-! ## The cycle -/

/-- Length of a cycle in ps at the running clock (spec/28_package.md R401). -/
def Package.cyclePs (p : Package) : Nat := 1000000 / p.power.freq

/-- The part of an outstanding correction of the time base that `ps` ps bring: one part in 10,000 at most, and no more than
what is outstanding (spec/28_package.md R403). -/
def Package.slewBy (ps : Nat) (p : Package) : Int :=
  let most : Int := ((p.slewAcc + ps) / 10000 : Nat)
  max (-most) (min most p.slew)

/-- Time passes: some cycles of the arithmetic clock. -/
def Package.pass (n : Nat) (p : Package) : Package :=
  let ps := n * p.cyclePs
  { p with timePs := ((p.timePs + ps : Nat) + p.slewBy ps).toNat, clocks := p.clocks + n, slew := p.slew - p.slewBy ps,
           slewAcc := if p.slew = 0 then 0 else (p.slewAcc + ps) % 10000 }

/-- A task runs on the core in focus. -/
def State.coreRuns (s : State) : Bool :=
  s.cur.flow.residency == .running || s.core.parked.any (fun x => x.2.flow.residency == .running)

/-- The cycle of the arithmetic clock to which the core in focus has come: the core counts its own while a task runs on it, and
stands at the latest otherwise. -/
def State.clockHere (s : State) : Nat := if s.coreRuns then s.core.now else s.pkg.clocks

/-- Cycles pass on the core in focus.  The cores of the package share one arithmetic clock (R401): what other cores have already
passed through passes for this one without moving the package's time (log entry 2). -/
def State.passClocks (n : Nat) (s : State) : State :=
  let t := s.clockHere
  { s with core := { s.core with now := t + n }, pkg := s.pkg.pass (t + n - max t s.pkg.clocks) }

/-- One cycle of the core in focus passes: results whose bound has come land. -/
def State.tick (s : State) : State :=
  let n := s.core.cycle + 1
  let s := s.passClocks 1
  { s with cur := s.cur.land n, core := { s.core with cycle := n }, freeCount := s.freeCount + 1 }

/-- The package time base in ns (R403). -/
def State.timeNs (s : State) : Nat := s.pkg.timePs / 1000

/-! ## Moving the focus -/

/-- Another context of the core in focus becomes the current one. -/
def focusCtx (x : BitVec 2) (s : State) : State :=
  if x = s.core.sel then s
  else
    let parked := smSet Ctx.reset s.core.parked s.core.sel.toNat s.cur
    let c := smGet Ctx.reset parked x.toNat
    { s with cur := c.land s.core.cycle, core := { s.core with sel := x, parked := smErase x.toNat parked } }

/-- Another core becomes the one in focus, with its cluster. -/
def focusCore (id : BitVec 6) (s : State) : State :=
  if id = s.core.id then s
  else
    let k := { s.core with parked := smSet Ctx.reset s.core.parked s.core.sel.toNat s.cur }
    let cores := smSet (Core.reset k.id) s.cores k.id.toNat k
    let clusters := smSet (Cluster.reset s.cluster.id) s.clusters s.cluster.id.toNat s.cluster
    let n := smGet (Core.reset id) cores id.toNat
    let cl := clusterOf id
    { s with
      cur := smGet Ctx.reset n.parked n.sel.toNat
      core := { n with parked := smErase n.sel.toNat n.parked }
      cores := smErase id.toNat cores
      cluster := smGet (Cluster.reset cl) clusters cl.toNat
      clusters := smErase cl.toNat clusters }

def focus (c : CtxId) (s : State) : State := focusCtx c.ctx (focusCore c.core s)

/-- Acts for another context and comes back. -/
def withFocus (c : CtxId) (f : State → State) (s : State) : State :=
  let back := s.curId
  focus back (f (focus c s))

/-! ## Tasks in context -/

/-- Fields of a launch packet (spec/21_tasks.md R303). -/
def pktCode (p : BitVec 512) : Word := bits 448 64 p
def pktPlat (p : BitVec 512) : Word := bits 384 64 p
def pktTmpl (p : BitVec 512) : Word := bits 320 64 p
def pktLive (p : BitVec 512) : Word := bits 256 64 p
def pktSetid (p : BitVec 512) : BitVec 32 := bits 224 32 p
def pktPredid (p : BitVec 512) : BitVec 32 := bits 192 32 p
def pktSuccid (p : BitVec 512) : BitVec 32 := bits 160 32 p
def pktGx (p : BitVec 512) : BitVec 16 := bits 144 16 p
def pktGy (p : BitVec 512) : BitVec 16 := bits 128 16 p
def pktGz (p : BitVec 512) : BitVec 16 := bits 112 16 p
def pktAsid (p : BitVec 512) : BitVec 16 := bits 96 16 p
def pktLivelen (p : BitVec 512) : BitVec 12 := bits 84 12 p
def pktPri (p : BitVec 512) : BitVec 3 := bits 81 3 p
def pktSuccpol (p : BitVec 512) : BitVec 2 := bits 79 2 p
def pktPour (p : BitVec 512) : Bool := p.getLsbD 78
def pktCstart (p : BitVec 512) : BitVec 17 := bits 61 17 p
def pktClen (p : BitVec 512) : BitVec 18 := bits 43 18 p
def pktSpstart (p : BitVec 512) : BitVec 19 := bits 24 19 p
def pktSplen (p : BitVec 512) : BitVec 20 := bits 4 20 p
def pktBank (p : BitVec 512) : BitVec 4 := bits 0 4 p

/-- KIND of a notice (R320). -/
def noticeKind (n : BitVec 512) : BitVec 8 := bits 72 8 n

/-- The entry of the notice table for a notice's KIND (spec/21_tasks.md R319), once firmware has written it. -/
def State.noticeCode (n : BitVec 512) (s : State) : Option Word := s.die.queues.noticeTable.lookup (noticeKind n).toNat

/-- Code address of a task: its packet's CODE, or the notice table's entry for its KIND (R317, R319). -/
def State.taskCode (t : TaskRef) (s : State) : Word :=
  if t.notice then (s.noticeCode t.packet).getD 0 else pktCode t.packet

/-! ## Notices (R319, R320) -/

/-- The arguments A0 to A4 of a notice. -/
structure NoticeArgs where
  a0 : Word
  a1 : Word
  a2 : Word
  a3 : Word
  a4 : Word
  deriving DecidableEq, Repr

def mkNotice (kind cause : BitVec 8) (args : NoticeArgs) (setid : BitVec 32) (x y z : BitVec 16) (rank seq : BitVec 16)
    (time : Word) : BitVec 512 :=
  args.a4 ++ args.a3 ++ args.a2 ++ args.a1 ++ args.a0 ++ setid ++ x ++ y ++ z ++ rank ++ seq ++ kind ++ cause ++ time

def State.noticesFull (s : State) : Bool := 4096 ≤ s.die.queues.notices.length

/-- An event enters the firmware's queue, or is dropped and counted where it is full (spec/26_host.md R388). -/
def Firmware.push (key : Nat) (w : FwWork) (f : Firmware) : Firmware :=
  if 65536 ≤ f.events.length then { f with eventDrop := f.eventDrop + 1 }
  else { f with events := f.events ++ [{ key := key, work := w }] }

/-- The same in the state. -/
def pushEvent (key : Nat) (w : FwWork) (s : State) : State := s.modFw (Firmware.push key w)

/-- The number of a die in its package: x lowest (spec/01_machine.md R12). -/
def dieIndex (c : Coord) : Nat := (if c.getLsbD 9 then 1 else 0) + (if c.getLsbD 4 then 2 else 0)

/-- The ordering key of the notices of this die (R388). -/
def State.noticeKey (s : State) : Nat := 1 + dieIndex s.die.coord

/-- A notice addressed to firmware is an event of the firmware complex too.  DESIGN CHOICE: R388 does not say which KINDs are; a
service notice, which a task addresses to the service, is none, and of the others it is free (log entry 70). -/
def tellFirmware (kind : BitVec 8) (n : BitVec 512) (s : State) : State :=
  s.modFw (fun f => if kind ≠ 2 ∧ Config.firmwareNotice kind then f.push s.noticeKey (.notice n) else f)

/-- Enqueues a notice, or drops and counts it when the queue is full. -/
def enqueueNotice (kind cause : BitVec 8) (args : NoticeArgs) (t : Option TaskRef) (rank : BitVec 16) (s : State) : State :=
  if s.noticesFull then s.modQueues (fun q => { q with noticeDrop := q.noticeDrop + 1 })
  else
    let id := match t with
      | some t => (if t.notice then (0 : BitVec 32) else pktSetid t.packet, t.x, t.y, t.z)
      | none => (0, 0, 0, 0)
    let n := mkNotice kind cause args id.1 id.2.1 id.2.2.1 id.2.2.2 rank s.die.queues.noticeSeq
      (BitVec.ofNat 64 s.timeNs)
    tellFirmware kind n (s.modQueues (fun q => { q with notices := q.notices ++ [n], noticeSeq := q.noticeSeq + 1 }))

/-! ## Traps (spec/09_traps.md R122 to R132) -/

/-- Codes of R127. -/
def Cause.code : Cause → BitVec 8
  | .illegal => 0x01 | .privilege => 0x02 | .misalignedTarget => 0x03 | .fetchFault => 0x04 | .misalignedOperand => 0x05
  | .poison => 0x06 | .loopNest => 0x07 | .noHandler => 0x08 | .softwareTrap => 0x09 | .formatValue => 0x0A
  | .operandValue => 0x0B | .queueFull => 0x0C | .queueUnderflow => 0x0D | .queueOverflow => 0x0E
  | .fpException => 0x0F | .repeatRange => 0x10 | .pivot => 0x11 | .translationFault => 0x12
  | .permissionFault => 0x13 | .bounds => 0x14 | .fabricTimeout => 0x15 | .engineFault => 0x16
  | .regionAborted => 0x17 | .livenessEntry => 0x18 | .watchdog => 0x19 | .uncorrectable => 0x1A
  | .saveOverrun => 0x1B | .pourStopped => 0x1C | .predecessorFailed => 0x1D

/-- Class X: the task always retires (R127). -/
def Cause.classX (c : Cause) : Bool := 0x19 ≤ c.code

/-- The recorded cause: bit 7 tells that the trap arose in handler state (R127). -/
def causeByte (c : Cause) (handler : Bool) : BitVec 8 := c.code ||| (if handler then 0x80 else 0)

/-- Logged bytes as a bit field, byte 0 lowest. -/
def loggedBits (n : Nat) (bs : List Byte) : BitVec n := BitVec.ofNat n (leNat bs)

/-- TRAPINFO as delivered (R131). -/
def trapInfo (r : TrapReq) (handler : Bool) (ret : Word) : BitVec 640 :=
  loggedBits 384 r.logged ++ r.faddr ++ (0 : BitVec 8) ++ ret.setWidth 56 ++ (0 : BitVec 8) ++ r.pc.setWidth 56 ++
    causeByte r.cause handler ++ r.aux ++ r.slot ++ BitVec.ofNat 6 r.logged.length ++ (0 : BitVec 39)

/-- PC minus the code address, or all ones where it does not fit (R132). -/
def pcOffset (pc code : Word) : BitVec 24 :=
  if code ≤ pc ∧ (pc - code).toNat ≤ 0xFFFFFE then (pc - code).setWidth 24 else BitVec.allOnes 24

/-- A trap record (R132). -/
def trapRecord (r : TrapReq) (handler : Bool) (code : Word) (c : CtxId) (seq : BitVec 32) (time : Word) : BitVec 512 :=
  loggedBits 376 r.logged ++ pcOffset r.pc code ++ c.core ++ c.ctx ++ causeByte r.cause handler ++ seq ++ time

/-- Writes the record of a trap of the current context to the trap log; the log is a ring of 65,536 slots (R133). -/
def writeRecord (r : TrapReq) (s : State) : State :=
  let code := match s.cur.flow.task with | some t => s.taskCode t | none => 0
  let rec_ := trapRecord r s.cur.sys.handler code s.curId s.core.seq (BitVec.ofNat 64 s.timeNs)
  let s := s.modDie (fun d =>
    { d with trapLog := smSet 0 d.trapLog (d.trapCount % 65536) rec_, trapCount := d.trapCount + 1 })
  s.modCore (fun k => { k with seq := k.seq + 1 })

/-- The slot of the record written last. -/
def State.lastRecord (s : State) : Word := BitVec.ofNat 64 ((s.die.trapCount - 1) % 65536)

/-- The delay of FMT ends: FMT holds what was written last (spec/03_bundles.md R51). -/
def SysCtx.endDelay (y : SysCtx) : SysCtx :=
  match y.fmtDelay.getLast? with
  | some w => { y with fmt := w.value, fmtDelay := [] }
  | none => y

/-- Waits and grants of the current context end. -/
def endWaits (s : State) : State :=
  let me := s.curId
  let s := s.modCore (Core.dropWaiters me.ctx)
  s.modFlow (fun w => { w with homeAnswer := none, rptLeft := 0, beats := [], doneWait := false, serviceWait := none })

/-- The access that asked the host for a translation has ended, and with it what the host answered in place of a table entry
(spec/26_host.md R397). -/
def State.dropEnds (s : State) : State := s.modDie (fun d => { d with fillEnds := [] })

/-- The contexts of the die. -/
def allCtxs : List CtxId :=
  (List.range 256).map (fun i => { core := BitVec.ofNat 6 (i / 4), ctx := BitVec.ofNat 2 (i % 4) })

/-- The other contexts that run the same pour (spec/01_machine.md R14). -/
def pourMates (s : State) : List CtxId :=
  match s.cur.flow.task with
  | some t =>
    if t.pour then allCtxs.filter (fun c => c != s.curId && (ctxAt c s).flow.residency == .running &&
      (match (ctxAt c s).flow.task with | some u => u.serial == t.serial | none => false))
    else []
  | none => []

/-- The task counts as retired in its set, and its publication stands (R314, R318). -/
def countRetired (t : TaskRef) (owner : CtxId) (faulted : Bool) (s : State) : State :=
  s.modQueues (fun q =>
    { q with publications := q.publications ++ [({ key := t.serial, owner := owner, ref := t, faulted := faulted } : Publication)],
             sets := q.sets.map (fun e => if e.inst = t.inst ∧ t.rebuild.isNone then { e with live := e.live - 1 } else e) })

/-! ## Pours (spec/01_machine.md R14; R130) -/

/-- Row rank of a core (spec/01_machine.md R11). -/
def rowOf (core : BitVec 6) : Nat := (bits 0 3 core : BitVec 3).toNat

/-- The pour that the current context is part of. -/
def State.pour (s : State) : Option Pour :=
  match s.cur.flow.task with
  | some t => if t.pour then s.cluster.pours.find? (fun p => p.serial == t.serial) else none
  | none => none

/-- The sequencer stops at the bundle that the current context has come to: no later bundle is issued, and each row still
executes what it has received. -/
def Pour.stopAt (pos now : Nat) (p : Pour) : Pour :=
  if p.stop.isSome then p
  else
    let base := min (pos + 1) p.stream.length
    { p with stop := some ((List.range 8).map (fun row =>
        max base (p.stream.countP (fun b => b.2 + p.skew.toNat * row ≤ now)))) }

def modPour (serial : Nat) (f : Pour → Pour) (s : State) : State :=
  s.modCluster (fun c => { c with pours := c.pours.map (fun p => if p.serial = serial then f p else p) })

/-- A core of a pour has trapped: its cause is kept, and the stream stops. -/
def stopPour (r : TrapReq) (s : State) : State :=
  match s.pour with
  | none => s
  | some p =>
    if r.cause = .pourStopped then s
    else
      let code := causeByte r.cause s.cur.sys.handler
      modPour p.serial (fun p =>
        let q := p.stopAt s.cur.flow.pourPos (s.core.cycle - s.cur.flow.pourStart)
        { q with causes := q.causes ++ [(rowOf s.core.id, code, s.lastRecord)] }) s

/-- The cause of the lowest-ranked core among those that trapped. -/
def firstCause : List (Nat × BitVec 8 × Word) → Option (Nat × BitVec 8 × Word)
  | [] => none
  | c :: r => match firstCause r with | some d => some (if d.1 < c.1 then d else c) | none => some c

/-- The last context of a pour retires: the notice names the cause of the lowest-ranked core that trapped. -/
def endPour (p : Pour) (s : State) : State :=
  let s : State := match firstCause p.causes with
    | some c => enqueueNotice 1 c.2.1 { a0 := c.2.2, a1 := 0, a2 := 0, a3 := 0, a4 := 0 } s.cur.flow.task
        (rankOf { s.curId with core := s.cluster.id ++ BitVec.ofNat 3 c.1 }) s
    | none => s
  s.modCluster (fun c => { c with pours := c.pours.filter (fun x => x.serial != p.serial) })

/-- An operation of a task that has retired faulted posts nothing (R129). -/
def Op.unposted (o : Op) : Op :=
  { o with post := none, kind := match o.kind with | .blockCopy src _ => .blockCopy src none | k => k }

/-- The task of the current context ends: it issues nothing more, its results in flight are discarded, its watches and
waits end, and the context stays taken until its operations have ended (R101, R129).  A pour ends with its last context, and
faulted where any core of it trapped (R130). -/
def retire (faulted : Bool) (s : State) : State :=
  let me := s.curId
  let serial := match s.cur.flow.task with | some t => t.serial | none => 0
  let s := if faulted then s.modDie (fun d => { d with ops := d.ops.map (fun o =>
    if o.owner = me ∧ o.serial = serial then o.unposted else o) }) else s
  let s : State := match s.cur.flow.task with
    | some t =>
      if t.notice || !(pourMates s).isEmpty then s
      else
        match s.pour with
        | some p => endPour p (countRetired t me (faulted || !p.causes.isEmpty) s)
        | none => countRetired t me faulted s
    | none => s
  let s := s.modCore (fun k =>
    { (Core.dropWaiters me.ctx k) with held := k.held.filter (fun h =>
        match s.cur.flow.task with | some t => h.owner != t.serial | none => true) })
  let cyc := s.core.cycle
  s.modCtx (fun c => { c.wdSettle cyc with
    pend := [], owed := [], q := Vector.replicate 32 [],
    flow := { c.flow with
      residency := .retiring, levels := [], kept := [], rptLeft := 0, beats := [], flagGrant := none,
      barWaiting := none, barGrant := none, serviceWait := none, homeAnswer := none, due := [], taking := none,
      preempt := false, factPoint := false, saveWait := none, hint := none, pendingArray := [], doneWait := false, watches := [],
      faulted := faulted },
    sys := { c.sys with handler := false, wdForced := false, wdSuspended := false, fmtDelay := [] } })

/-- `retire_faulted` of R129; the record is already written.  In a pour the core retires for itself, and the notice comes with
the last of them (R130). -/
def retireFaulted (r : TrapReq) (s : State) : State :=
  if s.pour.isSome then retire true (stopPour r s)
  else
    let t := s.cur.flow.task
    let code := causeByte r.cause s.cur.sys.handler
    let args : NoticeArgs := { a0 := s.lastRecord, a1 := 0, a2 := 0, a3 := 0, a4 := 0 }
    retire true (enqueueNotice 1 code args t (rankOf s.curId) s)

/-- A trap retires the task instead of going to a handler (R128, R130). -/
def Ctx.trapRetires (c : Ctx) (cause : Cause) : Bool :=
  cause.classX || c.sys.handler || c.sys.tvec == 0 ||
    (match c.flow.task with | some t => t.pour | none => false)

/-- Delivery of a trap of the current context after its drain (R128). -/
def deliverTrap (r : TrapReq) (s : State) : State :=
  let ret := r.ret.getD s.cur.flow.pc
  let r := if r.ret.isNone && r.logged.isEmpty then { r with pc := ret } else r
  let s := ((endWaits s).modSys SysCtx.endDelay).dropEnds
  let s := writeRecord r s
  if s.cur.trapRetires r.cause then retireFaulted r s
  else
    s.modCtx (fun c => { c with
      sys := { c.sys with trapinfo := trapInfo r c.sys.handler ret, sel := 0, handler := true },
      flow := { c.flow with kept := c.flow.levels, levels := [], pc := c.sys.tvec, taking := none } })

/-- RET of TRAPINFO (R131). -/
def SysCtx.ret (y : SysCtx) : Word := (bits 128 56 y.trapinfo).setWidth 64

/-- The return from a handler: handler state ends, the kept loop levels come back, and the context continues at
TRAPINFO.RET (spec/07_scalar_control.md R100). -/
def returnTrap (s : State) : State :=
  s.modCtx (fun c => { c with
    sys := { c.sys with handler := false },
    flow := { c.flow with levels := c.flow.kept, kept := [], pc := c.sys.ret } })

/-- A cause for a context, arising in a given cycle of its core; it logs the return point, or what `log` names. -/
def boundaryReq (cause : Cause) (aux : BitVec 8) (faddr : Word) (log : Option (Word × List Byte)) (cyc : Nat) (x : Ctx) :
    TrapReq :=
  { cause := cause, aux := aux, faddr := faddr, slot := 0, pc := (match log with | some l => l.1 | none => x.flow.pc),
    logged := (match log with | some l => l.2 | none => []), ret := none, cycle := cyc }

def Ctx.addDue (r : TrapReq) (x : Ctx) : Ctx := x.modFlow (fun w => { w with due := w.due ++ [r] })

/-- Changes the context of pre-empted tasks. -/
def modSaved (p : Saved → Bool) (f : Ctx → Ctx) (s : State) : State :=
  s.modQueues (fun q => { q with saved := q.saved.map (fun v => if p v then { v with ctx := f v.ctx } else v) })

/-- A boundary cause becomes due for a context (R125, R410); of a context that is being saved, it is taken once the task
resumes. -/
def raiseBoundary (c : CtxId) (cause : Cause) (aux : BitVec 8) (faddr : Word) (log : Option (Word × List Byte))
    (s : State) : State :=
  let cyc := (coreAt c.core s).cycle
  match (ctxAt c s).flow.residency with
  | .running => modCtxAt c (fun x => x.addDue (boundaryReq cause aux faddr log cyc x)) s
  | .saving => modSaved (fun v => v.home == c && v.saving) (fun x => x.addDue (boundaryReq cause aux faddr log cyc x)) s
  | _ => s

/-- The order of R410 among due causes. -/
def TrapReq.before (a b : TrapReq) : Bool :=
  if a.cause.classX != b.cause.classX then a.cause.classX
  else if a.cycle != b.cycle then a.cycle < b.cycle
  else a.cause.code < b.cause.code

/-- The cause taken first, and the others. -/
def pickDue : List TrapReq → Option (TrapReq × List TrapReq)
  | [] => none
  | r :: rest =>
    match pickDue rest with
    | none => some (r, [])
    | some (b, others) => if b.before r then some (b, r :: others) else some (r, rest)

end Sys2Proof.Machine
end

