-- ==== Sys2Proof/Machine/Memory.lean ====
section
/-! DEFINITION. Physical memory, translation, buffer records and the bytes they name (spec/11_storage.md R156 to R164). -/
namespace Sys2Proof.Machine

/-! ## Buffer records (R156) -/

def recScale (r : Record) : BitVec 32 := bits 188 32 r
def recPolicy (r : Record) : BitVec 2 := bits 186 2 r
def recSpace (r : Record) : BitVec 2 := bits 184 2 r
def recOrder (r : Record) : BitVec 2 := bits 182 2 r
def recScope (r : Record) : BitVec 3 := bits 179 3 r
def recBounds (r : Record) : BitVec 3 := bits 176 3 r
def recFmt (r : Record) : BitVec 8 := bits 168 8 r
def recStride1 (r : Record) : BitVec 32 := bits 136 32 r
def recStride0 (r : Record) : BitVec 32 := bits 104 32 r
def recExtent (r : Record) : BitVec 40 := bits 64 40 r
def recBase (r : Record) : BitVec 64 := bits 0 64 r

/-- The record check of R157; `remote` tells that the instruction names a peer other than n0. -/
def recordOk (r : Record) (remote : Bool) : Bool :=
  bits 220 36 r == 0 && recPolicy r != 3 && recScope r < 6 && recBounds r < 3 && recFmt r < 14 &&
    bits 56 8 (recBase r) == 0 &&
    (recSpace r != 2 || (recBase r).toNat + (recExtent r).toNat ≤ 2 ^ 25) &&
    (recSpace r != 3 || (recBase r).toNat + (recExtent r).toNat ≤ 2 ^ 40) &&
    (recBounds r != 2 || recExtent r != 0) && (!remote || recSpace r == 3)

/-- The record check with FMT set aside, for `tld.sp` (R165). -/
def recordFmtOk (r : Record) : Bool := recFmt r < 14

/-- Where a record offset leads (R158). -/
inductive Place where
  | byte (off : Nat)
  | clamped
  | outside (off : Int)
  deriving DecidableEq, Repr

/-- The byte at a record offset, under the record's bounds mode (R158).  The offset found counts from BASE. -/
def recPlace (r : Record) (t : Int) : Place :=
  let e : Int := (recExtent r).toNat
  if 0 ≤ t ∧ t < e then .byte t.toNat
  else if recBounds r = 0 then .outside t
  else if recBounds r = 1 then .clamped
  else .byte (t % e).toNat

/-- The places of `n` contiguous bytes from offset `t`. -/
def recRun (r : Record) (t : Int) (n : Nat) : List Place := (List.range n).map (fun i => recPlace r (t + i))

/-- The address of a byte of a record: scratchpad byte, virtual address, or virtual address in the heap (R161). -/
def recAddr (r : Record) (off : Nat) : Nat :=
  (recBase r).toNat + off + (if recSpace r = 3 then Config.heapBase else 0)

/-- The first offset that a bounds trap names (R158), as the virtual address that it would be. -/
def firstOutside (r : Record) : List Place → Option Word
  | [] => none
  | .outside t :: _ => some (BitVec.ofInt 64 ((recAddr r 0 : Nat) + t))
  | _ :: rest => firstOutside r rest

/-! ## Physical memory -/

def Tier.size : Tier → Nat
  | .hbm => Config.hbmBytes
  | .second => Config.tier2Bytes

/-- The die reaches a physical address without the fabric: in its own two stacks (spec/01_machine.md R6), or in the second
tier. -/
def reaches (k : Tier) (pa : Nat) : Bool :=
  match k with
  | .hbm => Config.ownHbmFrom ≤ pa && pa < Config.ownHbmEnd
  | .second => pa < Config.tier2Bytes

/-- The 64-byte block of a physical address (spec/21_tasks.md R337). -/
def blockOf (pa : Nat) : Nat := pa / 64

/-- The words of the die information page (spec/28_package.md R409); addresses are PRESUMED (log entry 6). -/
def infoWord (s : State) (off : Nat) : Word :=
  match off with
  | 0x000 => BitVec.ofNat 64 s.timeNs
  | 0x008 => s.die.defwdlim.setWidth 64
  | 0x010 => BitVec.ofNat 64 Config.supervisorVA
  | 0x018 => BitVec.ofNat 64 (Config.supervisorVA + 8)
  | 0x020 => BitVec.ofNat 64 (Config.supervisorVA + 16)
  | 0x028 => BitVec.ofNat 64 (Config.supervisorVA + 0x100)
  | 0x030 => BitVec.ofNat 64 (Config.supervisorVA + 0x200)
  | 0x038 => BitVec.ofNat 64 (Config.supervisorVA + 0x400)
  | 0x040 => s.die.coord.setWidth 64
  | _ => 0

/-- The router counters in the order of spec/23_fabric.md R362: the per-link ones in port order, then the die's. -/
def routerCounters (r : Router) : List Word :=
  let ps := r.ports.toList
  ps.map (·.flittx) ++ ps.map (·.flitrx) ++ ps.map (·.chkerr) ++ ps.map (·.retry) ++ ps.map (·.retrain) ++
    ps.map (·.down) ++ [r.agedrop, r.unreach, r.badpkt, r.mgmtdrop, r.timeout, r.stale]

/-- The counters of spec/28_package.md R408. -/
def powerCounters (p : Power) : List Word := [p.stepdn, p.floorns, p.trips] ++ p.diereset.toList

/-- The supervisor words that R409 points to, by offset in their page. -/
def deviceWord (s : State) (off : Nat) : Word :=
  if off = 16 then s.die.sensor
  else if off = 0x400 then s.die.lineage.control
  else if 0x100 ≤ off ∧ off < 0x200 then (powerCounters s.pkg.power).getD ((off - 0x100) / 8) 0
  else if 0x200 ≤ off ∧ off < 0x400 then (routerCounters s.die.router).getD ((off - 0x200) / 8) 0
  else 0

/-- The coordinate of die `i` of this package. -/
def packageDie (i : Nat) (s : State) : Coord :=
  (s.die.coord &&& ~~~(0x0210 : Coord)) ||| BitVec.ofNat 16 (i % 2 * 512 + i / 2 % 2 * 16)

/-- The words of the information page of die `i` of the package, each address a physical one (R409); the die's HBM begins where
its stacks do. -/
def hostInfoWord (i : Nat) (s : State) (off : Nat) : Word :=
  if 0x010 ≤ off ∧ off < 0x040 then
    infoWord s off - BitVec.ofNat 64 Config.supervisorVA + BitVec.ofNat 64 (Config.devicePage % Config.dieHbmBytes + i * Config.dieHbmBytes)
  else if off = 0x040 then (packageDie i s).setWidth 64
  else if off = 0x008 ∧ i ≠ dieIndex s.die.coord then (Config.otherDefwdlim i s.pkg.clocks).setWidth 64
  else infoWord s off

/-- The host sensor page (R407, R409): the sensor word, the counters of R408, and from 0x100, one each 0x100 bytes, the copies of
the information words of the package's dies in their order; the places are PRESUMED (log entry 6). -/
def sensorPageWord (s : State) (off : Nat) : Word :=
  if off = 0 then s.die.sensor
  else if off < 0x100 then (powerCounters s.pkg.power).getD ((off - 8) / 8) 0
  else if off < 0x500 then hostInfoWord ((off - 0x100) / 0x100) s (off % 0x100)
  else 0

/-- Byte `i` of a word. -/
def byteOf (w : Word) (i : Nat) : Byte := (w >>> (8 * i)).setWidth 8

/-- One byte of physical memory; the pages that firmware keeps read as the registers they show. -/
def physRead (k : Tier) (pa : Nat) (s : State) : Byte :=
  match k with
  | .second => memGet s.pkg.tier2 pa
  | .hbm =>
    if pa / 4096 = Config.infoPage / 4096 then byteOf (infoWord s (pa % 4096 / 8 * 8)) (pa % 8)
    else if pa / 4096 = Config.devicePage / 4096 then byteOf (deviceWord s (pa % 4096 / 8 * 8)) (pa % 8)
    else if pa / 4096 = Config.sensorHostPage / 4096 then byteOf (sensorPageWord s (pa % 4096 / 8 * 8)) (pa % 8)
    else memGet s.pkg.hbm pa

/-- A page that firmware keeps. -/
def devicePa (k : Tier) (pa : Nat) : Bool :=
  k == .hbm && (pa / 4096 == Config.infoPage / 4096 || pa / 4096 == Config.devicePage / 4096 ||
    pa / 4096 == Config.sensorHostPage / 4096)

/-- A byte carries a poison mark (R337). -/
def physPoison (k : Tier) (pa : Nat) (s : State) : Bool :=
  match k with
  | .hbm => smGet false s.pkg.hbmPoison (blockOf pa)
  | .second => smGet false s.pkg.tier2Poison (blockOf pa)

/-- One byte of physical memory is written; the pages that firmware keeps are not memory. -/
def physWrite (k : Tier) (pa : Nat) (v : Byte) (s : State) : State :=
  if devicePa k pa then s
  else s.modPkg (fun p =>
    match k with
    | .hbm => { p with hbm := memSet p.hbm pa v }
    | .second => { p with tier2 := memSet p.tier2 pa v })

/-- A byte of memory named by its tier and physical address. -/
abbrev PByte := Tier × Nat

/-- A write that covers every byte of a marked block clears its mark (R337). -/
def clearCovered (pas : List Nat) (m : SMap Bool) : SMap Bool :=
  m.filter (fun p => !(List.range 64).all (fun i => pas.contains (p.1 * 64 + i)))

/-- One operation writes bytes of memory, later ones over earlier ones. -/
def writeCells (cells : List (PByte × Byte)) (s : State) : State :=
  let s := cells.foldl (fun s c => physWrite c.1.1 c.1.2 c.2 s) s
  let pas := fun k => (cells.filter (fun c => c.1.1 == k)).map (fun c => c.1.2)
  s.modPkg (fun p => { p with hbmPoison := clearCovered (pas .hbm) p.hbmPoison,
                              tier2Poison := clearCovered (pas .second) p.tier2Poison })

/-- Marks every block that holds a byte of a range (R337). -/
def markPoison (k : Tier) (pa n : Nat) (s : State) : State :=
  let bs := (List.range ((pa + n + 63) / 64 - pa / 64)).map (fun i => pa / 64 + i)
  s.modPkg (fun p => match k with
    | .hbm => { p with hbmPoison := bs.foldl (fun m b => smSet false m b true) p.hbmPoison }
    | .second => { p with tier2Poison := bs.foldl (fun m b => smSet false m b true) p.tier2Poison })

/-- The host performs a function (spec/26_host.md R396): DIST 0, WALK 1, XLAT 2, GRAT 3, RETAIN 4, SHAKE 5. -/
def State.duty (fn : Nat) (s : State) : Bool := s.pkg.regs.dutymode.getLsbD fn

/-! ## Translation (R162 to R164) -/

/-- The end of a translation. -/
inductive Xlate where
  | ok (k : Tier) (pa : Nat)
  | translation
  | permission
  /-- the walk read poisoned bytes (R337) -/
  | poisoned
  /-- the physical address lies in no memory that the die reaches -/
  | absent
  /-- the host fills translations, and has not answered; the flag tells that it has been asked (spec/26_host.md R397) -/
  | pending (w : WalkArg) (asked : Bool)
  deriving DecidableEq, Repr

/-- The 64-bit entry of a table in HBM. -/
def pteAt (table i : Nat) (s : State) : BitVec 64 :=
  BitVec.ofNat 64 (leNat ((List.range 8).map (fun j => physRead .hbm (table + 8 * i + j) s)))

def ptePa (e : BitVec 64) : Nat := (bits 16 40 e).toNat * 65536

/-- A non-zero reserved field or a reserved KIND (R163), and bits of PA below the table or page size.  DESIGN CHOICE: R162 says
that those bits must be zero and R163 names no fault for an entry in which they are not; the model counts them among the
reserved fields, so that the walk ends in a translation fault (log entry 66). -/
def pteMalformed (e : BitVec 64) (size : Nat) : Bool :=
  bits 56 8 e != 0 || bits 9 7 e != 0 || e.getLsbD 7 || ptePa e % size != 0

/-- The levels of R162: shift of the index, its width, and the size of a page that a leaf maps. -/
def walkLevels : List (Nat × Nat) := [(39, 17), (30, 9), (21, 9), (16, 5)]

/-- What a walk finds: an entry and the size of its page, or a fault. -/
inductive Walk where
  | leaf (pte : BitVec 64) (size : Nat)
  | translation
  | poisoned
  | absent
  deriving DecidableEq, Repr

/-- The walk through the levels from a table (R163); `top` holds at level 0. -/
def walkFrom (va : Nat) (s : State) : List (Nat × Nat) → Bool → Nat → Walk
  | [], _, _ => .translation
  | (sh, w) :: rest, top, table =>
    let i := va / 2 ^ sh % 2 ^ w
    if !reaches .hbm (table + 8 * i) then .absent
    else if physPoison .hbm (table + 8 * i) s then .poisoned
    else
      let e := pteAt table i s
      if !e.getLsbD 0 then .translation
      else if e.getLsbD 1 then
        if top || pteMalformed e (2 ^ sh) then .translation else .leaf e (2 ^ sh)
      else if rest.isEmpty || pteMalformed e 65536 then .translation
      else walkFrom va s rest false (ptePa e)

/-- A kept table entry serves an address of an address space. -/
def TlbEntry.serves (asid : BitVec 16) (va : Nat) (t : TlbEntry) : Bool :=
  t.asid == asid && t.page ≤ va && va < t.page + t.size

/-- The entry that serves a virtual address: a TLB entry that is still in use (R164), or the end of a walk. -/
def findPte (asid : BitVec 16) (va : Nat) (s : State) : Walk :=
  match s.core.tlb.find? (fun t => t.serves asid va) with
  | some t => .leaf t.pte t.size
  | none =>
    match s.die.asTable.lookup asid.toNat with
    | none => .translation
    | some root => walkFrom va s walkLevels true root

/-- The permission check of R163. -/
def pteAllows (e : BitVec 64) (access : Access) (user : Bool) (space : Option (BitVec 2)) : Bool :=
  (match access with
    | .read => e.getLsbD 2
    | .write => e.getLsbD 3
    | .atomic => e.getLsbD 2 && e.getLsbD 3
    | .fetch => e.getLsbD 4) &&
  (!user || e.getLsbD 5) && (match space with | some k => bits 6 2 e == k | none => true)

/-- The pages that firmware maps into every address space (spec/28_package.md R409), and those of the packet copies and
notices that g4 names at task start (spec/21_tasks.md R317, R319); the places are PRESUMED (log entry 6). -/
def firmwarePte (va : Nat) : Option (BitVec 64 × Nat × Nat) :=
  if va / 4096 = Config.infoVA / 4096 then some (0x27, Config.infoPage + va % 4096, 4096)
  else if va / 4096 = Config.supervisorVA / 4096 then some (0x0F, Config.devicePage + va % 4096, 4096)
  else if Config.packetVA ≤ va ∧ va < Config.packetVA + 64 * Config.packetCopies then
    some (0x27, Config.packetBase + (va - Config.packetVA), 4096)
  else if Config.noticeVA ≤ va ∧ va < Config.noticeVA + 262144 then
    some (0x07, Config.noticeBase + (va - Config.noticeVA), 4096)
  else none

/-- The end of a translation through a leaf entry. -/
def throughLeaf (e : BitVec 64) (size : Nat) (access : Access) (user : Bool) (space : Option (BitVec 2)) (va : Nat) : Xlate :=
  if !pteAllows e access user space then .permission
  else
    let pa := ptePa e + va % size
    let k := if e.getLsbD 6 then Tier.second else Tier.hbm
    if !reaches k pa then .absent else .ok k pa

/-- Translation of one virtual address for an access (R162, R163). -/
def translate (asid : BitVec 16) (user : Bool) (access : Access) (space : Option (BitVec 2)) (va : Nat) (s : State) :
    Xlate :=
  if 2 ^ 56 ≤ va then .translation
  else
    match firmwarePte va with
    | some (e, pa, _) => if pteAllows e access user space then .ok .hbm pa else .permission
    | none =>
      match findPte asid va s with
      | .translation => .translation
      | .poisoned => .poisoned
      | .absent => .absent
      | .leaf e size => throughLeaf e size access user space va

/-! ### Translations that the host fills (spec/26_host.md R396, R397) -/

/-- What the host is asked for: the page of 64 KiB with the access that needs it. -/
def walkArg (asid : BitVec 16) (user : Bool) (access : Access) (space : Option (BitVec 2)) (va : Nat) : WalkArg :=
  { asid := asid, va := BitVec.ofNat 64 (va / 65536 * 65536), access := access, user := user, space := space }

/-- The host has been asked for a translation and has not answered. -/
def State.fillAsked (w : WalkArg) (s : State) : Bool :=
  s.pkg.fw.assists.any (fun a => match a.work with | .fill x => x == w | _ => false)

/-- The request for a translation has ended without a table entry. -/
def State.fillEnded (w : WalkArg) (e : FillEnd) (s : State) : State :=
  s.modDie (fun d => { d with fillEnds := d.fillEnds.filter (fun x => x.1 != w) ++ [(w, e)] })

/-- Translation for an access of a core: as `translate`, but where the host fills translations an address that no kept entry
serves waits for its answer.  The queue unit, the homes of regions and the service of remote requests are no part of a core, and
the walker serves them (log entry 15). -/
def seek (asid : BitVec 16) (user : Bool) (access : Access) (space : Option (BitVec 2)) (va : Nat) (s : State) : Xlate :=
  if !s.duty 2 || decide (2 ^ 56 ≤ va) || (firmwarePte va).isSome || s.core.tlb.any (fun t => t.serves asid va) then
    translate asid user access space va s
  else
    match s.die.fills.find? (fun t => t.serves asid va) with
    | some t => throughLeaf t.pte t.size access user space va
    | none =>
      let w := walkArg asid user access space va
      match s.die.fillEnds.find? (fun x => x.1 == w) with
      | some (_, .fault perm) => if perm then .permission else .translation
      | some (_, .walk) => translate asid user access space va s
      | none => .pending w (s.fillAsked w)

/-- A virtual address is mapped, with the rights asked for, into the HBM stacks of another die of the package: installed
memory that this die does not reach. -/
def mappedAway (asid : BitVec 16) (user : Bool) (access : Access) (space : Option (BitVec 2)) (va : Nat) (s : State) : Bool :=
  va < 2 ^ 56 && (firmwarePte va).isNone && (match findPte asid va s with
    | .leaf e size =>
      let pa := ptePa e + va % size
      pteAllows e access user space && !e.getLsbD 6 && pa < Config.hbmBytes && !reaches .hbm pa
    | _ => false)

/-- The space against which KIND is checked: the record's, for spaces 0 and 1 (R163). -/
def kindSpace (r : Record) : Option (BitVec 2) := if recSpace r < 2 then some (recSpace r) else none

/-! ## Scratchpad and tag table (R153 to R155) -/

def scratchRead (a : Nat) (s : State) : Byte := memGet s.cluster.sp a

def scratchWrite (a : Nat) (v : Byte) (s : State) : State :=
  s.modCluster (fun c => { c with sp := memSet c.sp a v })

def isFull (granule : Nat) (s : State) : Bool := smGet false s.cluster.full granule

def setFull (granule : Nat) (v : Bool) (s : State) : State :=
  s.modCluster (fun c => { c with full := smSet false c.full granule v })

def setFullAll (gs : List Nat) (v : Bool) (s : State) : State := gs.foldl (fun s g => setFull g v s) s

/-- The tag-table entry of a line (R155). -/
def tagOf (e : Nat) (s : State) : BitVec 64 := smGet 0 s.cluster.tags e

def setTag (e : Nat) (v : BitVec 64) (s : State) : State :=
  s.modCluster (fun c => { c with tags := smSet 0 c.tags e v })

def tagFault (t : BitVec 64) : Bool := t.getLsbD 1

/-- FAULT of the line that holds a scratchpad byte. -/
def lineFault (a : Nat) (s : State) : Bool := tagFault (tagOf (a / 4096) s)

def setLineFault (e : Nat) (v : Bool) (s : State) : State := setTag e (setBit (tagOf e s) 1 v) s

/-- An entry matches VA for an ASID (R155). -/
def tagMatches (t : BitVec 64) (va : Word) (asid : BitVec 16) : Bool :=
  t.getLsbD 0 && bits 2 44 t == bits 12 44 va && bits 46 16 t == asid

/-- The entry a `ttag` writes. -/
def tagFor (va : Word) (asid : BitVec 16) : BitVec 64 :=
  (0 : BitVec 2) ++ asid ++ bits 12 44 va ++ (0 : BitVec 1) ++ (1 : BitVec 1)

/-- The entries of set VA[20:12] by number. -/
def tagSet (va : Word) : List Nat := (List.range 16).map (fun i => (bits 12 9 va).toNat * 16 + i)

/-- The entry of a set that matches VA for an ASID. -/
def tagFind (va : Word) (asid : BitVec 16) (s : State) : Option Nat :=
  (tagSet va).find? (fun e => tagMatches (tagOf e s) va asid)

/-- The granules that a run of scratchpad bytes touches. -/
def granulesOf (as : List Nat) : List Nat := (as.map (· / 16)).dedup

/-! ## Fetch (spec/03_bundles.md R26) -/

/-- What the fetch of a line gives. -/
inductive Fetch where
  | line (bytes : List Byte)
  | fault
  | poisoned
  | absent
  /-- the host fills translations, and has not answered -/
  | pending (w : WalkArg) (asked : Bool)
  deriving DecidableEq, Repr

/-- The 64 bytes of a code line. -/
def fetchLine (line : Nat) (s : State) : Fetch :=
  match seek s.cur.sys.asid (s.cur.sys.mode == .user) .fetch none line s with
  | .ok k pa =>
    if physPoison k pa s then .poisoned else .line ((List.range 64).map (fun i => physRead k (pa + i) s))
  | .absent => .absent
  | .poisoned => .poisoned
  | .pending w asked => .pending w asked
  | _ => .fault

/-- The bytes from an address to the end of its line. -/
def fetchAt (pc : Nat) (s : State) : Fetch :=
  match fetchLine (pc / 64 * 64) s with
  | .line bs => .line (bs.drop (pc % 64))
  | x => x

end Sys2Proof.Machine
end

