-- ==== Sys2Proof/Machine/Measure.lean ====
section
/-! DEFINITION. SHA3-512 (FIPS 202, as spec/26_host.md R390 names it), CRC-64 (spec/21_tasks.md R318), the measurement
registers (R394), MSI-X vectors and the control words that both host and device write (R383, R384, R389, R396). -/
namespace Sys2Proof.Machine

/-! ## SHA3-512: the sponge over a state of 1,600 bits, whose bit z of lane (x, y) has the number 64(5y + x) + z -/

abbrev Sponge := BitVec 1600

/-- Lane (x, y), both taken modulo 5. -/
def Sponge.at (s : Sponge) (x y : Nat) : BitVec 64 := bits (64 * (5 * (y % 5) + x % 5)) 64 s

/-- The state with these lanes. -/
def Sponge.of (f : Nat → Nat → BitVec 64) : Sponge :=
  (List.range 25).foldl (fun s i => s ||| ((f (i % 5) (i / 5)).setWidth 1600 <<< (64 * i))) 0

/-- Step θ: each bit takes in the parities of two columns. -/
def mixColumns (s : Sponge) : Sponge :=
  let parity := fun (x : Nat) => s.at x 0 ^^^ s.at x 1 ^^^ s.at x 2 ^^^ s.at x 3 ^^^ s.at x 4
  Sponge.of (fun x y => s.at x y ^^^ parity (x + 4) ^^^ (parity (x + 1)).rotateLeft 1)

/-- How far step ρ turns lane (x, y): the walk (x, y) → (y, 2x + 3y) from (1, 0) turns its step t by (t + 1)(t + 2)/2, and lane
(0, 0), which it never meets, stays. -/
def turnOf (x y : Nat) : Nat → Nat → Nat → Nat → Nat
  | 0, _, _, _ => 0
  | n + 1, t, u, v => if u = x ∧ v = y then (t + 1) * (t + 2) / 2 % 64 else turnOf x y n (t + 1) v ((2 * u + 3 * v) % 5)

/-- Steps ρ and π: lane (x, y) comes, turned, from lane (x + 3y, x). -/
def spreadLanes (s : Sponge) : Sponge :=
  Sponge.of (fun x y => (s.at (x + 3 * y) x).rotateLeft (turnOf ((x + 3 * y) % 5) x 24 0 1 0))

/-- Step χ: the one step that is not linear, along the rows. -/
def bendRows (s : Sponge) : Sponge := Sponge.of (fun x y => s.at x y ^^^ (~~~(s.at (x + 1) y) &&& s.at (x + 2) y))

/-- The shift register of step ι, x^8 + x^6 + x^5 + x^4 + 1. -/
def shiftRegister (r : BitVec 8) : BitVec 8 := (r <<< 1) ^^^ (if r.getLsbD 7 then 0x71 else 0)

/-- What step ι of a round adds to lane (0, 0): seven bits of the register, at the places 2^j − 1; and the register after. -/
def roundBits : Nat → Nat → BitVec 8 → BitVec 64 × BitVec 8
  | 0, _, r => (0, r)
  | n + 1, j, r =>
    let x := roundBits n (j + 1) (shiftRegister r)
    (if r.getLsbD 0 then x.1 ^^^ (1 <<< (2 ^ j - 1)) else x.1, x.2)

/-- Some rounds of the permutation. -/
def rounds : Nat → BitVec 8 → Sponge → Sponge
  | 0, _, s => s
  | n + 1, r, s =>
    let c := roundBits 7 0 r
    rounds n c.2 (bendRows (spreadLanes (mixColumns s)) ^^^ c.1.setWidth 1600)

/-- The permutation of FIPS 202 with 24 rounds. -/
def permute (s : Sponge) : Sponge := rounds 24 1 s

/-- Blocks of 72 bytes enter the state. -/
def soak : Nat → List Byte → Sponge → Sponge
  | 0, _, s => s
  | n + 1, bs, s => soak n (bs.drop 72) (permute (s ^^^ BitVec.ofNat 1600 (leNat (bs.take 72))))

/-- SHA3-512 as 512 bits, byte 0 lowest.  The message ends with the bits 01, and the padding is a 1, zeros and a 1. -/
def sha3 (bs : List Byte) : BitVec 512 :=
  let blocks := bs.length / 72 + 1
  let tail := leBytes (72 * blocks - bs.length) (6 + 2 ^ (8 * (72 * blocks - bs.length) - 1))
  (soak blocks (bs ++ tail) 0).setWidth 512

/-! ## CRC-64 of ECMA-182 (R318): no reflection, initial value 0, no final inversion -/

def crcBit (c : BitVec 64) : BitVec 64 :=
  if c.getLsbD 63 then (c <<< 1) ^^^ 0x42F0E1EBA9EA3693 else c <<< 1

def crcByte (c : BitVec 64) (b : Byte) : BitVec 64 :=
  (List.range 8).foldl (fun c _ => crcBit c) (c ^^^ (b.setWidth 64 <<< 56))

def crc64 (bs : List Byte) : BitVec 64 := bs.foldl crcByte 0

/-! ## Measurement registers (R394) -/

def bytes512 (v : BitVec 512) : List Byte := leBytes 64 v.toNat

/-- `MR := SHA3-512(MR ‖ m)`. -/
def extendMr (r : BitVec 4) (m : List Byte) (s : State) : State :=
  s.modFw (fun w => { w with mr := w.mr.set r.toNat (sha3 (bytes512 w.mr[r.toNat] ++ m)) })

/-! ## Vectors and control words -/

def hostOut (o : HostOut) (s : State) : State := s.modPkg (fun p => { p with out := p.out ++ [o] })

/-- Raises an MSI-X vector (R384). -/
def raiseVector (n : Nat) (s : State) : State := hostOut (.vector n) s

def fwState (v : BitVec 64) : BitVec 3 := bits 0 3 v

/-- STATE of FWSTATE changes, and vector 4 is raised (R384, R389). -/
def setFwState (st : BitVec 3) (s : State) : State :=
  if fwState s.pkg.regs.fwstate = st then s
  else raiseVector 4 (s.modRegs (fun r => { r with fwstate := (r.fwstate &&& ~~~(7 : BitVec 64)) ||| st.setWidth 64 }))

/-- A request goes to the ring with its sequence number, and vector 2 is raised (R397).  Without a ring, or with a full one, the
flag tells that whoever asks has to do the work, and the firmware log counts it. -/
def askHost (fn : BitVec 3) (w : AssistWork) (body : BitVec 512) (s : State) : State × Bool :=
  if s.pkg.regs.assistbase = 0 ∨ 4096 ≤ s.pkg.fw.assists.length then
    (s.modFw (fun f => { f with assistFallback := f.assistFallback + 1 }), false)
  else
    let n := s.pkg.fw.assistSeq + 1
    let s := s.modFw (fun f => { f with assistSeq := n, assists := f.assists ++ [{ seq := n, fn := fn, work := w }] })
    let at_ := s.pkg.regs.assistbase + BitVec.ofNat 64 (64 * ((n - 1) % 4096))
    (raiseVector 2 (hostOut (.memory at_ (bytes512 body)) s), true)

/-- The host is asked for a translation; where it cannot be, the walker does the work. -/
def askFill (w : WalkArg) (s : State) : State :=
  let x := askHost 2 (.fill w) (Config.assistBody 2 (leBytes 8 w.va.toNat ++ leBytes 2 w.asid.toNat ++
    ([match w.access with | .read => 0 | .write => 1 | .atomic => 2 | .fetch => 3, if w.user then 1 else 0] : List Byte))) s
  if x.2 then x.1 else x.1.fillEnded w .walk

/-- The same once for each access that waits. -/
def askOnce (w : WalkArg) (asked : Bool) (s : State) : State := if asked then s else askFill w s

/-- Quiesced for R385: STATE 3, 4 or 5 (R389). -/
def State.quiesced (s : State) : Bool :=
  let st := fwState s.pkg.regs.fwstate
  st == 3 || st == 4 || st == 5

/-- The domain table as the 128 bytes of spec/23_fabric.md R340. -/
def domainBytes (t : List Coord) : List Byte :=
  ((List.range 64).map (fun i => leBytes 2 (match t[i]? with | some c => c.toNat | none => 0xFFFF))).flatten

/-- MR3 is extended with DUTYMODE and the domain table after each change of either (R394). -/
def measureDuty (s : State) : State :=
  extendMr 3 (leBytes 8 s.pkg.regs.dutymode.toNat ++ domainBytes s.die.domain) s

/-- A write of DUTYMODE; a reserved bit leaves it unchanged (R396). -/
def writeDutymode (v : BitVec 64) (s : State) : State :=
  if bits 6 58 v != 0 || v == s.pkg.regs.dutymode then s
  else measureDuty (s.modRegs (fun r => { r with dutymode := v }))

end Sys2Proof.Machine
end

