-- ==== Sys2Proof/Machine/Float.lean ====
section
/-! DEFINITION. Floating-point values and operations on exact numbers with one rounding at the end
(spec/05_formats.md R58 to R64, R69, R75, R81), residue codes and masses. -/
namespace Sys2Proof.Machine

/-! ## Formats (R58) -/

/-- Widths of the exponent and of the fraction. -/
structure FFmt where
  ew : Nat
  mw : Nat
  deriving DecidableEq, Repr

def fp16 : FFmt := { ew := 5, mw := 10 }
def bf16 : FFmt := { ew := 8, mw := 7 }
def fp32 : FFmt := { ew := 8, mw := 23 }
def fp64 : FFmt := { ew := 11, mw := 52 }

def FFmt.width (f : FFmt) : Nat := 1 + f.ew + f.mw
def FFmt.bias (f : FFmt) : Int := 2 ^ (f.ew - 1) - 1
/-- Exponent of the smallest normal number. -/
def FFmt.emin (f : FFmt) : Int := 1 - f.bias

/-- A value: NaN, infinity, or ±m·2^e exactly. -/
inductive FVal where
  | nan (signalling : Bool)
  | inf (neg : Bool)
  | num (neg : Bool) (m : Nat) (e : Int)
  deriving DecidableEq, Repr

/-- A result with the flags it raises. -/
abbrev FRes := BitVec 64 × Flags

def signBit (f : FFmt) (x : BitVec 64) : Bool := x.getLsbD (f.ew + f.mw)

/-- The value of a bit pattern. -/
def unpackF (f : FFmt) (x : BitVec 64) : FVal :=
  let frac := x.toNat % 2 ^ f.mw
  let ex := x.toNat / 2 ^ f.mw % 2 ^ f.ew
  let neg := signBit f x
  if ex = 2 ^ f.ew - 1 then
    if frac = 0 then .inf neg else .nan (frac < 2 ^ (f.mw - 1))
  else if ex = 0 then .num neg frac (f.emin - f.mw)
  else .num neg (frac + 2 ^ f.mw) (ex - f.bias - f.mw)

/-- A pattern from sign, exponent field and fraction. -/
def packBits (f : FFmt) (neg : Bool) (ex frac : Nat) : BitVec 64 :=
  BitVec.ofNat 64 ((if neg then 2 ^ (f.ew + f.mw) else 0) + ex * 2 ^ f.mw + frac)

/-- The canonical NaN (R58). -/
def cnan (f : FFmt) : BitVec 64 := packBits f false (2 ^ f.ew - 1) (2 ^ (f.mw - 1))
def infBits (f : FFmt) (neg : Bool) : BitVec 64 := packBits f neg (2 ^ f.ew - 1) 0
def maxBits (f : FFmt) (neg : Bool) : BitVec 64 := packBits f neg (2 ^ f.ew - 2) (2 ^ f.mw - 1)
def zeroBits (f : FFmt) (neg : Bool) : BitVec 64 := packBits f neg 0 0

def isSubnormal (f : FFmt) (x : BitVec 64) : Bool :=
  x.toNat / 2 ^ f.mw % 2 ^ f.ew == 0 && x.toNat % 2 ^ f.mw != 0

/-! ## Rounding (R61, R62) -/

/-- Rounding modes: 0 RNE, 1 RTZ, 2 RUP, 3 RDN (R61). -/
abbrev RMode := BitVec 2

/-- `m` rounded to a multiple of `2^sh`, in units of it, and whether that is inexact. -/
def roundAt (mode : RMode) (neg : Bool) (m : Nat) (sh : Int) : Nat × Bool :=
  if sh ≤ 0 then (m * 2 ^ (-sh).toNat, false)
  else
    let k := sh.toNat
    let q := m / 2 ^ k
    let r := m % 2 ^ k
    let half := 2 ^ (k - 1)
    let up := match mode.toNat with
      | 0 => half < r || (r == half && q % 2 == 1)
      | 1 => false
      | 2 => !neg && r != 0
      | _ => neg && r != 0
    (if up then q + 1 else q, r != 0)

/-- What overflow gives (R62). -/
def overflowBits (f : FFmt) (mode : RMode) (neg : Bool) : BitVec 64 :=
  match mode.toNat with
  | 0 => infBits f neg
  | 1 => maxBits f neg
  | 2 => if neg then maxBits f neg else infBits f neg
  | _ => if neg then infBits f neg else maxBits f neg

/-- The one rounding of ±m·2^e to a format; tininess is detected after rounding (R62). -/
def fround (f : FFmt) (mode : RMode) (neg : Bool) (m : Nat) (e : Int) : FRes :=
  if m = 0 then (zeroBits f neg, 0)
  else
    let top : Int := e + m.log2
    let q : Int := max top f.emin - f.mw
    let (r, inexact) := roundAt mode neg m (q - e)
    let (r, q) := if r = 2 ^ (f.mw + 1) then (2 ^ f.mw, q + 1) else (r, q)
    let ix : Flags := if inexact then fIX else 0
    if 2 ^ f.mw ≤ r then
      let ex := q + f.mw + f.bias
      if (2 ^ f.ew - 2 : Int) < ex then (overflowBits f mode neg, fOF ||| fIX)
      else
        let carried := (roundAt mode neg m (top - f.mw - e)).1 == 2 ^ (f.mw + 1)
        let tiny := top < f.emin && !(top == f.emin - 1 && carried)
        (packBits f neg ex.toNat (r - 2 ^ f.mw), ix ||| (if tiny && inexact then fUF else 0))
    else (packBits f neg 0 r, ix ||| (if inexact then fUF else 0))

/-- A sum that is exactly zero, addends of −0 apart: `+` but in RDN, whatever the signs of its addends (R116). -/
def zeroSum (f : FFmt) (mode : RMode) : BitVec 64 := zeroBits f (mode == 3)

/-- The one rounding of an exact signed number `v`·2^e ; a zero takes the sign of an exact zero sum. -/
def froundInt (f : FFmt) (mode : RMode) (v : Int) (e : Int) : FRes :=
  if v = 0 then (zeroSum f mode, 0) else fround f mode (v < 0) v.natAbs e

def invalid (f : FFmt) : FRes := (cnan f, fIV)

/-- IV for the signalling NaNs among operands (R60). -/
def snanFlag : List FVal → Flags
  | [] => 0
  | .nan true :: _ => fIV
  | _ :: r => snanFlag r

def FVal.isNan : FVal → Bool
  | .nan _ => true
  | _ => false

def FVal.isSnan : FVal → Bool
  | .nan b => b
  | _ => false

def signed (neg : Bool) (m : Nat) : Int := if neg then -(m : Int) else m

/-- An exact sum of two numbers: mantissa and exponent. -/
def exactAdd (a : Int) (ea : Int) (b : Int) (eb : Int) : Int × Int :=
  let e := min ea eb
  (a * 2 ^ (ea - e).toNat + b * 2 ^ (eb - e).toNat, e)

/-! ## Arithmetic (R116) -/

/-- Sum of two values with one rounding; an exact zero sum is −0 where both addends are, and otherwise as `zeroSum` says. -/
def addV (f : FFmt) (mode : RMode) (a b : FVal) : FRes :=
  match a, b with
  | .nan _, _ => (cnan f, snanFlag [a, b])
  | _, .nan _ => (cnan f, snanFlag [a, b])
  | .inf n, .inf n' => if n = n' then (infBits f n, 0) else invalid f
  | .inf n, .num .. => (infBits f n, 0)
  | .num .., .inf n => (infBits f n, 0)
  | .num n m e, .num n' m' e' =>
    if m = 0 ∧ m' = 0 ∧ n ∧ n' then (zeroBits f true, 0)
    else
      let r := exactAdd (signed n m) e (signed n' m') e'
      froundInt f mode r.1 r.2

def negV : FVal → FVal
  | .nan s => .nan s
  | .inf n => .inf !n
  | .num n m e => .num (!n) m e

def fAdd (f : FFmt) (mode : RMode) (a b : BitVec 64) : FRes := addV f mode (unpackF f a) (unpackF f b)
def fSub (f : FFmt) (mode : RMode) (a b : BitVec 64) : FRes := addV f mode (unpackF f a) (negV (unpackF f b))

def fMul (f : FFmt) (mode : RMode) (a b : BitVec 64) : FRes :=
  let a := unpackF f a
  let b := unpackF f b
  match a, b with
  | .nan _, _ => (cnan f, snanFlag [a, b])
  | _, .nan _ => (cnan f, snanFlag [a, b])
  | .inf n, .inf n' => (infBits f (n != n'), 0)
  | .inf n, .num n' m _ => if m = 0 then invalid f else (infBits f (n != n'), 0)
  | .num n m _, .inf n' => if m = 0 then invalid f else (infBits f (n != n'), 0)
  | .num n m e, .num n' m' e' => fround f mode (n != n') (m * m') (e + e')

/-- a·b + c with one rounding; 0·∞ is invalid whatever c is (R60). -/
def fFma (f : FFmt) (mode : RMode) (a b c : BitVec 64) : FRes :=
  let a := unpackF f a
  let b := unpackF f b
  let c := unpackF f c
  let zeroInf := match a, b with
    | .inf _, .num _ m _ => m == 0
    | .num _ m _, .inf _ => m == 0
    | _, _ => false
  if zeroInf then invalid f
  else
    match a, b with
    | .nan _, _ => (cnan f, snanFlag [a, b, c])
    | _, .nan _ => (cnan f, snanFlag [a, b, c])
    | .num n m e, .num n' m' e' => addV f mode (.num (n != n') (m * m') (e + e')) c
    | .inf n, .inf n' => addV f mode (.inf (n != n')) c
    | .inf n, .num n' _ _ => addV f mode (.inf (n != n')) c
    | .num n _ _, .inf n' => addV f mode (.inf (n != n')) c

/-- A quotient with enough bits and a last bit that tells a remainder. -/
def quotient (f : FFmt) (m m' : Nat) (e e' : Int) : Nat × Int :=
  let s := f.mw + 4 + m'.log2 - m.log2
  let q := m * 2 ^ s / m'
  (2 * q + (if m * 2 ^ s % m' = 0 then 0 else 1), e - e' - s - 1)

def fDiv (f : FFmt) (mode : RMode) (a b : BitVec 64) : FRes :=
  let a := unpackF f a
  let b := unpackF f b
  match a, b with
  | .nan _, _ => (cnan f, snanFlag [a, b])
  | _, .nan _ => (cnan f, snanFlag [a, b])
  | .inf _, .inf _ => invalid f
  | .inf n, .num n' _ _ => (infBits f (n != n'), 0)
  | .num n _ _, .inf n' => (zeroBits f (n != n'), 0)
  | .num n m e, .num n' m' e' =>
    if m' = 0 then (if m = 0 then invalid f else (infBits f (n != n'), fDZ))
    else if m = 0 then (zeroBits f (n != n'), 0)
    else
      let q := quotient f m m' e e'
      fround f mode (n != n') q.1 q.2

def isqrtGo (n : Nat) : Nat → Nat → Nat
  | 0, r => r
  | k + 1, r => if (r + 2 ^ k) * (r + 2 ^ k) ≤ n then isqrtGo n k (r + 2 ^ k) else isqrtGo n k r

/-- The integer part of a square root, bit by bit. -/
def isqrt (n : Nat) : Nat := isqrtGo n (n.log2 / 2 + 1) 0

/-- A square root with enough bits and a last bit that tells a remainder. -/
def rootParts (f : FFmt) (m : Nat) (e : Int) : Nat × Int :=
  let s := 2 * (f.mw + 4) - m.log2
  let s := if (e - s) % 2 = 0 then s else s + 1
  let n := m * 2 ^ s
  let r := isqrt n
  (2 * r + (if r * r = n then 0 else 1), (e - s) / 2 - 1)

def fSqrt (f : FFmt) (mode : RMode) (a : BitVec 64) : FRes :=
  match unpackF f a with
  | .nan s => (cnan f, if s then fIV else 0)
  | .inf n => if n then invalid f else (infBits f false, 0)
  | .num n m e =>
    if m = 0 then (zeroBits f n, 0)
    else if n then invalid f
    else
      let r := rootParts f m e
      fround f mode false r.1 r.2

/-! ## Order (R60, R119) -/

/-- a < b for numbers and infinities; zeros are equal. -/
def ltV : FVal → FVal → Bool
  | .num n m e, .num n' m' e' =>
    let x := exactAdd (signed n m) e (-(signed n' m')) e'
    x.1 < 0
  | .inf n, .inf n' => n && !n'
  | .inf n, .num .. => n
  | .num .., .inf n => !n
  | _, _ => false

def eqV : FVal → FVal → Bool
  | .num n m e, .num n' m' e' =>
    let x := exactAdd (signed n m) e (-(signed n' m')) e'
    x.1 == 0
  | .inf n, .inf n' => n == n'
  | _, _ => false

/-- minimumNumber and maximumNumber: a NaN and a number give the number, and −0 orders below +0 (R60). -/
def fMinMax (f : FFmt) (larger : Bool) (a b : BitVec 64) : FRes :=
  let x := unpackF f a
  let y := unpackF f b
  let fl := snanFlag [x, y]
  if x.isNan && y.isNan then (cnan f, fl)
  else if x.isNan then (b, fl)
  else if y.isNan then (a, fl)
  else if ltV x y then (if larger then b else a, fl)
  else if ltV y x then (if larger then a else b, fl)
  else if signBit f a == larger then (b, fl)
  else (a, fl)

/-- `fcmp`'s four conditions and those of `vcmp` that order (R119, R201): the condition, and whether any NaN raises IV. -/
def fCompare (f : FFmt) (a b : BitVec 64) : Bool × Bool × Bool × Bool × Bool :=
  let x := unpackF f a
  let y := unpackF f b
  let un := x.isNan || y.isNan
  (!un && eqV x y, !un && ltV x y, !un && (ltV x y || eqV x y), un, x.isSnan || y.isSnan)

/-- `fclass` (R121). -/
def fClass (f : FFmt) (a : BitVec 64) : Nat :=
  match unpackF f a with
  | .nan s => if s then 0 else 1
  | .inf n => if n then 2 else 9
  | .num n m _ =>
    if m = 0 then (if n then 5 else 6)
    else if isSubnormal f a then (if n then 4 else 7)
    else (if n then 3 else 8)

/-! ## Conversions (R64, R69, R120) -/

/-- The integer a number rounds to, and whether it is inexact. -/
def toIntegral (mode : RMode) (neg : Bool) (m : Nat) (e : Int) : Int × Bool :=
  let r := roundAt mode neg m (-e)
  (signed neg r.1, r.2)

/-- Float to integer of `w` bits (R64). -/
def fToInt (f : FFmt) (mode : RMode) (isSigned : Bool) (w : Nat) (a : BitVec 64) : Int × Flags :=
  let hi : Int := if isSigned then 2 ^ (w - 1) - 1 else 2 ^ w - 1
  let lo : Int := if isSigned then -(2 ^ (w - 1)) else 0
  match unpackF f a with
  | .nan _ => (0, fIV)
  | .inf n => (if n then lo else hi, fIV)
  | .num n m e =>
    let r := toIntegral mode n m e
    if hi < r.1 then (hi, fIV)
    else if r.1 < lo then (lo, fIV)
    else (r.1, if r.2 then fIX else 0)

/-- Integer to float (R64). -/
def intToF (f : FFmt) (mode : RMode) (v : Int) : FRes :=
  if v = 0 then (zeroBits f false, 0) else fround f mode (v < 0) v.natAbs 0

/-- Float to float: exact when wider, rounded when narrower (R64). -/
def fToF (src dst : FFmt) (mode : RMode) (a : BitVec 64) : FRes :=
  match unpackF src a with
  | .nan s => (cnan dst, if s then fIV else 0)
  | .inf n => (infBits dst n, 0)
  | .num n m e => fround dst mode n m e

/-- To an integral value in the same format, with no IX (R120).  PRESUMED: a result of zero keeps the sign of its source, as
IEEE 754's operation of the name has it; R120 names no sign for it (log entry 64). -/
def fToIntegral (f : FFmt) (mode : RMode) (a : BitVec 64) : FRes :=
  match unpackF f a with
  | .nan s => (cnan f, if s then fIV else 0)
  | .inf n => (infBits f n, 0)
  | .num n m e =>
    let r := roundAt mode n m (-e)
    if r.1 = 0 then (zeroBits f n, 0) else ((fround f mode n r.1 0).1, 0)

/-- A subnormal operand as zero (R63). -/
def flushIn (f : FFmt) (on : Bool) (x : BitVec 64) : BitVec 64 :=
  if on && isSubnormal f x then zeroBits f (signBit f x) else x

/-- A subnormal result as zero, with UF and IX (R63). -/
def flushOut (f : FFmt) (on : Bool) (r : FRes) : FRes :=
  if on && isSubnormal f r.1 then (zeroBits f (signBit f r.1), r.2 ||| fUF ||| fIX) else r

/-! ## Residue codes (R67 to R70) -/

/-- Largest magnitude of a residue format of `w` bits. -/
def resMax (w : Nat) : Int := 2 ^ (w - 1) - 1

/-- NaV: the most negative code. -/
def navCode (w : Nat) : Int := -(2 ^ (w - 1))

/-- A value into a residue format, `none` meaning NaN (R69): a code and flags. -/
def toResidue (w : Nat) (mode : RMode) (v : FVal) : Int × Flags :=
  match v with
  | .nan _ => (navCode w, fIV)
  | .inf n => (if n then -(resMax w) else resMax w, fOF ||| fIX)
  | .num n m e =>
    let r := toIntegral mode n m e
    if resMax w < r.1 then (resMax w, fOF ||| fIX)
    else if r.1 < -(resMax w) then (-(resMax w), fOF ||| fIX)
    else (r.1, if r.2 then fIX else 0)

/-! ## Masses (R74, R75) -/

/-- FP32 to UQ8.24. -/
def massOf (x : BitVec 32) : BitVec 32 × Flags :=
  let v := x.setWidth 64
  match unpackF fp32 v with
  | .nan _ => (0, fTN)
  | .inf n => if n then (0, fTN) else (0xFFFFFFFF, fTS)
  | .num n m e =>
    if m = 0 || isSubnormal fp32 v then (0, 0)
    else if n then (0, fTN)
    else
      let r := (roundAt 0 false m (-24 - e)).1
      if 0xFFFFFFFF < r then (0xFFFFFFFF, fTS) else (BitVec.ofNat 32 r, 0)

/-- A mass code as FP32, rounded RNE. -/
def massToF (q : Nat) : BitVec 32 := ((fround fp32 0 false q (-24)).1).setWidth 32

/-! ## Sums within the bound of R81 -/

/-- An exact sum of terms ±m·2^e. -/
def exactSum : List (Int × Int) → Int × Int
  | [] => (0, 0)
  | t :: r =>
    let s := exactSum r
    exactAdd t.1 t.2 s.1 s.2

/-- A number within [lo, hi], all on exponents of their own. -/
def within (lo hi v : Int × Int) : Bool :=
  (exactAdd v.1 v.2 (-lo.1) lo.2).1 ≥ 0 && (exactAdd hi.1 hi.2 (-v.1) v.2).1 ≥ 0

/-- The sum of the magnitudes of terms. -/
def exactMag (terms : List (Int × Int)) : Int × Int := exactSum (terms.map (fun t => ((t.1.natAbs : Int), t.2)))

/-- A sum of finite terms, `s` exactly and `mag` in magnitude: the value that the hardware takes if the bound of R81 admits
it, otherwise the exact sum rounded once.  `k` terms count, `uexp` gives u = 2^-uexp, and `pick` is the free choice. -/
def boundedBy (f : FFmt) (mode : RMode) (s mag : Int × Int) (k uexp : Nat) (pick : BitVec 64) : FRes :=
  let b : Int × Int := ((k + 1) * mag.1, mag.2 - uexp)
  let lo := exactAdd s.1 s.2 (-b.1) b.2
  let hi := exactAdd s.1 s.2 b.1 b.2
  let exact := froundInt f mode s.1 s.2
  match unpackF f (froundInt f mode lo.1 lo.2).1, unpackF f (froundInt f mode hi.1 hi.2).1, unpackF f pick with
  | .num nl ml el, .num nh mh eh, .num np mp ep =>
    if within (signed nl ml, el) (signed nh mh, eh) (signed np mp, ep) then
      let d := exactAdd s.1 s.2 (-(signed np mp)) ep
      (pick, if d.1 = 0 then 0 else fIX ||| (if isSubnormal f pick then fUF else 0))
    else exact
  | _, _, _ => exact

/-- The bounded sum of a list of terms. -/
def boundedSum (f : FFmt) (mode : RMode) (terms : List (Int × Int)) (k uexp : Nat) (pick : BitVec 64) : FRes :=
  boundedBy f mode (exactSum terms) (exactMag terms) k uexp pick

/-- A term as an exact number. -/
def FVal.toTerm : FVal → Int × Int
  | .num n m e => (signed n m, e)
  | _ => (0, 0)

/-- A floating-point sum of values: NaNs and infinities follow R60 and R62 whatever the order, and `finite` is the sum
otherwise. -/
def fSumBy (f : FFmt) (vs : List FVal) (finite : FRes) : FRes :=
  let pinf := vs.any (fun v => v == .inf false)
  let ninf := vs.any (fun v => v == .inf true)
  if pinf && ninf then (cnan f, fIV)
  else if vs.any FVal.isNan then (cnan f, snanFlag vs)
  else if pinf || ninf then (infBits f ninf, 0)
  else if vs.all (fun v => match v with | .num n m _ => m == 0 && n | _ => false) && !vs.isEmpty then (zeroBits f true, 0)
  else finite

/-- A floating-point sum of values under R81. -/
def fSumV (f : FFmt) (mode : RMode) (vs : List FVal) (uexp : Nat) (pick : BitVec 64) : FRes :=
  fSumBy f vs (boundedSum f mode (vs.map FVal.toTerm) vs.length uexp pick)

/-! ## Elementary functions (spec/13_vector.md R199) -/

/-- The neighbour of larger or smaller magnitude of an exact positive or negative number. -/
def neighbour (f : FFmt) (away neg : Bool) (m : Nat) (e : Int) : FRes :=
  fround f (if away then (if neg then 3 else 2) else 1) neg m e

/-- A result below the smallest subnormal. -/
def belowSmallest (f : FFmt) (m : Nat) (e : Int) : Bool := e + m.log2 < f.emin - f.mw

/-- The end of an elementary function: an exact number, or one told apart from it by a last bit. -/
def elementary (f : FFmt) (mode : RMode) (op : Nat) (x : BitVec 64) (neg : Bool) (m : Nat) (e : Int) : FRes :=
  if m ≠ 0 ∧ belowSmallest f m e then (zeroBits f neg, fUF ||| fIX)
  else if f = fp16 ∨ f = bf16 then fround f mode neg m e
  else
    let down := neighbour f false neg m e
    if down.1 = maxBits f neg ∧ down.2 ≠ 0 then fround f mode neg m e
    else neighbour f (Config.neighbourChoice op f.width x) neg m e

def fRcp (f : FFmt) (mode : RMode) (a : BitVec 64) : FRes :=
  match unpackF f a with
  | .nan s => (cnan f, if s then fIV else 0)
  | .inf n => (zeroBits f n, 0)
  | .num n m e =>
    if m = 0 then (infBits f n, fDZ)
    else
      let q := quotient f 1 m 0 e
      elementary f mode 13 a n q.1 q.2

def fRsqrt (f : FFmt) (mode : RMode) (a : BitVec 64) : FRes :=
  match unpackF f a with
  | .nan s => (cnan f, if s then fIV else 0)
  | .inf n => if n then invalid f else (zeroBits f false, 0)
  | .num n m e =>
    if m = 0 then (infBits f n, fDZ)
    else if n then invalid f
    else
      let (m, e) := if e % 2 = 0 then (m, e) else (2 * m, e - 1)
      let k := f.mw + 8 + m.log2
      let r := isqrt (2 ^ (2 * k) / m)
      elementary f mode 12 a false (2 * r + (if r * r * m = 2 ^ (2 * k) then 0 else 1)) (-(e / 2) - k - 1)

/-- Fixed-point precision of the power and the logarithm. -/
def precBits : Nat := 192

/-- The product of 2^(2^-k) over the set bits of a fraction of `n` bits, each factor a square root of the one before. -/
def exp2Go (frac : Nat) : Nat → Nat → Nat → Nat
  | 0, _, acc => acc
  | n + 1, c, acc =>
    let c := isqrt (c * 2 ^ precBits)
    exp2Go frac n c (if frac.testBit n then acc * c / 2 ^ precBits else acc)

def fExp2 (f : FFmt) (mode : RMode) (a : BitVec 64) : FRes :=
  match unpackF f a with
  | .nan s => (cnan f, if s then fIV else 0)
  | .inf n => if n then (zeroBits f false, 0) else (infBits f false, 0)
  | .num n m e =>
    if m = 0 then fround f mode false 1 0
    else if 0 ≤ e + m.log2 - 20 then elementary f mode 14 a false 1 (if n then -(2 ^ 20) else 2 ^ 20)
    else if e + m.log2 < -70 then
      elementary f mode 14 a false (if n then 2 ^ 100 - 1 else 2 ^ 100 + 1) (-100)
    else if 0 ≤ e then elementary f mode 14 a false 1 (signed n (m * 2 ^ e.toNat))
    else
      let k := (-e).toNat
      let v := signed n m
      let i := v / 2 ^ k
      let frac := (v % 2 ^ k).toNat
      if frac = 0 then elementary f mode 14 a false 1 i
      else elementary f mode 14 a false (2 * exp2Go frac k (2 * 2 ^ precBits) (2 ^ precBits) + 1) (i - precBits - 1)

/-- Bits of the logarithm of a number in [1, 2) held with `precBits` + 192 fraction bits, the first bit first. -/
def log2Go : Nat → Nat → Nat → Nat
  | 0, _, acc => acc
  | n + 1, x, acc =>
    let y := x * x / 2 ^ (2 * precBits)
    if 2 * 2 ^ (2 * precBits) ≤ y then log2Go n (y / 2) (2 * acc + 1) else log2Go n y (2 * acc)

def fLog2 (f : FFmt) (mode : RMode) (a : BitVec 64) : FRes :=
  match unpackF f a with
  | .nan s => (cnan f, if s then fIV else 0)
  | .inf n => if n then invalid f else (infBits f false, 0)
  | .num n m e =>
    if m = 0 then (infBits f true, fDZ)
    else if n then invalid f
    else
      let top : Int := e + m.log2
      if m = 2 ^ m.log2 then intToF f mode top
      else
        let frac := log2Go 128 (m * 2 ^ (2 * precBits) / 2 ^ m.log2) 0
        let v : Int := (top * 2 ^ 128 + frac) * 2 + 1
        elementary f mode 15 a (v < 0) v.natAbs (-129)

end Sys2Proof.Machine
end

