-- ==== Sys2Proof/Machine/Operands.lean ====
section
/-! DEFINITION. What one slot of a bundle does, as computed from the state before the bundle (spec/03_bundles.md R46), and
the operand forms of the slots. -/
namespace Sys2Proof.Machine

/-- The outcome of one slot.  `ok` gives what the slot commits; `wait` holds the bundle, as an engine wait of
spec/01_machine.md R15 or as an interlock (R25); `arrive` begins an engine wait, and `begins` another hold, and each says what its
beginning does; `trap` gives cause, AUX and FADDR. -/
inductive SlotRes where
  | ok (commit : State → State)
  | wait (engine : Bool)
  | arrive (begin_ : State → State)
  | begins (begin_ : State → State)
  | trap (cause : Cause) (aux : BitVec 8) (faddr : Word)
  | stop (f : Fault)

/-- A trap without AUX and FADDR. -/
def SlotRes.trapOf (c : Cause) : SlotRes := .trap c 0 0

/-- An interlock (R25, R50). -/
def SlotRes.hold : SlotRes := .wait false

/-- An engine wait (R15). -/
def SlotRes.engine : SlotRes := .wait true

/-- The slot holds its bundle. -/
def SlotRes.waits : SlotRes → Bool
  | .wait _ | .arrive _ | .begins _ => true
  | _ => false

/-- A poisoned operand that changes no wait of its slot: the cause comes once the slot waits for nothing (R25, R137). -/
def poisonLast (p : Bool) (r : SlotRes) : SlotRes := if p && !r.waits then .trapOf .poison else r

/-- A slot with no effect. -/
def SlotRes.nothing : SlotRes := .ok id

/-! Keys of the reading fields: eight to a slot, in header-bit order. -/

def keyC : Nat := 0
def keyAB (u : AB) : Nat := match u with | .a => 8 | .b => 16
def keyB : Nat := 16
def keyV : Nat := 24
def keyM : Nat := 32
def keyL : Nat := 40
def keyX : Nat := 48
def keyS : Nat := 56

/-- A source register; the bundle holds while an interlocked operation owes it a value (R50). -/
def needG (key : Nat) (r : BitVec 5) (s : State) (k : Word → Bool → SlotRes) : SlotRes :=
  if s.cur.isOwed (.g r) then .hold else k (s.readG key r).1 (s.readG key r).2

/-- A source register at a point where poison is caught (spec/09_traps.md R137). -/
def cleanG (key : Nat) (r : BitVec 5) (s : State) (k : Word → SlotRes) : SlotRes :=
  needG key r s (fun v p => if p then .trapOf .poison else k v)

/-- A destination register: its write holds while an interlocked operation owes it a value (R50). -/
def destG (r : BitVec 5) (s : State) (k : SlotRes) : SlotRes := if s.cur.isOwed (.g r) then .hold else k

/-- A buffer record read or written; both hold while a load of it is under way (R50). -/
def needB (r : BitVec 4) (s : State) (k : Record → SlotRes) : SlotRes :=
  if s.cur.isOwed (.b r) then .hold else k (s.readB r)

/-- The head of a queue (spec/13_vector.md R188). -/
def needQ (key : Nat) (r : BitVec 5) (s : State) (k : BitVec 1024 → Bool → SlotRes) : SlotRes :=
  match s.head key r with
  | .underflow => .trapOf .queueUnderflow
  | .waits => .engine
  | .value v p => k v p

/-- Removes the head unless it is kept. -/
def popUnless (keep : Bool) (r : BitVec 5) (s : State) : State := if keep then s else s.popQ r

/-- Flags of TRAPEN bits 20 to 25 (spec/05_formats.md R80). -/
def trapMask (fmt : BitVec 32) : BitVec 6 := bits 20 6 fmt

/-- Whether raising these flags traps (R80). -/
def flagsTrap (fmt : BitVec 32) (f : Flags) : Bool := f.setWidth 6 &&& trapMask fmt != 0

/-- A floating-point result: an enabled flag traps instead of being set (R80). -/
def fpFlags (f : Flags) (s : State) (k : SlotRes) : SlotRes :=
  if flagsTrap s.fmt f then .trap .fpException ((f.setWidth 6).setWidth 8) 0 else k

/-! ## Fields of FMT (R76) -/

def fmtRmode (v : BitVec 32) : RMode := bits 17 2 v
def fmtSubz (v : BitVec 32) : Bool := v.getLsbD 19
def fmtOutf (v : BitVec 32) : BitVec 3 := bits 14 3 v
def fmtAccf (v : BitVec 32) : BitVec 2 := bits 12 2 v
def fmtAfmt (v : BitVec 32) : BitVec 4 := bits 8 4 v

/-- The combinations that FMT accepts (R77). -/
def fmtOk (v : BitVec 32) : Bool :=
  bits 28 4 v == 0 && bits 0 4 v == 0 && bits 8 4 v == bits 4 4 v &&
    (match (fmtAfmt v).toNat with
      | 12 => fmtAccf v == 2 && fmtOutf v < 3
      | 13 => fmtAccf v == 2 && fmtOutf v < 3
      | 9 => fmtAccf v == 0 && fmtOutf v < 3
      | 8 => fmtAccf v == 0 && fmtOutf v < 3
      | 11 => fmtAccf v == 1 && fmtOutf v == 3
      | _ => false)

/-- FMT is written with its delay of four bundles (R51). -/
def writeFmt (v : BitVec 32) (s : State) : State :=
  s.modSys (fun y => { y with fmtDelay := y.fmtDelay ++ [{ value := v, left := 5 }] })

/-- A write of FMT from 64 bits, checked (R77). -/
def fmtWrite (v : Word) : SlotRes :=
  if bits 32 32 v != 0 || !fmtOk (v.setWidth 32) then .trapOf .formatValue else .ok (writeFmt (v.setWidth 32))

/-- A bundle has issued: writes of FMT whose four bundles have passed take effect (R51). -/
def SysCtx.stepDelay (y : SysCtx) : SysCtx :=
  let l := y.fmtDelay.map (fun w => { w with left := w.left - 1 })
  match l with
  | w :: r => if w.left = 0 then { y with fmt := w.value, fmtDelay := r } else { y with fmtDelay := l }
  | [] => y

/-! ## Addresses of a bundle (spec/07_scalar_control.md R84) -/

def State.pc (s : State) : Word := s.cur.flow.pc
def State.line (s : State) : Word := s.pc &&& ~~~(63 : Word)
def State.user (s : State) : Bool := s.cur.sys.mode == .user
def State.isSupervisor (s : State) : Bool := s.cur.sys.mode == .supervisor

/-- Bytes of one slot (spec/03_bundles.md R23, R32). -/
def slotBytesOf (k : SlotKind) (i : Instr) : Nat :=
  match k with
  | .c => (match i with
    | .tree _ => 12
    | .phint _ => 12
    | .loopImmediate .. => 8
    | .loopRegister .. => 8
    | .setfmtImmediate _ => 8
    | .setfmtRegister _ => 8
    | _ => 4)
  | .a => 4
  | .b => 4
  | .v => 6
  | .m => 6
  | .l => 8
  | .xlo => 4
  | .xhi => 4
  | .s => 2

/-- The slot of an instruction, and its bits. -/
def slotOf (i : Instr) : Option SlotKind := (encode i).map (·.1)
def slotWord (i : Instr) : Nat := match encode i with | some (_, w) => w.toNat | none => 0

/-- The header bit of an instruction's slot (R23). -/
def slotBit (i : Instr) : Nat := match slotOf i with | some k => k.bit | none => 0

/-- A bundle's header. -/
def headerOf (is : List Instr) : Byte := is.foldl (fun h i => h ||| BitVec.ofNat 8 (2 ^ slotBit i)) 0

/-- The bytes of a bundle's slots in order; the halves of the X slot are one slot, whose low half waits for the high. -/
def slotsBytes : Option Nat → List Instr → List Byte
  | x, [] => (match x with | some w => leBytes 4 w | none => [])
  | x, i :: r =>
    let flush := match x with | some w => leBytes 4 w | none => []
    match slotOf i with
    | some .xlo => flush ++ slotsBytes (some (slotWord i)) r
    | some .xhi => leBytes 4 (x.getD 0 ||| slotWord i) ++ slotsBytes none r
    | some k => flush ++ leBytes (slotBytesOf k i) (slotWord i) ++ slotsBytes none r
    | none => slotsBytes x r

/-- The bytes of a bundle (R24). -/
def bundleBytes (is : List Instr) : List Byte := headerOf is :: slotsBytes none is

/-- `NEXT`: the address after the bundle (R84). -/
def State.nextPc (is : List Instr) (s : State) : Word := s.pc + BitVec.ofNat 64 (bundleBytes is).length

end Sys2Proof.Machine
end

