-- ==== Sys2Proof/Machine/Flags.lean ====
section
/-! DEFINITION. Conditions and flags: integer comparisons, saturation, logic on predicates, and the flags that a
floating-point instruction raises (spec/07_scalar_control.md R105, R111, R112, R119; spec/05_formats.md R80). -/
namespace Sys2Proof.Machine

/-- The conditions of `cmp` and `cmpi` (R111). -/
def cmpCond (c : BitVec 3) (a b : Word) : Bool :=
  match c.toNat with
  | 0 => a == b
  | 1 => a != b
  | 2 => a.slt b
  | 3 => !a.slt b
  | 4 => a.ult b
  | 5 => !a.ult b
  | _ => a &&& b != 0

/-- The operations of `kop` (R112). -/
def kopOp (m : BitVec 3) (x y : Bool) : Bool :=
  match m.toNat with
  | 0 => x && y
  | 1 => x || y
  | 2 => x != y
  | 3 => x && !y
  | 4 => !(x && y)
  | 5 => !(x || y)
  | 6 => x == y
  | _ => x || !y

/-- An exact integer clamped to a range. -/
def clampInt (lo hi v : Int) : Int := if v < lo then lo else if hi < v then hi else v

/-- The conditions of `fcmp` with the flags each raises (R119). -/
def fcmpCond (f : FFmt) (c : BitVec 2) (a b : BitVec 64) : Bool × Flags :=
  let (eq, lt, le, un, sn) := fCompare f a b
  let any : Flags := if un then fIV else 0
  let sig : Flags := if sn then fIV else 0
  match c.toNat with
  | 0 => (eq, sig)
  | 1 => (lt, any)
  | 2 => (le, any)
  | _ => (un, sig)

/-- The conditions of `vcmp` on class F with the flags each raises (spec/13_vector.md R201). -/
def vcmpCondF (f : FFmt) (c : Nat) (a b : BitVec 64) : Bool × Flags :=
  let (eq, lt, le, un, sn) := fCompare f a b
  let any : Flags := if un then fIV else 0
  let sig : Flags := if sn then fIV else 0
  match c with
  | 0 => (eq, sig)
  | 1 => (!eq, sig)
  | 2 => (lt, any)
  | 3 => (le, any)
  | 4 => (!un && !le, any)
  | 5 => (!un && !lt, any)
  | _ => (un, sig)

/-- The conditions of `vcmp` on integers (R201). -/
def vcmpCondI (c : Nat) (a b : Int) : Bool :=
  match c with
  | 0 => a == b
  | 1 => a != b
  | 2 => a < b
  | 3 => a ≤ b
  | 4 => b < a
  | _ => b ≤ a

end Sys2Proof.Machine
end

