-- ==== Sys2Proof/Machine/Integer.lean ====
section
/-! DEFINITION. The integer instructions of the A and B slots (spec/07_scalar_control.md R105 to R113). -/
namespace Sys2Proof.Machine

/-- Two sources, one result (R105); poison passes on (R85). -/
def alu2 (u : AB) (f : RR) (bound : Nat) (op : Word → Word → Word) (s : State) : SlotRes :=
  destG f.dst s (needG (keyAB u) f.src1 s fun a pa => needG (keyAB u + 1) f.src2 s fun b pb =>
    .ok (State.resultG f.dst (op a b) (pa || pb) 0 bound))

/-- One source, one result. -/
def alu1 (u : AB) (f : RR) (bound : Nat) (op : Word → Word) (s : State) : SlotRes :=
  destG f.dst s (needG (keyAB u) f.src1 s fun a pa => .ok (State.resultG f.dst (op a) pa 0 bound))

/-- One source and an immediate. -/
def aluImm (u : AB) (f : RI) (op : Word → Word) (s : State) : SlotRes :=
  destG f.dst s (needG (keyAB u) f.src1 s fun a pa => .ok (State.resultG f.dst (op a) pa 0 1))

def imm10 (f : RI) : Word := f.imm.signExtend 64

/-- `add` and its variants: wrapping, 32-bit, signed and unsigned saturation (R105). -/
def addOp (m : BitVec 3) (a b : Word) : Word :=
  match m.toNat with
  | 0 => a + b
  | 1 => sext 32 (a + b)
  | 2 => BitVec.ofInt 64 (clampInt (-(2 ^ 63)) (2 ^ 63 - 1) (a.toInt + b.toInt))
  | _ => BitVec.ofNat 64 (min (a.toNat + b.toNat) (2 ^ 64 - 1))

def subOp (m : BitVec 3) (a b : Word) : Word :=
  match m.toNat with
  | 0 => a - b
  | 1 => sext 32 (a - b)
  | 2 => BitVec.ofInt 64 (clampInt (-(2 ^ 63)) (2 ^ 63 - 1) (a.toInt - b.toInt))
  | _ => BitVec.ofNat 64 (a.toNat - b.toNat)

def mulOp (m : BitVec 3) (a b : Word) : Word := if m = 0 then a * b else sext 32 (a * b)

/-- Bits [127:64] of a product, signed or unsigned. -/
def mulhOp (a b : Word) : Word := BitVec.ofInt 64 (a.toInt * b.toInt / 2 ^ 64)
def mulhnOp (a b : Word) : Word := BitVec.ofNat 64 (a.toNat * b.toNat / 2 ^ 64)

/-- `div` (R106): truncated toward zero; by zero −1, or all ones unsigned. -/
def divOp (m : BitVec 3) (a b : Word) : Word :=
  if b = 0 then BitVec.allOnes 64
  else if m = 0 then BitVec.ofInt 64 (a.toInt.tdiv b.toInt) else BitVec.ofNat 64 (a.toNat / b.toNat)

/-- `rem` (R106): the dividend when the divisor is 0. -/
def remOp (m : BitVec 3) (a b : Word) : Word :=
  if b = 0 then a
  else if m = 0 then BitVec.ofInt 64 (a.toInt.tmod b.toInt) else BitVec.ofNat 64 (a.toNat % b.toNat)

def low32 (v : Word) : BitVec 32 := v.setWidth 32

/-- Shifts by b[5:0], or of 32 bits by b[4:0] (R105). -/
def shlOp (m : BitVec 3) (a b : Word) : Word :=
  if m = 0 then a <<< (b.toNat % 64) else (low32 a <<< (b.toNat % 32)).signExtend 64
def shrOp (m : BitVec 3) (a b : Word) : Word :=
  if m = 0 then a >>> (b.toNat % 64) else (low32 a >>> (b.toNat % 32)).signExtend 64
def sarOp (m : BitVec 3) (a b : Word) : Word :=
  if m = 0 then a.sshiftRight (b.toNat % 64) else ((low32 a).sshiftRight (b.toNat % 32)).signExtend 64

def minOp (a b : Word) : Word := if b.slt a then b else a
def maxOp (a b : Word) : Word := if a.slt b then b else a
def minnOp (a b : Word) : Word := if b.ult a then b else a
def maxnOp (a b : Word) : Word := if a.ult b then b else a

/-- Leading zero bits, from the top bit down. -/
def clzGo (a : Word) : Nat → Nat
  | 0 => 0
  | k + 1 => if a.getLsbD k then 0 else 1 + clzGo a k

def clzOp (a : Word) : Word := BitVec.ofNat 64 (clzGo a 64)
def popcOp (a : Word) : Word := BitVec.ofNat 64 ((List.range 64).countP (fun i => a.getLsbD i))
def brevOp (a : Word) : Word := a.reverse

/-- Field position and width of `bfx` and `bfi`, and the field's mask (R107). -/
def fieldPos (b : Word) : Nat := b.toNat % 64
def fieldWidth (b : Word) : Nat := b.toNat / 256 % 64 + 1
def fieldMask (b : Word) : Word := BitVec.ofNat 64 ((2 ^ fieldWidth b - 1) * 2 ^ fieldPos b)

def bfxOp (m : BitVec 3) (a b : Word) : Word :=
  let f := (a &&& fieldMask b) >>> fieldPos b
  if m = 1 then sext (fieldWidth b) f else f

def bfiOp (a b c : Word) : Word := (c &&& ~~~fieldMask b) ||| ((a <<< fieldPos b) &&& fieldMask b)

def slotAdd (u : AB) (f : RR) : State → SlotRes := alu2 u f 1 (addOp f.modf)
def slotSub (u : AB) (f : RR) : State → SlotRes := alu2 u f 1 (subOp f.modf)
def slotMul (u : AB) (f : RR) : State → SlotRes := alu2 u f 3 (mulOp f.modf)
def slotMulh (u : AB) (f : RR) : State → SlotRes := alu2 u f 3 mulhOp
def slotMulhn (u : AB) (f : RR) : State → SlotRes := alu2 u f 3 mulhnOp
def slotDiv (f : RR) : State → SlotRes := alu2 .a f 20 (divOp f.modf)
def slotRem (f : RR) : State → SlotRes := alu2 .a f 20 (remOp f.modf)
def slotAnd (u : AB) (f : RR) : State → SlotRes := alu2 u f 1 (fun a b => a &&& b)
def slotOr (u : AB) (f : RR) : State → SlotRes := alu2 u f 1 (fun a b => a ||| b)
def slotXor (u : AB) (f : RR) : State → SlotRes := alu2 u f 1 (fun a b => a ^^^ b)
def slotAndn (u : AB) (f : RR) : State → SlotRes := alu2 u f 1 (fun a b => a &&& ~~~b)
def slotShl (u : AB) (f : RR) : State → SlotRes := alu2 u f 1 (shlOp f.modf)
def slotShr (u : AB) (f : RR) : State → SlotRes := alu2 u f 1 (shrOp f.modf)
def slotSar (u : AB) (f : RR) : State → SlotRes := alu2 u f 1 (sarOp f.modf)
def slotMin (u : AB) (f : RR) : State → SlotRes := alu2 u f 1 minOp
def slotMax (u : AB) (f : RR) : State → SlotRes := alu2 u f 1 maxOp
def slotMinn (u : AB) (f : RR) : State → SlotRes := alu2 u f 1 minnOp
def slotMaxn (u : AB) (f : RR) : State → SlotRes := alu2 u f 1 maxnOp
def slotClz (u : AB) (f : RR) : State → SlotRes := alu1 u f 2 clzOp
def slotPopc (u : AB) (f : RR) : State → SlotRes := alu1 u f 2 popcOp
def slotBrev (u : AB) (f : RR) : State → SlotRes := alu1 u f 2 brevOp
def slotBfx (u : AB) (f : RR) : State → SlotRes := alu2 u f 2 (bfxOp f.modf)

/-- `bfi` also reads its destination, through port 3 (R107). -/
def slotBfi (u : AB) (f : RR) (s : State) : SlotRes :=
  destG f.dst s (needG (keyAB u) f.src1 s fun a pa => needG (keyAB u + 1) f.src2 s fun b pb =>
    needG (keyAB u + 2) f.dst s fun c pc =>
      .ok (State.resultG f.dst (bfiOp a b c) (pa || pb || pc) 0 2))

/-- `lea` (R109). -/
def slotLea (u : AB) (f : RI) (s : State) : SlotRes := aluImm u f (fun a => s.line + 32 * imm10 f + a) s

/-- `sel` (R110): the result carries the poison of the chosen source alone. -/
def slotSel (u : AB) (f : RR) (s : State) : SlotRes :=
  destG f.dst s (needG (keyAB u) f.src1 s fun a pa => needG (keyAB u + 1) f.src2 s fun b pb =>
    if s.readK (keyAB u + 3) (f.modf.setWidth 4) then .ok (State.resultG f.dst a pa 0 1)
    else .ok (State.resultG f.dst b pb 0 1))

def slotAddi (u : AB) (f : RI) : State → SlotRes := aluImm u f (fun a => a + imm10 f)
def slotAndi (u : AB) (f : RI) : State → SlotRes := aluImm u f (fun a => a &&& imm10 f)
def slotOri (u : AB) (f : RI) : State → SlotRes := aluImm u f (fun a => a ||| imm10 f)
def slotShli (u : AB) (f : RI) : State → SlotRes := aluImm u f (fun a => a <<< (f.imm.toNat % 64))

/-- `movi` and `movhi` (R108). -/
def slotMovi (_u : AB) (f : MI) (s : State) : SlotRes :=
  destG f.dst s (.ok (State.resultG f.dst (f.imm.signExtend 64) false 0 1))
def slotMovhi (_u : AB) (f : MI) (s : State) : SlotRes :=
  destG f.dst s (.ok (State.resultG f.dst (f.imm.setWidth 64 <<< 32) false 0 1))

/-- `cmp` and `cmpi` write a predicate; a poisoned source is caught (R85, R111). -/
def slotCmp (u : AB) (f : RR) (s : State) : SlotRes :=
  cleanG (keyAB u) f.src1 s fun a => cleanG (keyAB u + 1) f.src2 s fun b =>
    .ok (State.resultK (f.dst.setWidth 4) (cmpCond f.modf a b) 0 1)
def slotCmpi (u : AB) (f : RC) (s : State) : SlotRes :=
  cleanG (keyAB u) f.src1 s fun a =>
    .ok (State.resultK (f.dst.setWidth 4) (cmpCond f.cond a (f.imm.signExtend 64)) 0 1)

/-- `kop` (R112). -/
def slotKop (u : AB) (f : RR) (s : State) : SlotRes :=
  .ok (State.resultK (f.dst.setWidth 4) (kopOp f.modf (s.readK (keyAB u) (f.src1.setWidth 4))
    (s.readK (keyAB u + 1) (f.src2.setWidth 4))) 0 1)

/-- `chk` (R113). -/
def slotChk (u : AB) (f : RR) (s : State) : SlotRes := cleanG (keyAB u) f.src1 s fun _ => .nothing

end Sys2Proof.Machine
end

