-- ==== Sys2Proof/Machine/ScalarFp.lean ====
section
/-! DEFINITION. The scalar floating-point instructions of the B slot (spec/07_scalar_control.md R115 to R121). -/
namespace Sys2Proof.Machine

/-- Format of a B-slot floating-point instruction: modifier bit [31] (R36). -/
def fpFmt (f : RR) : FFmt := if f.modf.getLsbD 2 then fp64 else fp32

/-- Rounding of modifier bits [30:29] (R36). -/
def fpMode (f : RR) : RMode := bits 0 2 f.modf

/-- A source in its format: FP32 ignores bits [63:32] (spec/05_formats.md R59). -/
def fpSrc (F : FFmt) (v : Word) : Word := if F = fp32 then zext 32 v else v

/-- A floating-point result: a poisoned source gives a poisoned result and no flag (R66); an enabled flag traps (R80). -/
def fpResult (f : RR) (bound : Nat) (r : FRes) (poison : Bool) (s : State) : SlotRes :=
  if poison then .ok (State.resultG f.dst r.1 true 0 bound)
  else fpFlags r.2 s (.ok (State.resultG f.dst r.1 false r.2 bound))

/-- Two sources. -/
def fp2 (f : RR) (bound : Nat) (op : FFmt → BitVec 64 → BitVec 64 → FRes) (s : State) : SlotRes :=
  destG f.dst s (needG keyB f.src1 s fun a pa => needG (keyB + 1) f.src2 s fun b pb =>
    fpResult f bound (op (fpFmt f) (fpSrc (fpFmt f) a) (fpSrc (fpFmt f) b)) (pa || pb) s)

def slotFadd (f : RR) : State → SlotRes := fp2 f 4 (fun F => fAdd F (fpMode f))
def slotFsub (f : RR) : State → SlotRes := fp2 f 4 (fun F => fSub F (fpMode f))
def slotFmul (f : RR) : State → SlotRes := fp2 f 4 (fun F => fMul F (fpMode f))

/-- `fma`: the destination is the addend, read through port 3 (R116). -/
def slotFma (f : RR) (s : State) : SlotRes :=
  let F := fpFmt f
  destG f.dst s (needG keyB f.src1 s fun a pa => needG (keyB + 1) f.src2 s fun b pb => needG (keyB + 2) f.dst s fun c pc =>
    fpResult f 4 (fFma F (fpMode f) (fpSrc F a) (fpSrc F b) (fpSrc F c)) (pa || pb || pc) s)

/-- Rounding of `fdiv` and `fsqrt`: RNE, or FMT.RMODE with `.dyn` (R115). -/
def dynMode (f : RR) (s : State) : RMode := if f.modf.getLsbD 0 then fmtRmode s.fmt else 0

/-- The speculative forms write a poisoned result where the plain form would trap (R117). -/
def spResult (f : RR) (r : FRes) (poison : Bool) (s : State) : SlotRes :=
  if f.modf.getLsbD 1 && !poison && flagsTrap s.fmt r.2 then
    .ok (State.resultG f.dst (Config.freeWord (s.freeIdx (keyB + 7))) true 0 14)
  else fpResult f 14 r poison s

def slotFdiv (f : RR) (s : State) : SlotRes :=
  let F := fpFmt f
  destG f.dst s (needG keyB f.src1 s fun a pa => needG (keyB + 1) f.src2 s fun b pb =>
    spResult f (fDiv F (dynMode f s) (fpSrc F a) (fpSrc F b)) (pa || pb) s)

def slotFsqrt (f : RR) (s : State) : SlotRes :=
  let F := fpFmt f
  destG f.dst s (needG keyB f.src1 s fun a pa => spResult f (fSqrt F (dynMode f s) (fpSrc F a)) pa s)

def slotFmin (f : RR) : State → SlotRes := fp2 f 2 (fun F => fMinMax F false)
def slotFmax (f : RR) : State → SlotRes := fp2 f 2 (fun F => fMinMax F true)

/-- `fsgn` (R118): only the sign bit changes, and no flag rises (R60). -/
def fsgnOp (F : FFmt) (m : BitVec 2) (a b : BitVec 64) : FRes :=
  let sb := signBit F b
  let sg := match m.toNat with | 0 => sb | 1 => !sb | _ => signBit F a != sb
  (setBit a (F.ew + F.mw) sg, 0)

def slotFsgn (f : RR) : State → SlotRes := fp2 f 2 (fun F => fsgnOp F (fpMode f))

/-- `fcmp` (R119). -/
def slotFcmp (f : RR) (s : State) : SlotRes :=
  let F := fpFmt f
  cleanG keyB f.src1 s fun a => cleanG (keyB + 1) f.src2 s fun b =>
    let r := fcmpCond F (fpMode f) (fpSrc F a) (fpSrc F b)
    fpFlags r.2 s (.ok (State.resultK (f.dst.setWidth 4) r.1 r.2 2))

/-- An integer result of a conversion, extended to 64 bits (R120). -/
def intResult (r : Int × Flags) : FRes := (BitVec.ofInt 64 r.1, r.2)

/-- `fcvt` by conversion code (R120). -/
def fcvtOp (F : FFmt) (mode : RMode) (code : BitVec 5) (v : Word) : FRes :=
  let x := fpSrc F v
  match code.toNat with
  | 0 => if F = fp32 then fToF fp32 fp64 mode x else fToF fp64 fp32 mode x
  | 1 => intResult (fToInt F mode true 32 x)
  | 2 => intResult (fToInt F mode false 32 x)
  | 3 => intResult (fToInt F mode true 64 x)
  | 4 => intResult (fToInt F mode false 64 x)
  | 5 => intToF F mode (low32 v).toInt
  | 6 => intToF F mode (low32 v).toNat
  | 7 => intToF F mode v.toInt
  | 8 => intToF F mode v.toNat
  | _ => fToIntegral F mode x

def slotFcvt (f : RR) (s : State) : SlotRes :=
  destG f.dst s (needG keyB f.src1 s fun a pa => fpResult f 3 (fcvtOp (fpFmt f) (fpMode f) f.src2 a) pa s)

/-- `fclass` (R121). -/
def slotFclass (f : RR) (s : State) : SlotRes :=
  destG f.dst s (needG keyB f.src1 s fun a pa =>
    .ok (State.resultG f.dst (BitVec.ofNat 64 (2 ^ fClass (fpFmt f) (fpSrc (fpFmt f) a))) pa 0 2))

end Sys2Proof.Machine
end

