-- ==== Sys2Proof/Machine/Trees.lean ====
section
/-! DEFINITION. The sum-tree instructions of the B slot (spec/19_trees_regions.md R272 to R284).  A tree is held as its
leaves; every internal node is the exact sum of its children and is computed from them (R272). -/
namespace Sys2Proof.Machine

/-- A tree: its leaves by number, an unlisted leaf being 0. -/
abbrev Leaves := SMap (BitVec 32)

def leafOf (t : Leaves) (i : Nat) : Nat := (smGet 0 t i).toNat

/-- prefix(i): the exact sum of leaves 0 to i − 1 (R272). -/
def prefixSum (t : Leaves) (i : Nat) : Nat := (t.map (fun p => if p.1 < i then p.2.toNat else 0)).sum

/-- The root. -/
def rootOf (t : Leaves) : Nat := prefixSum t 1024

def State.tree (w : BitVec 3) (s : State) : Leaves := s.core.trees[w.toNat]

def State.setTree (w : BitVec 3) (t : Leaves) (s : State) : State :=
  s.modCore (fun k => { k with trees := k.trees.set w.toNat t })

/-- Changes one leaf. -/
def setLeaf (i : Nat) (v : BitVec 32) (t : Leaves) : Leaves := smSet 0 t i v

/-- A fill of a tree of a core has still to be applied. -/
def fillPends (core : BitVec 6) (w : BitVec 3) (s : State) : Bool :=
  s.die.ops.any (fun o => o.owner.core == core && (match o.kind with | .treeFill x _ _ => x == w | _ => false))

/-- Whether a fill or a held region stops operations on a tree (R286, spec/09_traps.md R143). -/
def State.treeHeld (w : BitVec 3) (s : State) : Bool :=
  fillPends s.core.id w s || s.core.held.any (fun h => h.kind == .tree w)

/-- An operation on a tree holds while a fill of it has still to be applied (R286). -/
def needTree (w : BitVec 3) (s : State) (k : Leaves → SlotRes) : SlotRes :=
  if s.treeHeld w then .engine else k (s.tree w)

/-- The value a tree read returns: FP32, or the raw code (R281). -/
def massResult (form : BitVec 5) (q : Nat) : Word :=
  if form = 1 then BitVec.ofNat 64 q else (massToF q).setWidth 64

/-- The update of a leaf, then of FSTAT (R280): TN and TS never trap (R80). -/
def treeUpdate (w : BitVec 3) (t : Leaves) (f : Flags) : SlotRes :=
  .ok (fun s => State.resultFlags f 12 (s.setTree w t))

/-- An index of 0 to 1,023 (R279). -/
def needIndex (f : RR) (s : State) (k : Nat → SlotRes) : SlotRes :=
  cleanG keyB f.src1 s fun a => if 1023 < a.toNat then .trapOf .operandValue else k a.toNat

def slotWclr (f : RR) (s : State) : SlotRes :=
  needTree f.modf s fun t => needIndex f s fun i => treeUpdate f.modf (setLeaf i 0 t) 0

def slotWset (f : RR) (s : State) : SlotRes :=
  needTree f.modf s fun t => needIndex f s fun i => cleanG (keyB + 1) f.src2 s fun v =>
    if f.dst = 1 then
      if bits 32 32 v != 0 then .trapOf .operandValue else treeUpdate f.modf (setLeaf i (low32 v) t) 0
    else
      let q := massOf (low32 v)
      treeUpdate f.modf (setLeaf i q.1 t) q.2

/-- The new leaf of `wadd` and the flags it raises (R280). -/
def waddLeaf (form : BitVec 5) (leaf : Nat) (v : Word) : BitVec 32 × Flags :=
  let fin := fun (x : Int) =>
    if x < 0 then ((0 : BitVec 32), fTN)
    else if 0xFFFFFFFF < x then (0xFFFFFFFF, fTS)
    else (BitVec.ofInt 32 x, 0)
  if form = 1 then fin (leaf + v.toInt)
  else
    let y := zext 32 v
    match unpackF fp32 y with
    | .nan _ => (BitVec.ofNat 32 leaf, fTN)
    | .inf n => if n then (0, fTN) else (0xFFFFFFFF, fTS)
    | .num n m e =>
      if m = 0 || isSubnormal fp32 y then (BitVec.ofNat 32 leaf, 0)
      else
        let sum := exactAdd leaf 0 (signed n m) (e + 24)
        fin (toIntegral 0 (sum.1 < 0) sum.1.natAbs sum.2).1

def slotWadd (f : RR) (s : State) : SlotRes :=
  needTree f.modf s fun t => needIndex f s fun i => cleanG (keyB + 1) f.src2 s fun v =>
    let r := waddLeaf f.dst (leafOf t i) v
    treeUpdate f.modf (setLeaf i r.1 t) r.2

/-- A tree read with an index: a poisoned index gives a poisoned result, with no range check (R279). -/
def treeRead (f : RR) (last bound : Nat) (val : Leaves → Nat → Nat) (s : State) : SlotRes :=
  destG f.dst s (needTree f.modf s fun t => needG keyB f.src1 s fun a pa =>
    if pa then .ok (State.resultG f.dst (Config.freeWord (s.freeIdx (keyB + 7))) true 0 bound)
    else if last < a.toNat then .trapOf .operandValue
    else .ok (State.resultG f.dst (massResult f.src2 (val t a.toNat)) false 0 bound))

def slotWget (f : RR) : State → SlotRes := treeRead f 1023 4 leafOf
def slotWsum (f : RR) : State → SlotRes := treeRead f 1024 12 prefixSum

/-- u or c of `wfind` and `wcut` as an exact number, in units of 2^-24 with an exponent; none for a NaN (R282). -/
inductive Mass where
  | nan
  | low
  | high
  | val (v : Int) (e : Int)
  deriving DecidableEq, Repr

def massArg (form : BitVec 5) (v : Word) : Mass :=
  if form = 1 then .val v.toNat 0
  else
    match unpackF fp32 (zext 32 v) with
    | .nan _ => .nan
    | .inf n => if n then .low else .high
    | .num n m e => .val (signed n m) (e + 24)

/-- A mass at or above an exact number. -/
def massGe (q : Nat) (v e : Int) : Bool := 0 ≤ (exactAdd q 0 (-v) e).1

/-- A mass above an exact number. -/
def massGt (q : Nat) (v e : Int) : Bool := 0 < (exactAdd q 0 (-v) e).1

/-- The leaf i with prefix(i) ≤ u < prefix(i + 1): the first whose following prefix exceeds u (R282). -/
def coverLeaf (t : Leaves) (v e : Int) : Nat :=
  match t.find? (fun p => massGt (prefixSum t (p.1 + 1)) v e) with
  | some p => p.1
  | none => 1024

def slotWfind (f : RR) (s : State) : SlotRes :=
  destG f.dst s (needTree f.modf s fun t => needG keyB f.src1 s fun a pa =>
    if pa then .ok (State.resultG f.dst (Config.freeWord (s.freeIdx (keyB + 7))) true 0 12)
    else
      let miss : SlotRes := fpFlags fIV s (.ok (State.resultG f.dst 1024 false fIV 12))
      match massArg f.src2 a with
      | .val v e =>
        if v < 0 || !massGt (rootOf t) v e then miss
        else .ok (State.resultG f.dst (BitVec.ofNat 64 (coverLeaf t v e)) false 0 12)
      | _ => miss)

/-- `wcut`: leaves whose prefix reaches c become 0 (R283). -/
def cutLeaves (t : Leaves) (v e : Int) : Leaves := t.filter (fun p => !massGe (prefixSum t p.1) v e)

def slotWcut (f : RR) (s : State) : SlotRes :=
  destG f.dst s (needTree f.modf s fun t => cleanG keyB f.src1 s fun a =>
    let fin := fun (t' : Leaves) (fl : Flags) =>
      fpFlags fl s (.ok (fun s => State.resultG f.dst (massResult f.src2 (rootOf t')) false fl 24 (s.setTree f.modf t')))
    match massArg f.src2 a with
    | .nan => fin t fIV
    | .low => fin [] 0
    | .high => fin t 0
    | .val v e => fin (cutLeaves t v e) 0)

def slotWtot (f : RR) (s : State) : SlotRes :=
  destG f.dst s (needTree f.modf s fun t => .ok (State.resultG f.dst (massResult f.src2 (rootOf t)) false 0 2))

/-- `wmov`: one operation on both trees (R284); the source is named by src1's low bits. -/
def slotWmov (f : RR) (s : State) : SlotRes :=
  needTree f.modf s fun _ => needTree (f.src1.setWidth 3) s fun t => .ok (State.setTree f.modf t)

end Sys2Proof.Machine
end

