-- ==== Sys2Proof/Machine/System.lean ====
section
/-! DEFINITION. `rdsys` and `wrsys` (spec/07_scalar_control.md R114; spec/01_machine.md R19). -/
namespace Sys2Proof.Machine

/-- A factorisation of the current context is in progress. -/
def State.factBusy (s : State) : Bool :=
  match s.core.fact with | some f => f.ctx == s.core.sel | none => false

/-- An `mload` operation. -/
def Op.isMload (o : Op) : Bool := match o.kind with | .mload .. => !o.doomed | _ => false

/-- An `mload` of the current context is in progress. -/
def State.mloadBusy (s : State) : Bool := s.die.ops.any (fun o => o.isMload && o.owner == s.curId)

/-- `GROW`: round(UMAX / AMAX), +0 when AMAX is 0 (spec/17_matrix.md R266). -/
def growOf (a : ArrayCtx) : Word :=
  if a.amax &&& 0x7FFFFFFFFFFFFFFF = 0 then 0 else (fDiv fp64 0 a.umax a.amax).1

/-- FSTAT as a read sees it: flags of instructions within their bound may or may not show (R79). -/
def State.readFstat (s : State) : Flags :=
  let late := s.cur.pend.foldl (fun f p => f ||| p.flags) 0
  s.cur.sys.fstat ||| (late &&& (Config.freeWord (s.freeIdx 14)).setWidth 10)

/-- A system register by number (R37), TRAPINFO aside. -/
def sysValue (n : Nat) (s : State) : Word :=
  let y := s.cur.sys
  if 0x010 ≤ n ∧ n < 0x018 then (s.readN (BitVec.ofNat 3 (n - 0x010))).setWidth 64
  else if 0x020 ≤ n ∧ n < 0x040 then (s.core.f[(BitVec.ofNat 5 (n - 0x020)).toNat]).setWidth 64
  else
    match n with
    | 0x000 => y.fmt.setWidth 64
    | 0x001 => s.readFstat.setWidth 64
    | 0x002 => (bits 0 60 s.cur.arr.pvec).setWidth 64
    | 0x003 => growOf s.cur.arr
    | 0x004 => s.cur.arr.fprog
    | 0x005 => s.cur.arr.mlprog
    | 0x006 => (rankOf s.curId).setWidth 64
    | 0x007 => s.cluster.pourskew.setWidth 64
    | 0x008 => y.wdlim.setWidth 64
    | 0x009 => y.tvec
    | 0x00B => s.pkg.regs.dutymode
    | 0x00C => y.fabstale.setWidth 64
    | 0x00D => s.core.cecount.setWidth 64
    | 0x00E => s.die.lineage.losscount.setWidth 64
    | _ => BitVec.ofNat 64 Config.infoVA

/-- The registers whose access holds while a factorisation or an `mload` of the context is in progress (R114). -/
def sysHeld (n : Nat) (s : State) : Bool :=
  ((n == 2 || n == 3 || n == 4) && s.factBusy) || (n == 5 && s.mloadBusy)

/-- `rdsys`, with a bound of 4. -/
def slotRdsys (f : RI) (s : State) : SlotRes :=
  if sysHeld f.imm.toNat s then .engine
  else destG f.dst s (.ok (State.resultG f.dst (sysValue f.imm.toNat s) false 0 4))

/-- Word `i` of TRAPINFO (spec/09_traps.md R131). -/
def trapinfoWord (t : BitVec 640) (i : Nat) : Word := (t >>> (64 * i)).setWidth 64

/-- SEL := (SEL + 1) mod 10. -/
def nextSel (sel : BitVec 4) : BitVec 4 := if sel = 9 then 0 else sel + 1

def slotRdsysTrapinfo (f : RI) (s : State) : SlotRes :=
  destG f.dst s (.ok (fun t =>
    (t.resultG f.dst (trapinfoWord s.cur.sys.trapinfo s.cur.sys.sel.toNat) false 0 4).modSys
      (fun y => { y with sel := nextSel s.cur.sys.sel })))

/-- The source of a `wrsys`; a poisoned source is caught (R85). -/
def wrsysSrc (f : RI) (s : State) (k : Word → SlotRes) : SlotRes := cleanG (keyAB .a) f.src1 s k

/-- A 32-bit counter; bits [63:32] must be zero. -/
def wrsys32 (f : RI) (s : State) (k : BitVec 32 → State → State) : SlotRes :=
  wrsysSrc f s fun v => if bits 32 32 v != 0 then .trapOf .operandValue else .ok (k (low32 v))

/-- FABSTALE, CECOUNT, LOSSCOUNT. -/
def slotWrsys (f : RI) (s : State) : SlotRes :=
  wrsys32 f s fun v s =>
    match f.imm.toNat with
    | 0x00C => s.modSys (fun y => { y with fabstale := v })
    | 0x00D => s.modCore (fun k => { k with cecount := v })
    | _ => s.modLineage (fun l => { l with losscount := v })

def slotWrsysFmt (f : RI) (s : State) : SlotRes := wrsysSrc f s fmtWrite

/-- FSTAT := the written value; written values of bits [63:10] are ignored (spec/05_formats.md R78, R79). -/
def slotWrsysFstat (f : RI) (s : State) : SlotRes :=
  wrsysSrc f s fun v => .ok (State.modSys (fun y => { y with fstat := v.setWidth 10 }))

/-- FPROG (spec/17_matrix.md R261). -/
def fprogOk (v : Word) : Bool := bits 20 44 v == 0 && bits 5 3 v == 0 && bits 12 3 v < 5

def slotWrsysFprog (f : RI) (s : State) : SlotRes :=
  if s.factBusy then .engine
  else wrsysSrc f s fun v =>
    if fprogOk v then .ok (State.modArr (fun a => { a with fprog := v })) else .trapOf .operandValue

/-- MLPROG (R259). -/
def mlprogOk (v : Word) : Bool := bits 40 24 v == 0 && bits 9 6 v == 0 && bits 0 9 v ≤ 256

def slotWrsysMlprog (f : RI) (s : State) : SlotRes :=
  if s.mloadBusy then .engine
  else wrsysSrc f s fun v =>
    if mlprogOk v then .ok (State.modArr (fun a => { a with mlprog := v })) else .trapOf .operandValue

def slotWrsysPourskew (f : RI) (s : State) : SlotRes :=
  wrsysSrc f s fun v =>
    if 63 < v.toNat then .trapOf .operandValue
    else .ok (State.modCluster (fun c => { c with pourskew := v.setWidth 6 }))

/-- WDLIM: the count reached stays, and a limit at or below it expires at the next boundary (spec/09_traps.md R146). -/
def slotWrsysWdlim (f : RI) (s : State) : SlotRes :=
  wrsys32 f s fun v s =>
    s.modCtx (fun c => (c.wdSettle s.core.cycle).modSys (fun y => { y with wdlim := v, wdArmed := s.core.cycle }))

def slotWrsysTvec (f : RI) (s : State) : SlotRes :=
  wrsysSrc f s fun v =>
    if bits 0 6 v != 0 || bits 56 8 v != 0 then .trapOf .operandValue
    else .ok (State.modSys (fun y => { y with tvec := v }))

/-- The bits of a word of TRAPINFO that belong to fields; reserved bits read as zero (spec/00_scope.md R2). -/
def trapinfoFields (i : Nat) : Word :=
  match i with
  | 0 => 0xFFFFFF8000000000
  | 1 => 0x00FFFFFFFFFFFFFF
  | 2 => 0x00FFFFFFFFFFFFFF
  | _ => 0xFFFFFFFFFFFFFFFF

/-- Writes word `i` of TRAPINFO. -/
def setTrapinfoWord (t : BitVec 640) (i : Nat) (v : Word) : BitVec 640 :=
  (t &&& ~~~((BitVec.allOnes 64).setWidth 640 <<< (64 * i))) ||| ((v &&& trapinfoFields i).setWidth 640 <<< (64 * i))

def slotWrsysTrapinfo (f : RI) (s : State) : SlotRes :=
  wrsysSrc f s fun v => .ok (State.modSys (fun y =>
    { y with trapinfo := setTrapinfoWord y.trapinfo y.sel.toNat v, sel := nextSel y.sel }))

def slotWrsysDutymode (f : RI) (s : State) : SlotRes := wrsysSrc f s fun v => .ok (writeDutymode v)

/-- A coordinate in the peer encoding: reserved bits zero, within the torus (spec/01_machine.md R12). -/
def coordOk (c : Coord) : Bool :=
  bits 14 2 c == 0 && (bits 9 5 c).toNat < Config.torusX && (bits 4 5 c).toNat < Config.torusY &&
    (bits 0 4 c).toNat < Config.torusZ

/-- n1 to n7 (spec/11_storage.md R161). -/
def slotWrsysPeer (f : RI) (s : State) : SlotRes :=
  wrsysSrc f s fun v =>
    if bits 16 48 v != 0 || !coordOk (v.setWidth 16) then .trapOf .operandValue
    else .ok (State.modCtx (fun c => { c with n := c.n.set ((f.imm.setWidth 3 : BitVec 3)).toNat (v.setWidth 16) }))

/-- f0 to f31: posts of the same cycle are added after the write (spec/11_storage.md R182). -/
def slotWrsysFlag (f : RI) (s : State) : SlotRes :=
  wrsysSrc f s fun v =>
    if bits 16 48 v != 0 then .trapOf .operandValue
    else .ok (State.modCore (fun k => { k with f := k.f.set ((f.imm.setWidth 5 : BitVec 5)).toNat (v.setWidth 16) }))

end Sys2Proof.Machine
end

