-- ==== Sys2Proof/Machine/Vector.lean ====
section
/-! DEFINITION. The V-slot instructions (spec/13_vector.md R191 to R212). -/
namespace Sys2Proof.Machine

/-! ## Lanes (spec/05_formats.md R59) -/

/-- Lane `i` of an entry, `w` bits wide. -/
def laneOf {n : Nat} (w i : Nat) (e : BitVec n) : Nat := e.toNat / 2 ^ (w * i) % 2 ^ w

/-- Lanes joined, lane 0 lowest. -/
def packLanes (w : Nat) : List Nat → Nat
  | [] => 0
  | l :: r => l % 2 ^ w + 2 ^ w * packLanes w r

def entryOf (w : Nat) (ls : List Nat) : BitVec 1024 := BitVec.ofNat 1024 (packLanes w ls)

/-- All lanes of an entry for an element type. -/
def lanesOf (ty : BitVec 4) (e : BitVec 1024) : List Nat := (List.range (laneCount ty)).map (fun i => laneOf (tyWidth ty) i e)

/-- Whether a mask lets lane `i` through; for RX4 a bit governs two lanes (R192). -/
def laneOn (ty : BitVec 4) (m : BitVec 128) (i : Nat) : Bool := if ty = 13 then m.getLsbD (i / 2) else m.getLsbD i

/-- Format of a class F type. -/
def floatFmt (ty : BitVec 4) : FFmt :=
  match ty.toNat with
  | 8 => fp16
  | 9 => bf16
  | 10 => fp32
  | _ => fp64

/-- A two's complement reading of `w` bits. -/
def signedOf (w n : Nat) : Int := if n < 2 ^ (w - 1) then n else n - 2 ^ w

/-- The integer a lane stands for: signed for S and X, unsigned for U (R197). -/
def codeOf (ty : BitVec 4) (n : Nat) : Int := if tySigned ty || tyRes ty then signedOf (tyWidth ty) n else n

/-- An integer modulo 2^w. -/
def wrapTo (w : Nat) (v : Int) : Nat := (v % 2 ^ w).toNat

def tyMin (ty : BitVec 4) : Int := if tySigned ty then -(2 ^ (tyWidth ty - 1)) else 0
def tyMax (ty : BitVec 4) : Int := if tySigned ty then 2 ^ (tyWidth ty - 1) - 1 else 2 ^ tyWidth ty - 1

/-- A lane with the flags it raises. -/
abbrev LRes := Nat × Flags

/-- Lanes under a mask: a lane masked off is zero and raises nothing (R192); the flags are merged (R194). -/
def maskLanes (ty : BitVec 4) (m : BitVec 128) (ls : List LRes) : BitVec 1024 × Flags :=
  let xs := ls.mapIdx (fun i l => if laneOn ty m i then l else (0, 0))
  (entryOf (tyWidth ty) (xs.map (·.1)), xs.foldl (fun f l => f ||| l.2) 0)

/-- One computed lane (R194, R197): class F with the mode and SUBZ, class X clamped with OF, class I modulo 2^w or
saturated. -/
def computeLane (fmt : BitVec 32) (ty : BitVec 4) (sat : Bool) (ex : List Int → Int)
    (fl : FFmt → RMode → List (BitVec 64) → FRes) (xs : List Nat) : LRes :=
  let w := tyWidth ty
  if tyFloat ty then
    let F := floatFmt ty
    let z := fmtSubz fmt
    let r := flushOut F z (fl F (fmtRmode fmt) (xs.map (fun x => flushIn F z (BitVec.ofNat 64 x))))
    (r.1.toNat, r.2)
  else if tyRes ty then
    let cs := xs.map (codeOf ty)
    if cs.any (fun c => c == navCode w) then (wrapTo w (navCode w), 0)
    else
      let v := ex cs
      let c := clampInt (-(resMax w)) (resMax w) v
      (wrapTo w c, if c = v then 0 else fOF)
  else
    let v := ex (xs.map (codeOf ty))
    (wrapTo w (if sat then clampInt (tyMin ty) (tyMax ty) v else v), 0)

/-! ## Shapes of V-slot instructions -/

def vSrc (f : VF) (n : Nat) : List (BitVec 5 × Bool) :=
  ([(f.src1, f.keep1), (f.src2, f.keep2), (f.src3, f.keep3)] : List (BitVec 5 × Bool)).take n

/-- The heads of the sources, left to right, and whether any is poisoned. -/
def needSources (s : State) : Nat → List (BitVec 5 × Bool) → (List (BitVec 1024) → Bool → SlotRes) → SlotRes
  | _, [], k => k [] false
  | key, (q, _) :: r, k => needQ key q s fun v p => needSources s (key + 1) r fun vs ps => k (v :: vs) (p || ps)

/-- Pops the sources that are not kept. -/
def popSources (l : List (BitVec 5 × Bool)) (s : State) : State := l.foldl (fun s q => popUnless q.2 q.1 s) s

/-- A vector result is pushed; a poisoned source poisons it and raises no flag (R66, R192). -/
def vectorPush (f : VF) (n bound : Nat) (v : BitVec 1024) (fl : Flags) (poison : Bool) (s : State) : SlotRes :=
  let commit := fun (fl : Flags) (s : State) => State.resultFlags fl bound ((popSources (vSrc f n) s).pushQ f.dst v poison bound)
  if poison then .ok (commit 0) else fpFlags fl s (.ok (commit fl))

/-- An instruction that computes lane by lane from `n` sources under its mask. -/
def vectorLanes (f : VF) (n bound : Nat) (lane : List Nat → LRes) (s : State) : SlotRes :=
  needSources s keyV (vSrc f n) fun vs p =>
    let ls := (List.range (laneCount f.ty)).map (fun i => lane (vs.map (laneOf (tyWidth f.ty) i)))
    let r := maskLanes f.ty (s.readM (keyV + 4) f.mask) ls
    vectorPush f n bound r.1 r.2 p s

/-- An instruction that moves lanes: `mv` gives the result lanes from the source entries. -/
def vectorMove (f : VF) (n bound : Nat) (mv : List (BitVec 1024) → List Nat) (s : State) : SlotRes :=
  needSources s keyV (vSrc f n) fun vs p =>
    let r := maskLanes f.ty (s.readM (keyV + 4) f.mask) ((mv vs).map (fun l => (l, 0)))
    vectorPush f n bound r.1 0 p s

def nth (l : List Int) (i : Nat) : Int := l.getD i 0
def nthF (l : List (BitVec 64)) (i : Nat) : BitVec 64 := l.getD i 0
def nthE (l : List (BitVec 1024)) (i : Nat) : BitVec 1024 := l.getD i 0

/-- `.sat` of R196. -/
def vSat (f : VF) : Bool := f.modf.getLsbD 0

/-! ## Elementwise arithmetic (R196 to R200) -/

def slotVadd (f : VF) (s : State) : SlotRes :=
  vectorLanes f 2 4 (computeLane s.fmt f.ty (vSat f) (fun x => nth x 0 + nth x 1) (fun F m x => fAdd F m (nthF x 0) (nthF x 1))) s
def slotVsub (f : VF) (s : State) : SlotRes :=
  vectorLanes f 2 4 (computeLane s.fmt f.ty (vSat f) (fun x => nth x 0 - nth x 1) (fun F m x => fSub F m (nthF x 0) (nthF x 1))) s
def slotVmul (f : VF) (s : State) : SlotRes :=
  vectorLanes f 2 5 (computeLane s.fmt f.ty (vSat f) (fun x => nth x 0 * nth x 1) (fun F m x => fMul F m (nthF x 0) (nthF x 1))) s
def slotVfma (f : VF) (s : State) : SlotRes :=
  vectorLanes f 3 5 (computeLane s.fmt f.ty (vSat f) (fun x => nth x 0 * nth x 1 + nth x 2)
    (fun F m x => fFma F m (nthF x 0) (nthF x 1) (nthF x 2))) s

/-- a·b − c: the addend's sign is changed, a NaN aside. -/
def fFms (F : FFmt) (m : RMode) (a b c : BitVec 64) : FRes :=
  fFma F m a b (if (unpackF F c).isNan then c else setBit c (F.ew + F.mw) (!signBit F c))

def slotVfms (f : VF) (s : State) : SlotRes :=
  vectorLanes f 3 5 (computeLane s.fmt f.ty (vSat f) (fun x => nth x 0 * nth x 1 - nth x 2)
    (fun F m x => fFms F m (nthF x 0) (nthF x 1) (nthF x 2))) s
def slotVmin (f : VF) (s : State) : SlotRes :=
  vectorLanes f 2 3 (computeLane s.fmt f.ty false (fun x => min (nth x 0) (nth x 1))
    (fun F _ x => fMinMax F false (nthF x 0) (nthF x 1))) s
def slotVmax (f : VF) (s : State) : SlotRes :=
  vectorLanes f 2 3 (computeLane s.fmt f.ty false (fun x => max (nth x 0) (nth x 1))
    (fun F _ x => fMinMax F true (nthF x 0) (nthF x 1))) s

/-- A class F lane whose sign bit alone changes (R60). -/
def signLane (ty : BitVec 4) (sg : Bool → Bool) (xs : List Nat) : LRes :=
  let F := floatFmt ty
  let x := BitVec.ofNat 64 (xs.getD 0 0)
  ((setBit x (F.ew + F.mw) (sg (signBit F x))).toNat, 0)

/-- `vabs` on class U returns its source (R197). -/
def slotVabs (f : VF) (s : State) : SlotRes :=
  vectorLanes f 1 3 (if tyFloat f.ty then signLane f.ty (fun _ => false)
    else computeLane s.fmt f.ty (vSat f) (fun x => (nth x 0).natAbs) (fun _ _ _ => (0, 0))) s
def slotVneg (f : VF) (s : State) : SlotRes :=
  vectorLanes f 1 3 (if tyFloat f.ty then signLane f.ty (fun b => !b)
    else computeLane s.fmt f.ty (vSat f) (fun x => -(nth x 0)) (fun _ _ _ => (0, 0))) s

/-- `vmin(vmax(a, b), c)`, with the flags of both steps (R196). -/
def fClamp (F : FFmt) (a b c : BitVec 64) : FRes :=
  let x := fMinMax F true a b
  let y := fMinMax F false x.1 c
  (y.1, x.2 ||| y.2)

def slotVclamp (f : VF) (s : State) : SlotRes :=
  vectorLanes f 3 4 (computeLane s.fmt f.ty false (fun x => min (max (nth x 0) (nth x 1)) (nth x 2))
    (fun F _ x => fClamp F (nthF x 0) (nthF x 1) (nthF x 2))) s

/-- A class F lane alone. -/
def floatLane (s : State) (ty : BitVec 4) (op : FFmt → RMode → List (BitVec 64) → FRes) : List Nat → LRes :=
  computeLane s.fmt ty false (fun _ => 0) op

/-- `vdiv`; `.sp` writes a poisoned entry where the plain form would trap (R198). -/
def slotVdiv (f : VF) (s : State) : SlotRes :=
  needSources s keyV (vSrc f 2) fun vs p =>
    let lane := floatLane s f.ty (fun F m x => fDiv F m (nthF x 0) (nthF x 1))
    let ls := (List.range (laneCount f.ty)).map (fun i => lane (vs.map (laneOf (tyWidth f.ty) i)))
    let r := maskLanes f.ty (s.readM (keyV + 4) f.mask) ls
    if f.modf.getLsbD 6 && !p && flagsTrap s.fmt r.2 then
      vectorPush f 2 14 (Config.freeEntry (s.freeIdx (keyV + 7))) 0 true s
    else vectorPush f 2 14 r.1 r.2 p s

def slotVsqrt (f : VF) (s : State) : SlotRes := vectorLanes f 1 14 (floatLane s f.ty (fun F m x => fSqrt F m (nthF x 0))) s
def slotVrsqrt (f : VF) (s : State) : SlotRes := vectorLanes f 1 8 (floatLane s f.ty (fun F m x => fRsqrt F m (nthF x 0))) s
def slotVrcp (f : VF) (s : State) : SlotRes := vectorLanes f 1 8 (floatLane s f.ty (fun F m x => fRcp F m (nthF x 0))) s
def slotVexp2 (f : VF) (s : State) : SlotRes := vectorLanes f 1 8 (floatLane s f.ty (fun F m x => fExp2 F m (nthF x 0))) s
def slotVlog2 (f : VF) (s : State) : SlotRes := vectorLanes f 1 8 (floatLane s f.ty (fun F m x => fLog2 F m (nthF x 0))) s

/-- Logic and shifts on the bits of a lane (R200). -/
def bitLane2 (f : VF) (op : Nat → BitVec 64 → BitVec 64 → BitVec 64) (s : State) : SlotRes :=
  vectorLanes f 2 3 (fun x =>
    ((op (tyWidth f.ty) (BitVec.ofNat 64 (x.getD 0 0)) (BitVec.ofNat 64 (x.getD 1 0))).toNat % 2 ^ tyWidth f.ty, 0)) s

def slotVand (f : VF) : State → SlotRes := bitLane2 f (fun _ a b => a &&& b)
def slotVor (f : VF) : State → SlotRes := bitLane2 f (fun _ a b => a ||| b)
def slotVxor (f : VF) : State → SlotRes := bitLane2 f (fun _ a b => a ^^^ b)
def slotVnot (f : VF) (s : State) : SlotRes :=
  vectorLanes f 1 3 (fun x => (2 ^ tyWidth f.ty - 1 - x.getD 0 0, 0)) s
def slotVshl (f : VF) : State → SlotRes := bitLane2 f (fun w a b => a <<< (b.toNat % w))
def slotVshr (f : VF) : State → SlotRes := bitLane2 f (fun w a b => a >>> (b.toNat % w))
def slotVsar (f : VF) : State → SlotRes :=
  bitLane2 f (fun w a b => (BitVec.ofInt 64 (signedOf w a.toNat)).sshiftRight (b.toNat % w))

/-! ## Comparison and selection (R201, R202) -/

/-- One lane of `vcmp`: a residue NaV satisfies only `.ne`. -/
def cmpLane (fmt : BitVec 32) (ty : BitVec 4) (c : Nat) (a b : Nat) : Bool × Flags :=
  if tyFloat ty then
    let F := floatFmt ty
    let z := fmtSubz fmt
    vcmpCondF F c (flushIn F z (BitVec.ofNat 64 a)) (flushIn F z (BitVec.ofNat 64 b))
  else if tyRes ty && (codeOf ty a == navCode (tyWidth ty) || codeOf ty b == navCode (tyWidth ty)) then (c == 1, 0)
  else (vcmpCondI c (codeOf ty a) (codeOf ty b), 0)

/-- A mask from its bits. -/
def maskOf (bs : List Bool) : BitVec 128 := BitVec.ofNat 128 (packLanes 1 (bs.map (fun b => if b then 1 else 0)))

def slotVcmp (f : VF) (s : State) : SlotRes :=
  needSources s keyV (vSrc f 2) fun vs p =>
    if p then .trapOf .poison
    else
      let m := s.readM (keyV + 4) f.mask
      let w := tyWidth f.ty
      let ls := (List.range (laneCount f.ty)).map (fun i =>
        if laneOn f.ty m i then cmpLane s.fmt f.ty f.modf.toNat (laneOf w i (nthE vs 0)) (laneOf w i (nthE vs 1))
        else (false, 0))
      let fl : Flags := ls.foldl (fun f l => f ||| l.2) 0
      fpFlags fl s (.ok (fun s => (popSources (vSrc f 2) s).resultM (f.dst.setWidth 3) (maskOf (ls.map (·.1))) fl 3))

/-- `vsel`: the mask field selects and masks no lane. -/
def slotVsel (f : VF) (s : State) : SlotRes :=
  needSources s keyV (vSrc f 2) fun vs p =>
    let m := s.readM (keyV + 4) f.mask
    let w := tyWidth f.ty
    let ls := (List.range (laneCount f.ty)).map (fun i =>
      if laneOn f.ty m i then laneOf w i (nthE vs 0) else laneOf w i (nthE vs 1))
    vectorPush f 2 3 (entryOf w ls) 0 p s

/-! ## Reductions and scans (R203, R204) -/

/-- u of R81 as a power of two. -/
def sumExp (ty : BitVec 4) : Nat := if ty = 11 then 53 else 24

/-- A floating-point sum of lanes under R81, +0 when there is none. -/
def floatSum (fmt : BitVec 32) (ty : BitVec 4) (xs : List Nat) : LRes :=
  let F := floatFmt ty
  let z := fmtSubz fmt
  let ys := xs.map (fun x => flushIn F z (BitVec.ofNat 64 x))
  match ys with
  | [] => (0, 0)
  | _ =>
    let r := flushOut F z (fSumV F (fmtRmode fmt) (ys.map (unpackF F)) (sumExp ty)
      (Config.dotChoice (ty.toNat * 4 + (fmtRmode fmt).toNat) (ys.map (fun y => (y, 0)))))
    (r.1.toNat, r.2)

/-- The sum of active lanes. -/
def sumLanes (fmt : BitVec 32) (ty : BitVec 4) (xs : List Nat) : LRes :=
  if tyFloat ty then floatSum fmt ty xs
  else computeLane fmt ty false (fun x => x.sum) (fun _ _ _ => (0, 0)) xs

/-- The largest or smallest active lane. -/
def extremeLanes (fmt : BitVec 32) (ty : BitVec 4) (larger : Bool) (xs : List Nat) : LRes :=
  let w := tyWidth ty
  match xs with
  | [] =>
    if tyFloat ty then ((infBits (floatFmt ty) larger).toNat, 0)
    else if tyRes ty then (wrapTo w (if larger then -(resMax w) else resMax w), 0)
    else (wrapTo w (if larger then tyMin ty else tyMax ty), 0)
  | x :: r =>
    if tyFloat ty then
      let F := floatFmt ty
      let g := fun n => flushIn F (fmtSubz fmt) (BitVec.ofNat 64 n)
      let z := r.foldl (fun (a : FRes) y => let b := fMinMax F larger a.1 (g y); (b.1, a.2 ||| b.2)) (fMinMax F larger (g x) (g x))
      (z.1.toNat, z.2)
    else
      computeLane fmt ty false (fun c => c.foldl (fun a b => if larger then max a b else min a b) (nth c 0))
        (fun _ _ _ => (0, 0)) xs

/-- A reduction into lane 0. -/
def vectorReduce (f : VF) (red : List Nat → LRes) (s : State) : SlotRes :=
  needSources s keyV (vSrc f 1) fun vs p =>
    let m := s.readM (keyV + 4) f.mask
    let act := ((lanesOf f.ty (nthE vs 0)).mapIdx (fun i x => (laneOn f.ty m i, x))).filter (·.1)
    let r := red (act.map (·.2))
    vectorPush f 1 6 (entryOf (tyWidth f.ty) [r.1]) r.2 p s

def slotVredsum (f : VF) (s : State) : SlotRes := vectorReduce f (sumLanes s.fmt f.ty) s
def slotVredmax (f : VF) (s : State) : SlotRes := vectorReduce f (extremeLanes s.fmt f.ty true) s
def slotVredmin (f : VF) (s : State) : SlotRes := vectorReduce f (extremeLanes s.fmt f.ty false) s

def slotVscan (f : VF) (s : State) : SlotRes :=
  needSources s keyV (vSrc f 1) fun vs p =>
    let m := s.readM (keyV + 4) f.mask
    let xs := lanesOf f.ty (nthE vs 0)
    let ls := (List.range (laneCount f.ty)).map (fun i =>
      let n := if f.modf.getLsbD 0 then i else i + 1
      let act := ((xs.take n).mapIdx (fun j x => (laneOn f.ty m j, x))).filter (·.1)
      sumLanes s.fmt f.ty (act.map (·.2)))
    let r := maskLanes f.ty m ls
    vectorPush f 1 8 r.1 r.2 p s

/-! ## Lane movement (R205 to R208) -/

/-- The scalar operand of an entry. -/
def scalarOf (e : BitVec 1024) : Nat := laneOf 64 0 e

def slotVperm (f : VF) (s : State) : SlotRes :=
  let L := laneCount f.ty
  let w := tyWidth f.ty
  vectorMove f 2 4 (fun vs => (List.range L).map (fun i =>
    let x := laneOf w i (nthE vs 1)
    if f.modf.getLsbD 0 && L ≤ x then 0 else laneOf w (x % L) (nthE vs 0))) s

/-- The amount or lane number: an immediate, or the scalar operand modulo L. -/
def laneArg (f : VF) (e : BitVec 1024) : Nat :=
  if f.modf.getLsbD 5 then scalarOf e % laneCount f.ty else (bits 0 5 f.modf).toNat

def slotVslide (f : VF) (s : State) : SlotRes :=
  let L := laneCount f.ty
  vectorMove f (if f.modf.getLsbD 5 then 3 else 2) 4 (fun vs =>
    let k := laneArg f (nthE vs 2)
    ((lanesOf f.ty (nthE vs 0) ++ lanesOf f.ty (nthE vs 1)).drop k).take L) s

def slotVbcast (f : VF) (s : State) : SlotRes :=
  vectorMove f (if f.modf.getLsbD 5 then 2 else 1) 4 (fun vs =>
    List.replicate (laneCount f.ty) (laneOf (tyWidth f.ty) (laneArg f (nthE vs 1)) (nthE vs 0))) s

def dupFactor (f : VF) : Nat := 2 ^ (bits 0 2 f.modf).toNat
def dupPart (f : VF) : Nat := (bits 2 3 f.modf).toNat

def slotVdup (f : VF) (s : State) : SlotRes :=
  let L := laneCount f.ty
  vectorMove f 1 3 (fun vs => (List.range L).map (fun i =>
    laneOf (tyWidth f.ty) (dupPart f * (L / dupFactor f) + i / dupFactor f) (nthE vs 0))) s

def slotVdrop (f : VF) (s : State) : SlotRes :=
  let L := laneCount f.ty
  vectorMove f 1 3 (fun vs => (List.range L).map (fun i =>
    if i < L / dupFactor f then laneOf (tyWidth f.ty) (i * dupFactor f + dupPart f) (nthE vs 0) else 0)) s

/-! ## Constants, conversions and lengths (R209 to R211) -/

def slotViota (f : VF) (s : State) : SlotRes :=
  vectorMove f 0 3 (fun _ => (List.range (laneCount f.ty)).map (fun (i : Nat) =>
    if tyFloat f.ty then (intToF (floatFmt f.ty) 0 (i : Int)).1.toNat else i)) s

/-- The 16-bit immediate of `vmovi`, held in the fields of src1 to src3 (R38). -/
def vmoviImm (f : VF) : BitVec 16 :=
  bits 0 4 f.src3 ++ BitVec.ofBool f.keep2 ++ f.src2 ++ BitVec.ofBool f.keep1 ++ f.src1

def slotVmovi (f : VF) (s : State) : SlotRes :=
  let v := (vmoviImm f).signExtend 64
  let l := if f.ty = 10 ∨ f.ty = 11 then (intToF (floatFmt f.ty) 0 v.toInt).1.toNat else wrapTo (tyWidth f.ty) v.toInt
  let r := maskLanes f.ty (s.readM (keyV + 4) f.mask) (List.replicate (laneCount f.ty) (l, 0))
  .ok (fun s => s.pushQ f.dst r.1 false 3)

/-- One lane of `vcvt` (R210). -/
def cvtLane (fmt : BitVec 32) (src dst : BitVec 4) (x : Nat) : LRes :=
  let mode := fmtRmode fmt
  let z := fmtSubz fmt
  let wd := tyWidth dst
  let Fs := floatFmt src
  let Fd := floatFmt dst
  let xf := flushIn Fs z (BitVec.ofNat 64 x)
  let out := fun (r : FRes) => let r := flushOut Fd z r; (r.1.toNat, r.2)
  let code := codeOf src x
  let nav := tyRes src && code == navCode (tyWidth src)
  if tyFloat src then
    if tyFloat dst then out (fToF Fs Fd mode xf)
    else if tyRes dst then
      let r := toResidue wd mode (unpackF Fs xf)
      (wrapTo wd r.1, r.2)
    else
      let r := fToInt Fs mode (tySigned dst) wd xf
      (wrapTo wd r.1, r.2)
  else if nav then
    if tyFloat dst then ((cnan Fd).toNat, fIV) else if tyRes dst then (wrapTo wd (navCode wd), 0) else (0, fIV)
  else if tyFloat dst then out (intToF Fd mode code)
  else if tyRes dst then
    let r := toResidue wd mode (.num (code < 0) code.natAbs 0)
    (wrapTo wd r.1, r.2)
  else if tyRes src && !tySigned dst && code < 0 then (0, fIV)
  else (wrapTo wd code, 0)

def slotVcvt (f : VF) (s : State) : SlotRes :=
  let dst : BitVec 4 := bits 0 4 f.modf
  let p := (bits 4 2 f.modf).toNat
  let li := laneCount f.ty
  let lo := laneCount dst
  needSources s keyV (vSrc f 1) fun vs po =>
    let a := nthE vs 0
    let conv := fun i => cvtLane s.fmt f.ty dst (laneOf (tyWidth f.ty) i a)
    let ls := (List.range lo).map (fun i =>
      if tyWidth f.ty < tyWidth dst then conv (p * lo + i)
      else if p * li ≤ i ∧ i < p * li + li then conv (i - p * li) else (0, 0))
    let r := maskLanes dst (s.readM (keyV + 4) f.mask) ls
    vectorPush f 1 4 r.1 r.2 po s

def slotVlen (f : VF) (s : State) : SlotRes :=
  needSources s keyV (vSrc f 1) fun vs p =>
    if p then .trapOf .poison
    else
      let n := min (scalarOf (nthE vs 0)) (laneCount f.ty)
      let m := maskOf ((List.range 128).map (fun i => if f.ty = 13 then decide (2 * i < n) else decide (i < n)))
      .ok (fun s => (popSources (vSrc f 1) s).resultM (f.dst.setWidth 3) m 0 3)

/-! ## Masks (R212) -/

def maskArg (key : Nat) (r : BitVec 5) (s : State) : BitVec 128 := s.readM key (r.setWidth 3)

def slotMand (f : VF) (s : State) : SlotRes :=
  .ok (State.resultM (f.dst.setWidth 3) (maskArg keyV f.src1 s &&& maskArg (keyV + 1) f.src2 s) 0 3)
def slotMor (f : VF) (s : State) : SlotRes :=
  .ok (State.resultM (f.dst.setWidth 3) (maskArg keyV f.src1 s ||| maskArg (keyV + 1) f.src2 s) 0 3)
def slotMnot (f : VF) (s : State) : SlotRes :=
  .ok (State.resultM (f.dst.setWidth 3) (~~~(maskArg keyV f.src1 s)) 0 3)

end Sys2Proof.Machine
end

