-- ==== Sys2Proof/Machine/Transfer.lean ====
section
/-! DEFINITION. The X slot (spec/13_vector.md R213 to R217), the S slot (spec/11_storage.md R182, R183), and the records of
operations in flight. -/
namespace Sys2Proof.Machine

/-! ## Operations in flight (R165 to R167) -/

/-- Serial number of the task in the current context. -/
def Ctx.serial (c : Ctx) : Nat := match c.flow.task with | some t => t.serial | none => 0

/-- An operation of the current context with nothing said of its target. -/
def mkOp (kind : OpKind) (s : State) : Op :=
  { id := s.die.nextId, owner := s.curId, serial := s.cur.serial, kind := kind, record := 0, offset := 0,
    asid := s.cur.sys.asid, user := s.user, post := none, pc := s.pc, logged := [], remote := none, cells := [], doomed := false, space := 7, lo := 0,
    hi := 0, alt := none, isWrite := false, isRead := false, counted := true }

def dropOp (id : Nat) (s : State) : State := s.modDie (fun d => { d with ops := d.ops.filter (fun o => o.id != id) })

def findOp (id : Nat) (s : State) : Option Op := s.die.ops.find? (fun o => o.id == id)

def modOp (id : Nat) (f : Op → Op) (s : State) : State :=
  s.modDie (fun d => { d with ops := d.ops.map (fun o => if o.id = id then f o else o) })

/-- The uncompleted operations of the task now on the current context. -/
def State.taskOps (s : State) : List Op := s.die.ops.filter (fun o => o.owner == s.curId && o.serial == s.cur.serial)

/-- An operation that later operations of every ordered kind wait for: an acquire (spec/15_ordering.md R223), and a transfer
between a tree and scratchpad whose scratchpad access has still to be made (R222). -/
def Op.isFence (o : Op) : Bool :=
  match o.kind with | .acquire _ => true | .treeFill .. => true | .treeDump .. => true | _ => false

/-- The operation is a signal, or an access through a record whose ORDER is release (spec/15_ordering.md R223). -/
def Op.releases (o : Op) : Bool :=
  (recOrder o.record).getLsbD 1 ||
    (match o.kind with | .signal .. => true | .blockCopy src _ => (recOrder src).getLsbD 1 | _ => false)

/-- Two operations of the die may touch a common byte through one space and peer (R166). -/
def Op.meets (o p : Op) : Bool :=
  o.space == p.space && o.remote.map (·.dst) == p.remote.map (·.dst) && o.lo < p.hi && p.lo < o.hi

/-- What an operation of the bundle that commits follows within its bundle, whose M slot comes before its L slot (spec/15_ordering.md
R220): the acquire of an `mload`, and the `mload` itself where the operation is a signal or a release or touches its bytes. -/
def ownBefore (o : Op) (s : State) : List Nat :=
  ((s.taskOps.filter (fun p => s.cur.flow.firstOp ≤ p.id &&
    ((match p.kind with | .acquire _ => true | _ => false) || (p.isMload && (o.releases || o.meets p))))).map (·.id))

/-- An operation starts, under the next number. -/
def startOp (o : Op) (s : State) : State :=
  s.modDie (fun d => { d with
    ops := d.ops ++ [{ o with id := d.nextId, after := if o.counted then ownBefore o s else [] }], nextId := d.nextId + 1 })

/-- An operation that it follows has not ended. -/
def Op.follows (o : Op) (s : State) : Bool := o.after.any (fun i => (findOp i s).isSome)

/-- The operations that a flag post of the current context has still to follow (R236). -/
def State.fences (s : State) : List Nat := (s.taskOps.filter Op.isFence).map (·.id)

/-- Uncompleted L-slot operations of the core (R167). -/
def State.coreOps (s : State) : Nat := s.die.ops.countP (fun o => o.counted && o.owner.core == s.core.id)

/-! ## The X slot -/

/-- The entry that `xsv` pushes, by lane selector (R214). -/
def xsvEntry (sel : BitVec 2) (v : Word) : BitVec 1024 :=
  match sel.toNat with
  | 0 => entryOf 64 (List.replicate 16 v.toNat)
  | 1 => entryOf 32 (List.replicate 32 v.toNat)
  | _ => v.setWidth 1024

def slotXsv (f : XsvF) (s : State) : SlotRes :=
  needG keyX f.pair s fun v p => .ok (fun s => s.pushQ f.pair (xsvEntry f.sel v) p 3)

def slotXkm (f : XkmF) (s : State) : SlotRes :=
  .ok (State.resultM f.mask (if s.readK keyX f.pred then BitVec.allOnes 128 else 0) 0 3)

/-- The lane that `xvs` writes, by width (R216). -/
def xvsValue (width : BitVec 2) (l : BitVec 5) (e : BitVec 1024) : Word :=
  match width.toNat with
  | 0 => BitVec.ofNat 64 (laneOf 32 l.toNat e)
  | 1 => BitVec.ofInt 64 (signedOf 32 (laneOf 32 l.toNat e))
  | _ => BitVec.ofNat 64 (laneOf 64 l.toNat e)

def slotXvs (f : XvsF) (s : State) : SlotRes :=
  destG f.pair s (needQ (keyX + 4) f.pair s fun e p =>
    .ok (fun s => (popUnless f.keep f.pair s).resultG f.pair (xvsValue f.width f.lane e) p 0 3))

def slotXmk (f : XmkF) (s : State) : SlotRes :=
  let m := s.readM (keyX + 5) f.mask
  .ok (State.resultK f.pred (if f.all then m == BitVec.allOnes 128 else m != 0) 0 3)

/-! ## The S slot -/

/-- The count field: 0 means 8. -/
def sCount (f : SF) : Nat := if f.count = 0 then 8 else f.count.toNat

/-- A wait for a flag of the own core (R183).  A `wrsys` to the flag in the same bundle comes first: the count leaves what it
wrote, down to 0; R46 has the flag tested as it stood before, and no rule says what remains (log entry 44). -/
def waitFlag (flag : BitVec 5) (n : Nat) (s : State) : SlotRes :=
  if s.cur.flow.flagGrant = some s.pc then .ok (State.modFlow (fun w => { w with flagGrant := none }))
  else if s.core.flagMet s.core.sel flag (BitVec.ofNat 16 n) then
    .ok (fun t => t.modCore (Core.serveFlag s.core.sel flag (BitVec.ofNat 16 n)))
  else if s.core.waiters.any (fun w => w.ctx == s.core.sel && w.flag == flag) then .engine
  else .arrive (State.modCore (Core.addWaiter s.core.sel flag (BitVec.ofNat 16 n)))

def slotWflag (f : SF) (s : State) : SlotRes := waitFlag f.flag (sCount f) s

/-- A post by the program follows the acquires and the scratchpad accesses of trees that precede it, those of its own bundle
included (spec/15_ordering.md R236). -/
def postInOrder (flag : BitVec 5) (n : Nat) (s : State) : State :=
  if s.fences.isEmpty then s.modCore (Core.post flag n)
  else startOp { mkOp (.rsync flag (BitVec.ofNat 16 n) s.fences) s with counted := false, post := some flag } s

def slotPflag (f : SF) (_s : State) : SlotRes := .ok (postInOrder f.flag (sCount f))

/-- The contexts that wait in a generation are released together, and a new generation begins. -/
def releaseBarrier (b : Barrier) (s : State) : State :=
  (b.arrived.dedup.foldl (fun s c => modCtxAt c (Ctx.modFlow (fun w => { w with barGrant := w.barWaiting, barWaiting := none })) s) s).modCluster
    (fun k => { k with barrier := none })

/-- The current context arrives and waits. -/
def arriveBarrier (n : Nat) (s : State) : State :=
  let b := s.cluster.barrier.getD { count := n, arrived := [] }
  (s.modCluster (fun k => { k with barrier := some { b with arrived := b.arrived ++ [s.curId] } })).modFlow
    (fun w => { w with barWaiting := some s.pc })

/-- `bar`: the first arrival fixes the count; the last one releases the generation (R183). -/
def slotBar (f : SF) (s : State) : SlotRes :=
  let n := sCount f
  if s.cur.flow.barGrant = some s.pc then .ok (State.modFlow (fun w => { w with barGrant := none }))
  else if s.cur.flow.barWaiting = some s.pc then .engine
  else
    let b := s.cluster.barrier.getD { count := n, arrived := [] }
    if b.count ≠ n then .trapOf .operandValue
    else if n ≤ b.arrived.length + 1 then .ok (releaseBarrier b)
    else .arrive (arriveBarrier n)

/-- `rsync`: the post follows once every earlier L-slot operation of the task has completed, those of its own bundle
included (spec/15_ordering.md R220). -/
def startRsync (flag : BitVec 5) (n : Nat) (s : State) : State :=
  let ids := (s.taskOps.filter (fun o => o.counted || o.isFence)).map (·.id)
  if ids.isEmpty then s.modCore (Core.post flag n)
  else startOp { mkOp (.rsync flag (BitVec.ofNat 16 n) ids) s with counted := false, post := some flag } s

def slotRsync (f : SF) (_s : State) : SlotRes := .ok (startRsync f.flag (sCount f))

end Sys2Proof.Machine
end

