-- ==== Sys2Proof/Machine/Matrix.lean ====
section
/-! DEFINITION. The matrix array: planes, E, the cope store and the beats of the M slot (spec/17_matrix.md R242 to R257,
R269 to R271; spec/05_formats.md R68 to R73). -/
namespace Sys2Proof.Machine

/-! ## Modes (R243) -/

def fmtRes (v : BitVec 32) : Bool := fmtAfmt v == 12 || fmtAfmt v == 13

/-- KIND of `FMT.ACCF`. -/
def accKind (v : BitVec 32) : PlaneKind := match (fmtAccf v).toNat with | 0 => .fp32 | 1 => .fp64 | _ => .residue

/-- K: the elements of E. -/
def eCount (v : BitVec 32) : Nat := match (fmtAfmt v).toNat with | 12 => 128 | 13 => 256 | 11 => 32 | _ => 64

/-- Width of an element of E and of a tile. -/
def eWidth (v : BitVec 32) : Nat := match (fmtAfmt v).toNat with | 12 => 8 | 13 => 4 | 11 => 64 | _ => 16

/-- Rows of a plane, and elements of a row (N). -/
def rowCount (v : BitVec 32) : Nat := match (fmtAfmt v).toNat with | 12 => 128 | 13 => 128 | 11 => 32 | _ => 64

/-- Units of a cope tile (T). -/
def tileUnits (v : BitVec 32) : Nat := if fmtRes v then 256 else 128

/-! ## Planes -/

def Row.empty : Row := { elems := [], poison := false, pair := none }

/-- The element of a row that is not listed: `+0`, or residue zero. -/
def zeroElem (k : PlaneKind) : Elem := if k = .residue then .res 0 0 0 false 0 else .fp 0 false false

def rowAt (p : Plane) (r : Nat) : Row := smGet Row.empty p.rows r
def setRow (p : Plane) (r : Nat) (v : Row) : Plane := { p with rows := smSet Row.empty p.rows r v }
def elemAt (p : Plane) (r j : Nat) : Elem := (rowAt p r).elems.getD j (zeroElem p.kind)

def State.plane (i : BitVec 2) (s : State) : Plane := s.core.planes[i.toNat]

def State.setPlane (i : BitVec 2) (p : Plane) (s : State) : State :=
  s.modCore (fun k => { k with planes := k.planes.set i.toNat p })

/-- An undefined element (spec/00_scope.md R2). -/
def undefElem (k : PlaneKind) (ix pos : Nat) : Elem :=
  let w := Config.freeCell ix (2 * pos)
  let t := Config.freeCell ix (2 * pos + 1)
  if k = .residue then .res (bits 0 8 w) (bits 8 8 w) (bits 16 8 w) (w.getLsbD 24) (bits 32 20 w)
  else .fp w (t.getLsbD 0) (t.getLsbD 1)

/-- An undefined row: elements, tag and row state. -/
def undefRow (k : PlaneKind) (n ix r : Nat) : Row :=
  let t := Config.freeCell ix (0x10000 + 2 * r)
  let p := Config.freeCell ix (0x10000 + 2 * r + 1)
  { elems := (List.range n).map (fun j => undefElem k ix (r * 128 + j)), poison := t.getLsbD 0,
    pair := if t.getLsbD 1 then some (bits 0 32 p, bits 32 32 p) else none }

/-- A plane whose KIND changes holds undefined rows (R250). -/
def openPlane (fmt : BitVec 32) (ix : Nat) (p : Plane) : Plane :=
  if p.kind = accKind fmt then p
  else { kind := accKind fmt,
         rows := (List.range (rowCount fmt)).map (fun r => (r, undefRow (accKind fmt) (rowCount fmt) ix r)) }

/-! ## The cope store (R242, R244) -/

def copeUnitPoison (u : Nat) (s : State) : Bool := smGet false s.core.copePoison u
def copeScaleAt (g : Nat) (s : State) : BitVec 32 := smGet 0 s.core.copeScale g

/-- Element (k, j) of the tile at address `c`. -/
def tileElem (fmt : BitVec 32) (c k j : Nat) (s : State) : Nat :=
  let w := eWidth fmt
  let bit := (k * rowCount fmt + j) * w
  let b := 64 * c + bit / 8
  if w = 4 then (memGet s.core.cope b).toNat / 2 ^ (bit % 8) % 16 else memWord s.core.cope b (w / 8)

/-- Element `k` of E. -/
def eElem (fmt : BitVec 32) (k : Nat) (s : State) : Nat := laneOf (eWidth fmt) k s.cur.arr.e

/-- A unit of the tile carries poison. -/
def tilePoison (fmt : BitVec 32) (c : Nat) (s : State) : Bool :=
  (List.range (tileUnits fmt)).any (fun i => copeUnitPoison (c + i) s)

/-! ## `macc` (R253) -/

/-- Format of the E elements and tile elements in a floating mode. -/
def inputFmt (fmt : BitVec 32) : FFmt := match (fmtAfmt fmt).toNat with | 8 => fp16 | 9 => bf16 | _ => fp64
def accFmt (fmt : BitVec 32) : FFmt := if fmtAfmt fmt = 11 then fp64 else fp32

/-- An input of the array: subnormal BF16 and FP16 inputs count as zero (R63). -/
def arrayInput (fmt : BitVec 32) (x : Nat) : BitVec 64 :=
  flushIn (inputFmt fmt) (fmtAfmt fmt != 11) (BitVec.ofNat 64 x)

/-- The exact product of two values with a sign; an invalid product counts as a signalling NaN. -/
def productV (neg : Bool) (a b : FVal) : FVal :=
  match a, b with
  | .nan s, .nan s' => .nan (s || s')
  | .nan s, _ => .nan s
  | _, .nan s => .nan s
  | .inf n, .inf n' => .inf ((n != n') != neg)
  | .inf n, .num n' m _ => if m = 0 then .nan true else .inf ((n != n') != neg)
  | .num n m _, .inf n' => if m = 0 then .nan true else .inf ((n != n') != neg)
  | .num n m e, .num n' m' e' => .num ((n != n') != neg) (m * m') (e + e')

/-- The terms of an element before a beat: those counted since `macc.init` or `mzero`, or the element as it stands. -/
def runBefore (first : Bool) (run : Option RunSum) (o : FVal) : RunSum :=
  if first then { sum := (0, 0), mag := (0, 0), count := 0 }
  else
    match run with
    | some r => r
    | none =>
      let t := o.toTerm
      { sum := t, mag := ((t.1.natAbs : Int), t.2), count := if t.1 = 0 then 0 else 1 }

/-- The terms of an element after more products. -/
def runAfter (r : RunSum) (ts : List (Int × Int)) : RunSum :=
  let x := exactSum ts
  let m := exactMag ts
  { sum := exactAdd r.sum.1 r.sum.2 x.1 x.2, mag := exactAdd r.mag.1 r.mag.2 m.1 m.2, count := r.count + ts.length }

/-- One floating-point element of a beat: its value obeys R81 against every term since `macc.init` or `mzero` (R253). -/
def maccFloat (fmt : BitVec 32) (first neg : Bool) (c j : Nat) (old : Elem) (run : Option RunSum) (s : State) :
    Elem × RunSum :=
  let F := accFmt fmt
  let I := inputFmt fmt
  let ins := (List.range (eCount fmt)).map (fun k =>
    (arrayInput fmt (eElem fmt k s), arrayInput fmt (tileElem fmt c k j s)))
  let prods := ins.map (fun p => productV neg (unpackF I p.1) (unpackF I p.2))
  let (o, iv, ov) := match old with | .fp b i v => (b, i, v) | .res .. => (0, false, false)
  let t := runAfter (runBefore first run (unpackF F o)) (prods.map FVal.toTerm)
  let r := fSumBy F (if first then prods else prods ++ [unpackF F o])
    (boundedBy F 0 t.sum t.mag t.count (if F = fp64 then 53 else 24)
      (Config.dotChoice (16 + F.width) (if first then ins else ins ++ [(o, 0)])))
  (.fp r.1 ((!first && iv) || r.2 &&& fIV != 0) ((!first && ov) || r.2 &&& fOF != 0), t)

/-- One residue element: products and sums per channel (R70), NaV (R68) and term count (R71). -/
def maccResidue (fmt : BitVec 32) (first neg : Bool) (c j : Nat) (old : Elem) (s : State) : Elem :=
  let w := eWidth fmt
  let ins := (List.range (eCount fmt)).map (fun k => (signedOf w (eElem fmt k s), signedOf w (tileElem fmt c k j s)))
  let nav := ins.any (fun p => p.1 == navCode w || p.2 == navCode w)
  let sum := (ins.filter (fun p => p.1 != navCode w && p.2 != navCode w)).foldl (fun a p => a + p.1 * p.2) (0 : Int)
  let sum := if neg then -sum else sum
  let (a, b, d, n, t) := match old with
    | .res a b d n t => if first then ((0 : Nat), 0, 0, false, 0) else (a.toNat, b.toNat, d.toNat, n, t.toNat)
    | .fp .. => (0, 0, 0, false, 0)
  .res (BitVec.ofInt 8 ((a + sum) % 253)) (BitVec.ofInt 8 ((b + sum) % 255)) (BitVec.ofInt 8 ((d + sum) % 256))
    (n || nav) (BitVec.ofNat 20 (min (t + eCount fmt) 1048575))

/-- The scale pair after a beat. -/
def maccPair (fmt : BitVec 32) (first : Bool) (c : Nat) (r : Row) (s : State) : Option (BitVec 32 × BitVec 32) :=
  if !fmtRes fmt then none
  else if first || r.pair.isNone then some (s.cur.arr.es, copeScaleAt (c / 128) s)
  else r.pair

/-- One `macc` beat. -/
def doMacc (f : MF) (fmt : BitVec 32) (s : State) : State :=
  let first := f.modf.getLsbD 0
  let neg := f.modf.getLsbD 1
  let c := f.caddr.toNat
  let p := openPlane fmt s.freeCount (s.plane f.plane)
  let r := rowAt p f.row.toNat
  let bad := tilePoison fmt c s || s.cur.arr.ePoison
  let js := List.range (rowCount fmt)
  let fs := if fmtRes fmt then [] else js.map (fun j => maccFloat fmt first neg c j (elemAt p f.row.toNat j) r.sums[j]? s)
  let es := if fmtRes fmt then js.map (fun j => maccResidue fmt first neg c j (elemAt p f.row.toNat j) s) else fs.map (·.1)
  let row : Row := { elems := es, poison := bad || (!first && r.poison), pair := maccPair fmt first c r s, sums := fs.map (·.2) }
  s.setPlane f.plane (setRow p f.row.toNat row)

/-! ## `mfill` (R256) -/

/-- The residues of an integer. -/
def residueElem (v : Int) : Elem :=
  .res (BitVec.ofInt 8 (v % 253)) (BitVec.ofInt 8 (v % 255)) (BitVec.ofInt 8 (v % 256)) false 0

/-- Lanes of an entry that a part of a row takes. -/
def fillLanes (k : PlaneKind) : Nat := if k = .fp64 then 16 else 32

/-- One lane as an element.  In a part above 0 the sticky bits stay those the element had. -/
def fillElem (k : PlaneKind) (e : BitVec 1024) (i : Nat) (old : Elem) : Elem :=
  match k with
  | .residue => residueElem (signedOf 32 (laneOf 32 i e))
  | .fp64 => (match old with
    | .fp _ v o => .fp (BitVec.ofNat 64 (laneOf 64 i e)) v o
    | .res .. => .fp (BitVec.ofNat 64 (laneOf 64 i e)) false false)
  | _ => (match old with
    | .fp _ v o => .fp (BitVec.ofNat 64 (laneOf 32 i e)) v o
    | .res .. => .fp (BitVec.ofNat 64 (laneOf 32 i e)) false false)

/-- Part 0 clears the sticky bits of the row. -/
def clearSticky : Elem → Elem
  | .fp b _ _ => .fp b false false
  | x => x

/-- An entry as a beat takes it: undefined where it has not landed by the beat's cycle, or was popped (R257). -/
def beatEntry (e : Option QEntry) (s : State) : BitVec 1024 × Bool :=
  match e with
  | some e =>
    if e.landed || e.due ≤ s.core.cycle then (e.bits, e.poison)
    else (Config.freeEntry (s.freeIdx (keyM + 6)), Config.freeBit (s.freeIdx (keyM + 6)))
  | none => (Config.freeEntry (s.freeIdx (keyM + 6)), Config.freeBit (s.freeIdx (keyM + 6)))

/-- What an element that `macc` did not accumulate counts as, for R81 (log entry 8). -/
def elemRun (k : PlaneKind) : Elem → RunSum
  | .fp b _ _ => runBefore false none (unpackF (if k = .fp64 then fp64 else fp32) b)
  | .res .. => { sum := (0, 0), mag := (0, 0), count := 0 }

/-- The sums of a row some of whose elements have been written otherwise than by `macc`. -/
def Row.rewrite (k : PlaneKind) (written : Nat → Bool) (es : List Elem) (r : Row) : Row :=
  { r with elems := es, sums := r.sums.mapIdx (fun j x => if written j then elemRun k (es.getD j (zeroElem k)) else x) }

/-- One `mfill` beat. -/
def doMfill (f : MF) (fmt : BitVec 32) (e : BitVec 1024) (poison : Bool) (s : State) : State :=
  let part := (bits 0 2 f.modf).toNat
  let p := openPlane fmt s.freeCount (s.plane f.plane)
  let r := rowAt p f.row.toNat
  let q := fillLanes p.kind
  let es := (List.range (rowCount fmt)).map (fun j =>
    let old := elemAt p f.row.toNat j
    let old := if part = 0 then clearSticky old else old
    if part * q ≤ j ∧ j < part * q + q then fillElem p.kind e (j - part * q) old else old)
  let row := r.rewrite p.kind (fun j => part * q ≤ j && j < part * q + q) es
  let row : Row := if part = 0 then { row with poison := poison, pair := none } else { row with poison := r.poison || poison }
  s.setPlane f.plane (setRow p f.row.toNat row)

/-! ## `mdrain` (R72, R73, R255) -/

/-- Output format of a drain. -/
def outFmt (fmt : BitVec 32) : FFmt := match (fmtOutf fmt).toNat with | 0 => fp32 | 1 => bf16 | 2 => fp16 | _ => fp64

/-- Elements in one entry of a drain (Q). -/
def drainLanes (fmt : BitVec 32) : Nat := 1024 / (outFmt fmt).width

def drainParts (fmt : BitVec 32) : Nat := rowCount fmt / drainLanes fmt
def fillParts (fmt : BitVec 32) : Nat := rowCount fmt / fillLanes (accKind fmt)

/-- The exact integer that three residues stand for (R72). -/
def reconstruct (a b d : BitVec 8) : Int :=
  let x := (a.toNat * 13774080 + b.toNat * 8225536 + d.toNat * 11032065) % 16515840
  if 8257920 ≤ x then (x : Int) - 16515840 else x

/-- x·sa·sb as one exact value; a product of 0 and ∞, whatever NaN is its third factor (R60), counts as a signalling NaN. -/
def scaled (x : Int) (sa sb : BitVec 32) : FVal :=
  let a := unpackF fp32 (sa.setWidth 64)
  let b := unpackF fp32 (sb.setWidth 64)
  let v : FVal := .num (x < 0) x.natAbs 0
  let zero := fun (y : FVal) => match y with | .num _ m _ => m == 0 | _ => false
  let inf := fun (y : FVal) => match y with | .inf _ => true | _ => false
  if (inf a || inf b) && (zero v || zero a || zero b) then .nan true
  else if (a.isNan || b.isNan) then .nan (a.isSnan || b.isSnan)
  else productV false v (productV false a b)

/-- The rounding of an exact value to a format. -/
def roundV (F : FFmt) (mode : RMode) : FVal → FRes
  | .nan s => (cnan F, if s then fIV else 0)
  | .inf n => (infBits F n, 0)
  | .num n m e => fround F mode n m e

/-- One element drained. -/
def drainElem (fmt : BitVec 32) (pair : Option (BitVec 32 × BitVec 32)) : Elem → FRes
  | .res a b d nav cnt =>
    let F := outFmt fmt
    if nav then (cnan F, fIV)
    else
      let sc := pair.getD (0x3F800000, 0x3F800000)
      let r := flushOut F (fmtSubz fmt) (roundV F (fmtRmode fmt) (scaled (reconstruct a b d) sc.1 sc.2))
      let limit := if fmtAfmt fmt = 12 then 511 else 168528
      (r.1, r.2 ||| (if limit < cnt.toNat then fRU else 0))
  | .fp b iv ov =>
    let sticky : Flags := (if iv then fIV else 0) ||| (if ov then fOF else 0)
    if fmtAccf fmt = 1 then (b, sticky)
    else
      let F := outFmt fmt
      let r := flushOut F (fmtSubz fmt) (fToF fp32 F (fmtRmode fmt) b)
      (r.1, r.2 ||| sticky)

/-- The entry of a part of a row, its tag and its flags. -/
def drainEntry (fmt : BitVec 32) (p : Plane) (row part : Nat) : BitVec 1024 × Bool × Flags :=
  let q := drainLanes fmt
  let rs := (List.range q).map (fun i => drainElem fmt (rowAt p row).pair (elemAt p row (part * q + i)))
  (entryOf (outFmt fmt).width (rs.map (fun r => r.1.toNat)), (rowAt p row).poison, rs.foldl (fun f r => f ||| r.2) 0)

/-- An interlocked push from the array (R185, R247), of a beat that is performed so many cycles after this one, which the
operation keeps in `lo`; a poisoned entry raises no flag (R66). -/
def arrayPush (q : BitVec 5) (e : BitVec 1024) (poison : Bool) (fl : Flags) (wait : Nat) (s : State) : State :=
  let id := s.die.nextId
  (startOp { mkOp (.push q e poison (if poison then 0 else fl)) s with
    counted := false, lo := s.core.cycle + wait } s).pushOwed q id

/-! ## Waits (R247, R248) -/

/-- Another context's repeated beats still occupy the array (R249; log entry 12). -/
def State.arrayTaken (s : State) : Bool := s.core.parked.any (fun p => !p.2.flow.beats.isEmpty)

/-- An M-slot operation waits for a factorisation on the core and for the beats of another context. -/
def needArray (s : State) (k : SlotRes) : SlotRes :=
  if s.core.fact.isSome then .engine else if s.arrayTaken then .hold else k

/-- A plane that a pre-empted task holds (spec/09_traps.md R143). -/
def State.planeHeld (i : BitVec 2) (s : State) : Bool := s.core.held.any (fun h => h.kind == .plane i)

def needPlane (i : BitVec 2) (s : State) (k : SlotRes) : SlotRes :=
  needArray s (if s.planeHeld i then .engine else k)

/-- Cope units that a pre-empted task holds. -/
def State.copeHeld (c n : Nat) (s : State) : Bool :=
  s.core.held.any (fun h => match h.kind with | .cope a l => a < c + n && c < a + l | _ => false)

/-- Units that an `mload` into a tile has still to write, of which `done` lead, meet `n` units from `c`. -/
def tileAwaits (f : MF) (fm : BitVec 8) (done c n : Nat) : Bool :=
  f.caddr.toNat + done < c + n && c < f.caddr.toNat + (if fm = 12 ∨ fm = 13 then 256 else 128)

/-- The record register and the peer register that an `mload` names. -/
def mloadB (f : MF) : BitVec 4 := bits 0 4 f.queue
def mloadN (f : MF) : BitVec 3 := bits 0 3 f.modf

/-- MLPROG of an interrupted `mload` (R259). -/
def mlprogOf (f : MF) (done : Nat) : Word :=
  ((0 : BitVec 24) ++ f.caddr ++ mloadB f ++ mloadN f ++ (1 : BitVec 1) ++ (0 : BitVec 6) ++ BitVec.ofNat 9 done : BitVec 64)

/-- The leading units that an `mload` skips. -/
def mloadSkip (f : MF) (v : Word) : Nat := if v >>> 9 = mlprogOf f 0 >>> 9 then (bits 0 9 v).toNat else 0

/-- An `mload` of a context that is pending (spec/09_traps.md R138) has still to write some of the units. -/
def Ctx.pendingAwaits (c n : Nat) (x : Ctx) : Bool :=
  x.flow.pendingArray.any (fun p => match p.instr with
    | .mload f => tileAwaits f (bits 160 8 p.record) (mloadSkip f x.arr.mlprog) c n
    | _ => false)

/-- Units that an `mload` of the core, in progress or pending, has still to write (R247). -/
def State.copeAwaited (c n : Nat) (s : State) : Bool :=
  s.die.ops.any (fun o => o.owner.core == s.core.id && (match o.kind with
    | .mload f fm done => tileAwaits f fm done c n
    | _ => false)) || s.cur.pendingAwaits c n || s.core.parked.any (fun p => p.2.pendingAwaits c n)

/-! ## Beats (R249, R250, R257) -/

/-- Row and address of beat `i`. -/
def beatRow (f : MF) (r : Option RptF) (i : Nat) : Int :=
  f.row.toNat + (match r with | some r => r.rowStride.toInt * i | none => 0)
def beatAddr (f : MF) (r : Option RptF) (i : Nat) : Int :=
  f.caddr.toNat + (match r with | some r => r.stride.toInt * i | none => 0)

/-- Number of beats: 0 means 128. -/
def rptCount (r : Option RptF) : Nat :=
  match r with | some r => if r.count = 0 then 128 else r.count.toNat | none => 1

/-- The cause of a row or tile out of range: repeat range under `rpt`, operand value for a single beat (R52, R250). -/
def rangeCause (r : Option RptF) : Cause := if r.isSome then .repeatRange else .operandValue

def rowsOk (f : MF) (r : Option RptF) (fmt : BitVec 32) : Bool :=
  (List.range (rptCount r)).all (fun i => 0 ≤ beatRow f r i && beatRow f r i < rowCount fmt)

def tilesOk (f : MF) (r : Option RptF) (fmt : BitVec 32) : Bool :=
  (List.range (rptCount r)).all (fun i => 0 ≤ beatAddr f r i && beatAddr f r i + tileUnits fmt ≤ Config.copeUnits)

/-- The fields of beat `i`. -/
def beatOf (f : MF) (r : Option RptF) (i : Nat) : MF :=
  { f with row := BitVec.ofInt 7 (beatRow f r i), caddr := BitVec.ofInt 17 (beatAddr f r i) }

/-- One beat is performed. -/
def performBeat (b : Beat) (s : State) : State :=
  match b.instr with
  | .macc f => doMacc f b.fmt s
  | .mfill f => let e := beatEntry b.entry s; doMfill f b.fmt e.1 e.2 s
  | _ => s

/-- The beats of a bundle: the first in its issue cycle, the others one a cycle. -/
def startBeats (bs : List Beat) (s : State) : State :=
  match bs with
  | [] => s
  | b :: r => (performBeat b s).modFlow (fun w => { w with beats := r })

/-- The next beat of the current context. -/
def nextBeat (s : State) : State := startBeats s.cur.flow.beats s

/-- `macc`.  DESIGN CHOICE: a beat out of range, which is tested first, gives the cause where another check fails too; R55
orders the causes of different slots alone (log entry 64). -/
def slotMacc (f : MF) (r : Option RptF) (s : State) : SlotRes :=
  needPlane f.plane s <|
    let n := rptCount r
    if (List.range n).any (fun i =>
        s.copeAwaited (beatAddr f r i).toNat (tileUnits s.fmt) || s.copeHeld (beatAddr f r i).toNat (tileUnits s.fmt)) then .engine
    else if !rowsOk f r s.fmt || !tilesOk f r s.fmt then .trapOf (rangeCause r)
    else if !f.modf.getLsbD 0 && (s.plane f.plane).kind ≠ accKind s.fmt then .trapOf .operandValue
    else .ok (startBeats ((List.range n).map (fun i => { instr := .macc (beatOf f r i), fmt := s.fmt, entry := none })))

/-- Row and part checks of `mdrain` and `mfill`. -/
def partOk (f : MF) (parts : Nat) : Bool := (bits 0 2 f.modf).toNat < parts

/-- `mdrain`: a repeated one reserves its pushes when it issues, and each of its beats takes a cycle of the array (R249, R257); no
operation can change the rows meanwhile.  Of the beats of a repeated one that would raise enabled flags, the first gives the flags that TRAPINFO
records; R80 names the flags of the operation and does not say of which beat (log entry 39). -/
def slotMdrain (f : MF) (r : Option RptF) (s : State) : SlotRes :=
  needPlane f.plane s <|
    if !rowsOk f r s.fmt then .trapOf (rangeCause r)
    else if (s.plane f.plane).kind ≠ accKind s.fmt || !partOk f (drainParts s.fmt) then .trapOf .operandValue
    else
      let ds := (List.range (rptCount r)).map (fun i =>
        drainEntry s.fmt (s.plane f.plane) (beatRow f r i).toNat (bits 0 2 f.modf).toNat)
      match ds.find? (fun d => !d.2.1 && flagsTrap s.fmt d.2.2) with
      | some d => .trap .fpException ((d.2.2.setWidth 6).setWidth 8) 0
      | none => .ok (fun t =>
        startBeats ((List.range (rptCount r)).map (fun i => { instr := .mdrain (beatOf f r i), fmt := s.fmt, entry := none }))
          ((ds.zipIdx).foldl (fun t d => arrayPush f.queue d.1.1 d.1.2.1 d.1.2.2 d.2 t) t))

/-- The entries that a repeated `mfill` takes. -/
def fillEntries (f : MF) (n : Nat) (s : State) : List QEntry :=
  if f.modf.getLsbD 2 then List.replicate n ((s.cur.queue f.queue).headD
    { bits := 0, poison := false, landed := true, interlocked := false, due := 0, op := 0 })
  else (s.cur.queue f.queue).take n

def slotMfill (f : MF) (r : Option RptF) (s : State) : SlotRes :=
  needPlane f.plane s <|
    let n := rptCount r
    let keep := f.modf.getLsbD 2
    let es := fillEntries f n s
    if es.any (fun e => e.interlocked && !e.landed) then .engine
    else if !rowsOk f r s.fmt then .trapOf (rangeCause r)
    else if !partOk f (fillParts s.fmt) then .trapOf .operandValue
    else if bits 0 2 f.modf ≠ 0 ∧ (s.plane f.plane).kind ≠ accKind s.fmt then .trapOf .operandValue
    else if (s.cur.queue f.queue).length < (if keep then 1 else n) then .trapOf .queueUnderflow
    else
      let bs := es.mapIdx (fun i e => ({ instr := .mfill (beatOf f r i), fmt := s.fmt, entry := some e } : Beat))
      .ok (fun t => startBeats bs (if keep then t else (List.range n).foldl (fun t _ => t.popQ f.queue) t))

def slotMpush (f : MF) (s : State) : SlotRes :=
  needArray s <|
    let hi := f.modf.getLsbD 0
    let keep := f.modf.getLsbD 1
    if hi && fmtAfmt s.fmt ≠ 11 then .trapOf .operandValue
    else needQ keyM f.queue s fun v t =>
      if f.modf.getLsbD 2 then
        if t then .trapOf .poison
        else .ok (fun x => (popUnless keep f.queue x).modArr (fun a => { a with es := v.setWidth 32 }))
      else if hi then
        .ok (fun x => (popUnless keep f.queue x).modArr (fun a =>
          { a with e := v ++ (a.e.setWidth 1024 : BitVec 1024), ePoison := a.ePoison || t }))
      else
        .ok (fun x => (popUnless keep f.queue x).modArr (fun a => { a with e := v.setWidth 2048, ePoison := t }))

/-- E moved by `n` lanes (R252). -/
def shiftE (fmt : BitVec 32) (down : Bool) (n : Nat) (e : BitVec 2048) : BitVec 2048 :=
  let w := eWidth fmt
  let k := eCount fmt
  if k ≤ n then 0
  else
    let low := e.toNat % 2 ^ (w * k)
    let moved := if down then low / 2 ^ (w * n) else low * 2 ^ (w * n) % 2 ^ (w * k)
    BitVec.ofNat 2048 (e.toNat / 2 ^ (w * k) * 2 ^ (w * k) + moved)

def slotMshift (f : MF) (s : State) : SlotRes :=
  needArray s (.ok (State.modArr (fun a =>
    { a with e := shiftE s.fmt (f.modf.getLsbD 0) (bits 1 7 f.modf).toNat a.e })))

def slotMzero (f : MF) (s : State) : SlotRes :=
  needPlane f.plane s (.ok (State.setPlane f.plane { kind := accKind s.fmt, rows := [] }))

/-! ## Reading results and waiting (R269 to R271) -/

/-- An entry of PVEC. -/
def pvecAt (a : ArrayCtx) (i : Nat) : Nat := laneOf 5 i a.pvec

def slotMrdp (f : MF) (s : State) : SlotRes :=
  if s.factBusy then .engine
  else
    let e := entryOf 8 ((List.range 32).map (pvecAt s.cur.arr))
    .ok (arrayPush f.queue e false 0 0)

/-- The lanes of `mstat`. -/
def statLanes (a : ArrayCtx) (part : Nat) : List Nat :=
  match part with
  | 0 => [(growOf a).toNat, a.amax.toNat, a.umax.toNat, a.fprog.toNat, a.lastFlags.toNat]
  | 1 => (a.tau.toList.take 16).map (·.toNat)
  | _ => (a.tau.toList.drop 16).map (·.toNat)

def slotMstat (f : MF) (s : State) : SlotRes :=
  if s.factBusy then .engine
  else .ok (arrayPush f.queue (entryOf 64 (statLanes s.cur.arr (bits 0 2 f.modf).toNat)) false 0 0)

/-- An M-slot operation of the current context that has not completed (R249). -/
def Op.isArray (o : Op) : Bool := match o.kind with | .mload .. => !o.doomed | .push .. => true | _ => false

def State.arrayBusy (s : State) : Bool :=
  !s.cur.flow.beats.isEmpty || s.factBusy || s.taskOps.any Op.isArray

/-- `mwait`: an instruction that is pending has not completed either. -/
def slotMwait (_f : MF) (s : State) : SlotRes :=
  if s.arrayBusy || !s.cur.flow.pendingArray.isEmpty then .engine else .nothing

end Sys2Proof.Machine
end

