-- ==== Sys2Proof/Machine/Factor.lean ====
section
/-! DEFINITION. The factorisation instructions (spec/17_matrix.md R260 to R268): what one column does, how an instruction
starts, and how it completes, stops on a pivot or is interrupted.  A plane is worked on as an array of 1,024 elements, row
by row. -/
namespace Sys2Proof.Machine

/-- A plane's contents, row by row. -/
abbrev Mat := Array (BitVec 64)

def Mat.at (p : Mat) (i c : Nat) : BitVec 64 := p.getD (i * 32 + c) 0
def Mat.put (p : Mat) (i c : Nat) (v : BitVec 64) : Mat := p.setIfInBounds (i * 32 + c) v

/-- A factorisation at work: its plane, the plane of T, the statistics block and the flags raised so far (IV, DZ, OF, ZP). -/
structure Fwork where
  p : Mat
  t : Mat
  arr : ArrayCtx
  flags : Flags

/-- Only IV, DZ and OF are raised (R260). -/
def Fwork.raise (w : Fwork) (f : Flags) : Fwork := { w with flags := w.flags ||| (f &&& 7) }

/-- Writes a rounded result. -/
def Fwork.set (w : Fwork) (i c : Nat) (r : FRes) : Fwork := { w.raise r.2 with p := w.p.put i c r.1 }

/-- The sign bit changed. -/
def negBits (x : BitVec 64) : BitVec 64 := x ^^^ 0x8000000000000000

/-- −x as a result: a NaN is the canonical one (R60). -/
def negResult (x : BitVec 64) : BitVec 64 := if (unpackF fp64 x).isNan then cnan fp64 else negBits x

/-- round((r − a) / r), the difference exact (R267). -/
def reflectTau (r a : BitVec 64) : FRes :=
  match unpackF fp64 r, unpackF fp64 a with
  | .num n m e, .num n' m' e' =>
    let d := exactAdd (signed n m) e (-(signed n' m')) e'
    if m = 0 then (if d.1 = 0 then invalid fp64 else (infBits fp64 ((d.1 < 0) != n), fDZ))
    else if d.1 = 0 then (zeroBits fp64 n, 0)
    else
      let q := quotient fp64 d.1.natAbs m d.2 e
      fround fp64 0 ((d.1 < 0) != n) q.1 q.2
  | _, _ =>
    let d := fSub fp64 0 r a
    let t := fDiv fp64 0 d.1 r
    (t.1, d.2 ||| t.2)

def isNan64 (x : BitVec 64) : Bool := (unpackF fp64 x).isNan

/-- round(z − x·y), fused (R83). -/
def mulSub (z x y : BitVec 64) : FRes := fFma fp64 0 (negBits x) y z

/-- Folds over the indices from `a` up to 31. -/
def upFrom (a : Nat) (f : Fwork → Nat → Fwork) (w : Fwork) : Fwork :=
  (List.range (32 - a)).foldl (fun w i => f w (a + i)) w

/-- Column `j` of `mfch`; none: stop(NPD, j) (R265). -/
def cholColumn (j : Nat) (w : Fwork) : Option Fwork :=
  let d := w.p.at j j
  if isNan64 d || !ltV (.num false 0 0) (unpackF fp64 d) then none
  else
    let w := w.set j j (fSqrt fp64 0 d)
    let w := upFrom (j + 1) (fun w i => w.set i j (fDiv fp64 0 (w.p.at i j) (w.p.at j j))) w
    some (upFrom (j + 1) (fun w c => upFrom c (fun w i => w.set i c (mulSub (w.p.at i c) (w.p.at i j) (w.p.at c j))) w) w)

/-- Rank of a magnitude: a NaN above every number (R266). -/
def pivotRank (x : BitVec 64) : Nat := if isNan64 x then 2 ^ 63 else x.toNat % 2 ^ 63

/-- The smallest row at or below `j` whose magnitude is largest. -/
def pivotRow (p : Mat) (j : Nat) : Nat :=
  (List.range (32 - j)).foldl (fun b i => if pivotRank (p.at b j) < pivotRank (p.at (j + i) j) then j + i else b) j

/-- The larger magnitude, NaNs ignored. -/
def maxMag (m x : BitVec 64) : BitVec 64 :=
  if isNan64 x then m else if m.toNat < x.toNat % 2 ^ 63 then BitVec.ofNat 64 (x.toNat % 2 ^ 63) else m

def setPvec (v : BitVec 160) (j p : Nat) : BitVec 160 :=
  (v &&& ~~~(BitVec.ofNat 160 (31 * 2 ^ (5 * j)))) ||| BitVec.ofNat 160 (p % 32 * 2 ^ (5 * j))

/-- What `mflu` does before column 0.  AMAX of a plane whose elements are all NaN is 0: the rule gives no value for a plane
without a number (log entry 37). -/
def luStart (w : Fwork) : Fwork :=
  { w with arr := { w.arr with
      pvec := (List.range 32).foldl (fun v i => setPvec v i i) 0, umax := 0,
      amax := w.p.foldl maxMag 0 } }

def swapRows (p : Mat) (a b : Nat) : Mat :=
  (List.range 32).foldl (fun m c => (m.put a c (p.at b c)).put b c (p.at a c)) p

/-- Column `j` of `mflu`: the work done, and whether it stops on a zero pivot. -/
def luColumn (cont trapZp : Bool) (j : Nat) (w : Fwork) : Fwork × Bool :=
  let r := pivotRow w.p j
  let w := { w with p := swapRows w.p j r, arr := { w.arr with pvec := setPvec w.arr.pvec j r } }
  let w := { w with arr := { w.arr with
    umax := (List.range (32 - j)).foldl (fun m i => maxMag m (w.p.at j (j + i))) w.arr.umax } }
  if w.p.at j j &&& 0x7FFFFFFFFFFFFFFF = 0 then
    if !cont || trapZp then (w, true) else ({ w with flags := w.flags ||| fZP }, false)
  else
    let w := upFrom (j + 1) (fun w i => w.set i j (fDiv fp64 0 (w.p.at i j) (w.p.at j j))) w
    (upFrom (j + 1) (fun w i => upFrom (j + 1) (fun w c =>
      w.set i c (mulSub (w.p.at i c) (w.p.at i j) (w.p.at j c))) w) w, false)

/-- A fused sum of products over the rows from `a`. -/
def dotFrom (a : Nat) (x y : Nat → Fwork → BitVec 64) (start : BitVec 64) (w : Fwork) : BitVec 64 × Flags :=
  (List.range (32 - a)).foldl (fun s i =>
    let r := fFma fp64 0 (x (a + i) w) (y (a + i) w) s.1
    (r.1, s.2 ||| r.2)) (start, 0)

def setTau (a : ArrayCtx) (j : Nat) (v : BitVec 64) : ArrayCtx := { a with tau := a.tau.setIfInBounds j v }

/-- Column `j` of `mfqr` (R267). -/
def qrColumn (j : Nat) (w : Fwork) : Fwork :=
  let s := dotFrom j (fun i w => w.p.at i j) (fun i w => w.p.at i j) 0 w
  let w := w.raise s.2
  if s.1 &&& 0x7FFFFFFFFFFFFFFF = 0 then { w with arr := setTau w.arr j 0 }
  else
    let a := w.p.at j j
    let nrm := fSqrt fp64 0 s.1
    let w := w.raise nrm.2
    let r := if ltV (unpackF fp64 a) (.num false 0 0) then nrm.1 else negResult nrm.1
    let tau := reflectTau r a
    let d := fSub fp64 0 a r
    let w := (w.raise tau.2).raise d.2
    let w := { w with arr := setTau w.arr j tau.1 }
    let w := upFrom (j + 1) (fun w i => w.set i j (fDiv fp64 0 (w.p.at i j) d.1)) w
    let w := upFrom (j + 1) (fun w c =>
      let x := dotFrom (j + 1) (fun i w => w.p.at i j) (fun i w => w.p.at i c) (w.p.at j c) w
      let t := fMul fp64 0 tau.1 x.1
      let w := (w.raise x.2).raise t.2
      let w := w.set j c (fSub fp64 0 (w.p.at j c) t.1)
      upFrom (j + 1) (fun w i => w.set i c (mulSub (w.p.at i c) t.1 (w.p.at i j))) w) w
    { w with p := w.p.put j j r }

/-! ## `mtrs` (R268) -/

def mtrsUpper (f : MF) : Bool := f.modf.getLsbD 0
def mtrsRight (f : MF) : Bool := f.modf.getLsbD 1
def mtrsTrans (f : MF) : Bool := f.modf.getLsbD 2
def mtrsUnit (f : MF) : Bool := f.modf.getLsbD 3

/-- The effective triangle is lower. -/
def mtrsLower (f : MF) : Bool := mtrsUpper f == mtrsTrans f

/-- The order of k increases. -/
def mtrsUp (f : MF) : Bool := mtrsLower f != mtrsRight f

/-- The steps after k, in the order of k. -/
def mtrsAfter (f : MF) (k : Nat) : List Nat :=
  if mtrsUp f then (List.range (31 - k)).map (fun i => k + 1 + i) else (List.range k).map (fun i => k - 1 - i)

/-- Step k of a triangular solve. -/
def trsColumn (f : MF) (k : Nat) (w : Fwork) : Fwork :=
  let op := fun a b => if mtrsTrans f then w.t.at b a else w.t.at a b
  if mtrsRight f then
    let w := if mtrsUnit f then w else upFrom 0 (fun w r => w.set r k (fDiv fp64 0 (w.p.at r k) (op k k))) w
    (mtrsAfter f k).foldl (fun w m => upFrom 0 (fun w r => w.set r m (mulSub (w.p.at r m) (w.p.at r k) (op k m))) w) w
  else
    let w := if mtrsUnit f then w else upFrom 0 (fun w c => w.set k c (fDiv fp64 0 (w.p.at k c) (op k k))) w
    (mtrsAfter f k).foldl (fun w m => upFrom 0 (fun w c => w.set m c (mulSub (w.p.at m c) (op m k) (w.p.at k c))) w) w

/-! ## FPROG (R261, R262) -/

def fprogCol (v : BitVec 64) : Nat := (bits 0 5 v).toNat

/-- OP of an instruction. -/
def factOp : Instr → BitVec 3
  | .mfch _ => 1
  | .mflu _ => 2
  | .mfqr _ => 3
  | .mtrs _ => 4
  | _ => 0

def factField : Instr → MF
  | .mfch f => f
  | .mflu f => f
  | .mfqr f => f
  | .mtrs f => f
  | _ => { guard := 0, queue := 0, plane := 0, caddr := 0, row := 0, modf := 0 }

/-- T plane of `mtrs`. -/
def factPlane2 (i : Instr) : BitVec 2 := match i with | .mtrs f => bits 4 2 f.modf | _ => 0
def factVar (i : Instr) : BitVec 4 :=
  match i with
  | .mtrs f => bits 0 4 f.modf
  | .mflu f => (bits 0 1 f.modf).setWidth 4
  | _ => 0

/-- FPROG for an instruction at a column. -/
def fprogOf (i : Instr) (stop : Bool) (col : Nat) : BitVec 64 :=
  ((0 : BitVec 44) ++ factVar i ++ BitVec.ofBool stop ++ factOp i ++ factPlane2 i ++ (factField i).plane ++ (0 : BitVec 3) ++
    BitVec.ofNat 5 col : BitVec 64)

/-- The columns go down. -/
def factDown (i : Instr) : Bool := match i with | .mtrs f => !mtrsUp f | _ => false

/-- The column at which an instruction starts. -/
def factStart (v : BitVec 64) (i : Instr) : Nat :=
  if bits 12 3 v = factOp i ∧ bits 8 2 v = (factField i).plane ∧ bits 10 2 v = factPlane2 i ∧ bits 16 4 v = factVar i then
    fprogCol v
  else if factDown i then 31 else 0

/-! ## Running -/

def elemBits : Elem → BitVec 64
  | .fp b _ _ => b
  | .res .. => 0

def planeMat (i : BitVec 2) (s : State) : Mat :=
  ((List.range 1024).map (fun n => elemBits (elemAt (s.plane i) (n / 32) (n % 32)))).toArray

/-- The plane with new contents; sticky bits and tags stay, and of R81's sums those of the elements that did not change. -/
def matPlane (p : Plane) (m : Mat) : Plane :=
  (List.range 32).foldl (fun p r =>
    setRow p r ((rowAt p r).rewrite p.kind (fun c => elemBits (elemAt p r c) != m.at r c) ((List.range 32).map (fun c =>
      match elemAt p r c with
      | .fp _ iv ov => .fp (m.at r c) iv ov
      | .res .. => .fp (m.at r c) false false)))) p

/-- One column of an instruction: the work, and whether it stops on a pivot. -/
def factColumn (i : Instr) (fmt : BitVec 32) (j : Nat) (w : Fwork) : Fwork × Bool :=
  match i with
  | .mfch _ => (match cholColumn j w with | some w => (w, false) | none => (w, true))
  | .mflu f =>
    let w := if j = 0 then luStart w else w
    luColumn (f.modf.getLsbD 0) (fmt.getLsbD 27) j w
  | .mfqr _ => (qrColumn j w, false)
  | .mtrs f => (trsColumn f j w, false)
  | _ => (w, false)

/-- The instruction ends with the flags it raised (R260, R262): `extra` is NPD or ZP where it stops on one. -/
def endFact (fprog : BitVec 64) (raised seen : Flags) (s : State) : State :=
  ((s.modCore (fun k => { k with fact := none })).modArr (fun a =>
    { a with fprog := fprog, lastFlags := seen.setWidth 64 })).modCtx (fun c => c.orFlags raised)

/-- A stop on a pivot (R263). -/
def pivotStop (f : Fact) (j : Nat) (flags : Flags) (s : State) : State :=
  let npd := factOp f.instr == 1
  let bit : Flags := if npd then fNPD else fZP
  let traps := if npd then f.fmt.getLsbD 26 else f.fmt.getLsbD 27
  let s := endFact (fprogOf f.instr true j) (if traps then flags else flags ||| bit) (f.seen ||| flags ||| bit) s
  if traps then raiseBoundary s.curId .pivot (if npd then 0x40 else 0x80) 0 (some (f.pc, f.logged)) s else s

/-- The end of one column of the factorisation of the current context: 0 in progress, 1 complete, 2 stopped. -/
def runColumn (s : State) : State × Nat :=
  match s.core.fact with
  | none => (s, 1)
  | some f =>
    let i := f.instr
    let j := fprogCol s.cur.arr.fprog
    let w : Fwork := { p := planeMat (factField i).plane s, t := planeMat (factPlane2 i) s, arr := s.cur.arr, flags := f.flags }
    let r := factColumn i f.fmt j w
    let s := (s.setPlane (factField i).plane (matPlane (s.plane (factField i).plane) r.1.p)).modArr (fun _ => r.1.arr)
    if r.2 then (pivotStop f j r.1.flags s, 2)
    else if (if factDown i then j = 0 else j = 31) then (endFact 0 r.1.flags (f.seen ||| r.1.flags) s, 1)
    else
      let j' := if factDown i then j - 1 else j + 1
      ((s.modCore (fun k => { k with fact := some { f with flags := r.1.flags } })).modArr (fun a =>
        { a with fprog := fprogOf i false j' }), 0)

/-- Columns until the instruction ends; at most 32 remain. -/
def runColumns : Nat → State → State × Nat
  | 0, s => (s, 0)
  | n + 1, s =>
    let r := runColumn s
    if r.2 = 0 then runColumns n r.1 else r

/-- An instruction begins at a column (R262); `seen` are the flags it raised before it was interrupted. -/
def beginFact (i : Instr) (fmt : BitVec 32) (pc : Word) (logged : List Byte) (seen : Flags) (start : Nat) (s : State) : State :=
  let f : Fact := { ctx := s.core.sel, instr := i, fmt := fmt, pc := pc, logged := logged, flags := 0, seen := seen }
  (s.modCore (fun k => { k with fact := some f })).modArr (fun a => { a with fprog := fprogOf i false start })

/-- The factorisation of the current context stops at its interruption point and is pending (R138). -/
def interruptFact (s : State) : State :=
  match s.core.fact with
  | none => s
  | some f =>
    if f.ctx = s.core.sel then
      let p : PendingInstr := { instr := f.instr, record := 0, offset := 0, dst := 0, pc := f.pc, logged := f.logged,
                                flags := f.seen ||| f.flags }
      (endFact s.cur.arr.fprog f.flags (f.seen ||| f.flags) s).modFlow (fun w => { w with pendingArray := w.pendingArray ++ [p] })
    else s

/-- A factorisation of the current context goes on to its next interruption point, at the end of a column, and stops there
unless it ends first (R138, R262). -/
def stopFact (s : State) : State :=
  if s.factBusy then
    let x := runColumn s
    if x.2 = 0 then interruptFact x.1 else x.1
  else s

/-- A poisoned row among the 32 of a plane. -/
def planePoison (i : BitVec 2) (s : State) : Bool :=
  (List.range 32).any (fun r => (rowAt (s.plane i) r).poison)

/-- The issue of a factorisation (R260): the plane or planes are FP64 and clean. -/
def startFactorisation (i : Instr) (ps : List (BitVec 2)) (s : State) : SlotRes :=
  needArray s <|
    if ps.any (fun p => s.planeHeld p) then .engine
    else if ps.any (fun p => (s.plane p).kind ≠ .fp64) then .trapOf .operandValue
    else if ps.any (fun p => planePoison p s) then .trapOf .poison
    else .ok (beginFact i s.fmt s.pc [] 0 (factStart s.cur.arr.fprog i))

def slotMflu (f : MF) (s : State) : SlotRes := startFactorisation (.mflu f) [f.plane] s
def slotMfch (f : MF) (s : State) : SlotRes := startFactorisation (.mfch f) [f.plane] s
def slotMfqr (f : MF) (s : State) : SlotRes := startFactorisation (.mfqr f) [f.plane] s
def slotMtrs (f : MF) (s : State) : SlotRes := startFactorisation (.mtrs f) [f.plane, bits 4 2 f.modf] s

end Sys2Proof.Machine
end

