-- ==== Sys2Proof/Machine/Wire.lean ====
section
/-! DEFINITION. Packets as flits (spec/23_fabric.md R341): the header's fields at their bits, the payload split into data flits,
and the packet that a receiver reads from them. -/
namespace Sys2Proof.Machine

/-- NDATA. -/
def dataFlitCount (p : Packet) : Nat := (p.payload.length + 63) / 64

/-- CLK: entry k at [220 − 22k : 199 − 22k], the domain index above the increment; unused entries are 0. -/
def clkField (l : List (BitVec 6 × BitVec 16)) : BitVec 132 :=
  (List.range 6).foldl (fun (v : BitVec 132) k =>
    let e : BitVec 22 := match l[k]? with | some (i, d) => i ++ d | none => 0
    (v <<< 22) ||| e.setWidth 132) 0

/-- The header flit. -/
def packetHeader (p : Packet) : BitVec 512 :=
  p.dst ++ p.src ++ p.type ++ p.cls ++ BitVec.ofBool p.dl ++ BitVec.ofNat 3 (dataFlitCount p) ++ p.tag ++ p.core ++ p.ctx ++
    p.part ++ p.scope ++ p.asid ++ p.offset ++ BitVec.ofNat 9 p.len ++ p.aux ++ p.opa ++ p.opb ++
    BitVec.ofNat 3 p.clk.length ++ clkField p.clk ++ (0 : BitVec 89)

/-- The data flits: payload byte i lies in byte i mod 64 of flit i div 64, and bytes at and beyond LEN are zero. -/
def dataFlits (p : Packet) : List (BitVec 512) :=
  (List.range (dataFlitCount p)).map (fun k => BitVec.ofNat 512 (leNat (((p.payload.take p.len).drop (64 * k)).take 64)))

/-- A packet on a link. -/
def packetFlits (p : Packet) : List (BitVec 512) := packetHeader p :: dataFlits p

/-- The number of flits of a packet. -/
def flitsOf (p : Packet) : Nat := 1 + dataFlitCount p

/-- What a receiver reads from a header flit and data flits. -/
def packetOf (h : BitVec 512) (data : List (BitVec 512)) : Packet :=
  let len := (bits 360 9 h : BitVec 9).toNat
  { dst := bits 496 16 h, src := bits 480 16 h, type := bits 474 6 h, cls := bits 472 2 h, dl := h.getLsbD 471,
    tag := bits 460 8 h, core := bits 454 6 h, ctx := bits 452 2 h, part := bits 428 24 h, scope := bits 425 3 h,
    asid := bits 409 16 h, offset := bits 369 40 h, len := len, aux := bits 352 8 h, opa := bits 288 64 h, opb := bits 224 64 h,
    clk := (List.range (min 6 (bits 221 3 h : BitVec 3).toNat)).map (fun k => (bits (215 - 22 * k) 6 h, bits (199 - 22 * k) 16 h)),
    payload := (((data.take (bits 468 3 h : BitVec 3).toNat).flatMap (fun f => leBytes 64 f.toNat)).take len) }

/-- A packet as it comes off a link. -/
def onWire (p : Packet) : Packet := packetOf (packetHeader p) (dataFlits p)

end Sys2Proof.Machine
end

