-- ==== Sys2Proof/Machine/Fabric.lean ====
section
/-! DEFINITION. Sending packets: routes, clocks on the wire, response slots and the requests of a remote operation
(spec/23_fabric.md R338 to R349, R357, R358; spec/15_ordering.md R230). -/
namespace Sys2Proof.Machine

/-- Changes one element of a vector. -/
def vecModify {α : Type} {n : Nat} (i : Nat) (f : α → α) (v : Vector α n) : Vector α n :=
  match v[i]? with
  | some x => v.setIfInBounds i (f x)
  | none => v

/-! ## Routing (R345, R346) -/

def coordX (c : Coord) : Nat := (bits 9 5 c).toNat
def coordY (c : Coord) : Nat := (bits 4 5 c).toNat
def coordZ (c : Coord) : Nat := (bits 0 4 c).toNat

/-- A link port carries packets: it is enabled and not down. -/
def portUp (r : Router) (p : Nat) : Bool :=
  r.control.getLsbD p && (match r.links[p]? with | some .down => false | some _ => true | none => false)

/-- A graticule entry as a port, for the dimension whose plus port is `base`. -/
def entryPort (r : Router) (base : Nat) (e : BitVec 2) : Option Nat :=
  match e.toNat with
  | 1 => if portUp r base then some base else none
  | 2 => if portUp r (base + 1) then some (base + 1) else none
  | _ => none

/-- The end of a route lookup. -/
inductive RouteTo where
  | here
  | port (p : Nat)
  | unreachable
  deriving DecidableEq, Repr

/-- The port by which a packet leaves this die. -/
def routeOf (own dst : Coord) (r : Router) : RouteTo :=
  let go := fun (base : Nat) (t : List (BitVec 2)) (d : Nat) =>
    match entryPort r base (t.getD d 3) with | some p => RouteTo.port p | none => .unreachable
  if coordX own ≠ coordX dst then go 0 r.routeX (coordX dst)
  else if coordY own ≠ coordY dst then go 2 r.routeY (coordY dst)
  else if coordZ own ≠ coordZ dst then go 4 r.routeZ (coordZ dst)
  else .here

/-- The extent of the torus in the dimension of a port. -/
def portExtent (p : Nat) : Nat := if p < 2 then Config.torusX else if p < 4 then Config.torusY else Config.torusZ

/-- The own coordinate in the dimension of a port. -/
def portCoord (p : Nat) (c : Coord) : Nat := if p < 2 then coordX c else if p < 4 then coordY c else coordZ c

/-- DL on the hop by a port: 1 across the dateline of a dimension of extent 3 or more, kept within the dimension (R347). -/
def hopDl (own : Coord) (inPort : Option Nat) (out : Nat) (dl : Bool) : Bool :=
  let e := portExtent out
  let c := portCoord out own
  let crosses := 3 ≤ e && (if out % 2 = 0 then c + 1 == e else c == 0)
  let same := match inPort with | some i => i / 2 == out / 2 | none => false
  crosses || (same && dl)

/-- The port by which a packet from another die arrives, by the dimension of its last hop and the direction that the computed
tables of R345 give; the direction's far side counts, or with an extent of 2 its own (R338; log entry 69). -/
def arrivalPort (src own : Coord) : Option Nat :=
  let dim := if coordZ src ≠ coordZ own then some 4 else if coordY src ≠ coordY own then some 2
    else if coordX src ≠ coordX own then some 0 else none
  dim.map (fun b =>
    let e := portExtent b
    let plus := (portCoord b own + e - portCoord b src) % e ≤ e / 2
    if e = 2 then (if plus then b else b + 1) else (if plus then b + 1 else b))

/-! ## Clocks (R230, R357) -/

/-- Domain index of a die. -/
def domainIndex (c : Coord) (s : State) : Option Nat := s.die.domain.findIdx? (· == c)

/-- The stored clock for a die and class. -/
def storedClock (l : List ((Coord × BitVec 2) × SMap (BitVec 64))) (k : Coord × BitVec 2) : SMap (BitVec 64) :=
  (l.lookup k).getD []

def setStored (l : List ((Coord × BitVec 2) × SMap (BitVec 64))) (k : Coord × BitVec 2) (m : SMap (BitVec 64)) :
    List ((Coord × BitVec 2) × SMap (BitVec 64)) :=
  (k, m) :: l.filter (fun p => p.1 != k)

/-- Counters that rose since the clock last sent, in increasing index. -/
def clockRises (own sent : SMap (BitVec 64)) : List (Nat × Nat) :=
  ((List.range 64).map (fun i => (i, (smGet 0 own i).toNat - (smGet 0 sent i).toNat))).filter (fun p => p.2 != 0)

/-- A die adds 1 to its own counter when a domain-scope release is performed (R230). -/
def bumpClock (s : State) : State :=
  match domainIndex s.die.coord s with
  | some i => s.modDie (fun d =>
      { d with clocks := { d.clocks with own := smSet 0 d.clocks.own i (smGet 0 d.clocks.own i + 1) } })
  | none => s

/-- A release at a scope: domain or wider advances the clock.  R230 lists releases at domain scope; the observers of system
scope contain those of the domain (R218), so the model counts a release at system scope as one too (log entry 50). -/
def bumpAt (scope : BitVec 3) (s : State) : State := if 4 ≤ scope then bumpClock s else s

/-- The larger value of each counter. -/
def mergeClock (a b : SMap (BitVec 64)) : SMap (BitVec 64) :=
  b.foldl (fun m p => if smGet 0 m p.1 < p.2 then smSet 0 m p.1 p.2 else m) a

/-- Values of half a clock as the payload of a clock packet. -/
def clockHalf (own : SMap (BitVec 64)) (half : Nat) : List Byte :=
  ((List.range 32).map (fun i => leBytes 8 (smGet 0 own (32 * half + i)).toNat)).flatten

/-! ## Sending -/

def addPort (p : Nat) (f : PortCounters → PortCounters) (r : Router) : Router :=
  { r with ports := vecModify p f r.ports }

/-- A packet leaves the die, or waits at its local port for itself. -/
def emit (p : Packet) (s : State) : State := s.modRouter (fun r => { r with outbox := r.outbox ++ [p] })

/-- A link that is retraining carries nothing (R360). -/
def linkHeld (n : Nat) (s : State) : Bool := match s.die.router.links[n]? with | some (.retraining _) => true | _ => false

/-- A packet leaves by a port, and its flits are counted; while the link retrains, it waits at its input (R348, R360). -/
def leaveBy (from_ : Option Nat) (n : Nat) (p : Packet) (s : State) : State :=
  if linkHeld n s then
    s.modRouter (fun r => { r with waiting := r.waiting ++ [{ from_ := from_, port := n, since := s.timeNs, pkt := p }] })
  else
    emit { p with dl := hopDl s.die.coord from_ n p.dl }
      (s.modRouter (addPort n (fun c => { c with flittx := c.flittx + BitVec.ofNat 64 (flitsOf p) })))

/-- An error of status unreachable that the source router answers a request with (R346). -/
def unreachableFor (p : Packet) : Packet :=
  { p with dst := p.src, src := p.dst, type := 34, cls := 1, aux := 4, payload := [], len := 0, clk := [] }

/-- A packet that its source cannot send: a request is answered, any other packet is dropped and counted (R346). -/
def unrouted (p : Packet) (s : State) : State :=
  if p.cls = 0 then emit (unreachableFor p) s else s.modRouter (fun r => { r with unreach := r.unreach + 1 })

/-- A packet carries the clock: its destination lies in the domain (R340), and a management packet is a set message (R315, R358). -/
def carriesClock (p : Packet) (s : State) : Bool := (domainIndex p.dst s).isSome && (p.cls != 2 || p.type == 49)

/-- A packet leaves its source by a port, or by the local port (R347). -/
def sendOn (way : Option Nat) (p : Packet) (s : State) : State :=
  match way with
  | some n => leaveBy none n p s
  | none => emit p s

/-- A packet goes on its way with its clock (R357). -/
def sendClocked (way : Option Nat) (p : Packet) (s : State) : State :=
  if carriesClock p s then
    let own := s.die.clocks.own
    let rises := clockRises own (storedClock s.die.clocks.sent (p.dst, p.cls))
    let s := s.modDie (fun d => { d with clocks := { d.clocks with sent := setStored d.clocks.sent (p.dst, p.cls) own } })
    if 6 < rises.length || rises.any (fun x => 65535 < x.2) then
      let half := fun (h : Nat) => ({ p with type := 15, aux := BitVec.ofNat 8 h, payload := clockHalf own h, len := 256,
                                             clk := [], opa := 0, opb := 0 } : Packet)
      sendOn way p (sendOn way (half 1) (sendOn way (half 0) s))
    else sendOn way { p with clk := rises.map (fun x => (BitVec.ofNat 6 x.1, BitVec.ofNat 16 x.2)) } s
  else sendOn way p s

/-- A packet is sent on the fabric (R346). -/
def sendPacket (p : Packet) (s : State) : State :=
  match routeOf s.die.coord p.dst s.die.router with
  | .unreachable => unrouted p s
  | .port n => sendClocked (some n) p s
  | .here => sendClocked none p s

/-! ## Response slots (R349) -/

/-- The lowest free response slot of a context. -/
def freeSlot (c : Ctx) : Option Nat := (List.range 8).find? (fun i => match c.flow.slots[i]? with | some x => !x.held | none => false)

def freeSlots (c : Ctx) : Nat := (c.flow.slots.toList.filter (fun x => !x.held)).length

def modSlot (i : Nat) (f : Slot → Slot) (c : Ctx) : Ctx := c.modFlow (fun w => { w with slots := vecModify i f w.slots })

/-- PART of a packet that the device sends for itself: no operation has so many parts (log entry 21). -/
def ownPart : BitVec 24 := BitVec.allOnes 24

/-- The fields of a request of the current context. -/
def requestOf (o : Op) (dst : Coord) (s : State) : Packet :=
  { dst := dst, src := s.die.coord, type := 0, cls := 0, dl := false, tag := 0, core := o.owner.core, ctx := o.owner.ctx,
    part := 0, scope := if recScope o.record < 4 then 4 else recScope o.record, asid := o.asid, offset := 0, len := 0,
    aux := 0, opa := 0, opb := 0, clk := [], payload := [] }

/-- Part `k` of an operation: its request under the operation's slot and generation. -/
def partOf (slot : BitVec 3) (gen : BitVec 5) (k : Nat) (q : Packet) (pos : Nat) : Part :=
  { req := { q with tag := slot ++ gen, part := BitVec.ofNat 24 k }, pos := pos, answered := false, poisoned := false,
    unreachable := false }

/-- The requests of a remote operation leave. -/
def sendParts (o : Op) (s : State) : State :=
  match o.remote with
  | some r => r.parts.foldl (fun s p => sendPacket p.req s) s
  | none => s

/-- The first operation whose requests have waited for others of its bundle, and have them no longer, sends them (spec/15_ordering.md
R220). -/
def sendWaiting (s : State) : Option State :=
  (s.die.ops.find? (fun o => o.remote.isSome && !o.after.isEmpty && !o.follows s)).map (fun o =>
    sendParts o (modOp o.id (fun x => { x with after := [] }) s))

/-- A remote operation starts: the lowest free slot, and its requests with the position of each (R343, R349); they leave at once
unless the operation follows another of its bundle. -/
def startRemote (o : Op) (dst : Coord) (reqs : List (Packet × Nat)) (s : State) : State :=
  match reqs, freeSlot s.cur with
  | [], _ => startOp o s
  | _, none => s
  | _, some i =>
    let gen := match s.cur.flow.slots[i]? with | some x => x.gen | none => 0
    let id := s.die.nextId
    let parts := reqs.mapIdx (fun k r => partOf (BitVec.ofNat 3 i) gen k r.1 r.2)
    let rem : Remote := { dst := dst, slot := BitVec.ofNat 3 i, gen := gen, parts := parts, failed := false, data := [] }
    let o := { o with remote := some rem }
    let t := (startOp o s).modCtx (modSlot i (fun x => { x with held := true, op := id, since := s.timeNs }))
    if (findOp id t).any (fun x => x.follows t) then t else sendParts o t

/-- Heap bytes (offset, position) gathered into contiguous runs within one 256-byte block (R343); each run is given as its
first offset, its length and its first position. -/
def heapRuns : List (Nat × Nat) → List (Nat × Nat × Nat)
  | [] => []
  | (a, p) :: r =>
    match heapRuns r with
    | (b, n, q) :: more =>
      if b = a + 1 ∧ q = p + 1 ∧ a / 256 = b / 256 then (a, n + 1, p) :: more else (a, 1, p) :: (b, n, q) :: more
    | [] => [(a, 1, p)]

/-- Read requests for heap bytes. -/
def readReqs (q : Packet) (bytes : List (Nat × Nat)) : List (Packet × Nat) :=
  (heapRuns bytes).map (fun r => ({ q with type := 1, offset := BitVec.ofNat 40 r.1, len := r.2.1 }, r.2.2))

/-- Write requests for heap bytes with their values by position. -/
def writeReqs (q : Packet) (bytes : List (Nat × Nat)) (val : Nat → Byte) : List (Packet × Nat) :=
  (heapRuns bytes).map (fun r =>
    ({ q with type := 2, offset := BitVec.ofNat 40 r.1, len := r.2.1,
              payload := (List.range r.2.1).map (fun i => val (r.2.2 + i)) }, r.2.2))

end Sys2Proof.Machine
end

