-- ==== Sys2Proof/Machine/RegionHome.lean ====
section
/-! DEFINITION. The home and the shard of atomic regions: region objects, members, tentative lines, commit and abort
(spec/19_trees_regions.md R288 to R300). -/
namespace Sys2Proof.Machine

/-! ## Region objects (R288) -/

def objState (o : BitVec 512) : Nat := (bits 0 3 o).toNat
def objGen (o : BitVec 512) : BitVec 14 := bits 26 14 o
def objExpect (o : BitVec 512) : BitVec 8 := bits 40 8 o
def objJoined (o : BitVec 512) : BitVec 8 := bits 48 8 o
def objVoted (o : BitVec 512) : BitVec 8 := bits 56 8 o
def objDeadline (o : BitVec 512) : BitVec 64 := bits 448 64 o

/-- Replaces bits [lo + w − 1 : lo]. -/
def putBits {n : Nat} (lo w : Nat) (v : Nat) (x : BitVec n) : BitVec n :=
  (x &&& ~~~(BitVec.ofNat n ((2 ^ w - 1) * 2 ^ lo))) ||| BitVec.ofNat n (v % 2 ^ w * 2 ^ lo)

/-- `n` bytes of physical memory as a number. -/
def physNum (p : Tier × Nat) (n : Nat) (s : State) : Nat :=
  leNat ((List.range n).map (fun i => physRead p.1 (p.2 + i) s))

def readObj (p : Tier × Nat) (s : State) : BitVec 512 := BitVec.ofNat 512 (physNum p 64 s)

/-- Writes `n` bytes at a place. -/
def physPut (p : Tier × Nat) (n v : Nat) (s : State) : State :=
  writeCells ((leBytes n v).mapIdx (fun i b => ((p.1, p.2 + i), b))) s

def writeObj (p : Tier × Nat) (o : BitVec 512) (s : State) : State := physPut p 64 o.toNat s

/-- The handle of R289. -/
def handleOf (home : Coord) (gen : BitVec 14) (obj : BitVec 34) : Word := home ++ gen ++ obj
def handleHome (h : Word) : Coord := bits 48 16 h
def handleGen (h : Word) : BitVec 14 := bits 34 14 h
def handleObj (h : Word) : BitVec 34 := bits 0 34 h

def RegionName.handle (n : RegionName) : Word := handleOf n.home n.gen n.obj

/-- The region that a handle names in an address space. -/
def nameOf (h : Word) (asid : BitVec 16) : RegionName :=
  { home := handleHome h, gen := handleGen h, obj := handleObj h, asid := asid }

def findRegion (n : RegionName) (s : State) : Option RegionHome := s.die.regions.find? (fun r => r.name == n)

def dropRegion (n : RegionName) (s : State) : State :=
  s.modDie (fun d => { d with regions := d.regions.filter (fun x => x.name != n) })

def modRegion (n : RegionName) (f : RegionHome → RegionHome) (s : State) : State :=
  s.modDie (fun d => { d with regions := d.regions.map (fun x => if x.name = n then f x else x) })

/-- The region that a handle names for an access in some address space: that of the object which OBJ is there. -/
def regionAt (n : RegionName) (s : State) : Option RegionHome :=
  match translate n.asid false .read none (Config.heapBase + n.obj.toNat * 64) s with
  | .ok k pa => s.die.regions.find? (fun r => r.name.gen == n.gen && r.place == (k, pa))
  | _ => none

/-! ## Members on this die (R293, R299) -/

/-- Membership of a task, wherever its context stands. -/
def memberIs (n : RegionName) (c : Ctx) : Bool := c.flow.region.any (fun m => m.region == n)

/-- An abort reaches the member in a context: a boundary trap, and its membership ends (R299). -/
def abortMember (c : CtxId) (s : State) : State :=
  if (ctxAt c s).flow.region.isSome then
    modCtxAt c (Ctx.modFlow (fun w => { w with region := none })) (raiseBoundary c .regionAborted 0 0 none s)
  else s

/-- The same for a pre-empted member: the trap waits in its saved context. -/
def abortSaved (n : RegionName) (s : State) : State :=
  s.modQueues (fun q => { q with saved := q.saved.map (fun v =>
    if memberIs n v.ctx then
      let cyc := (coreAt v.home.core s).cycle
      { v with ctx := (v.ctx.modFlow (fun w => { w with region := none })).addDue (boundaryReq .regionAborted 0 0 none cyc v.ctx) }
    else v) })

/-- Contexts whose tasks are members of a region; the membership of a task that is being saved stands in its save block. -/
def membersHere (n : RegionName) (s : State) : List CtxId := allCtxs.filter (fun c => memberIs n (ctxAt c s))

/-- Votes of retired members are forgotten. -/
def dropVotes (n : RegionName) (s : State) : State :=
  s.modDie (fun d => { d with votes := d.votes.filter (fun x => x.2.region != n) })

def deliverAborts (n : RegionName) (s : State) : State :=
  abortSaved n <| dropVotes n ((membersHere n s).foldl (fun s c => abortMember c s) s)

/-- A 64-byte line of memory by number; the lines of the second tier follow those of HBM. -/
def lineKey (c : PByte) : Nat := c.2 / 64 + (if c.1 = .hbm then 0 else Config.hbmBytes / 64)

/-- A byte of a line. -/
def lineByte (line off : Nat) : PByte :=
  if line < Config.hbmBytes / 64 then (.hbm, line * 64 + off) else (.second, (line - Config.hbmBytes / 64) * 64 + off)

/-- The tentative lines of a region at this shard are freed. -/
def freeLines (n : RegionName) (s : State) : State :=
  s.modDie (fun d => { d with shard := d.shard.filter (fun l => l.region != n) })

/-- Tentative lines of a region at this shard. -/
def linesOf (n : RegionName) (s : State) : List ShardLine := s.die.shard.filter (fun l => l.region == n)

/-- The region abort delivery to another die (TYPE 51, spec/23_fabric.md R342; log entry 21). -/
def abortNotice (dst : Coord) (n : RegionName) (s : State) : State :=
  sendPacket { dst := dst, src := s.die.coord, type := 51, cls := 2, dl := false, tag := 0, core := 0, ctx := 0, part := 0,
               scope := 4, asid := n.asid, offset := 0, len := 0, aux := 0, opa := n.handle, opb := 0, clk := [],
               payload := [] } s

/-- Every other die of the domain; 0xFFFF marks an unused entry of its table (spec/23_fabric.md R340). -/
def otherDies (s : State) : List Coord := s.die.domain.filter (fun c => c != s.die.coord && c != 0xFFFF)

/-- An abort is delivered to every other die of the domain. -/
def tellAbort (n : RegionName) (s : State) : State := (otherDies s).foldl (fun t d => abortNotice d n t) s

/-- The home aborts a region while its STATE is 1 (R298): the object records it, tentative stores are discarded, and the
abort is delivered to every member. -/
def abortRegion (n : RegionName) (cause : Nat) (s : State) : State :=
  match findRegion n s with
  | none => s
  | some r =>
    let o := readObj r.place s
    if objState o ≠ 1 ∨ objGen o ≠ n.gen then s
    else
      let s := writeObj r.place (putBits 0 3 4 (putBits 72 8 cause (putBits 384 64 s.timeNs o))) s
      tellAbort n (deliverAborts n (freeLines n (dropRegion n s)))

/-- The time base has reached the DEADLINE of a region: it aborts with cause 3 (R298). -/
def expireRegion (r : RegionHome) (s : State) : State :=
  if (objDeadline (readObj r.place s)).toNat ≤ s.timeNs then abortRegion r.name 3 s else s

/-- A region operation that a die sends for itself, of no context: its PART is that of no operation, and its answer comes to
the region unit (log entry 21). -/
def regionOp (dst : Coord) (aux : BitVec 8) (opb : Word) (n : RegionName) (s : State) : State :=
  sendPacket { dst := dst, src := s.die.coord, type := 10, cls := 0, dl := false, tag := 0, core := 0, ctx := 0, part := ownPart,
               scope := 4, asid := n.asid, offset := BitVec.ofNat 40 (n.obj.toNat * 64), len := 0, aux := aux, opa := n.handle,
               opb := opb, clk := [], payload := [] } s

/-- What a shard reports of a region to a home on another die: an abort cause, or a line that has entered the write set (log
entry 21). -/
def reportHome (n : RegionName) (code : Nat) (s : State) : State := regionOp n.home 4 (BitVec.ofNat 64 code) n s

/-- The code by which a shard reports a new line. -/
def lineReport : Nat := 0x100

/-- A shard reports an abort cause to the home. -/
def reportAbort (n : RegionName) (cause : Nat) (s : State) : State :=
  if n.home = s.die.coord then abortRegion n cause s else reportHome n cause s

/-! ## Memory writes of non-members (R297) -/

/-- The regions whose write set holds a line that some written byte lies in. -/
def clashing (cells : List (PByte × Byte)) (s : State) : List ShardLine :=
  s.die.shard.filter (fun l => cells.any (fun c => lineKey c.1 == l.line))

/-- The bytes of a write that lie in a line. -/
def bytesIn (line : Nat) (cells : List (PByte × Byte)) : List (Nat × Byte) :=
  (cells.filter (fun c => lineKey c.1 == line)).map (fun c => (c.1.2 % 64, c.2))

/-- A write to memory by an access that is no tentative one: the bytes are written, and a region whose write set holds the
line aborts with cause 5.  A shard of a region homed elsewhere keeps the bytes: they are applied again after the region's
writes if the home had come to its commit point (log entry 21). -/
def storeCells (cells : List (PByte × Byte)) (s : State) : State :=
  let hit := clashing cells s
  let s := writeCells cells s
  let s := if hit.isEmpty then s else s.modDie (fun d => { d with shard := d.shard.map (fun l =>
    { l with late := l.late ++ bytesIn l.line cells }) })
  hit.foldl (fun s l => reportAbort l.region 5 s) s

/-! ## Commit (R298, R233) -/

/-- A member's post, if it asked for one. -/
def postVote (core : BitVec 6) (f : Option (BitVec 5)) (s : State) : State :=
  match f with | some f => postFlag core f 1 s | none => s

/-- The write set at this shard becomes visible, the memberships here end, and the posts asked for are made.  A die with
members, also pre-empted or retired ones, counts the commit as a release (R230). -/
def commitHere (n : RegionName) (s : State) : State :=
  let lines := linesOf n s
  let cells := fun (f : ShardLine → List (Nat × Byte)) => lines.flatMap (fun l => (f l).map (fun b => (lineByte l.line b.1, b.2)))
  let s := freeLines n (writeCells (cells ShardLine.bytes ++ cells ShardLine.late) s)
  let late := s.die.votes.filter (fun x => x.2.region == n)
  let away := s.die.queues.saved.filter (fun v => memberIs n v.ctx)
  let here := membersHere n s
  let s := late.foldl (fun s x => postVote x.1 x.2.flag s) (dropVotes n s)
  let s := away.foldl (fun s v => postVote v.home.core (v.ctx.flow.region.bind (·.flag)) s) s
  let s := modSaved (fun v => memberIs n v.ctx) (Ctx.modFlow (fun w => { w with region := none })) s
  let s := if late.isEmpty && away.isEmpty && here.isEmpty then s else bumpClock s
  here.foldl (fun s c =>
    let f := (ctxAt c s).flow.region.bind (·.flag)
    postVote c.core f (modCtxAt c (Ctx.modFlow (fun w => { w with region := none })) s)) s

/-- The lines of a region at this shard are locked (R298). -/
def lockLines (n : RegionName) (s : State) : State :=
  s.modDie (fun d => { d with shard := d.shard.map (fun l => if l.region = n then { l with locked := true } else l) })

/-- Some line of this die's shard is locked: memory is read and written again once the write set is visible (R233, R297). -/
def State.linesLocked (s : State) : Bool := s.die.shard.any (·.locked)

/-- The other dies of a mask over the domain. -/
def diesOf (mask : BitVec 64) (s : State) : List Coord :=
  (s.die.domain.zipIdx.filter (fun x => mask.getLsbD x.2 && x.1 != s.die.coord && x.1 != 0xFFFF)).map (·.1)

/-- The dies that the commit of a region concerns: with lines of its write set, or with members. -/
def RegionHome.dies (r : RegionHome) (s : State) : List Coord :=
  (diesOf r.shards s ++ (r.members.map (·.die)).filter (fun d => d != s.die.coord)).dedup

/-- Codes of the home's requests to a shard: to lock the lines of a region, and to make them visible (log entry 21). -/
def lockCode : Word := 1
def showCode : Word := 2

/-- Once every shard has locked its lines, the write set becomes visible at this moment: no die reads or writes a locked line
before it has the set.  STATE is 3, memberships end, and the posts asked for are made (R233, R298). -/
def showRegion (n : RegionName) (s : State) : State :=
  match findRegion n s with
  | none => s
  | some r =>
    if r.commit ≠ some [] then s
    else
      let s := commitHere n s
      let o := readObj r.place s
      let s := writeObj r.place (putBits 0 3 3 (putBits 384 64 s.timeNs o)) (dropRegion n s)
      (r.dies s).foldl (fun s d => regionOp d 3 showCode n s) s

/-- The last vote commits: VOTED = JOINED = EXPECT.  STATE is 2, and the shards lock the region's lines (R298). -/
def tryCommit (n : RegionName) (s : State) : State :=
  match findRegion n s with
  | none => s
  | some r =>
    let o := readObj r.place s
    if objState o = 1 ∧ objVoted o = objJoined o ∧ objJoined o = objExpect o then
      let away := diesOf r.shards s
      let s := modRegion n (fun x => { x with commit := some away }) (lockLines n (writeObj r.place (putBits 0 3 2 o) s))
      showRegion n (away.foldl (fun s d => regionOp d 3 lockCode n s) s)
    else s

/-- A die has answered the home's request to lock, or cannot be reached. -/
def shardAnswers (d : Coord) (n : RegionName) (s : State) : State :=
  if (findRegion n s).any (fun r => r.commit.any (fun l => l.contains d)) then
    showRegion n (modRegion n (fun x => { x with commit := x.commit.map (fun l => l.erase d) }) s)
  else s

/-- Each cause or vote at the home while the region is open. -/
def countField (lo : Nat) (d : Int) (o : BitVec 512) : BitVec 512 :=
  putBits lo 8 ((bits lo 8 o : BitVec 8).toNat + d).toNat o

/-! ## The home's operations (R292, R293, R298, R300); none is given for an answer of success -/

/-- `ar.open` at the home: the new generation.  A region object that lies at the place is no longer that of another region. -/
def homeOpen (p : Tier × Nat) (obj : BitVec 34) (asid : BitVec 16) (count : BitVec 6) (ms : BitVec 10) (s : State) :
    State × Option (BitVec 14) :=
  let o := readObj p s
  if objState o = 0 ∨ objState o = 3 ∨ objState o = 4 then
    let gen := objGen o + 1
    let expect := if count = 0 then 64 else count.toNat
    let deadline := s.timeNs + ms.toNat * 1000000
    let n : BitVec 512 := putBits 448 64 deadline (putBits 40 8 expect (putBits 26 14 gen.toNat (putBits 0 3 1
      (putBits 384 64 0 (putBits 72 24 0 (putBits 48 16 0 o))))))
    let name : RegionName := { home := s.die.coord, gen := gen, obj := obj, asid := asid }
    let s := s.modDie (fun d => { d with regions := d.regions.filter (fun x => x.place != p && x.name != name) ++
      [({ name := name, place := p, members := [], shards := 0, commit := none } : RegionHome)] })
    (writeObj p n s, some gen)
  else (s, none)

/-- An operation on an open region homed here, its DEADLINE checked first; a region that is not open is refused. -/
def onRegion (r : Option RegionHome) (gen : BitVec 14) (s : State)
    (k : RegionHome → BitVec 512 → State → State × Option Cause) : State × Option Cause :=
  match r with
  | none => (s, some .regionAborted)
  | some r =>
    let s := expireRegion r s
    let o := readObj r.place s
    if objGen o ≠ gen ∨ objState o ≠ 1 then (s, some .regionAborted) else k r o s

/-- `ar.join` at the home; the cause of a refusal. -/
def homeJoin (n : RegionName) (m : MemberRef) (s : State) : State × Option Cause :=
  onRegion (regionAt n s) n.gen s (fun r o s =>
    if objJoined o = objExpect o then (s, some .operandValue)
    else (modRegion r.name (fun x => { x with members := x.members ++ [m] }) (writeObj r.place (countField 48 1 o) s), none))

/-- A vote at the home, with the dies to whose shards the voter has stored. -/
def homeCommit (n : RegionName) (shards : BitVec 64) (s : State) : State × Option Cause :=
  onRegion (findRegion n s) n.gen s (fun r o s => (tryCommit n (modRegion r.name (fun x => { x with shards := x.shards ||| shards })
    (writeObj r.place (countField 56 1 o) s)), none))

def homeLeave (n : RegionName) (s : State) : State × Option Cause :=
  onRegion (findRegion n s) n.gen s (fun r o s => (abortRegion n 2 (writeObj r.place (countField 48 (-1) o) s), none))

/-! ## Tentative accesses at the shard (R295, R296) -/

/-- A tentative value of a byte, or memory's. -/
def tentativeByte (n : RegionName) (c : PByte) (s : State) : Byte :=
  match (linesOf n s).find? (fun l => l.line == lineKey c) with
  | some l => (l.bytes.lookup (c.2 % 64)).getD (physRead c.1 c.2 s)
  | none => physRead c.1 c.2 s

/-- Lines in the write set, as the region object counts them over all shards (R288). -/
def objLines (o : BitVec 512) : Nat := (bits 80 16 o : BitVec 16).toNat

/-- The home counts a line that has entered the write set, or aborts a region that has no room for it (R296). -/
def countLine (n : RegionName) (s : State) : State :=
  match findRegion n s with
  | some r =>
    let o := readObj r.place s
    if 4096 ≤ objLines o then abortRegion n 4 s else writeObj r.place (putBits 80 16 (objLines o + 1) o) s
  | none => s

/-- A line enters the write set at this shard, and the home counts it. -/
def enterLine (n : RegionName) (line : Nat) (s : State) : State :=
  let s := s.modDie (fun d => { d with shard := d.shard ++
    [({ region := n, line := line, bytes := [], late := [], locked := false } : ShardLine)] })
  if n.home = s.die.coord then countLine n s else reportHome n lineReport s

/-- One tentative byte is recorded in its line. -/
def tentativePut (n : RegionName) (c : PByte) (v : Byte) (s : State) : State :=
  s.modDie (fun d => { d with shard := d.shard.map (fun l =>
    if l.region = n ∧ l.line = lineKey c then { l with bytes := (c.2 % 64, v) :: l.bytes.filter (fun b => b.1 != c.2 % 64) }
    else l) })

/-- Lines that a store would bring into the write set. -/
def newLines (n : RegionName) (cells : List (PByte × Byte)) (s : State) : List Nat :=
  ((cells.map (fun c => lineKey c.1)).dedup).filter (fun k => !(linesOf n s).any (fun l => l.line == k))

/-- Entries in use of a region, as far as this die knows them. -/
def linesKnown (n : RegionName) (s : State) : Nat :=
  match findRegion n s with
  | some r => objLines (readObj r.place s)
  | none => (linesOf n s).length

/-- The bytes of a tentative store enter the write set; one that needs an entry beyond a limit of R296 aborts the region and
records nothing. -/
def tentativeCells (n : RegionName) (cells : List (PByte × Byte)) (s : State) : State :=
  let new := newLines n cells s
  if 65536 < s.die.shard.length + new.length ∨ (!new.isEmpty ∧ 4096 < linesKnown n s + new.length) then reportAbort n 4 s
  else cells.foldl (fun s c => tentativePut n c.1 c.2 s) (new.foldl (fun s k => enterLine n k s) s)

/-- A region is not known to have ended here: one of this die's table, or of another home (R295). -/
def regionLive (n : RegionName) (s : State) : Bool :=
  if n.home = s.die.coord then (findRegion n s).isSome
  else !s.die.ended.any (fun e => e.home == n.home && e.obj == n.obj && e.asid == n.asid && 8192 ≤ (n.gen - e.gen - 1).toNat)

/-- A region of another home has ended. -/
def markEnded (n : RegionName) (s : State) : State :=
  s.modDie (fun d => { d with ended := n :: d.ended.filter (fun e => !(e.home == n.home && e.obj == n.obj && e.asid == n.asid)) })

/-- The end of a region at another home reaches this die. -/
def regionEnds (n : RegionName) (committed : Bool) (s : State) : State :=
  markEnded n (if committed then commitHere n s else deliverAborts n (freeLines n s))

end Sys2Proof.Machine
end

