-- ==== Sys2Proof/Machine/Access.lean ====
section
/-! DEFINITION. What the operations of the L slot share: the bytes an access names, their translation and their values, the
delivery of results, and the end of an operation (spec/11_storage.md R158 to R167, spec/21_tasks.md R337). -/
namespace Sys2Proof.Machine

/-! ## The bytes an access names -/

/-- Address of each byte of an access, by the record's space; none where the bounds mode clamps it away. -/
def placeAddrs (r : Record) (ps : List Place) : List (Option Nat) :=
  ps.map (fun p => match p with | .byte off => some (recAddr r off) | _ => none)

/-- The addresses named, without the clamped ones. -/
def named (l : List (Option Nat)) : List Nat := l.filterMap id

/-- First and last address plus one. -/
def rangeOf (l : List (Option Nat)) : Nat × Nat :=
  match named l with
  | [] => (0, 0)
  | a :: r => (r.foldl min a, r.foldl max a + 1)

/-- The end of translating the bytes of an access. -/
inductive Cells where
  | ok (cs : List (Option PByte))
  | fail (x : Xlate) (va : Nat)
  deriving DecidableEq, Repr

/-- Translation of the bytes of an access, in position order. -/
def cellsBy (find : Nat → Xlate) : List (Option Nat) → Cells
  | [] => .ok []
  | none :: r =>
    match cellsBy find r with
    | .ok l => .ok (none :: l)
    | x => x
  | some va :: r =>
    match find va with
    | .ok k pa =>
      match cellsBy find r with
      | .ok l => .ok (some (k, pa) :: l)
      | x => x
    | x => .fail x va

/-- Translation of the bytes of an access by the walker (R162, R163). -/
def cellsFor (asid : BitVec 16) (user : Bool) (access : Access) (space : Option (BitVec 2)) (s : State) :
    List (Option Nat) → Cells :=
  cellsBy (fun va => translate asid user access space va s)

/-- The same for an access of the context in focus, through its core (spec/26_host.md R397). -/
def State.cells (access : Access) (space : Option (BitVec 2)) (s : State) : List (Option Nat) → Cells :=
  cellsBy (fun va => seek s.cur.sys.asid s.user access space va s)

/-- Bytes read at translated places; a clamped byte reads 0 (R158). -/
def readCells (cs : List (Option PByte)) (s : State) : List Byte :=
  cs.map (fun c => match c with | some p => physRead p.1 p.2 s | none => 0)

/-- Some byte read is marked poisoned (R337). -/
def cellsPoison (cs : List (Option PByte)) (s : State) : Bool :=
  cs.any (fun c => match c with | some p => physPoison p.1 p.2 s | none => false)

/-- The bytes that a write stores, a clamped one dropped. -/
def pairCells (cs : List (Option PByte)) (bs : List Byte) : List (PByte × Byte) :=
  (cs.zip bs).filterMap (fun x => match x.1 with | some p => some (p, x.2) | none => none)

/-- Bytes read in scratchpad. -/
def readScratch (l : List (Option Nat)) (s : State) : List Byte :=
  l.map (fun a => match a with | some a => scratchRead a s | none => 0)

/-- Writes of bytes in scratchpad, a clamped one dropped. -/
def writeScratch (l : List (Option Nat)) (bs : List Byte) (s : State) : State :=
  (l.zip bs).foldl (fun s x => match x.1 with | some a => scratchWrite a x.2 s | none => s) s

/-- FAULT of some line read (R165). -/
def scratchFault (l : List (Option Nat)) (s : State) : Bool := (named l).any (fun a => lineFault a s)

/-- A scratchpad range of the cluster that a pre-empted task holds covers some byte (spec/09_traps.md R143). -/
def State.spHeld (as : List Nat) (s : State) : Bool :=
  let held := s.core.held ++ s.cores.flatMap (fun x => if clusterOf x.2.id = s.cluster.id then x.2.held else [])
  held.any (fun h => match h.kind with
    | .scratch a l => as.any (fun b => 64 * a ≤ b && b < 64 * (a + l))
    | _ => false)

/-- An access of scratchpad waits while a pre-empted task holds what it touches (R143). -/
def needScratch (as : List Nat) (s : State) (k : SlotRes) : SlotRes := if s.spHeld as then .engine else k

/-! ## Delivery of results -/

/-- A g register receives what an interlocked operation owes it; g0 keeps 0. -/
def deliverG (o : Op) (r : BitVec 5) (v : Word) (p : Bool) (s : State) : State :=
  modCtxAt o.owner (fun c =>
    if c.owed.contains (.g r, o.id) then
      { c.writeDest (.g r) (v.setWidth 128) p with owed := c.owed.filter (fun x => x != (.g r, o.id)) }
    else c) s

/-- A buffer record receives the 32 bytes of a `recld`. -/
def deliverB (o : Op) (r : BitVec 4) (v : Record) (s : State) : State :=
  modCtxAt o.owner (fun c =>
    if c.owed.contains (.b r, o.id) then
      { c with b := c.b.set r.toNat v, owed := c.owed.filter (fun x => x != (.b r, o.id)) }
    else c) s

/-- A queue receives the entry of an interlocked push (spec/13_vector.md R186). -/
def deliverQueue (o : Op) (q : BitVec 5) (v : BitVec 1024) (p : Bool) (s : State) : State :=
  let cyc := (coreAt o.owner.core s).cycle
  modCtxAt o.owner (fun c => c.deliverQ cyc q o.id v p) s

/-- A scalar load's value: zero- or sign-extended from its size (R173). -/
def loadValue (size : Nat) (isSigned : Bool) (bs : List Byte) : Word :=
  let v := BitVec.ofNat 64 (leNat (bs.take size))
  if isSigned then sext (8 * size) v else zext (8 * size) v

/-! ## The end of an operation (R167) -/

/-- The response slot of a remote operation is freed; its generation stays (spec/23_fabric.md R349, R356). -/
def releaseSlot (o : Op) (s : State) : State :=
  match o.remote with
  | some r => modCtxAt o.owner (modSlot r.slot.toNat (fun x =>
      if x.held && x.op == o.id then { x with held := false } else x)) s
  | none => s

/-- An operation that waits for others has none of them left. -/
def Op.settled (o : Op) (s : State) : Bool :=
  let gone := fun (w : List Nat) => w.all (fun i => !s.die.ops.any (fun x => x.id == i))
  match o.kind with | .rsync _ _ w => gone w | .acquire w => gone w | _ => false

/-- Acquires whose accesses have been performed end, and `rsync` posts whose operations have all ended are made (R183).  An
operation that ends without completing, by a fault or a timeout, ends the wait as well: the spec has it complete never, and
does not say that the post then waits for ever (log entry 45). -/
def settleRsync (s : State) : State :=
  s.die.ops.foldl (fun s o =>
    if o.settled s then
      match o.kind with
      | .rsync f n _ => if o.post.isSome then postFlag o.owner.core f n.toNat (dropOp o.id s) else dropOp o.id s
      | _ => dropOp o.id s
    else s) s

/-- An operation ends without its post. -/
def endOp (o : Op) (s : State) : State := settleRsync (dropOp o.id (releaseSlot o s))

/-- An operation completes: its post is made, and the operation ends. -/
def finishOp (o : Op) (s : State) : State :=
  match o.post with
  | some f => endOp o (postFlag o.owner.core f 1 s)
  | none => endOp o s

/-! ## Boundary traps of an operation (spec/09_traps.md R125) -/

/-- The task of an operation is on its context. -/
def ownerPresent (o : Op) (s : State) : Bool :=
  (ctxAt o.owner s).serial == o.serial && (ctxAt o.owner s).flow.residency == .running

/-- A cause becomes due for the task that issued an operation, be it on its context or pre-empted; it logs what `log` names,
or else the return point. -/
def raiseLogged (o : Op) (log : Option (Word × List Byte)) (cause : Cause) (aux : BitVec 8) (faddr : Word) (s : State) : State :=
  if ownerPresent o s then raiseBoundary o.owner cause aux faddr log s
  else
    let cyc := (coreAt o.owner.core s).cycle
    modSaved (fun v => v.ctx.serial == o.serial && v.home == o.owner)
      (fun x => x.addDue (boundaryReq cause aux faddr log cyc x)) s

/-- The same for an engine fault, which logs the pc and the bytes of the bundle that issued the operation (R125). -/
def raiseFor (o : Op) (cause : Cause) (aux : BitVec 8) (faddr : Word) (s : State) : State :=
  raiseLogged o (some (o.pc, o.logged)) cause aux faddr s

/-- A register or queue entry that a stopped operation owes takes a free value: no rule says what it then holds. -/
def landFree (o : Op) (s : State) : State :=
  match o.kind with
  | .vecLoad q .. => deliverQueue o q (Config.freeEntry o.id) (Config.freeBit o.id) s
  | .elemLoad g .. => deliverG o g (Config.freeWord o.id) (Config.freeBit o.id) s
  | .amo g _ _ _ _ _ => deliverG o g (Config.freeWord o.id) (Config.freeBit o.id) s
  | .amoc g .. => deliverG o g (Config.freeWord o.id) (Config.freeBit o.id) s
  | .recLoad b => deliverB o b ((Config.freeEntry o.id).setWidth 256) s
  | .regionLoad g .. => deliverG o g (Config.freeWord o.id) (Config.freeBit o.id) s
  | .ringGet _ q st => deliverG o st (Config.freeWord o.id) (Config.freeBit o.id)
      (deliverQueue o q (Config.freeEntry o.id) (Config.freeBit o.id) s)
  | _ => s

/-- An engine fault: the operation stops, posts nothing, and its task takes a boundary trap (R165). -/
def engineStop (o : Op) (cause : Cause) (faddr : Word) (s : State) : State :=
  endOp o (raiseFor o cause 0 faddr (landFree o s)).dropEnds

/-! ## Atomics (R177) -/

/-- The new value of `amo`, both operands of `w` bits. -/
def amoValue (op : BitVec 3) (unsigned : Bool) (w : Nat) (old arg : Nat) : Nat :=
  let less := fun (a b : Nat) => if unsigned then a < b else signedOf w a < signedOf w b
  match op.toNat with
  | 0 => (old + arg) % 2 ^ w
  | 1 => if less old arg then old else arg
  | 2 => if less old arg then arg else old
  | 3 => arg
  | 4 => old &&& arg
  | _ => old ||| arg

/-- Width of an atomic in bytes. -/
def amoBytes (wide : Bool) : Nat := if wide then 8 else 4

/-- An atomic some of whose bytes are clamped away returns 0 and writes nothing (R177). -/
def amoClamped (addrs : List (Option Nat)) : Bool := addrs.any Option.isNone

/-- The end of an atomic on its bytes: the bytes it leaves. -/
def atomicBytes (k : OpKind) (old : Nat) : Option (List Byte) :=
  match k with
  | .amo _ op un wide _ arg =>
    let w := 8 * amoBytes wide
    some (leBytes (amoBytes wide) (amoValue op un w old (arg.toNat % 2 ^ w)))
  | .amoc _ wide cmp new =>
    let w := 8 * amoBytes wide
    if old = cmp.toNat % 2 ^ w then some (leBytes (amoBytes wide) (new.toNat % 2 ^ w)) else none
  | .signal add v => some (leBytes 8 (if add then (old + v.toNat) % 2 ^ 64 else v.toNat))
  | _ => none

end Sys2Proof.Machine
end

