-- ==== Sys2Proof/Machine/Storage.lean ====
section
/-! DEFINITION. The L slot at issue: loads, stores, tile transfers, the tag table, records, atomics, signals, watches and
fences (spec/11_storage.md R165 to R181). -/
namespace Sys2Proof.Machine

/-! ## What the instructions of the slot share -/

def lDisp (f : LF) : Int := f.imm.toInt
def lSpec (f : LF) : Bool := f.modf.getLsbD 7
def lPost (f : LF) : Option (BitVec 5) := if f.modf.getLsbD 6 then some f.f else none

/-- A core holds at most 256 uncompleted operations (R167). -/
def roomFor (s : State) (k : SlotRes) : SlotRes := if 256 ≤ s.coreOps then .hold else k

/-- The record and the offset, which is a signed integer (R158, R168). -/
def lRecord (f : LF) (disp : Int) (s : State) (k : Record → Int → SlotRes) : SlotRes :=
  roomFor s (needB f.b s fun r => cleanG keyL f.o s fun v => k r (v.toInt + disp))

def isAcquire (r : Record) : Bool := (recOrder r).getLsbD 0
def isRelease (r : Record) : Bool := (recOrder r).getLsbD 1

/-- An acquire of the context, or a tree's access of scratchpad, has still to be performed (R166; spec/15_ordering.md R223,
R236). -/
def State.acquireHeld (s : State) : Bool := s.taskOps.any Op.isFence

/-- An earlier access of the context has still to be performed (R166, R223), or its commit (R233). -/
def State.releaseHeld (s : State) : Bool :=
  s.taskOps.any (fun o => o.counted || o.isMload) || s.cur.flow.region.any (fun m => m.voted)

/-- The hold that a record's ORDER, or a release whatever it is, asks for. -/
def orderHeld (release : Bool) (s : State) : Bool := s.acquireHeld || (release && s.releaseHeld)

/-- The scope of an access (spec/15_ordering.md R219): to another die at least domain, to scratchpad at most cluster. -/
def accessScope (r : Record) (remote : Bool) : BitVec 3 :=
  if remote then (if recScope r < 4 then 4 else recScope r)
  else if recSpace r = 2 ∧ 2 < recScope r then 2
  else recScope r

/-- A release access is performed as a release first (R223, R230). -/
def bumpFor (release : Bool) (r : Record) (remote : Bool) (s : State) : State :=
  if release then bumpAt (accessScope r remote) s else s

/-- Bytes that an uncompleted operation of few bytes touches; none for a long one, which its range stands for. -/
def Op.small (o : Op) : Option (List Nat) :=
  let run := fun (n : Nat) => some (named (placeAddrs o.record (recRun o.record o.offset n)))
  match o.kind with
  | .vecLoad .. => run 128
  | .vecStore _ => run 128
  | .elemLoad _ n .. => run n
  | .elemStore n _ => run n
  | _ => none

/-- An earlier operation of the context touches one of these bytes in the same space and at the same peer (R166). -/
def conflicts (space : BitVec 3) (peer : Coord) (as : List Nat) (s : State) : Bool :=
  let rg := rangeOf (as.map some)
  s.taskOps.any (fun o =>
    (o.space == space && (match o.remote with | some r => r.dst | none => s.die.coord) == peer &&
      o.lo < rg.2 && rg.1 < o.hi && (match o.small with | some l => l.any (fun a => as.contains a) | none => true)) ||
    (match o.alt with
     | some (sp, lo, hi) => sp == space && peer == s.die.coord && decide (lo < rg.2) && decide (rg.1 < hi)
     | none => false))

/-- An access of scratchpad through a record waits for earlier ones of the context to the same bytes (R166), and for a
pre-empted task that holds them. -/
def needBytes (addrs : List (Option Nat)) (s : State) (k : SlotRes) : SlotRes :=
  if conflicts 2 s.die.coord (named addrs) s then .hold else needScratch (named addrs) s k

/-- The faults of an access that are known at issue: record, alignment, qualifier, bounds (R157, R158, R173). -/
def accessFault (r : Record) (remote : Bool) (fe : BitVec 2) (t : Int) (n align : Nat) : Option (Cause × Word) :=
  if !recordOk r remote then some (.operandValue, 0)
  else if t % align ≠ 0 then some (.misalignedOperand, 0)
  else if fe ≠ 0 ∧ recSpace r ≠ 2 then some (.operandValue, 0)
  else
    match firstOutside r (recRun r t n) with
    | some a => some (.bounds, a)
    | none => none

/-- A slot waits for a translation that the host fills. -/
def fillWait (w : WalkArg) (asked : Bool) : SlotRes := if asked then .hold else .begins (askFill w)

/-- The trap of a failed translation at issue (R165, R337). -/
def xlateTrap (x : Xlate) (va : Nat) : SlotRes :=
  match x with
  | .translation => .trap .translationFault 0 (BitVec.ofNat 64 va)
  | .permission => .trap .permissionFault 0 (BitVec.ofNat 64 va)
  | .poisoned => .trap .uncorrectable 0 (BitVec.ofNat 64 va)
  | .absent => .stop .absentMemory
  | .pending w asked => fillWait w asked
  | .ok _ _ => .nothing

/-- What an operation will deliver is owed from its issue (spec/03_bundles.md R50, spec/13_vector.md R185). -/
def oweFor (k : OpKind) (id : Nat) (s : State) : State :=
  let oweG := fun (g : BitVec 5) (s : State) => if g = 0 then s else s.owe (.g g) id
  match k with
  | .vecLoad q .. => s.pushOwed q id
  | .elemLoad g .. => oweG g s
  | .amo g _ _ _ nr _ => if nr then s else oweG g s
  | .amoc g .. => oweG g s
  | .recLoad b => s.owe (.b b) id
  | .regionLoad g .. => oweG g s
  | .ringGet _ q st => oweG st (s.pushOwed q id)
  | _ => s

/-- A record of the operation asks for an acquire. -/
def Op.acquires (o : Op) : Bool :=
  isAcquire o.record || (match o.kind with | .blockCopy src _ => isAcquire src | _ => false)

/-- The acquire that follows an access: it waits for the earlier loads and atomics of the context, and for the operation
`own` of the access itself (spec/15_ordering.md R223, R236). -/
def beginAcquire (own : Option Nat) (s : State) : State :=
  let ids := (s.taskOps.filter (fun o => o.isRead || own == some o.id)).map (·.id)
  if ids.isEmpty then s else startOp { mkOp (.acquire ids) s with counted := false } s

/-- A local operation begins. -/
def beginLocal (o : Op) (s : State) : State :=
  let t := startOp o (oweFor o.kind s.die.nextId s)
  if o.acquires then beginAcquire (some s.die.nextId) t else t

/-- A remote operation begins. -/
def beginRemote (o : Op) (peer : Coord) (reqs : List (Packet × Nat)) (s : State) : State :=
  let t := startRemote o peer reqs (oweFor o.kind s.die.nextId s)
  if o.acquires then beginAcquire (some s.die.nextId) t else t

/-- An operation through a record. -/
def recOp (kind : OpKind) (f : LF) (r : Record) (t : Int) (addrs : List (Option Nat)) (s : State) : Op :=
  let rg := rangeOf addrs
  { mkOp kind s with record := r, offset := t, post := lPost f, space := (recSpace r).setWidth 3, lo := rg.1, hi := rg.2 }

/-- Heap bytes with their positions. -/
def heapBytes (r : Record) (ps : List Place) : List (Nat × Nat) :=
  (ps.mapIdx (fun i p => match p with | .byte off => some ((recBase r).toNat + off, i) | _ => none)).filterMap id

/-- What an access of contiguous bytes to memory or to a peer is: its operation, and the requests it makes of a peer. -/
structure AccessPlan where
  kind : OpKind
  count : Nat
  access : Access
  isRead : Bool
  isWrite : Bool
  release : Bool
  /-- the requests to a peer, from a request's common fields and the heap bytes -/
  reqs : Packet → List (Nat × Nat) → List (Packet × Nat)
  /-- what is done at issue besides -/
  also : State → State

/-- The operation of a plan. -/
def planOp (p : AccessPlan) (f : LF) (r : Record) (t : Int) (s : State) : Op :=
  { recOp p.kind f r t (placeAddrs r (recRun r t p.count)) s with isRead := p.isRead, isWrite := p.isWrite }

/-- Issue of a plan outside scratchpad: to a peer, or to memory of the own die with its translation precise (R165). -/
def issuePlan (p : AccessPlan) (f : LF) (r : Record) (t : Int) (s : State) (failed : Xlate → Nat → SlotRes) : SlotRes :=
  let ps := recRun r t p.count
  let addrs := placeAddrs r ps
  let peer := if f.n = 0 then s.die.coord else s.readN f.n
  if conflicts ((recSpace r).setWidth 3) peer (named addrs) s then .hold
  else if f.n ≠ 0 then
    if freeSlots s.cur = 0 then .engine
    else .ok (fun u =>
      let u := bumpFor p.release r true (p.also u)
      let o := planOp p f r t u
      beginRemote o peer (p.reqs (requestOf o peer u) (heapBytes r ps)) u)
  else
    match s.cells p.access (kindSpace r) addrs with
    | .fail x va => failed x va
    | .ok cs => .ok (fun u =>
      let u := bumpFor p.release r false (p.also u)
      beginLocal { planOp p f r t u with cells := cs } u)

/-! ## Loads and stores (R173) -/

/-- Size of a scalar access by its code. -/
def elemSize (f : LF) : Nat := 2 ^ (bits 0 2 f.modf : BitVec 2).toNat

/-- What a load brings: a queue entry, or an element for a g register. -/
def loadKind (f : LF) (vec : Bool) (spec : Bool) (val : Option (BitVec 1024 × Bool)) : OpKind :=
  if vec then .vecLoad f.d spec val
  else .elemLoad f.d (elemSize f) (f.modf.getLsbD 2) spec (val.map (fun b => (b.1.setWidth 64, b.2)))

/-- A speculative load that would fault brings a poisoned value (R165). -/
def loadPoisoned (f : LF) (vec : Bool) : SlotRes :=
  .ok (fun u => beginLocal { mkOp (loadKind f vec true (some (Config.freeEntry u.die.nextId, true))) u with isRead := true }
    u.dropEnds)

/-- The bits of a load by what it writes: an entry, or a word extended to 64 bits. -/
def loadBits (f : LF) (vec : Bool) (bs : List Byte) : BitVec 1024 :=
  if vec then BitVec.ofNat 1024 (leNat bs) else (loadValue (elemSize f) (f.modf.getLsbD 2) bs).setWidth 1024

/-- Granules of scratchpad bytes that an access touches. -/
def accessGranules (addrs : List (Option Nat)) : List Nat := granulesOf (named addrs)

/-- An access of scratchpad is performed when it issues, as `now` says; where it follows an `mload` of its own bundle (spec/15_ordering.md
R220, R223), it is an operation `o` that is performed when it completes. -/
def scratchAccess (o : Op) (now early : State → State) (u : State) : State :=
  if (ownBefore o u).isEmpty then now u else beginLocal o (early u)

/-- A load from scratchpad reads when it issues; `.keep` and `.take` wait until every granule is full. -/
def loadScratch (f : LF) (vec : Bool) (t : Int) (addrs : List (Option Nat)) (r : Record) (s : State) : SlotRes :=
  let gs := accessGranules addrs
  needBytes addrs s <|
  if f.fe ≠ 0 && gs.any (fun g => !isFull g s) then .engine
  else
    let v := loadBits f vec (readScratch addrs s)
    let p := scratchFault addrs s
    .ok (fun u =>
      scratchAccess { recOp (loadKind f vec (lSpec f) none) f r t addrs u with isRead := true, fe := f.fe }
        (fun u =>
          let u := bumpFor (isRelease r) r false (if f.fe = 2 then setFullAll gs false u else u)
          beginLocal { mkOp (loadKind f vec (lSpec f) (some (v, p))) u with record := r, isRead := true } u)
        (bumpFor (isRelease r) r false) u)

def slotLoad (f : LF) (vec : Bool) (s : State) : SlotRes :=
  lRecord f (lDisp f) s fun r t =>
  let size := if vec then 128 else elemSize f
  (if vec then id else destG f.d s) <|
  if orderHeld (isRelease r) s then .hold
  else
    match accessFault r (f.n != 0) f.fe t size (if vec then 16 else size) with
    | some (c, a) => if lSpec f then loadPoisoned f vec else .trap c 0 a
    | none =>
      if recSpace r = 2 then loadScratch f vec t (placeAddrs r (recRun r t size)) r s
      else
        issuePlan { kind := loadKind f vec (lSpec f) none, count := size, access := .read, isRead := true,
                    isWrite := false, release := isRelease r, reqs := readReqs, also := id } f r t s
          (fun x va => if lSpec f && (x == .translation || x == .permission) then loadPoisoned f vec else xlateTrap x va)

def slotVld (f : LF) (s : State) : SlotRes := slotLoad f true s
def slotSld (f : LF) (s : State) : SlotRes := slotLoad f false s

/-- A store to scratchpad is performed when it issues; `.wait` holds until every granule is empty, which is no engine wait of
R15. -/
def storeScratch (f : LF) (kind : OpKind) (bs : List Byte) (t : Int) (addrs : List (Option Nat)) (r : Record)
    (also : State → State) (s : State) : SlotRes :=
  let gs := accessGranules addrs
  needBytes addrs s <|
  if f.fe = 2 && gs.any (fun g => isFull g s) then .hold
  else .ok (fun u =>
    scratchAccess { recOp kind f r t addrs u with isWrite := true, fe := f.fe }
      (fun u =>
        let u := bumpFor (isRelease r) r false (writeScratch addrs bs (also u))
        let u := if f.fe ≠ 0 then setFullAll gs true u else u
        beginLocal { mkOp kind u with record := r, post := lPost f, isWrite := true } u)
      (fun u => bumpFor (isRelease r) r false (also u)) u)

/-- A store of the bytes `bs`. -/
def storeBytes (f : LF) (kind : OpKind) (align : Nat) (bs : List Byte) (also : State → State) (r : Record) (t : Int)
    (s : State) : SlotRes :=
  if orderHeld (isRelease r) s then .hold
  else
    match accessFault r (f.n != 0) f.fe t bs.length align with
    | some (c, a) => .trap c 0 a
    | none =>
      if recSpace r = 2 then storeScratch f kind bs t (placeAddrs r (recRun r t bs.length)) r also s
      else
        issuePlan { kind := kind, count := bs.length, access := .write, isRead := false, isWrite := true,
                    release := isRelease r, reqs := fun q l => writeReqs q l (fun i => bs.getD i 0), also := also }
          f r t s xlateTrap

def slotVst (f : LF) (s : State) : SlotRes :=
  lRecord f (lDisp f) s fun r t =>
  needQ (keyL + 1) f.d s fun e p => poisonLast p <|
  storeBytes f (.vecStore e) 16 (leBytes 128 e.toNat) (popUnless (f.modf.getLsbD 0) f.d) r t s

def slotSst (f : LF) (s : State) : SlotRes :=
  lRecord f (lDisp f) s fun r t =>
  needG (keyL + 1) f.d s fun v p => poisonLast p <|
  storeBytes f (.elemStore (elemSize f) v) (elemSize f) (leBytes (elemSize f) v.toNat) id r t s

/-! ## Tile transfers (R159, R160, R165, R169) -/

/-- Rows and row bytes of the standard tile of a format; none for a reserved format. -/
def stdShape (fmt : BitVec 8) : Option (Nat × Nat) :=
  match fmt.toNat with
  | 0 | 4 | 12 => some (128, 128)
  | 13 => some (256, 64)
  | 1 | 5 | 8 | 9 => some (64, 128)
  | 2 | 6 | 10 => some (32, 128)
  | 3 | 7 | 11 => some (32, 256)
  | _ => none

def tileShape (r : Record) (shape : BitVec 16) : Option (Nat × Nat) :=
  if shape = 0 then stdShape (recFmt r)
  else some ((bits 8 8 shape : BitVec 8).toNat + 1, 16 * ((bits 0 8 shape : BitVec 8).toNat + 1))

/-- Bytes of an element (R159). -/
def elemBytes (r : Record) : Nat := if recFmt r = 13 then 1 else tyWidth ((recFmt r).setWidth 4) / 8

/-- The record offsets of a tile, row by row. -/
def tileOffsets (r : Record) (o : Int) (rows w : Nat) : List Int :=
  (List.range rows).flatMap (fun i => (List.range w).map (fun j =>
    o + (i : Int) * (recStride0 r).toInt + ((j / elemBytes r : Nat) : Int) * (recStride1 r).toInt + (j % elemBytes r : Nat)))

def tilePlaces (r : Record) (o : Int) (shape : BitVec 16) : List Place :=
  match tileShape r shape with
  | some (rows, w) => (tileOffsets r o rows w).map (recPlace r)
  | none => []

/-- Addresses of scratchpad bytes from a start. -/
def scratchRun (sp n : Nat) : List (Option Nat) := (List.range n).map (fun i => some (sp + i))

/-- The check of a tile's scratchpad side (R169). -/
def spOk (sp : Word) (n : Nat) : Bool := sp.toNat % 16 == 0 && sp.toNat + n ≤ Config.scratchBytes

/-- The source range of a block transfer within the own die. -/
def copyRange (o : Op) : Option (BitVec 3 × Nat × Nat) :=
  match o.kind, o.remote with
  | .blockCopy src _, none => let a := recAddr src 0; some ((recSpace src).setWidth 3, a, a + (recExtent src).toNat)
  | _, _ => none

/-- An engine operation that moves bytes between places of a record and scratchpad or another record. -/
structure EnginePlan where
  kind : OpKind
  places : List Place
  isRead : Bool
  isWrite : Bool
  /-- scratchpad bytes it names besides its record's -/
  scratch : List Nat
  reqs : Packet → List (Nat × Nat) → List (Packet × Nat)
  also : State → State

/-- Issue of an engine operation, whose translation the engine makes (R165). -/
def issueEngine (p : EnginePlan) (f : LF) (r : Record) (t : Int) (s : State) : SlotRes :=
  let addrs := placeAddrs r p.places
  let peer := if f.n = 0 then s.die.coord else s.readN f.n
  if conflicts ((recSpace r).setWidth 3) peer (named addrs) s then .hold
  else if s.spHeld (p.scratch ++ (if recSpace r = 2 then named addrs else [])) then .engine
  else if f.n ≠ 0 && freeSlots s.cur = 0 then .engine
  else .ok (fun u =>
    let u := bumpFor (isRelease r) r (f.n != 0) (p.also u)
    let o : Op := { recOp p.kind f r t addrs u with isRead := p.isRead, isWrite := p.isWrite }
    if f.n ≠ 0 then beginRemote o peer (p.reqs (requestOf o peer u) (heapBytes r p.places)) u
    else beginLocal { o with alt := copyRange o } u)

def slotTld (f : LF) (s : State) : SlotRes :=
  lRecord f 0 s fun r t =>
  cleanG (keyL + 1) f.d s fun sp =>
  match tileShape r f.imm with
  | none => .trapOf .operandValue
  | some (rows, w) =>
    let kind := OpKind.tileLoad (lSpec f) sp.toNat f.imm
    let ps := tilePlaces r t f.imm
    if !spOk sp (rows * w) then .trapOf .operandValue
    else
      let bad := if !recordOk r (f.n != 0) then some (Cause.operandValue, (0 : Word))
        else match firstOutside r ps with | some a => some (.bounds, a) | none => none
      match bad with
      | some (c, a) =>
        if lSpec f then .ok (fun u => beginLocal { mkOp kind u with
          record := r, offset := t, post := lPost f, isRead := true, doomed := true } u)
        else .trap c 0 a
      | none =>
        if orderHeld (isRelease r) s then .hold
        else issueEngine { kind := kind, places := ps, isRead := true, isWrite := false, reqs := readReqs, also := id,
                           scratch := named (scratchRun sp.toNat (rows * w)) } f r t s

/-- `tst`.  The engine reads its scratchpad source at times of its own (spec/15_ordering.md R236, note e): here when the operation
completes, or, for a peer, when it issues (log entry 30). -/
def slotTst (f : LF) (s : State) : SlotRes :=
  lRecord f 0 s fun r t =>
  cleanG (keyL + 1) f.d s fun sp =>
  match tileShape r f.imm with
  | none => .trapOf .operandValue
  | some (rows, w) =>
    let ps := tilePlaces r t f.imm
    if !spOk sp (rows * w) || !recordOk r (f.n != 0) then .trapOf .operandValue
    else if orderHeld (isRelease r) s then .hold
    else
      match firstOutside r ps with
      | some a => .trap .bounds 0 a
      | none =>
        poisonLast (scratchFault (scratchRun sp.toNat (rows * w)) s) <|
        issueEngine { kind := .tileStore sp.toNat f.imm, places := ps, isRead := false, isWrite := true,
                           scratch := named (scratchRun sp.toNat (rows * w)),
                           reqs := fun q l => writeReqs q l (fun i => scratchRead (sp.toNat + i) s), also := id } f r t s

/-! ## Rows under a descriptor (R170) -/

def descRowb (d : BitVec 512) : Nat := (bits 496 16 d : BitVec 16).toNat
def descCount (d : BitVec 512) (k : Nat) : Nat := (bits (80 * k) 16 d : BitVec 16).toNat
def descMstride (d : BitVec 512) (k : Nat) : Int := (bits (80 * k + 16) 32 d : BitVec 32).toInt
def descPstride (d : BitVec 512) (k : Nat) : Int := (bits (80 * k + 48) 32 d : BitVec 32).toInt

/-- The rows in order, dimension 0 fastest: record offset and scratchpad offset, both relative. -/
def descRows (d : BitVec 512) : Nat → List (Int × Int)
  | 0 => [(0, 0)]
  | k + 1 =>
    (List.range (descCount d k)).flatMap (fun i =>
      (descRows d k).map (fun x => (x.1 + (i : Int) * descMstride d k, x.2 + (i : Int) * descPstride d k)))

/-- The rows of a descriptor, from dimension 5, the outermost. -/
def rowsOf (d : BitVec 512) : List (Int × Int) := descRows d 6

/-- Total bytes that a descriptor moves. -/
def descBytes (d : BitVec 512) : Nat := descRowb d * ((List.range 6).map (descCount d)).foldl (· * ·) 1

/-- The descriptor checks of R170; a row length or scratchpad stride that the table excludes counts among them. -/
def descOk (d : BitVec 512) (sp : Word) : Bool :=
  (bits 480 16 d : BitVec 16) == 0 && descRowb d != 0 && descRowb d % 16 == 0 &&
    (List.range 6).all (fun k => descCount d k != 0 && descPstride d k % 16 == 0) && descBytes d ≤ 2 ^ 32 &&
    sp.toNat % 16 == 0 &&
    (rowsOf d).all (fun x => 0 ≤ (sp.toNat : Int) + x.2 && (sp.toNat : Int) + x.2 + descRowb d ≤ Config.scratchBytes)

/-- The 64 bytes at scratchpad byte 512·imm16. -/
def readDesc (imm : BitVec 16) (s : State) : BitVec 512 :=
  BitVec.ofNat 512 (leNat (readScratch (scratchRun (512 * imm.toNat) 64) s))

/-- The places of the rows in order. -/
def rowPlaces (r : Record) (o : Int) (d : BitVec 512) : List Place :=
  (rowsOf d).flatMap (fun x => recRun r (o + x.1) (descRowb d))

/-- The scratchpad bytes of the rows in order. -/
def rowScratch (sp : Nat) (d : BitVec 512) : List (Option Nat) :=
  (rowsOf d).flatMap (fun x => scratchRun ((sp : Int) + x.2).toNat (descRowb d))

/-- `tldn` and `tstn`.  A held range that the descriptor lies in makes them wait like one that the rows touch (spec/09_traps.md
R143).  The source of `tstn` is read as that of `tst` (log entry 30). -/
def slotRows (f : LF) (load : Bool) (s : State) : SlotRes :=
  lRecord f 0 s fun r t =>
  needScratch (named (scratchRun (512 * f.imm.toNat) 64)) s <|
  cleanG (keyL + 1) f.d s fun sp =>
  let d := readDesc f.imm s
  if !recordOk r (f.n != 0) || !descOk d sp then .trapOf .operandValue
  else if orderHeld (isRelease r) s then .hold
  else
    let ps := rowPlaces r t d
    match firstOutside r ps with
    | some a => .trap .bounds 0 a
    | none =>
      let spad := rowScratch sp.toNat d
      if load then
        issueEngine { kind := .rowsLoad sp.toNat d, places := ps, isRead := true, isWrite := false, reqs := readReqs,
                      scratch := named spad, also := id } f r t s
      else
        let bs := readScratch spad s
        poisonLast (scratchFault spad s) <|
        issueEngine { kind := .rowsStore sp.toNat d, places := ps, isRead := false, isWrite := true,
                      scratch := named spad,
                      reqs := fun q l => writeReqs q l (fun i => bs.getD i 0), also := id } f r t s

def slotTldn (f : LF) (s : State) : SlotRes := slotRows f true s
def slotTstn (f : LF) (s : State) : SlotRes := slotRows f false s

/-! ## The tag table (R171, R174) -/

/-- The checks of `ttag`. -/
def ttagOk (e va : Word) (s : State) : Bool :=
  e.toNat ≤ 8191 && e.toNat / 16 == (bits 12 9 va : BitVec 9).toNat &&
    !(tagSet va).any (fun i => i != e.toNat && tagMatches (tagOf i s) va s.cur.sys.asid)

def slotTtag (f : LF) (s : State) : SlotRes :=
  cleanG keyL f.o s fun va =>
  cleanG (keyL + 1) f.d s fun e =>
  if s.acquireHeld then .hold
  else if !ttagOk e va s then .trapOf .operandValue
  else .ok (fun u => setTag e.toNat (tagFor va u.cur.sys.asid) u)

def slotTinv (f : LF) (s : State) : SlotRes :=
  cleanG keyL f.o s fun e =>
  if s.acquireHeld then .hold
  else if 8191 < e.toNat then .trapOf .operandValue
  else .ok (fun u => setTag e.toNat (tagOf e.toNat u &&& ~~~(3 : BitVec 64)) u)

/-- The word of `tlook` (R174). -/
def tlookValue (va : Word) (s : State) : Word :=
  match tagFind va s.cur.sys.asid s with
  | some e => BitVec.ofNat 64 e ||| (if tagFault (tagOf e s) then 0x4000000000000000 else 0)
  | none => BitVec.allOnes 64

def slotTlook (f : LF) (s : State) : SlotRes :=
  roomFor s <| cleanG keyL f.o s fun va =>
  destG f.d s <|
  if s.acquireHeld then .hold
  else
    let v := tlookValue va s
    .ok (fun u => beginLocal { mkOp (.elemLoad f.d 8 false false (some (v, false))) u with isRead := true } u)

/-- The places of the 4 KiB block of `tprf`. -/
def blockPlaces (r : Record) (va : Word) : List Place :=
  recRun r ((va.toNat : Int) - (recBase r).toNat) 4096

/-- The virtual address of `tprf`. -/
def tprfVa (r : Record) (t : Int) : Word := (recBase r + BitVec.ofInt 64 t) &&& ~~~(0xFFF : Word)

def slotTprf (f : LF) (s : State) : SlotRes :=
  lRecord f 0 s fun r t =>
  cleanG (keyL + 1) f.d s fun e =>
  let va := tprfVa r t
  if !recordOk r false || recSpace r = 2 || !ttagOk e va s then .trapOf .operandValue
  else if orderHeld (isRelease r) s then .hold
  else
    let ps := blockPlaces r va
    match firstOutside r ps with
    | some a => .trap .bounds 0 a
    | none =>
      let gs := (List.range 256).map (fun i => e.toNat * 256 + i)
      issueEngine { kind := .lineFill e.toNat, places := ps, isRead := true, isWrite := false, reqs := readReqs,
                    scratch := named (scratchRun (e.toNat * 4096) 4096),
                    also := fun u => setFullAll gs false (setTag e.toNat (tagFor va u.cur.sys.asid) u) } f r t s

/-! ## Block transfers (R172) -/

def bxfLen (src : Record) : Nat := (recExtent src).toNat

/-- The bytes of a block transfer's source as record places. -/
def bxfSource (src : Record) : List Place := (List.range (bxfLen src)).map Place.byte

/-- The flag that a block transfer posts on the die that n names. -/
def bxfFlag (f : LF) : Option (BitVec 6 × BitVec 5) :=
  if f.modf.getLsbD 6 && f.fr then some (f.imm.setWidth 6, f.f) else none

/-- The post on the issuing core. -/
def bxfPost (f : LF) : Option (BitVec 5) := if f.modf.getLsbD 6 && !f.fr then some f.f else none

/-- A block transfer to a peer reads its source before its requests; a source that does not translate, or holds poisoned
bytes, makes it fault as an engine (R165, R337): address, and whether bytes or the walk were poisoned. -/
def bxfBytes (src : Record) (s : State) : Except (Word × Bool) (List Byte) :=
  let addrs := placeAddrs src (bxfSource src)
  if recSpace src = 2 then .ok (readScratch addrs s)
  else
    match cellsFor s.cur.sys.asid s.user .read (kindSpace src) s addrs with
    | .fail x va => .error (BitVec.ofNat 64 va, x == .poisoned)
    | .ok cs =>
      match (addrs.zip cs).find? (fun x => cellsPoison [x.2] s) with
      | some x => .error (BitVec.ofNat 64 (x.1.getD 0), true)
      | none => .ok (readCells cs s)

/-- The request that posts a flag on the die that n names. -/
def flagReq (q : Packet) (c : BitVec 6) (f : BitVec 5) : Packet :=
  { q with type := 7, offset := c.setWidth 40, len := 0, aux := f.setWidth 8, opa := 1, payload := [] }

/-- The requests of a block transfer to a peer; where no byte of the destination is within bounds, the flag post alone. -/
def bxfReqs (f : LF) (bs : List Byte) (q : Packet) (l : List (Nat × Nat)) : List (Packet × Nat) :=
  match writeReqs q l (fun i => bs.getD i 0), bxfFlag f with
  | [], some (c, fl) => [(flagReq q c fl, 0)]
  | w, _ => w

/-- An operation that the engine stops at once: it keeps the address in `lo` and the kind of fault in `hi`. -/
def doomedCopy (kind : OpKind) (fault : Word × Bool) (u : State) : Op :=
  { mkOp kind u with doomed := true, isWrite := true, lo := fault.1.toNat, hi := if fault.2 then 1 else 0 }

def slotBxf (f : LF) (s : State) : SlotRes :=
  lRecord f 0 s fun r t =>
  needB (bits 0 4 f.modf) s fun src =>
  let n := bxfLen src
  if !recordOk r (f.n != 0) || !recordOk src false || n = 0 || n % 16 ≠ 0 then .trapOf .operandValue
  else if 2 ^ 32 < n then .trapOf .operandValue
  else if orderHeld (isRelease r || isRelease src) s then .hold
  else
    let ps := recRun r t n
    match firstOutside r ps with
    | some a => .trap .bounds 0 a
    | none =>
      let kind := OpKind.blockCopy src (bxfFlag f)
      let also := bumpFor (isRelease src) src false
      let own := if recSpace src = 2 then named (placeAddrs src (bxfSource src)) else []
      if conflicts ((recSpace src).setWidth 3) s.die.coord (named (placeAddrs src (bxfSource src))) s then .hold
      else poisonLast (recSpace src = 2 && scratchFault (placeAddrs src (bxfSource src)) s) <|
      if f.n ≠ 0 then
        match bxfBytes src s with
        | .error e => .ok (fun u => beginLocal (doomedCopy kind e u) u)
        | .ok bs =>
          issueEngine { kind := kind, places := ps, isRead := false, isWrite := true,
                        scratch := own, reqs := bxfReqs f bs, also := also }
            { f with modf := if f.fr then f.modf &&& 0x3F else f.modf } r t s
      else
        issueEngine { kind := kind, places := ps, isRead := false, isWrite := true, scratch := own, reqs := fun _ _ => [],
                      also := also }
          { f with modf := if f.fr then f.modf &&& 0x3F else f.modf } r t s

/-! ## Full-empty bits (R175) -/

/-- The scratchpad byte of granule `k`, none where it is clamped, or the offset that traps. -/
def feGranule (r : Record) (u : Int) : Place :=
  let e : Int := (recExtent r).toNat
  if 0 ≤ u ∧ u + 16 ≤ e then .byte u.toNat
  else if recBounds r = 0 then .outside u
  else if recBounds r = 1 then .clamped
  else .byte (u % e).toNat

def feCount (f : LF) : Nat := if f.imm = 0 then 65536 else f.imm.toNat

def slotFe (f : LF) (v : Bool) (s : State) : SlotRes :=
  needB f.b s fun r => cleanG keyL f.o s fun o =>
  let t := o.toInt
  if orderHeld (isRelease r) s then .hold
  else if !recordOk r false || recSpace r ≠ 2 then .trapOf .operandValue
  else if t % 16 ≠ 0 || (((recBase r).toNat : Int) + t) % 16 ≠ 0 then .trapOf .misalignedOperand
  else
    let ps := (List.range (feCount f)).map (fun (k : Nat) => feGranule r (t + 16 * k))
    match firstOutside r ps with
    | some a => .trap .bounds 0 a
    | none => needScratch (named (placeAddrs r ps)) s (.ok (fun u =>
      let u := setFullAll ((named (placeAddrs r ps)).map (· / 16)) v (bumpFor (isRelease r) r false u)
      if isAcquire r then beginAcquire none u else u))

def slotFeset (f : LF) (s : State) : SlotRes := slotFe f true s
def slotFeclr (f : LF) (s : State) : SlotRes := slotFe f false s

/-! ## Records (R176) -/

/-- An access of 32 bytes at a virtual address; it is ordered with accesses of space 0. -/
def recAddress (f : LF) (s : State) (k : Word → SlotRes) : SlotRes :=
  roomFor s <| cleanG keyL f.o s fun v =>
  let a := v + f.imm.signExtend 64
  if a.toNat % 32 ≠ 0 then .trapOf .misalignedOperand else k a

/-- Issue of `recld` and `recst`. -/
def issueRec (f : LF) (kind : OpKind) (load : Bool) (a : Word) (s : State) : SlotRes :=
  let addrs := (List.range 32).map (fun i => a.toNat + i)
  if s.acquireHeld || conflicts 0 s.die.coord addrs s then .hold
  else
    match s.cells (if load then .read else .write) none (addrs.map some) with
    | .fail x va => xlateTrap x va
    | .ok cs =>
      if load && cellsPoison cs s then .trap .uncorrectable 0 a
      else .ok (fun u => beginLocal { mkOp kind u with
        cells := cs, post := lPost f, space := 0, lo := a.toNat, hi := a.toNat + 32, isRead := load, isWrite := !load } u)

def slotRecld (f : LF) (s : State) : SlotRes :=
  if s.cur.isOwed (.b f.b) then .hold else recAddress f s fun a => issueRec f (.recLoad f.b) true a s

/-- `recst` writes a record as it stands: R157 checks a record where an instruction uses it to reach memory, and storing one is
no such use (log entry 63). -/
def slotRecst (f : LF) (s : State) : SlotRes :=
  needB f.b s fun r => recAddress f s fun a => issueRec f (.recStore r) false a s

/-- The field that `recmk` replaces; none where the value traps. -/
def recmkValue (mode : Nat) (r : Record) (v : Word) : Option Record :=
  match mode with
  | 0 => if (recExtent r).toNat < v.toNat then none
         else some (putBits 64 40 ((recExtent r).toNat - v.toNat) (putBits 0 64 ((recBase r) + v).toNat r))
  | 1 => if bits 40 24 v != 0 then none else some (putBits 64 40 v.toNat r)
  | 2 => if sext 32 v != v then none else some (putBits 104 32 (v.setWidth 32).toNat r)
  | 3 => if sext 32 v != v then none else some (putBits 136 32 (v.setWidth 32).toNat r)
  | 4 => if bits 32 32 v != 0 then none else some (putBits 188 32 v.toNat r)
  | _ => if bits 20 44 v != 0 then none else some (putBits 168 20 v.toNat r)

/-- `recmk`: its source record is copied as it stands, unchecked like the one it writes (R157; log entry 63). -/
def slotRecmk (f : LF) (s : State) : SlotRes :=
  if s.cur.isOwed (.b f.b) then .hold
  else
    needB (f.imm.setWidth 4) s fun src => cleanG keyL f.o s fun v =>
    match recmkValue (bits 0 3 f.modf : BitVec 3).toNat src v with
    | none => .trapOf .operandValue
    | some r => .ok (State.writeB f.b r)

/-! ## Atomics and signals (R177, R178) -/

/-- Little-endian value of bytes in scratchpad. -/
def scratchNum (addrs : List (Option Nat)) (s : State) : Nat := leNat (readScratch addrs s)

/-- An atomic some of whose bytes are clamped away touches nothing, and brings 0 (R177). -/
def atomicNothing (landing : OpKind) (f : LF) (r : Record) (remote : Bool) : SlotRes :=
  .ok (fun u => beginLocal { mkOp landing u with record := r, post := lPost f, isRead := true, isWrite := true }
    (bumpFor (isRelease r) r remote u))

/-- The request of a peer that acts on single bytes of a word.  It names the first one; where they do not follow each other,
by the record's bounds mode, its payload names the heap offset of each, and all ones for a byte that is clamped away (log
entry 46). -/
def atomicReqs (q : Packet) (n : Nat) (l : List (Nat × Nat)) : List (Packet × Nat) :=
  match l with
  | [] => []
  | x :: _ =>
    let plain := l == (List.range n).map (fun i => (x.1 + i, i))
    let name := fun (i : Nat) => (((l.find? (fun y => y.2 == i)).map (·.1)).getD (2 ^ 64 - 1))
    [({ q with offset := BitVec.ofNat 40 x.1, len := if plain then n else 8 * n,
               payload := if plain then [] else (List.range n).flatMap (fun i => leBytes 8 (name i)) }, x.2)]

/-- An atomic on scratchpad, performed when it issues; the register's value comes with its completion. -/
def atomicScratch (f : LF) (kind : OpKind) (landing : OpKind) (t : Int) (addrs : List (Option Nat)) (r : Record)
    (release : Bool) (old : Nat) (s : State) : SlotRes :=
  needBytes addrs s <| .ok (fun u =>
    scratchAccess { recOp kind f r t addrs u with isRead := true, isWrite := true }
      (fun u =>
        let u := bumpFor release r false u
        let u := match atomicBytes kind old with | some bs => writeScratch addrs bs u | none => u
        beginLocal { mkOp landing u with record := r, post := lPost f, isRead := true, isWrite := true } u)
      (bumpFor release r false) u)

def slotAmo (f : LF) (s : State) : SlotRes :=
  lRecord f (lDisp f) s fun r t =>
  needG (keyL + 1) f.d s fun arg p => poisonLast p <|
  let wide := f.modf.getLsbD 4
  let nr := f.modf.getLsbD 5
  let kind := OpKind.amo f.d (bits 0 3 f.modf) (f.modf.getLsbD 3) wide nr arg
  if orderHeld (isRelease r) s then .hold
  else
    match accessFault r (f.n != 0) 0 t (amoBytes wide) (amoBytes wide) with
    | some (c, a) => .trap c 0 a
    | none =>
      let addrs := placeAddrs r (recRun r t (amoBytes wide))
      let landing := fun (old : Nat) =>
        if nr then OpKind.posted else .elemLoad f.d 8 false false (some (BitVec.ofNat 64 old, false))
      if amoClamped addrs then atomicNothing (landing 0) f r (f.n != 0)
      else if recSpace r = 2 then
        let old := scratchNum addrs s
        atomicScratch f kind (landing old) t addrs r (isRelease r) old s
      else
        issuePlan { kind := kind, count := amoBytes wide, access := .atomic, isRead := true, isWrite := true,
                    release := isRelease r, also := id,
                    reqs := fun q => atomicReqs { q with
                      type := 3, opa := arg,
                      aux := (if nr then 0x80 else 0) ||| (if f.modf.getLsbD 3 then 0x40 else 0) |||
                        (if wide then 0x20 else 0) ||| (bits 0 3 f.modf : BitVec 3).setWidth 8 } (amoBytes wide) }
          f r t s xlateTrap

def slotAmoc (f : LF) (s : State) : SlotRes :=
  lRecord f 0 s fun r t =>
  needG (keyL + 1) f.d s fun cmp p =>
  needG (keyL + 2) (f.imm.setWidth 5) s fun new q => poisonLast (p || q) <|
  let wide := f.modf.getLsbD 4
  let kind := OpKind.amoc f.d wide cmp new
  if orderHeld (isRelease r) s then .hold
  else
    match accessFault r (f.n != 0) 0 t (amoBytes wide) (amoBytes wide) with
    | some (c, a) => .trap c 0 a
    | none =>
      let addrs := placeAddrs r (recRun r t (amoBytes wide))
      let landing := fun (old : Nat) => OpKind.elemLoad f.d 8 false false (some (BitVec.ofNat 64 old, false))
      if amoClamped addrs then atomicNothing (landing 0) f r (f.n != 0)
      else if recSpace r = 2 then
        let old := scratchNum addrs s
        atomicScratch f kind (landing old) t addrs r (isRelease r) old s
      else
        issuePlan { kind := kind, count := amoBytes wide, access := .atomic, isRead := true, isWrite := true,
                    release := isRelease r, also := id,
                    reqs := fun q => atomicReqs { q with
                      type := 4, opa := cmp, opb := new, aux := if wide then 0x20 else 0 } (amoBytes wide) }
          f r t s xlateTrap

/-- A task that rebuilds a version performs no signal (spec/21_tasks.md R334). -/
def State.isRebuild (s : State) : Bool := match s.cur.flow.task with | some t => t.rebuild.isSome | none => false

/-- `ssig` asks a page for permission to write alone, `.add` too, which also reads the word: the table of R163 gives RD and W
to atomics, and does not name signals (log entry 47). -/
def slotSsig (f : LF) (s : State) : SlotRes :=
  lRecord f (lDisp f) s fun r t =>
  needG (keyL + 1) f.d s fun v p => poisonLast p <|
  let add := f.modf.getLsbD 0
  if orderHeld true s then .hold
  else if s.isRebuild then .ok (fun u => beginLocal { mkOp .posted u with post := lPost f, isWrite := true } u)
  else
    match accessFault r (f.n != 0) 0 t 8 8 with
    | some (c, a) => .trap c 0 a
    | none =>
      if recSpace r = 2 then
        let addrs := placeAddrs r (recRun r t 8)
        atomicScratch f (.signal add v) .posted t addrs r true (scratchNum addrs s) s
      else
        issuePlan { kind := .signal add v, count := 8, access := .write, isRead := false, isWrite := true,
                    release := true, also := id,
                    reqs := fun q => atomicReqs { q with type := if add then 6 else 5, opa := v } 8 }
          f r t s xlateTrap

/-! ## Watches (R178) -/

/-- The present value of a watched word; none where no value is seen. -/
def watchValue (k : WatchKind) (s : State) : Option Nat :=
  match k with
  | .scratch l _ => some (leNat (readScratch l s))
  | .memory l _ => if cellsPoison l s then none else some (leNat (readCells l s))
  | _ => none

/-- A watched word qualifies: taken as unsigned it is at least the value. -/
def wordMet (k : WatchKind) (s : State) : Bool :=
  match k with
  | .scratch _ v => (match watchValue k s with | some x => v.toNat ≤ x | none => false)
  | .memory _ v => (match watchValue k s with | some x => v.toNat ≤ x | none => false)
  | _ => false

def Watch.isWord (w : Watch) : Bool :=
  match w.kind with | .scratch .. => true | .memory .. => true | .never => false | .set _ => false

/-- A watch is armed, or its post made at once. -/
def armWatch (w : Watch) (met : Bool) (s : State) : State :=
  if met then s.modCore (Core.post w.flag 1) else s.modFlow (fun x => { x with watches := x.watches ++ [w] })

/-- `swait`.  DESIGN CHOICE: the eight watches that a context may have armed are those of words; whether a watch of `wvis` counts
among them R178 does not say (log entry 66). -/
def slotSwait (f : LF) (s : State) : SlotRes :=
  needB f.b s fun r => cleanG keyL f.o s fun o => needG (keyL + 1) f.d s fun v p => poisonLast p <|
  let t := o.toInt + lDisp f
  if orderHeld (isRelease r) s then .hold
  else
    match accessFault r false 0 t 8 8 with
    | some (c, a) => .trap c 0 a
    | none =>
      if 8 ≤ s.cur.flow.watches.countP Watch.isWord then .trapOf .operandValue
      else
        let addrs := placeAddrs r (recRun r t 8)
        let arm := fun (k : WatchKind) => SlotRes.ok (fun u =>
          let u := armWatch { kind := k, flag := f.f } (wordMet k u) (bumpFor (isRelease r) r false u)
          if isAcquire r then beginAcquire none u else u)
        if recSpace r = 2 then needBytes addrs s (arm (.scratch addrs v))
        else if conflicts ((recSpace r).setWidth 3) s.die.coord (named addrs) s then .hold
        else
          match s.cells .read (kindSpace r) addrs with
          | .fail x va => xlateTrap x va
          | .ok cs => arm (.memory cs v)

/-! ## Fences (R179, R180) -/

/-- An earlier load or atomic of the task has still to complete. -/
def State.loadsHeld (s : State) : Bool := s.taskOps.any (fun o => o.isRead)

/-- An earlier write, atomic or signal of the task has still to complete, or its commit to be performed (R233). -/
def State.writesHeld (s : State) : Bool :=
  s.taskOps.any (fun o => o.isWrite) || s.cur.flow.region.any (fun m => m.voted)

/-- `fence.acq`; an `mload` of its own bundle is performed before what comes after the fence (spec/15_ordering.md R220). -/
def slotFenceAcq (_f : LF) (s : State) : SlotRes := if s.loadsHeld then .hold else .ok (beginAcquire none)

def slotFenceRel (f : LF) (s : State) : SlotRes :=
  if s.writesHeld then .hold else .ok (bumpAt (f.imm.setWidth 3))

def slotFenceAr (f : LF) (s : State) : SlotRes :=
  if s.loadsHeld || s.writesHeld then .hold
  else .ok (fun u => beginAcquire none (bumpAt (f.imm.setWidth 3) u))

def slotTfence (_f : LF) (s : State) : SlotRes := if s.writesHeld then .hold else .nothing

/-- Requests of the address space that are translated and have still to reach their home (R181). -/
def State.translatedHeld (s : State) : Bool :=
  s.die.ops.any (fun o => o.asid == s.cur.sys.asid && !o.cells.isEmpty)

/-- Removes TLB entries of every core of the die, and those that the host has supplied. -/
def dropTlb (p : TlbEntry → Bool) (s : State) : State :=
  let f := fun (c : Core) => { c with tlb := c.tlb.filter (fun t => !p t) }
  (s.cores.foldl (fun u x => modCoreAt (BitVec.ofNat 6 x.1) f u) (s.modCore f)).modDie (fun d =>
    { d with fills := d.fills.filter (fun t => !p t), fillEnds := [] })

/-- The TLB entries of an address space that map an address. -/
def mapsVa (asid : BitVec 16) (va : Nat) (t : TlbEntry) : Bool := t.serves asid va

/-- Those that `tfence.all` removes. -/
def notGlobal (asid : BitVec 16) (t : TlbEntry) : Bool := t.asid == asid && !t.pte.getLsbD 8

/-- The requests by which an invalidation reaches the other dies of the domain.  R181 has it reach their TLBs, and R342 gives it
no packet: it travels as a region operation with an AUX of its own (log entry 67). -/
def invalidateReqs (all : Bool) (va : Nat) (o : Op) (s : State) : List (Packet × Nat) :=
  (otherDies s).map (fun d => ({ requestOf o d s with
    type := 10, aux := 6, offset := BitVec.ofNat 40 (va - Config.heapBase), opa := if all then 1 else 0 }, 0))

/-- The invalidation leaves for the other dies, and its bundle holds until all have answered (R181). -/
def invalidateAway (all : Bool) (va : Nat) (s : State) : State :=
  let o := mkOp .posted s
  let id := s.die.nextId
  (startRemote o s.die.coord (invalidateReqs all va o s) s).modFlow (fun w => { w with homeAnswer := some (.asked id) })

/-- An invalidation: kind 0 of `tfence`, then the entries of the own die, and, for a heap address at domain or system scope,
those of the domain's other dies (R180, R181). -/
def invalidate (f : LF) (all : Bool) (va : Nat) (p : TlbEntry → Bool) (s : State) : SlotRes :=
  let drop := fun (u : State) => (dropTlb p u).modFlow (fun w => { w with homeAnswer := none })
  match s.cur.flow.homeAnswer with
  | some (.asked id) => if (findOp id s).isSome then .hold else .ok drop
  | _ =>
    if s.writesHeld || s.translatedHeld then .hold
    else if 4 ≤ (f.imm.setWidth 3 : BitVec 3) && (all || Config.heapBase ≤ va) && !(otherDies s).isEmpty then
      if freeSlots s.cur = 0 then .engine else .begins (invalidateAway all va)
    else .ok drop

def slotTfenceInv (f : LF) (s : State) : SlotRes :=
  needG keyL f.o s fun va p => poisonLast p <| invalidate f false va.toNat (mapsVa s.cur.sys.asid va.toNat) s

def slotTfenceAll (f : LF) (s : State) : SlotRes := invalidate f true Config.heapBase (notGlobal s.cur.sys.asid) s

end Sys2Proof.Machine
end

