-- ==== Sys2Proof/Machine/Regions.lean ====
section
/-! DEFINITION. Bulk transfers between trees and scratchpad, and the `ar` instructions (spec/19_trees_regions.md R285 to
R300). -/
namespace Sys2Proof.Machine

/-! ## Bulk transfer (R285 to R287) -/

def bulkTree (f : LF) : BitVec 3 := bits 0 3 f.modf
def bulkFp (f : LF) : Bool := f.modf.getLsbD 3

/-- Scratchpad bytes of the 1,024 leaves, or the trap of the instruction. -/
def bulkFault (r : Record) (t : Int) : Option (Cause × Word) :=
  if !recordOk r false || recSpace r ≠ 2 then some (.operandValue, 0)
  else if t % 16 ≠ 0 then some (.misalignedOperand, 0)
  else match firstOutside r (recRun r t 4096) with | some a => some (.bounds, a) | none => none

def bulkAddrs (r : Record) (t : Int) : List (Option Nat) := placeAddrs r (recRun r t 4096)

def slotWfill (f : LF) (s : State) : SlotRes :=
  lRecord f (lDisp f) s fun r t => needTree (bulkTree f) s fun _ =>
  if orderHeld (isRelease r) s then .hold
  else
    match bulkFault r t with
    | some (c, a) => .trap c 0 a
    | none =>
      needBytes (bulkAddrs r t) s <|
        if scratchFault (bulkAddrs r t) s then .trapOf .poison
        else .ok (fun u => beginLocal { mkOp (.treeFill (bulkTree f) (bulkFp f) f.fe) u with
            record := r, offset := t, post := lPost f, isRead := true } (bumpFor (isRelease r) r false u))

/-- The leaf codes that 4,096 bytes give, and the flags of their conversion. -/
def fillLeaves (fp : Bool) (bs : List Byte) : Leaves × Flags :=
  (List.range 1024).foldl (fun (acc : Leaves × Flags) i =>
    let w := BitVec.ofNat 32 (leNat ((bs.drop (4 * i)).take 4))
    let q := if fp then massOf w else (w, 0)
    (smSet 0 acc.1 i q.1, acc.2 ||| q.2)) ([], 0)

/-- A fill waits for full granules where `.keep` or `.take` asks for them. -/
def fillReady (o : Op) (fe : BitVec 2) (s : State) : Bool :=
  fe == 0 || (accessGranules (bulkAddrs o.record o.offset)).all (fun g => isFull g s)

/-- Flags enter FSTAT of the task that issued an operation, be it on its context or pre-empted. -/
def opFlags (o : Op) (f : Flags) (s : State) : State :=
  if ownerPresent o s then modCtxAt o.owner (fun c => c.orFlags f) s
  else modSaved (fun v => v.home == o.owner && v.ctx.serial == o.serial) (fun c => c.orFlags f) s

/-- The fill of a tree is applied (R286); the owner's core is in focus. -/
def applyFill (o : Op) (w : BitVec 3) (fp : Bool) (fe : BitVec 2) (s : State) : State :=
  if !fillReady o fe s then s
  else
    let addrs := bulkAddrs o.record o.offset
    let r := fillLeaves fp (readScratch addrs s)
    let s := if fe = 2 then setFullAll (accessGranules addrs) false s else s
    finishOp o (opFlags o r.2 (s.setTree w r.1))

/-- The bytes of a dump. -/
def dumpBytes (fp : Bool) (t : Leaves) : List Byte :=
  (List.range 1024).flatMap (fun i => leBytes 4 (if fp then (massToF (leafOf t i)).toNat else leafOf t i))

def slotWdump (f : LF) (s : State) : SlotRes :=
  lRecord f (lDisp f) s fun r t => needTree (bulkTree f) s fun leaves =>
  if orderHeld (isRelease r) s then .hold
  else
    match bulkFault r t with
    | some (c, a) => .trap c 0 a
    | none =>
      needBytes (bulkAddrs r t) s <| .ok (fun u =>
        beginLocal { mkOp (.treeDump leaves (bulkFp f) f.fe) u with
          record := r, offset := t, post := lPost f, isWrite := true } (bumpFor (isRelease r) r false u))

/-- A dump is written (R287); with `.wait` once every granule is empty. -/
def applyDump (o : Op) (t : Leaves) (fp : Bool) (fe : BitVec 2) (s : State) : State :=
  let addrs := bulkAddrs o.record o.offset
  let gs := accessGranules addrs
  if fe = 2 && gs.any (fun g => isFull g s) then s
  else
    let s := writeScratch addrs (dumpBytes fp t) s
    finishOp o (if fe ≠ 0 then setFullAll gs true s else s)

/-! ## Region instructions (R290 to R300) -/

/-- The domain of this die holds a die. -/
def inDomain (c : Coord) (s : State) : Bool := (domainIndex c s).isSome

/-- A value written to a g register by an instruction that waited for it: older results in flight for it never land (R50). -/
def State.writeG (r : BitVec 5) (v : Word) (s : State) : State :=
  s.modCtx (fun c =>
    let drop := fun (p : Pending) => if p.dest == .g r then { p with dest := .fstat } else p
    Ctx.writeDest { c with pend := c.pend.map drop } (.g r) (v.setWidth 128) false)

/-- The region of the current context; no region raises operand value (R294, R300). -/
def needMember (s : State) (k : Member → SlotRes) : SlotRes :=
  match s.cur.flow.region with
  | none => .trapOf .operandValue
  | some m => k m

def memberHandle (m : Member) : Word := m.region.handle

/-- A region instruction asks its home once and holds until the answer (R291); `early` is done when the request leaves. -/
def askHome (aux : BitVec 8) (n : RegionName) (opa opb : Word) (early : State → State) (s : State)
    (k : Word → BitVec 16 → SlotRes) : SlotRes :=
  match s.cur.flow.homeAnswer with
  | some (.asked _) => .engine
  | some (.refused c a) => .trap c 0 a
  | some (.done v a) => k v a
  | none =>
    if freeSlots s.cur = 0 then .engine
    else .arrive (fun u =>
      let u := early u
      let o : Op := { mkOp (.regionAsk aux n.handle) u with counted := true }
      let id := u.die.nextId
      let q : Packet := { requestOf o n.home u with
        type := 10, aux := aux, asid := n.asid, offset := BitVec.ofNat 40 (n.obj.toNat * 64), opa := opa, opb := opb, scope := 4 }
      (startRemote o n.home [(q, 0)] u).modFlow (fun w => { w with homeAnswer := some (.asked id) }))

/-- The answer of a home has been used. -/
def clearAnswer (s : State) : State := s.modFlow (fun w => { w with homeAnswer := none })

/-- Tentative accesses of a context are performed in program order (R295). -/
def Op.isTentative (o : Op) : Bool :=
  match o.kind with | .regionLoad .. => true | .regionStore .. => true | _ => false

def State.tentativeHeld (s : State) : Bool := s.taskOps.any Op.isTentative

/-- `ar.commit` waits until every earlier access of the context has been performed: its tentative stores (R298), and the
accesses that R236 to R240 keep before a commit. -/
def State.commitHeld (s : State) : Bool := s.taskOps.any (fun o => o.counted || o.isMload)

/-- The object that `ar.open` names: its heap offset (R292). -/
def openOffset (r : Record) (t : Int) : Option Nat :=
  match recPlace r t with
  | .byte off =>
    if recRun r t 64 = (List.range 64).map (fun i => Place.byte (off + i)) then some ((recBase r).toNat + off) else none
  | _ => none

def openCount (f : LF) : BitVec 6 := bits 0 6 f.imm
def openMs (f : LF) : BitVec 10 := bits 6 10 f.imm

def slotArOpen (f : LF) (s : State) : SlotRes :=
  lRecord f 0 s fun r t =>
  destG f.d s <|
  if !recordOk r (f.n != 0) || recSpace r ≠ 3 || openMs f = 0 then .trapOf .operandValue
  else
    match firstOutside r (recRun r t 64) with
    | some a => .trap .bounds 0 a
    | none =>
      match openOffset r t with
      | none => .trapOf .operandValue
      | some h =>
        if h % 64 ≠ 0 then .trapOf .operandValue
        else if f.n ≠ 0 then
          askHome 1 { home := s.readN f.n, gen := 0, obj := BitVec.ofNat 34 (h / 64), asid := s.cur.sys.asid }
            (f.imm.setWidth 64) 0 id s (fun v _ => .ok (fun u => clearAnswer (u.writeG f.d v)))
        else if freeSlots s.cur = 0 then .engine
        else
          match seek s.cur.sys.asid s.user .atomic none (Config.heapBase + h) s with
          | .ok k pa =>
            match (homeOpen (k, pa) (BitVec.ofNat 34 (h / 64)) s.cur.sys.asid (openCount f) (openMs f) s).2 with
            | none => .trapOf .operandValue
            | some gen => .ok (fun u =>
              (homeOpen (k, pa) (BitVec.ofNat 34 (h / 64)) u.cur.sys.asid (openCount f) (openMs f) u).1.writeG f.d
                (handleOf u.die.coord gen (BitVec.ofNat 34 (h / 64))))
          | x => xlateTrap x (Config.heapBase + h)

/-- This task becomes a member. -/
def enterRegion (n : RegionName) (s : State) : State :=
  s.modFlow (fun w => { w with region := some { region := n, voted := false, flag := none, shards := 0 } })

def memberRef (flag : Option (BitVec 5)) (s : State) : MemberRef :=
  { die := s.die.coord, ctx := s.curId, serial := s.cur.serial, flag := flag }

/-- An operation of the home that lies on this die: its trap, or its effect. -/
def homeHere (f : State → State × Option Cause) (also : State → State) (s : State) : SlotRes :=
  if freeSlots s.cur = 0 then .engine
  else
    match (f s).2 with
    | some c => .trapOf c
    | none => .ok (fun u => also (f u).1)

/-- The name under which the home keeps the region that a handle names here. -/
def ownName (n : RegionName) (s : State) : RegionName := ((regionAt n s).map (·.name)).getD n

def slotArJoin (f : LF) (s : State) : SlotRes :=
  roomFor s <| cleanG (keyL + 1) f.d s fun h =>
  let n := nameOf h s.cur.sys.asid
  let ask := askHome 2 n h 0 id s (fun _ a => .ok (fun u =>
    clearAnswer (if u.die.ended.contains { n with asid := a } then abortMember u.curId (enterRegion { n with asid := a } u)
      else enterRegion { n with asid := a } u)))
  match s.cur.flow.homeAnswer with
  | some _ => ask
  | none =>
    if s.cur.flow.region.isSome || bits 14 2 n.home != 0 || !inDomain n.home s then .trapOf .operandValue
    else if n.home = s.die.coord then homeHere (homeJoin n (memberRef none s)) (fun u => enterRegion (ownName n u) u) s
    else ask

/-- An instruction that ends with its home's answer, or begins. -/
def withAnswer (s : State) (done : State → State) (begin_ : Member → SlotRes) : SlotRes :=
  match s.cur.flow.homeAnswer with
  | some (.done _ _) => .ok (fun u => clearAnswer (done u))
  | some (.refused c a) => .trap c 0 a
  | some (.asked _) => .engine
  | none => needMember s begin_

/-- The post that the current task's vote asks for. -/
def wishPost (flag : Option (BitVec 5)) (s : State) : State :=
  s.modFlow (fun w => { w with region := w.region.map (fun m => { m with flag := flag }) })

/-- The vote of the current task. -/
def castVote (s : State) : State :=
  s.modFlow (fun w => { w with region := w.region.map (fun m => { m with voted := true }) })

/-- `ar.commit`: the vote names the dies to whose shards the member has stored (log entry 21). -/
def slotArCommit (f : LF) (s : State) : SlotRes :=
  roomFor s <| withAnswer s castVote fun m =>
    if m.voted then .trapOf .operandValue
    else if s.commitHeld then .hold
    else if m.region.home = s.die.coord then
      homeHere (fun u => homeCommit m.region m.shards (castVote (wishPost (lPost f) u))) id s
    else askHome 3 m.region (memberHandle m) m.shards (wishPost (lPost f)) s (fun _ _ => .nothing)

def slotArAbort (_f : LF) (s : State) : SlotRes :=
  roomFor s <| withAnswer s id fun m =>
    if m.region.home = s.die.coord then homeHere (fun u => (abortRegion m.region 1 u, none)) id s
    else askHome 4 m.region (memberHandle m) 0 id s (fun _ _ => .nothing)

/-- The leaver's membership has ended, and the abort that its leaving makes is delivered to it like to every member, "including
the one whose instruction caused it" (R299). -/
def endMembership (s : State) : State := abortMember s.curId s

def slotArLeave (_f : LF) (s : State) : SlotRes :=
  roomFor s <| withAnswer s endMembership fun m =>
    if m.voted then .trapOf .operandValue
    else if m.region.home = s.die.coord then homeHere (homeLeave m.region) id s
    else askHome 5 m.region (memberHandle m) 0 id s (fun _ _ => .nothing)

/-! ## Tentative accesses (R294, R295) -/

/-- The checks of a tentative access beside those of every access. -/
def tentativeFault (r : Record) (m : Member) (peer : Coord) (s : State) : Bool :=
  (recSpace r != 0 && recSpace r != 3) || !inDomain peer s || !inDomain m.region.home s || m.voted

/-- A request for tentative bytes carries the handle and the size code (spec/23_fabric.md R342), and in OPB the address space
of the region (log entry 21). -/
def tentativeReqs (ty : BitVec 6) (f : LF) (n : RegionName) (val : Nat → Byte) (q : Packet) (l : List (Nat × Nat)) :
    List (Packet × Nat) :=
  (heapRuns l).map (fun x => ({ q with
    type := ty, offset := BitVec.ofNat 40 x.1, len := x.2.1, aux := (bits 0 2 f.modf : BitVec 2).setWidth 8, opa := n.handle,
    opb := n.asid.setWidth 64,
    payload := if ty = 9 then (List.range x.2.1).map (fun i => val (x.2.2 + i)) else [] }, x.2.2))

def slotArLd (f : LF) (s : State) : SlotRes :=
  lRecord f (lDisp f) s fun r t =>
  destG f.d s <| needMember s fun m =>
  let size := elemSize f
  let peer := if f.n = 0 then s.die.coord else s.readN f.n
  if orderHeld (isRelease r) s || s.tentativeHeld then .hold
  else if tentativeFault r m peer s then .trapOf .operandValue
  else
    match accessFault r (f.n != 0) 0 t size size with
    | some (c, a) => .trap c 0 a
    | none =>
      issuePlan { kind := .regionLoad f.d size (f.modf.getLsbD 2) m.region, count := size, access := .read,
                  isRead := true, isWrite := false, release := isRelease r, also := id,
                  reqs := tentativeReqs 8 f m.region (fun _ => 0) } f r t s xlateTrap

/-- The member has stored at the shard of a die. -/
def noteShard (peer : Coord) (s : State) : State :=
  match domainIndex peer s with
  | some i => s.modFlow (fun w => { w with region := w.region.map (fun m => { m with shards := m.shards ||| BitVec.ofNat 64 (2 ^ i) }) })
  | none => s

def slotArSt (f : LF) (s : State) : SlotRes :=
  lRecord f (lDisp f) s fun r t =>
  cleanG (keyL + 1) f.d s fun v => needMember s fun m =>
  let size := elemSize f
  let peer := if f.n = 0 then s.die.coord else s.readN f.n
  if orderHeld (isRelease r) s || s.tentativeHeld then .hold
  else if tentativeFault r m peer s then .trapOf .operandValue
  else
    match accessFault r (f.n != 0) 0 t size size with
    | some (c, a) => .trap c 0 a
    | none =>
      issuePlan { kind := .regionStore size v m.region, count := size, access := .write,
                  isRead := false, isWrite := true, release := isRelease r, also := noteShard peer,
                  reqs := tentativeReqs 9 f m.region (fun i => byteOf v i) } f r t s xlateTrap

/-- The region still takes tentative accesses for the task of an operation. -/
def handleLive (o : Op) (n : RegionName) (s : State) : Bool :=
  regionLive n s && (if ownerPresent o s then memberIs n (ctxAt o.owner s) else true)

/-- Tentative bytes read at this shard. -/
def tentativeBytes (n : RegionName) (cs : List (Option PByte)) (s : State) : List Byte :=
  cs.map (fun c => match c with | some p => tentativeByte n p s | none => 0)

/-- A task that retires as a member: one that has not voted aborts its region (R298, R300); the post of a voted one is
still owed unless the task retired faulted, and its commit still counts as a release of this die (spec/15_ordering.md R230). -/
def leaveAtRetire (faulted : Bool) (s : State) : State :=
  match s.cur.flow.region with
  | none => s
  | some m =>
    let s := s.modFlow (fun w => { w with region := none })
    if !m.voted then reportAbort m.region 6 s
    else s.modDie (fun d => { d with votes := d.votes ++ [(s.core.id, if faulted then { m with flag := none } else m)] })

end Sys2Proof.Machine
end

