-- ==== Sys2Proof/Machine/Rings.lean ====
section
/-! DEFINITION. Stream rings: descriptors, the ring unit, and `rput`, `rget`, `reos` (spec/21_tasks.md R321 to R326). -/
namespace Sys2Proof.Machine

/-! ## Descriptors (R321) -/

/-- A ring as its descriptor gives it. -/
def ringFrom (place : Tier × Nat) (asid : BitVec 16) (d : BitVec 512) : Ring :=
  { place := place, asid := asid, spill := bits 448 64 d, quota := bits 416 32 d, nprod := bits 320 4 d, reg := bits 400 16 d,
    closed := bits 384 16 d, ended := d.getLsbD 351, items := [], spilled := 0, owners := [], gets := [] }

/-- The ring whose descriptor lies at a place: as the unit keeps it, or as memory gives it. -/
def ringAt (place : Tier × Nat) (asid : BitVec 16) (s : State) : Ring :=
  match s.die.rings.find? (fun r => r.place == place) with
  | some r => r
  | none => ringFrom place asid (readObj place s)

/-- A ring is active from its first registration until end of stream has been delivered. -/
def Ring.active (r : Ring) : Bool := r.reg != 0 && !r.ended

/-- The unit keeps a ring while it is active or a `rget` waits on it. -/
def putRing (r : Ring) (s : State) : State :=
  s.modDie (fun d =>
    let others := d.rings.filter (fun x => x.place != r.place)
    { d with rings := if r.active || !r.gets.isEmpty then others ++ [r] else others })

/-- The entries of a ring. -/
def Ring.entries (r : Ring) : Nat := r.items.countP (fun i => match i with | .entry .. => true | .token _ => false)

/-- Bytes of a descriptor are written, and no other byte of it (R337). -/
def putField (r : Ring) (byte n v : Nat) (s : State) : State := physPut (r.place.1, r.place.2 + byte) n v s

/-- REG, CLOSED and ENDED are written back (R321). -/
def writeBack (r : Ring) (s : State) : State :=
  let top := putBits 7 1 (if r.ended then 1 else 0) (physRead r.place.1 (r.place.2 + 43) s)
  putField r 43 1 top.toNat (putField r 48 2 r.closed.toNat (putField r 50 2 r.reg.toNat s))

/-- A ring changes: the unit keeps it and writes the fields back. -/
def updateRing (r : Ring) (s : State) : State := writeBack r (putRing r s)

def laneBit (l : BitVec 4) (v : BitVec 16) : Bool := v.getLsbD l.toNat

/-- End of stream (R322). -/
def Ring.streamEnds (r : Ring) : Bool :=
  ((List.range 16).filter (fun i => r.reg.getLsbD i)).length == r.nprod.toNat + 1 && r.closed == r.reg && r.entries == 0

/-- Room for one more entry (R324). -/
def Ring.hasRoom (r : Ring) : Bool := r.entries < 128 || r.entries - 128 < r.quota.toNat

/-- An end token and CLOSED of a lane. -/
def Ring.closeLane (l : BitVec 4) (r : Ring) : Ring :=
  { r with items := r.items ++ [.token l], closed := setBit r.closed l.toNat true }

/-- A retired task closes every lane it holds (R322). -/
def closeLanes (serial : Nat) (s : State) : State :=
  s.die.rings.foldl (fun s r =>
    let mine := r.owners.filter (fun x => x.2 == serial && !laneBit x.1 r.closed)
    if mine.isEmpty then s else updateRing (mine.foldl (fun r x => r.closeLane x.1) r) s) s

/-! ## The instructions at issue (R323) -/

/-- The ring that an instruction names (R323, R337).  An earlier access of the context to the descriptor's bytes comes first
(R166), and a descriptor in the HBM of another die is none. -/
def needRing (f : LF) (access : Access) (s : State) (k : Record → Ring → SlotRes) : SlotRes :=
  lRecord f 0 s fun r t =>
  if !recordOk r false || recSpace r ≠ 0 || t % 64 ≠ 0 then .trapOf .operandValue
  else if orderHeld (isRelease r) s then .hold
  else
    match firstOutside r (recRun r t 64) with
    | some a => .trap .bounds 0 a
    | none =>
      if conflicts 0 s.die.coord (named (placeAddrs r (recRun r t 64))) s then .hold
      else
      match s.cells access (some 0) (placeAddrs r (recRun r t 64)) with
      | .fail x va => if mappedAway s.cur.sys.asid s.user access (some 0) va s then .trapOf .operandValue else xlateTrap x va
      | .ok cs =>
        match cs with
        | some p :: _ =>
          if cs ≠ (List.range 64).map (fun i => some (p.1, p.2 + i)) || p.2 % 64 ≠ 0 then .trapOf .operandValue
          else if cellsPoison cs s then .trapOf .uncorrectable
          else k r (ringAt p s.cur.sys.asid s)
        | _ => .trapOf .operandValue

def ringLane (f : LF) : BitVec 4 := f.imm.setWidth 4

/-- The conditions under which `rput` and `reos` raise operand value (R324, R325). -/
def laneOk (r : Ring) (l : BitVec 4) (serial : Nat) : Bool :=
  l.toNat ≤ r.nprod.toNat && laneBit l r.reg && !laneBit l r.closed && r.owners.any (fun x => x.1 == l && x.2 == serial)

/-- A ring operation that is accepted when it issues; its completion posts. -/
def ringDone (f : LF) (r : Record) (u : State) : State :=
  let u := bumpFor (isRelease r) r false u
  beginLocal { mkOp .posted u with record := r, post := lPost f, isWrite := true } u

def slotRput (f : LF) (s : State) : SlotRes :=
  needQ (keyL + 1) f.d s fun e p => poisonLast p <|
  let pop := popUnless (f.modf.getLsbD 0) f.d
  if s.isRebuild then .ok (fun u => ringDone f 0 (pop u))
  else
    needRing f .write s fun r g =>
    if !laneOk g (ringLane f) s.cur.serial then .trapOf .operandValue
    else if !g.hasRoom then .engine
    else .ok (fun u =>
      ringDone f r (updateRing { g with items := g.items ++ [.entry (ringLane f) e false none] } (pop u)))

def slotRputReg (f : LF) (s : State) : SlotRes :=
  if s.isRebuild then .ok (ringDone f 0)
  else
    needRing f .write s fun r g =>
    let g := if g.ended then { g with reg := 0, closed := 0, ended := false, items := [], owners := [], spilled := 0 } else g
    let l := ringLane f
    if g.nprod.toNat < l.toNat || laneBit l g.reg then .trapOf .operandValue
    else if !g.active && 64 ≤ s.die.rings.countP Ring.active then .trapOf .queueFull
    else .ok (fun u => ringDone f r (updateRing
      { g with reg := setBit g.reg l.toNat true, owners := g.owners ++ [(l, u.cur.serial)] } u))

def slotReos (f : LF) (s : State) : SlotRes :=
  if s.isRebuild then .ok (ringDone f 0)
  else
    needRing f .write s fun r g =>
    if !laneOk g (ringLane f) s.cur.serial then .trapOf .operandValue
    else .ok (fun u => ringDone f r (updateRing (g.closeLane (ringLane f)) u))

def slotRget (f : LF) (s : State) : SlotRes :=
  let st : BitVec 5 := f.imm.setWidth 5
  destG st s <|
  needRing f .read s fun r g =>
    .ok (fun u =>
      let u := bumpFor (isRelease r) r false u
      let id := u.die.nextId
      let name := BitVec.ofNat 64 g.place.2 ||| (if g.place.1 = .hbm then 0 else 0x8000000000000000)
      putRing { g with gets := g.gets ++ [id] }
        (beginLocal { mkOp (.ringGet name f.d st) u with record := r, isRead := true } u))

/-! ## The ring unit -/

/-- The ring of a waiting `rget`. -/
def ringOfGet (id : Nat) (s : State) : Option Ring := s.die.rings.find? (fun r => r.gets.contains id)

/-- The oldest entry, passing over tokens: its lane, bits, poison and place while spilled, and the items that stay. -/
def takeEntry : List RingItem → Option (BitVec 4 × BitVec 1024 × Bool × Option (Tier × Nat) × List RingItem)
  | [] => none
  | .entry l d p a :: r => some (l, d, p, a, r)
  | .token _ :: r => takeEntry r

/-- The bits and the poison of an entry, read back from the memory ring where it is spilled (R337). -/
def entryBack (d : BitVec 1024) (p : Bool) (at_ : Option (Tier × Nat)) (s : State) : BitVec 1024 × Bool :=
  match at_ with
  | some a => (BitVec.ofNat 1024 (physNum a 128 s), p || (List.range 128).any (fun i => physPoison a.1 (a.2 + i) s))
  | none => (d, p)

/-- The first `n` entries stand in the on-chip window: a spilled one among them is read back, which frees its place. -/
def windowItems (s : State) : Nat → List RingItem → List RingItem
  | _, [] => []
  | n, .token l :: r => .token l :: windowItems s n r
  | 0, i :: r => i :: r
  | n + 1, .entry l d p a :: r => let x := entryBack d p a s; .entry l x.1 x.2 none :: windowItems s n r

/-- A `rget` is served when it is the oldest of its ring and the ring yields (R322, R326). -/
def serveGet (o : Op) (q st : BitVec 5) (s : State) : State :=
  match ringOfGet o.id s with
  | none => s
  | some r =>
    if r.gets.head? ≠ some o.id then s
    else
      match takeEntry r.items with
      | some (l, d, p, a, rest) =>
        let x := entryBack d p a s
        let s := putRing { r with items := windowItems s 128 rest, gets := r.gets.tail } s
        finishOp o (deliverG o st (l.setWidth 64) false (deliverQueue o q x.1 x.2 s))
      | none =>
        if r.ended || r.streamEnds then
          let s := updateRing { r with ended := true, items := [], gets := r.gets.tail } s
          finishOp o (deliverG o st (BitVec.allOnes 64) false (deliverQueue o q 0 false s))
        else s

/-- The first entry beyond the window that has not been spilled takes its place in the memory ring. -/
def spillItems (place : Tier × Nat) : Nat → List RingItem → List RingItem × Option (BitVec 1024)
  | _, [] => ([], none)
  | n, .token l :: r => let x := spillItems place n r; (.token l :: x.1, x.2)
  | 0, .entry l d p none :: r => (.entry l d p (some place) :: r, some d)
  | n, .entry l d p a :: r => let x := spillItems place (n - 1) r; (.entry l d p a :: x.1, x.2)

/-- The spill engine moves one entry to SPILL and writes HELD back (R321, R322).  Spilled entries follow one another and are at
most QUOTA, so that the places of the memory ring in turn are free. -/
def spillRing (r : Ring) (s : State) : State :=
  let va := r.spill.toNat + 128 * (r.spilled % max r.quota.toNat 1)
  match cellsFor r.asid true .write (some 0) s ((List.range 128).map (fun i => some (va + i))) with
  | .ok cs =>
    match cs with
    | some p :: _ =>
      match spillItems p 128 r.items with
      | (items, some d) =>
        let s := storeCells (pairCells cs (leBytes 128 d.toNat)) s
        let s := putRing { r with items := items, spilled := r.spilled + 1 } s
        putField r 44 4 r.entries s
      | _ => s
    | _ => s
  | .fail _ _ => s

/-- Whether an entry waits to be spilled. -/
def Ring.spillable (r : Ring) : Bool := (spillItems r.place 128 r.items).2.isSome

end Sys2Proof.Machine
end

