-- ==== Sys2Proof/Machine/Save.lean ====
section
/-! DEFINITION. Pre-emption: live sets, liveness tables, saving and holding, writing held regions out, and restoring
(spec/09_traps.md R139 to R147). -/
namespace Sys2Proof.Machine

/-! ## Live sets (R140, R141) -/

/-- A word of a liveness entry: a range, nothing, or a fault. -/
def rangeWord (w : Word) : Option (List HeldKind) :=
  let start := (bits 0 20 w : BitVec 20).toNat
  let len := (bits 20 20 w : BitVec 20).toNat
  if (bits 40 22 w : BitVec 22) != 0 then none
  else
    match (bits 62 2 w : BitVec 2).toNat with
    | 0 => some []
    | 1 => if len = 0 ∨ Config.scratchBytes / 64 < start + len then none else some [.scratch start len]
    | 2 => if len = 0 ∨ Config.copeUnits < start + len then none else some [.cope start len]
    | _ => none

/-- All words of an entry. -/
def rangeWords : List Word → Option (List HeldKind)
  | [] => some []
  | w :: r =>
    match rangeWord w, rangeWords r with
    | some a, some b => some (a ++ b)
    | _, _ => none

/-- `n` bytes at a virtual address as the queue unit and the firmware read them for a task group. -/
inductive VRead where
  | ok (bytes : List Byte)
  | fail (x : Xlate) (va : Nat)
  | poisoned
  deriving DecidableEq, Repr

def readVirtual (asid : BitVec 16) (user : Bool) (va n : Nat) (s : State) : VRead :=
  match cellsFor asid user .read none s ((List.range n).map (fun i => some (va + i))) with
  | .fail x a => .fail x a
  | .ok cs => if cellsPoison cs s then .poisoned else .ok (readCells cs s)

/-- The ranges that a table entry names; none where the entry faults (R141).  An entry that cannot be read, as its task reads
memory at that point, counts as one that faults (log entry 42). -/
def liveRanges (index : BitVec 12) (s : State) : Option (List HeldKind) :=
  if index = 0xFFF then some []
  else
    match s.cur.flow.task with
    | none => none
    | some t =>
      if t.notice || (pktLivelen t.packet).toNat ≤ index.toNat then none
      else
        match readVirtual s.cur.sys.asid s.user ((pktLive t.packet).toNat + 64 * index.toNat) 64 s with
        | .ok bs => rangeWords ((List.range 8).map (fun i => BitVec.ofNat 64 (leNat ((bs.drop (8 * i)).take 8))))
        | _ => none

/-- The ranges of the task's allotment. -/
def allotment (t : TaskRef) : List HeldKind :=
  if t.notice then []
  else
    (if pktSplen t.packet = 0 then [] else [.scratch (pktSpstart t.packet).toNat (pktSplen t.packet).toNat]) ++
      (if pktClen t.packet = 0 then [] else [.cope (pktCstart t.packet).toNat (pktClen t.packet).toNat])

def allotted (s : State) : List HeldKind := match s.cur.flow.task with | some t => allotment t | none => []

/-- The live set of a hint whose ranges are known. -/
def hintLive (h : PhintF) (ranges : List HeldKind) : LiveSet :=
  { regs := h.regs, queues := h.queues, trees := h.trees, planes := h.planes, ranges := ranges }

/-- The live set at a factorisation's interruption point: the hint in force with the instruction's planes, or everything;
a faulty table entry keeps the whole allotment (R140, R141). -/
def factLive (planes : BitVec 4) (s : State) : LiveSet :=
  match s.cur.flow.hint with
  | none =>
    { regs := BitVec.allOnes 32, queues := BitVec.allOnes 32, trees := BitVec.allOnes 8, planes := BitVec.allOnes 4,
      ranges := allotted s }
  | some h =>
    let l := hintLive h.f ((liveRanges h.f.index s).getD (allotted s))
    { l with planes := l.planes ||| planes }

/-- What stays in place for a pre-empted task. -/
def LiveSet.held (l : LiveSet) (owner : Nat) : List Held :=
  let ps := ((List.range 4).filter (fun i => l.planes.getLsbD i)).map (fun i => HeldKind.plane (BitVec.ofNat 2 i))
  let ts := ((List.range 8).filter (fun i => l.trees.getLsbD i)).map (fun i => HeldKind.tree (BitVec.ofNat 3 i))
  (ps ++ ts ++ l.ranges).map (fun k => { owner := owner, kind := k })

/-! ## The context that is saved (R140) -/

/-- Registers outside the live set hold free values after the restore, and queues outside it are empty; free as well are E and
ES, which belong to no live set (spec/17_matrix.md R242), and the flags that `mstat` gives, which no list names. -/
def scrubCtx (l : LiveSet) (ix : Nat) (c : Ctx) : Ctx :=
  { c with
    g := Vector.ofFn (fun (i : Fin 32) => if i.val = 0 ∨ l.regs.getLsbD i.val then c.g[i.val] else Config.freeCell ix i.val)
    gPoison := (List.range 32).foldl (fun p i =>
      if i = 0 ∨ l.regs.getLsbD i then p else setBit p i (Config.freeBit (ix * 64 + i))) c.gPoison
    q := Vector.ofFn (fun (i : Fin 32) => if l.queues.getLsbD i.val then c.q[i.val] else [])
    arr := { c.arr with
      e := (Config.freeEntry (2 * ix + 1)) ++ (Config.freeEntry (2 * ix)), ePoison := Config.freeBit (ix * 64 + 32),
      es := (Config.freeCell ix 40).setWidth 32, lastFlags := Config.freeCell ix 41 } }

/-! ## Writing held regions out, and reading them back (R143, R144) -/

/-- Lines that a scratchpad range touches. -/
def rangeLines (start len : Nat) : List Nat :=
  (List.range ((64 * (start + len) + 4095) / 4096 - 64 * start / 4096)).map (fun i => 64 * start / 4096 + i)

/-- What the save engine takes of a region of the core in focus. -/
def takeRegion (k : HeldKind) (s : State) : HeldData :=
  match k with
  | .plane i => .plane i (s.plane i)
  | .tree i => .tree i (s.tree i)
  | .scratch a l =>
    .scratch a l (memRead s.cluster.sp (64 * a) (64 * l)) ((rangeLines a l).filter (fun e => tagFault (tagOf e s)))
  | .cope a l =>
    .cope a l (memRead s.core.cope (64 * a) (64 * l)) ((List.range l).filterMap (fun i =>
      if smGet false s.core.copePoison (a + i) then some (a + i) else none))
      ((List.range ((a + l + 127) / 128 - a / 128)).map (fun i => (a / 128 + i, smGet 0 s.core.copeScale (a / 128 + i))))

/-- A region is read back to the place it had. -/
def putRegion (d : HeldData) (s : State) : State :=
  match d with
  | .plane i p => s.setPlane i p
  | .tree i t => s.setTree i t
  | .scratch a l bs faults =>
    let s := s.modCluster (fun c => { c with sp := memWrite c.sp (64 * a) bs })
    (rangeLines a l).foldl (fun s e => setLineFault e (faults.contains e) s) s
  | .cope a l bs poison scales =>
    s.modCore (fun k => { k with
      cope := memWrite k.cope (64 * a) bs
      copePoison := (List.range l).foldl (fun m i => smSet false m (a + i) (poison.contains (a + i))) k.copePoison
      copeScale := scales.foldl (fun m x => smSet 0 m x.1 x.2) k.copeScale })

/-- The save engine writes a held region of the core in focus to its owner's save block. -/
def writeOut (h : Held) (s : State) : State :=
  let d := takeRegion h.kind s
  (s.modCore (fun k => { k with held := k.held.erase h })).modQueues (fun q =>
    { q with saved := q.saved.map (fun v =>
        if v.ctx.serial = h.owner ∧ v.home.core = s.core.id then { v with store := v.store ++ [d] } else v) })

/-- Two regions share a place. -/
def HeldKind.meets : HeldKind → HeldKind → Bool
  | .plane a, .plane b => a == b
  | .tree a, .tree b => a == b
  | .scratch a l, .scratch b m => a < b + m && b < a + l
  | .cope a l, .cope b m => a < b + m && b < a + l
  | _, _ => false

def HeldData.kind : HeldData → HeldKind
  | .plane i _ => .plane i
  | .tree i _ => .tree i
  | .scratch a l _ _ => .scratch a l
  | .cope a l _ _ _ => .cope a l

/-- The cores of the cluster in focus. -/
def clusterCores (s : State) : List (BitVec 6) :=
  (List.range 8).map (fun r => s.cluster.id ++ BitVec.ofNat 3 r)

/-- The cores whose held regions may overlap a region of a core: scratchpad is shared by the cluster. -/
def regionCoresOf (core : BitVec 6) (k : HeldKind) : List (BitVec 6) :=
  match k with
  | .scratch .. => (List.range 8).map (fun r => clusterOf core ++ BitVec.ofNat 3 r)
  | _ => [core]

/-- Those of the core in focus. -/
def regionCores (k : HeldKind) (s : State) : List (BitVec 6) :=
  match k with | .scratch .. => clusterCores s | _ => [s.core.id]

/-- A held range cannot be written out yet: an operation of its task is uncompleted (spec/23_fabric.md R355); nor a tree, a fill
of which has still to be applied (spec/19_trees_regions.md R286). -/
def heldBusy (core : BitVec 6) (h : Held) (s : State) : Bool :=
  match h.kind with
  | .tree w => fillPends core w s
  | .scratch .. | .cope .. => s.die.ops.any (fun o => o.serial == h.owner && o.owner.core == core)
  | _ => false

/-- A held region that overlaps a region of a core cannot be written out yet. -/
def regionBusyAt (core : BitVec 6) (k : HeldKind) (s : State) : Bool :=
  (regionCoresOf core k).any (fun c => (coreAt c s).held.any (fun h => h.kind.meets k && heldBusy c h s))

/-- Held regions that overlap a region of the core in focus are written out. -/
def clearRegion (k : HeldKind) (s : State) : State :=
  (regionCores k s).foldl (fun s c =>
    ((coreAt c s).held.filter (fun h => h.kind.meets k)).foldl (fun s h =>
      withFocus { core := c, ctx := (coreAt c s).sel } (writeOut h) s) s) s

/-- Held scratchpad and cope-store ranges of the cluster (R143). -/
def heldRanges (s : State) : Nat :=
  (clusterCores s).foldl (fun n c => n + ((coreAt c s).held.countP (fun h => match h.kind with
    | .scratch .. => true | .cope .. => true | _ => false))) 0

/-! ## The save (R142) -/

/-- Address of a save block in reserved HBM (PRESUMED, log entry 6). -/
def saveBlock (index : Nat) : Word := BitVec.ofNat 64 (Config.saveBase + 1048576 * (index % Config.saveBlocks))

/-- The ranges of a task beyond 64 of a cluster, which the save writes out (R143).  DESIGN CHOICE: they are the first ones of the
task in the order in which its liveness entry names them; R143 does not say which (log entry 68). -/
def excessHeld (owner : Nat) (s : State) : List Held :=
  (s.core.held.filter (fun h => h.owner == owner && (match h.kind with
    | .scratch .. => true | .cope .. => true | _ => false))).take (heldRanges s - 64)

/-- They can be written out. -/
def limitClear (owner : Nat) (s : State) : Bool := (excessHeld owner s).all (fun h => !heldBusy s.core.id h s)

def limitHeld (owner : Nat) (s : State) : State := (excessHeld owner s).foldl (fun s h => writeOut h s) s

/-- Step 2 begins: the context, drained, is copied to its save block, and its regions stay in place. -/
def beginSave (l : LiveSet) (s : State) : State :=
  let cyc := s.core.cycle
  let c := s.cur.wdSettle cyc
  let owner := c.serial
  let kept := (scrubCtx l s.freeCount (c.modSys SysCtx.endDelay)).modFlow (fun w =>
    { w with preempt := false, factPoint := false, flagGrant := none, barGrant := none, homeAnswer := none })
  let v : Saved := { index := s.die.queues.serial, home := s.curId, ctx := kept, saving := true, expired := false,
                     since := cyc, store := [] }
  let s := s.modQueues (fun q => { q with serial := q.serial + 1, saved := q.saved ++ [v] })
  let s := s.modCore (fun k => { (Core.dropWaiters k.sel k) with held := k.held ++ l.held owner })
  let s := s.modCtx (fun _ => c.modFlow (fun w => { w with residency := .saving, preempt := false, watches := [], region := none }))
  { s with freeCount := s.freeCount + 1 }

/-- The save block of a context that is being saved. -/
def savedOf (c : CtxId) (s : State) : Option Saved := s.die.queues.saved.find? (fun v => v.home == c && v.saving)

/-- The save has run past its bound of 20,000 cycles (R142); a frozen core's cycle count stands. -/
def saveOver (v : Saved) (s : State) : Bool := 20000 < s.core.cycle - v.since

def dropSaved (index : Nat) (s : State) : State :=
  s.modQueues (fun q => { q with saved := q.saved.filter (fun v => v.index != index) })

/-- The context slot passes on: the context is free for another task, and keeps its response slots. -/
def vacate (s : State) : State :=
  s.modCtx (fun c => { Ctx.reset with
    n := c.n, arr := c.arr, flow := { FlowCtx.reset with slots := c.flow.slots } })

/-! ## The restore (R144) -/

/-- Another context of some cores has a task whose allotment meets a region. -/
def sharedRange (cores : List (BitVec 6)) (k : HeldKind) (s : State) : Bool :=
  (cores.flatMap (fun c => (List.range 4).map (fun i => ({ core := c, ctx := BitVec.ofNat 2 i } : CtxId)))).any (fun c =>
    c != s.curId && (match (ctxAt c s).flow.task with | some t => (allotment t).any (fun h => h.meets k) | none => false))

/-- No other context of the core in focus is taken. -/
def aloneOnCore (s : State) : Bool :=
  (List.range 4).all (fun i => BitVec.ofNat 2 i == s.core.sel ||
    (ctxAt { core := s.core.id, ctx := BitVec.ofNat 2 i } s).flow.residency == .free)

/-- What a plane holds that was not live: KIND and rows undefined. -/
def freePlane (ix i : Nat) : Plane :=
  let fmt : BitVec 32 := match (bits 0 2 (Config.freeCell ix (0x20000 + i)) : BitVec 2).toNat with
    | 0 => 0x990 | 1 => 0x1BB0 | _ => 0x2CC0
  if Config.freeBit (ix * 64 + 33 + i) then { kind := .none, rows := [] } else openPlane fmt (ix + i) { kind := .none, rows := [] }

/-- Undefined bytes. -/
def freeBytes (ix pos n : Nat) : List Byte :=
  (List.range n).map (fun j => bits (8 * (j % 8)) 8 (Config.freeCell ix (pos + j / 8)))

/-- What is undefined of a region that a restored context finds outside its live set (R97, R140): a plane, a tree, or a unit of
scratchpad with its granules' full-empty bits or of the cope store with its poison bit. -/
def scrubRegion (ix : Nat) (k : HeldKind) (s : State) : State :=
  match k with
  | .plane i => s.setPlane i (freePlane ix i.toNat)
  | .tree i => s.setTree i ((List.range 1024).foldl (fun t l => smSet 0 t l ((Config.freeCell ix (0x30000 + 1024 * i.toNat + l)).setWidth 32)) [])
  | .scratch a l =>
    let s := s.modCluster (fun c => { c with sp := memWrite c.sp (64 * a) (freeBytes ix (0x100000 + 8 * a) (64 * l)) })
    (List.range (4 * l)).foldl (fun s j => setFull (4 * a + j) ((Config.freeCell ix (0x4000000 + 4 * a + j)).getLsbD 0) s) s
  | .cope a l => s.modCore (fun c => { c with
      cope := memWrite c.cope (64 * a) (freeBytes ix (0x1000000 + 8 * a) (64 * l))
      copePoison := (List.range l).foldl (fun m j => smSet false m (a + j) ((Config.freeCell ix (0x8000000 + a + j)).getLsbD 0)) c.copePoison })

/-- FAULT of a scratchpad line, or the scale of a group of 128 units of the cope store, that a range named in its whole length
gives. -/
def scrubTag (ix : Nat) (k : HeldKind) (s : State) : State :=
  match k with
  | .scratch a _ => setLineFault (a / 64) ((Config.freeCell ix (0x9000000 + a / 64)).getLsbD 0) s
  | .cope a _ => s.modCore (fun c => { c with
      copeScale := smSet 0 c.copeScale (a / 128) ((Config.freeCell ix (0xA000000 + a / 128)).setWidth 32) })
  | _ => s

/-- The restored context finds no use of its own in a region, and no other task has it: it is neither live nor held nor allotted
to another context (log entry 43). -/
def outside (live : List HeldKind) (k : HeldKind) (s : State) : Bool :=
  !live.any (fun h => h.meets k) && !sharedRange (regionCores k s) k s &&
    !(regionCores k s).any (fun c => (coreAt c s).held.any (fun h => h.kind.meets k))

/-- The planes and trees of a core. -/
def fixedRegions : List HeldKind :=
  ((List.range 4).map (fun i => HeldKind.plane (BitVec.ofNat 2 i))) ++
    ((List.range 8).map (fun i => HeldKind.tree (BitVec.ofNat 3 i)))

/-- The planes, trees and units of ranges outside a live set that are undefined from the restore on; planes and trees that other
contexts of the core may be using become so when the task first uses them (`unblank`). -/
def outsideLive (live : List HeldKind) (t : TaskRef) (s : State) : List HeldKind :=
  let units := (allotment t).flatMap (fun k => match k with
    | .scratch a l => (List.range l).map (fun i => HeldKind.scratch (a + i) 1)
    | .cope a l => (List.range l).map (fun i => HeldKind.cope (a + i) 1)
    | _ => [])
  (if aloneOnCore s then fixedRegions else []).filter (fun k => !live.any (fun h => h.meets k) && !s.core.held.any (fun h => h.kind.meets k)) ++
    units.filter (fun k => outside live k s)

/-- The lines and groups of the allotment none of which is live: what they carry beside bytes is undefined. -/
def outsideTags (live : List HeldKind) (t : TaskRef) (s : State) : List HeldKind :=
  ((allotment t).flatMap (fun k => match k with
    | .scratch a l => (rangeLines a l).map (fun e => HeldKind.scratch (64 * e) 64)
    | .cope a l => (List.range ((a + l + 127) / 128 - a / 128)).map (fun i => HeldKind.cope (128 * (a / 128 + i)) 128)
    | _ => [])).filter (fun k => outside live k s)

/-- The planes and trees, as masks, that are not live, where other contexts are on the core. -/
def blankAtRestore (live : List HeldKind) (s : State) : BitVec 4 × BitVec 8 :=
  if aloneOnCore s then (0, 0)
  else
    ((List.range 4).foldl (fun m i => setBit m i (!live.contains (.plane (BitVec.ofNat 2 i)))) 0,
     (List.range 8).foldl (fun m i => setBit m i (!live.contains (.tree (BitVec.ofNat 3 i)))) 0)

/-- A context comes back where it ran: regions still held are taken back, those written out are read back, and what was not
live is undefined. -/
def restoreSaved (v : Saved) (s : State) : State :=
  let owner := v.ctx.serial
  let live := (s.core.held.filter (fun h => h.owner == owner)).map (·.kind) ++ v.store.map HeldData.kind
  let s := if s.coreRuns then s else s.modCore (fun k => { k with now := s.pkg.clocks })
  let s := s.modCore (fun k => { k with held := k.held.filter (fun h => h.owner != owner) })
  let s := v.store.foldl (fun s d => putRegion d (clearRegion d.kind s)) s
  let ix := s.freeCount
  let s := match v.ctx.flow.task with
    | some t =>
      let tags := outsideTags live t s
      tags.foldl (fun s k => scrubTag ix k s) ((outsideLive live t s).foldl (fun s k => scrubRegion ix k s) { s with freeCount := ix + 1 })
    | none => s
  let blank := blankAtRestore live s
  let cyc := s.core.cycle
  let s := s.modCtx (fun c => { v.ctx with
    sys := { v.ctx.sys with wdSince := cyc }
    flow := { v.ctx.flow with residency := .running, slots := c.flow.slots,
                              blankPlanes := v.ctx.flow.blankPlanes ||| blank.1, blankTrees := v.ctx.flow.blankTrees ||| blank.2 } })
  dropSaved v.index s

end Sys2Proof.Machine
end

