-- ==== Sys2Proof/Machine/Cadastre.lean ====
section
/-! DEFINITION. The fields of a cadastre entry (spec/21_tasks.md R327). -/
namespace Sys2Proof.Machine

/-! ## Entries (R327) -/

abbrev CadEntry := BitVec 1024

def cadId (e : CadEntry) : VersionId := { ident := bits 976 48 e, ver := bits 960 16 e }
def cadHome (e : CadEntry) : Coord := bits 944 16 e
def cadRep1 (e : CadEntry) : Coord := bits 928 16 e
def cadRep2 (e : CadEntry) : Coord := bits 912 16 e
def cadDepth (e : CadEntry) : Nat := (bits 905 7 e : BitVec 7).toNat
def cadState (e : CadEntry) : Nat := (bits 902 3 e : BitVec 3).toNat
def cadNops (e : CadEntry) : Nat := (bits 899 3 e : BitVec 3).toNat
def cadTries (e : CadEntry) : Nat := (bits 897 2 e : BitVec 2).toNat
def cadMirror (e : CadEntry) : Bool := e.getLsbD 896
def cadDigest (e : CadEntry) : BitVec 64 := bits 832 64 e
def cadPacket (e : CadEntry) : BitVec 64 := bits 768 64 e
def cadPri (e : CadEntry) : BitVec 3 := bits 717 3 e
def cadNodig (e : CadEntry) : Bool := e.getLsbD 716

def packVersion (v : VersionId) : BitVec 64 := v.ident ++ v.ver
def unpackVersion (w : BitVec 64) : VersionId := { ident := bits 16 48 w, ver := bits 0 16 w }

/-- Operand versions of an entry. -/
def cadOps (e : CadEntry) : List VersionId :=
  (List.range (cadNops e)).map (fun k => unpackVersion (bits (64 * k + 320) 64 e))

def setState (n : Nat) (e : CadEntry) : CadEntry := putBits 902 3 n e

end Sys2Proof.Machine
end

