-- ==== Sys2Proof/Machine/Tasks.lean ====
section
/-! DEFINITION. Task sets, launch packets, templates, plats, distribution, the task queue unit, dispatch and the start of a
task (spec/21_tasks.md R302 to R320). -/
namespace Sys2Proof.Machine

/-! ## Packets (R303, R304) -/

/-- The checks of a packet's own fields; a spawn descriptor holds a coordinate in place of the extents (R305). -/
def packetOk (p : BitVec 512) (spawn : Bool) : Bool :=
  pktSetid p != 0 && bits 0 6 (pktCode p) == 0 && bits 56 8 (pktCode p) == 0 && bits 0 6 (pktPlat p) == 0 &&
    bits 0 6 (pktTmpl p) == 0 && pktSuccpol p < 2 &&
    (spawn || (pktGx p != 0 && pktGy p != 0 && pktGz p != 0 &&
      (pktGx p).toNat * (pktGy p).toNat * (pktGz p).toNat ≤ 2 ^ 32)) &&
    (pktCstart p).toNat + (pktClen p).toNat ≤ 131072 && (pktSpstart p).toNat + (pktSplen p).toNat ≤ 524288 &&
    (pktLive p == 0 || pktLivelen p != 0)

/-- Cause of a failed read (R103, R307). -/
def xlateCause (x : Xlate) : Cause :=
  match x with
  | .permission => .permissionFault
  | .poisoned => .uncorrectable
  | _ => .translationFault

/-- A read for the queue unit under a task group: the bytes, or the cause and the address that FADDR names (R131). -/
def queueRead (asid : BitVec 16) (va n : Nat) (s : State) : Except (Cause × Word) (List Byte) :=
  match readVirtual asid true va n s with
  | .ok bs => .ok bs
  | .fail x a => .error (xlateCause x, BitVec.ofNat 64 a)
  | .poisoned => .error (.uncorrectable, BitVec.ofNat 64 va)

/-! ## Plats (R308, R309) -/

def platPeer (h : BitVec 512) (k : Nat) : Coord := bits (512 - 16 * k) 16 h
def platDmask (h : BitVec 512) : BitVec 64 := bits 336 64 h
def platBx (h : BitVec 512) : Nat := (bits 320 16 h : BitVec 16).toNat
def platBy (h : BitVec 512) : Nat := (bits 304 16 h : BitVec 16).toNat
def platBz (h : BitVec 512) : Nat := (bits 288 16 h : BitVec 16).toNat
def platNbx (h : BitVec 512) : Nat := (bits 272 16 h : BitVec 16).toNat
def platNby (h : BitVec 512) : Nat := (bits 256 16 h : BitVec 16).toNat
def platNbz (h : BitVec 512) : Nat := (bits 240 16 h : BitVec 16).toNat

def platHeader (p : BitVec 512) (s : State) : Except (Cause × Word) (BitVec 512) :=
  (queueRead (pktAsid p) (pktPlat p).toNat 64 s).map (fun bs => BitVec.ofNat 512 (leNat bs))

/-- The plat covers a grid of these extents. -/
def platCovers (h : BitVec 512) (gx gy gz : Nat) : Bool :=
  gx ≤ platNbx h * platBx h && gy ≤ platNby h * platBy h && gz ≤ platNbz h * platBz h

/-- The dies of a mask, by domain index. -/
def maskDies (m : BitVec 64) (s : State) : List Coord :=
  (List.range 64).filterMap (fun i => if m.getLsbD i then s.die.domain[i]?.filter (· != 0xFFFF) else none)

/-- The mask names no die outside the domain. -/
def maskOk (m : BitVec 64) (s : State) : Bool :=
  (List.range 64).all (fun i => !m.getLsbD i || (match s.die.domain[i]? with | some c => c != 0xFFFF | none => false))

/-- The header's reserved bits and block extents, and its mask (R304, R308). -/
def platOk (h : BitVec 512) (s : State) : Bool :=
  (bits 0 240 h : BitVec 240) == 0 && platBx h != 0 && platBy h != 0 && platBz h != 0 &&
    ((List.range 7).all (fun k => bits 14 2 (platPeer h (k + 1)) == 0)) && maskOk (platDmask h) s

/-- The entry of a coordinate. -/
def platEntry (p h : BitVec 512) (x y z : Nat) (s : State) : Except (Cause × Word) (BitVec 64) :=
  let i := x / platBx h + platNbx h * (y / platBy h + platNby h * (z / platBz h))
  (queueRead (pktAsid p) ((pktPlat p).toNat + 64 + 8 * i) 8 s).map (fun bs => BitVec.ofNat 64 (leNat bs))

def entHome (e : BitVec 64) : Coord := bits 0 16 e
def entRep1 (e : BitVec 64) : Coord := bits 16 16 e
def entRep2 (e : BitVec 64) : Coord := bits 32 16 e

/-- Three different dies, all named in the mask (R309). -/
def entryOk (e : BitVec 64) (m : BitVec 64) (s : State) : Bool :=
  (bits 48 16 e : BitVec 16) == 0 && entHome e != entRep1 e && entHome e != entRep2 e && entRep1 e != entRep2 e &&
    [entHome e, entRep1 e, entRep2 e].all (fun c => (maskDies m s).contains c)

/-! ## Templates (R306, R307) -/

/-- The header of a template: NWAIT and NIN; none where it is malformed. -/
def tmplHeader (bs : List Byte) : Option (Nat × Nat) :=
  let w := BitVec.ofNat 512 (leNat bs)
  let nin := (bits 0 4 w : BitVec 4).toNat
  let nwait := (bits 4 4 w : BitVec 4).toNat
  if (bits 8 504 w : BitVec 504) == 0 && nin ≤ 6 && nwait ≤ 2 then some (nwait, nin) else none

def bits256 (bs : List Byte) : BitVec 256 := BitVec.ofNat 256 (leNat bs)

/-- The template of a packet. -/
def readTmpl (p : BitVec 512) (s : State) : Except (Cause × Word) Tmpl := do
  let base := (pktTmpl p).toNat
  let rd := fun (off n : Nat) => queueRead (pktAsid p) (base + off) n s
  let h ← rd 0 64
  match tmplHeader h with
  | none => throw (.operandValue, 0)
  | some (nwait, nin) =>
    let out ← rd 64 32
    let place ← rd 96 32
    let ins ← (List.range nin).mapM (fun k => rd (128 + 32 * k) 32)
    let waits ← (List.range nwait).mapM (fun w => rd (320 + 32 * w) 32)
    let t : Tmpl := { out := bits256 out, place := bits256 place, ins := ins.map bits256, waits := waits.map bits256 }
    if (t.out :: t.ins).any (fun v => (bits 0 120 v : BitVec 120) != 0) || t.waits.any (fun v => (bits 0 80 v : BitVec 80) != 0)
    then throw (.operandValue, 0)
    else pure t

/-- A tile term at a coordinate. -/
def evalTerm (v : BitVec 256) (x y z : BitVec 16) : VersionId :=
  let i : Int := (bits 208 48 v : BitVec 48).toNat + (bits 176 16 v : BitVec 16).toInt * x.toNat +
    (bits 160 16 v : BitVec 16).toInt * y.toNat + (bits 144 16 v : BitVec 16).toInt * z.toNat
  let r : Int := (bits 192 16 v : BitVec 16).toNat + (bits 136 8 v : BitVec 8).toInt * x.toNat +
    (bits 128 8 v : BitVec 8).toInt * y.toNat + (bits 120 8 v : BitVec 8).toInt * z.toNat
  { ident := BitVec.ofInt 48 i, ver := BitVec.ofInt 16 r }

/-- The address of a wait's signal word. -/
def waitVa (v : BitVec 256) (x y z : BitVec 16) : Word :=
  let k : Int := (bits 112 16 v : BitVec 16).toInt * x.toNat + (bits 96 16 v : BitVec 16).toInt * y.toNat +
    (bits 80 16 v : BitVec 16).toInt * z.toNat
  bits 192 64 v + BitVec.ofInt 64 (8 * k)

def waitThresh (v : BitVec 256) : Nat := (bits 128 64 v : BitVec 64).toNat

/-- Where a task's output tile begins, as an offset of the output record (R307). -/
def placeOffset (t : TaskRef) (tm : Tmpl) : Int :=
  (bits 128 64 tm.place : BitVec 64).toInt * t.x.toNat + (bits 64 64 tm.place : BitVec 64).toInt * t.y.toNat +
    (bits 0 64 tm.place : BitVec 64).toInt * t.z.toNat

/-- The output record that a template names. -/
def readPlace (p : BitVec 512) (tm : Tmpl) (s : State) : Except (Cause × Word) Record :=
  (queueRead (pktAsid p) (bits 192 64 tm.place : BitVec 64).toNat 32 s).map bits256

/-- The memory bytes of the output tile in row-major order; a place outside the HBM of this die, its home, is malformed (R307). -/
def outputCells (t : TaskRef) (tm : Tmpl) (r : Record) (s : State) : Except Cause (List PByte) := do
  if !recordOk r false || recSpace r ≠ 0 then throw .operandValue
  else
    match stdShape (recFmt r) with
    | none => throw .operandValue
    | some (rows, w) =>
      let ts := tileOffsets r (placeOffset t tm) rows w
      if ts.any (fun t => t < 0 || (recExtent r).toNat ≤ t) then throw .operandValue
      else
        match cellsFor (pktAsid t.packet) true .write none s (ts.map (fun t => some ((recBase r).toNat + t.toNat))) with
        | .fail .absent _ => throw .operandValue
        | .fail x _ => throw (xlateCause x)
        | .ok cs =>
          let ps := cs.filterMap id
          if ps.any (fun p => p.1 != .hbm) then throw .operandValue else pure ps

/-- The die's copy of the task's packet, which lies in reserved HBM, holds poisoned bytes (R337). -/
def copyPoisoned (t : TaskRef) (s : State) : Bool :=
  physPoison .hbm (Config.packetBase + (t.packetAddr - Config.packetVA)) s

/-- What the queue unit reads of a task: its packet copy, template and output record (R307, R337). -/
def selectTask (t : TaskRef) (s : State) : Selection :=
  let empty : Tmpl := { out := 0, place := 0, ins := [], waits := [] }
  if copyPoisoned t s then { tmpl := empty, record := 0, fault := some .uncorrectable }
  else
    match readTmpl t.packet s with
    | .error c => { tmpl := empty, record := 0, fault := some c.1 }
    | .ok tm =>
      match readPlace t.packet tm s with
      | .error c => { tmpl := tm, record := 0, fault := some c.1 }
      | .ok r =>
        { tmpl := tm, record := r, fault := match outputCells t tm r s with | .error c => some c | .ok _ => none }

/-- What was read at the first selection, or would be now. -/
def selOf (t : TaskRef) (s : State) : Selection := t.sel.getD (selectTask t s)

/-- The memory bytes of a task's output tile, none where its template or its place is faulty. -/
def placeOf (t : TaskRef) (s : State) : List PByte :=
  let x := selOf t s
  if x.fault.isSome then [] else match outputCells t x.tmpl x.record s with | .ok cs => cs | .error _ => []

/-- The cause that a wait term gives its task. -/
def waitFault (t : TaskRef) (v : BitVec 256) (s : State) : Option Cause :=
  let va := waitVa v t.x t.y t.z
  if va.toNat % 8 ≠ 0 then some .operandValue
  else
    match translate (pktAsid t.packet) true .read none va.toNat s with
    | .ok k _ => if k = .hbm then none else some .operandValue
    | .absent => some .operandValue
    | .permission => some .permissionFault
    | .poisoned => some .uncorrectable
    | _ => none

/-- What makes a task retire before its first bundle (R307); a rebuild ignores its wait terms (R334). -/
def startFault (t : TaskRef) (s : State) : Option Cause :=
  if t.notice then none
  else
    let x := selOf t s
    match x.fault with
    | some c => some c
    | none => if t.rebuild.isSome then none else x.tmpl.waits.findSome? (fun v => waitFault t v s)

/-! ## Sets (R310, R311, R314) -/

def findSet (inst : Nat) (s : State) : Option SetEntry := s.die.queues.sets.find? (fun e => e.inst == inst)

def modSet (inst : Nat) (f : SetEntry → SetEntry) (s : State) : State :=
  s.modQueues (fun q => { q with sets := q.sets.map (fun e => if e.inst = inst then f e else e) })

/-- The tasks that are queued, parked, buffered or resident on this die. -/
def State.taskRefs (s : State) : List TaskRef :=
  s.die.queues.tasks.map (·.ref) ++ (List.range 64).flatMap (fun c => (coreAt (BitVec.ofNat 6 c) s).prefetch) ++
    allCtxs.filterMap (fun c =>
      let w := (ctxAt c s).flow
      if w.residency == .running || w.residency == .saving then w.task else none)

/-- The instances of which rebuilds are queued, parked, buffered or resident here: each is a task of its set (R334). -/
def State.rebuildInsts (s : State) : List Nat := (s.taskRefs.filter (fun t => t.rebuild.isSome && !t.notice)).map (·.inst)

/-- The die holds tasks of an instance: those of its own, or a rebuild of one (R302, R334). -/
def SetEntry.held (e : SetEntry) (s : State) : Bool := e.here && (e.live != 0 || s.rebuildInsts.contains e.inst)

/-- A set is tracked while it has tasks here or its packet is still being distributed (R310). -/
def SetEntry.tracked (e : SetEntry) (s : State) : Bool := e.held s || (e.here && e.cursor.isSome)

/-- The tracked instance of a SETID. -/
def trackedSet (setid : BitVec 32) (s : State) : Option SetEntry :=
  s.die.queues.sets.find? (fun e => e.setid == setid && e.tracked s)

/-- An instance of a SETID whose tasks the die holds: a packet of that SETID is refused. -/
def heldSet (setid : BitVec 32) (s : State) : Bool := s.die.queues.sets.any (fun e => e.setid == setid && e.held s)

def State.setsFull (s : State) : Bool := 1024 ≤ s.die.queues.sets.countP (fun e => e.tracked s)

/-- The instance of a SETID known most recently. -/
def latestSet (setid : BitVec 32) (s : State) : Option SetEntry :=
  s.die.queues.sets.reverse.find? (fun e => e.setid == setid)

/-- The next number for a task, a set or a save block. -/
def nextSerial (s : State) : Nat := s.die.queues.serial + 1
def stepSerial (s : State) : State := s.modQueues (fun q => { q with serial := q.serial + 1 })

/-- A die of a mask. -/
def ownInMask (m : BitVec 64) (s : State) : Bool := (maskDies m s).contains s.die.coord

/-- An instance becomes known here; sets that waited for one of its name refer to it (R314). -/
def knowSet (e : SetEntry) (s : State) : State :=
  let e := { e with inst := nextSerial s, pred := if pktPredid e.packet = 0 then none
                                                 else (latestSet (pktPredid e.packet) s).map (·.inst) }
  (stepSerial s).modQueues (fun q =>
    { q with sets := q.sets.map (fun x =>
        if x.pred.isNone ∧ pktPredid x.packet = e.setid then { x with pred := some e.inst } else x) ++ [e] })

/-- The instance known last. -/
def lastInst (s : State) : Nat := s.die.queues.serial

def emptySet (p : BitVec 512) (dmask : BitVec 64) : SetEntry :=
  { inst := 0, order := .own, setid := pktSetid p, packet := p, dmask := dmask, here := false, pred := none, live := 0, cursor := none,
    succ := false, failed := false, doneAt := [], copy := 0, arrived := 0 }

/-- The mask a packet's plat gives; none of the dies where it cannot be read. -/
def pktMask (p : BitVec 512) (s : State) : BitVec 64 :=
  match platHeader p s with | .ok h => platDmask h | .error _ => 0

/-! ## Messages about sets (R315) -/

def setPacket (dst : Coord) (failed : Bool) (p : BitVec 512) (s : State) : Packet :=
  { dst := dst, src := s.die.coord, type := 49, cls := 2, dl := false, tag := 0, core := 0, ctx := 0, part := 0, scope := 4,
    asid := 0, offset := 0, len := 64, aux := if failed then 1 else 0, opa := 0, opb := 0, clk := [],
    payload := leBytes 64 p.toNat }

/-- A message to every other die of the domain. -/
def tellDomain (mk : Coord → State → Packet) (s : State) : State :=
  (otherDies s).foldl (fun s c => sendPacket (mk c s) s) s

/-- A notice that a set failed (R320). -/
def failNotice (setid : BitVec 32) (die : Coord) (reason : Nat) (s : State) : State :=
  enqueueNotice 10 0 { a0 := setid.setWidth 64, a1 := die.setWidth 64, a2 := BitVec.ofNat 64 reason,
                       a3 := s.die.coord.setWidth 64, a4 := 0 } none 0 s

/-! ## Failing sets (R311) -/

/-- The watch of `wvis` on a failed set ends with a boundary trap. -/
def failWatches (inst : Nat) (s : State) : State :=
  let succs := (s.die.queues.sets.filter (fun e => e.pred == some inst)).map (·.inst)
  let isSet := fun (w : Watch) => match w.kind with | .set _ => true | _ => false
  let hit := fun (c : Ctx) => (match c.flow.task with | some t => succs.contains t.inst | none => false) &&
    c.flow.watches.any isSet
  let drop := fun (c : Ctx) => c.modFlow (fun w => { w with watches := w.watches.filter (fun x => !isSet x) })
  let s := (allCtxs.filter (fun c => hit (ctxAt c s))).foldl (fun s c =>
    modCtxAt c drop (raiseBoundary c .predecessorFailed 0 0 none s)) s
  s.modQueues (fun q => { q with saved := q.saved.map (fun v =>
    if hit v.ctx then
      let cyc := (coreAt v.home.core s).cycle
      { v with ctx := (drop v.ctx).addDue (boundaryReq .predecessorFailed 0 0 none cyc v.ctx) }
    else v) })

/-- Tasks of an instance that are queued, parked or buffered leave. -/
def removeQueued (inst : Nat) (s : State) : State :=
  let mine := fun (t : TaskRef) => t.inst == inst && t.rebuild.isNone
  let n := s.die.queues.tasks.countP (fun t => mine t.ref && t.saved.isNone)
  let cores := (List.range 64).map (BitVec.ofNat 6)
  let m := cores.foldl (fun k c => k + (coreAt c s).prefetch.countP mine) 0
  let s := cores.foldl (fun s c =>
    if (coreAt c s).prefetch.any mine then modCoreAt c (fun k => { k with prefetch := k.prefetch.filter (fun t => !mine t) }) s
    else s) s
  let s := s.modQueues (fun q => { q with tasks := q.tasks.filter (fun t => !(mine t.ref && t.saved.isNone)) })
  modSet inst (fun e => { e with live := e.live - (n + m) }) s

/-- One instance fails here; the sets that name it as predecessor are given back. -/
def failOne (inst : Nat) (announce : Option (Nat × Coord)) (s : State) : State × List Nat :=
  match findSet inst s with
  | none => (s, [])
  | some e =>
    if e.failed then (s, [])
    else
      let s := modSet inst (fun e => { e with failed := true, cursor := none }) s
      let s := failWatches inst (removeQueued inst s)
      let s := match announce with
        | some (reason, die) => tellDomain (fun c s => setPacket c true e.packet s) (failNotice e.setid die reason s)
        | none => s
      (s, (s.die.queues.sets.filter (fun x => x.pred == some inst && x.here)).map (·.inst))

/-- Failing spreads to the successors, with reason 4. -/
def failSets : Nat → List (Nat × Option (Nat × Coord)) → State → State
  | 0, _, s => s
  | _, [], s => s
  | n + 1, (i, a) :: r, s =>
    let x := failOne i a s
    failSets n (r ++ x.2.map (fun j => (j, some (4, s.die.coord)))) x.1

/-- This die fails a set, for itself or for the die named. -/
def failSet (inst : Nat) (reason : Nat) (die : Coord) (s : State) : State :=
  failSets (2 * s.die.queues.sets.length + 2) [(inst, some (reason, die))] s

/-- A message of another die about the set created from a packet is counted. -/
def heardFrom (src : Coord) (inst : Nat) (s : State) : State :=
  modSet inst (fun e => { e with doneAt := if e.doneAt.contains src then e.doneAt else e.doneAt ++ [src] }) s

/-- The instance that a completion of a die speaks of: the first that has not failed and that the die has not
spoken of, or else, for a packet that names several, the first that fits in part (log entry 55). -/
def spokenOf (src : Coord) (p : BitVec 512) (s : State) : Option SetEntry :=
  let mine := s.die.queues.sets.filter (fun e => e.packet == p)
  match mine.find? (fun e => !e.failed && !e.doneAt.contains src) with
  | some e => some e
  | none => mine.find? (fun e => !e.doneAt.contains src)

/-- The instance that a failure mark of a die speaks of, never an older one than the latest that fits (R311): of those that have
not failed, the latest that the die has not spoken of, or else the latest that is not complete (log entry 55). -/
def failedOf (src : Coord) (p : BitVec 512) (s : State) : Option SetEntry :=
  let mine := (s.die.queues.sets.filter (fun e => e.packet == p && !e.failed)).reverse
  (mine.find? (fun e => !e.doneAt.contains src)).orElse (fun _ =>
    mine.head?.filter (fun e => !(maskDies e.dmask s).all (fun c => e.doneAt.contains c)))

/-- The mark of a failed set arrives: it fails the instance, which may be one that this die has not met yet. -/
def receiveFailure (src : Coord) (p : BitVec 512) (s : State) : State :=
  let x := match failedOf src p s with
    | some e => (e.inst, s)
    | none => let t := knowSet (emptySet p (pktMask p s)) s; (lastInst t, t)
  failSets (2 * x.2.die.queues.sets.length + 2) [(x.1, none)] (heardFrom src x.1 x.2)

def ownComplete (e : SetEntry) (s : State) : Bool :=
  e.here && !e.failed && e.cursor.isNone && e.live == 0 && !e.doneAt.contains s.die.coord &&
    !s.die.queues.publications.any (fun p => p.ref.inst == e.inst && p.ref.rebuild.isNone)

/-- This die sends its completion of the set. -/
def completeOwn (inst : Nat) (s : State) : State :=
  match findSet inst s with
  | none => s
  | some e =>
    if ownComplete e s then
      tellDomain (fun c s => setPacket c false e.packet s) (modSet inst (fun e => { e with doneAt := e.doneAt ++ [s.die.coord] }) s)
    else s

/-- The completion of a set on another die arrives. -/
def receiveCompletion (src : Coord) (p : BitVec 512) (s : State) : State :=
  match spokenOf src p s with
  | some e => heardFrom src e.inst s
  | none => knowSet { emptySet p (pktMask p s) with doneAt := [src] } s

/-- Every die of the set's mask has completed it. -/
def SetEntry.complete (e : SetEntry) (s : State) : Bool :=
  !e.failed && (maskDies e.dmask s).all (fun c => e.doneAt.contains c)

/-- What the watch of `wvis` waits for: the predecessor set of the task's own. -/
def predDone (inst : Nat) (s : State) : Bool :=
  match findSet inst s with
  | none => true
  | some e =>
    if pktPredid e.packet = 0 then true
    else match e.pred with
      | none => false
      | some i => match findSet i s with | some p => p.complete s | none => false

/-- `wvis` (spec/11_storage.md R178): only SCOPE is read from the record. -/
def slotWvis (f : LF) (s : State) : SlotRes :=
  needB f.b s fun r =>
  if !recordOk r false then .trapOf .operandValue
  else .ok (fun u => armWatch { kind := .set (recScope r), flag := f.f }
    (match u.cur.flow.task with | some t => t.notice || predDone t.inst u | none => true) u)

/-! ## Queueing and distribution (R310) -/

/-- Entries of a bank that are taken; a pre-empted task, which keeps its save block, takes none (log entry 56). -/
def bankCount (b : BitVec 4) (s : State) : Nat := s.die.queues.tasks.countP (fun t => t.bank == b && t.saved.isNone)
def bankFull (b : BitVec 4) (s : State) : Bool := 4096 ≤ bankCount b s

/-- Address, as a task sees it, of the die's copy of a packet (log entry 6). -/
def copyAddr (slot : Nat) : Nat := Config.packetVA + 64 * slot

/-- The die keeps its copy of a packet in reserved HBM. -/
def keepCopy (slot : Nat) (p : BitVec 512) (s : State) : State :=
  physPut (.hbm, Config.packetBase + 64 * slot) 64 p.toNat s

/-- The set of this die that made the version of an entry, found by its template's output term. -/
def makerOf (e : CadEntry) (s : State) : Option SetEntry :=
  s.die.queues.sets.find? (fun x => x.here && (match readTmpl x.packet s with
    | .ok tm => evalTerm tm.out (bits 752 16 e) (bits 736 16 e) (bits 720 16 e) == cadId e
    | .error _ => false))

/-- The entry came from another die: its PACKET names that die's copy. -/
def foreignEntry (e : CadEntry) (s : State) : Bool := cadMirror e || s.die.lineage.adopted.any (fun a => a.1 == cadId e)

/-- The copies that a task, a packet in distribution or a cadastre entry still names (R310). -/
def copiesUsed (s : State) : List Nat :=
  ((s.taskRefs ++ s.die.queues.publications.map (·.ref)).filter (fun t => !t.notice)).map (·.packetAddr) ++
    (s.die.queues.sets.filter (fun e => e.tracked s)).map (fun e => copyAddr e.copy) ++
    s.die.lineage.entries.filterMap (fun e =>
      if foreignEntry e s then (makerOf e s).map (fun x => copyAddr x.copy) else some (cadPacket e).toNat)

/-- The lowest slot whose copy nothing names. -/
def freeSlotFrom (used : List Nat) : Nat → Nat → Nat
  | 0, i => i
  | n + 1, i => if used.contains (copyAddr i) then freeSlotFrom used n (i + 1) else i

def freeCopy (s : State) : Nat := let u := copiesUsed s; freeSlotFrom u u.length 0

/-- A task enters its bank, behind the tasks of its priority. -/
def enqueueTask (t : TaskRef) (bank : BitVec 4) (pri : BitVec 3) (s : State) : State :=
  let q : QTask := { ref := t, bank := bank, pri := pri, since := s.pkg.clocks, parked := none, watching := false, saved := none }
  s.modQueues (fun x => { x with tasks := x.tasks ++ [q] })

/-- Task `i` of a grid, in visit order. -/
def gridAt (p : BitVec 512) (i : Nat) : BitVec 16 × BitVec 16 × BitVec 16 :=
  let gx := (pktGx p).toNat
  let gy := (pktGy p).toNat
  (BitVec.ofNat 16 (i % gx), BitVec.ofNat 16 (i / gx % gy), BitVec.ofNat 16 (i / gx / gy))

def gridSize (p : BitVec 512) : Nat := (pktGx p).toNat * (pktGy p).toNat * (pktGz p).toNat

/-- The task of a set at a coordinate. -/
def taskAt (e : SetEntry) (x y z : BitVec 16) (s : State) : TaskRef :=
  { serial := nextSerial s, inst := e.inst, packet := e.packet, packetAddr := copyAddr e.copy, x := x, y := y, z := z,
    notice := false, rebuild := none, pour := pktPour e.packet }

/-- A task of a set is enqueued here. -/
def enqueueAt (e : SetEntry) (x y z : BitVec 16) (s : State) : State :=
  enqueueTask (taskAt e x y z s) (pktBank e.packet) (pktPri e.packet)
    (modSet e.inst (fun e => { e with live := e.live + 1 }) (stepSerial s))

/-- The distribution of a packet is complete here. -/
def endDistribution (inst : Nat) (s : State) : State := completeOwn inst (modSet inst (fun e => { e with cursor := none }) s)

/-- One visit of the distribution; the flag tells that it goes on. -/
def visit (inst : Nat) (s : State) : State × Bool :=
  match findSet inst s with
  | none => (s, false)
  | some e =>
    match e.order, e.cursor with
    | _, none => (s, false)
    | .asked, some _ => (s, false)
    | .given [], some _ => (endDistribution inst s, false)
    | .given (c :: left), some _ =>
      if bankFull (pktBank e.packet) s then (s, false)
      else (enqueueAt e c.1 c.2.1 c.2.2 (modSet inst (fun e => { e with order := .given left }) s), true)
    | .own, some i =>
      if gridSize e.packet ≤ i then (endDistribution inst s, false)
      else if bankFull (pktBank e.packet) s then (s, false)
      else
        let c := gridAt e.packet i
        let ent := (platHeader e.packet s).bind (fun h =>
          (platEntry e.packet h c.1.toNat c.2.1.toNat c.2.2.toNat s).map (fun x => (h, x)))
        match ent with
        | .error _ => (failSet inst 5 s.die.coord s, false)
        | .ok (h, x) =>
          let s := modSet inst (fun e => { e with cursor := some (i + 1) }) s
          if !entryOk x (platDmask h) s then (s.modQueues (fun q => { q with badPlace := q.badPlace + 1 }), true)
          else if entHome x ≠ s.die.coord then (s, true)
          else
            (enqueueAt e c.1 c.2.1 c.2.2 s, true)

def visits : Nat → Nat → State → State
  | 0, _, s => s
  | n + 1, inst, s => let r := visit inst s; if r.2 then visits n inst r.1 else r.1

/-- A packet waits behind one that arrived earlier and still waits for the same bank. -/
def behind (e : SetEntry) (s : State) : Bool :=
  s.die.queues.sets.any (fun x => x.arrived < e.arrived && x.cursor.isSome && pktBank x.packet == pktBank e.packet)

/-- An upper bound of the visits that a distribution has still to make. -/
def SetEntry.toVisit (e : SetEntry) : Nat := match e.order with | .given l => l.length | _ => gridSize e.packet

/-- A packet's distribution goes on unless it waits behind another. -/
def distribute (e : SetEntry) (s : State) : State :=
  if behind e s then s else visits (e.toVisit + 1) e.inst s

/-- The distributions under way, in order of arrival. -/
def distributing (s : State) : List SetEntry :=
  (s.die.queues.sets.filter (fun e => e.cursor.isSome)).mergeSort (fun a b => a.arrived ≤ b.arrived)

/-- Every distribution goes on as far as its bank has room. -/
def distributeAll (s : State) : State := (distributing s).foldl (fun s e => distribute e s) s

/-- A distribution can go on. -/
def canDistribute (s : State) : Bool :=
  (distributing s).any (fun e => !behind e s && e.order != .asked &&
    ((match e.order, e.cursor with
      | .given l, _ => l.isEmpty
      | _, some i => decide (gridSize e.packet ≤ i)
      | _, none => false) || !bankFull (pktBank e.packet) s))

/-- A set that becomes known fails at once where its predecessor has failed. -/
def checkPred (inst : Nat) (s : State) : State :=
  match (findSet inst s).bind (·.pred) with
  | some i => if (findSet i s).any (·.failed) then failSet inst 4 s.die.coord s else s
  | none => s

/-- The instance of a packet that messages made known before the packet itself arrived (R314). -/
def awaited (p : BitVec 512) (s : State) : Option SetEntry := s.die.queues.sets.find? (fun e => e.packet == p && !e.here)

/-- A packet reaches this die: its set is known from now on, if it was not, and refers to the newest instance of its
predecessor. -/
def arriveSet (p : BitVec 512) (dmask : BitVec 64) (s : State) : State × Nat :=
  match awaited p s with
  | none => let t := knowSet (emptySet p dmask) s; (t, lastInst t)
  | some e =>
    let pred := if pktPredid p = 0 then none
      else ((s.die.queues.sets.filter (fun x => x.inst != e.inst)).reverse.find? (fun x => x.setid == pktPredid p)).map (·.inst)
    (modSet e.inst (fun e => { e with dmask := dmask, pred := pred }) s, e.inst)

/-- The host is asked for the coordinates that this die keeps of a packet, where it performs that duty (spec/26_host.md R396,
R397). -/
def askDist (inst : Nat) (p : BitVec 512) (s : State) : State :=
  if s.duty 0 && (findSet inst s).any (fun e => e.cursor.isSome) then
    let x := askHost 0 (.dist inst) (Config.assistBody 0 (leBytes 64 p.toNat ++ leBytes 2 s.die.coord.toNat)) s
    if x.2 then modSet inst (fun e => { e with order := .asked }) x.1 else x.1
  else s

/-- This die takes a packet (R310); one whose set has failed already is only marked as arrived. -/
def takePacket (p : BitVec 512) (dmask : BitVec 64) (s : State) : State :=
  let x := arriveSet p dmask s
  let slot := freeCopy x.1
  let at_ := nextSerial x.1
  let s := modSet x.2 (fun e => { e with here := true, cursor := if e.failed then none else some 0, copy := slot, arrived := at_ })
    (stepSerial x.1)
  distributeAll (askDist x.2 p (checkPred x.2 (keepCopy slot p s)))

/-- A packet that arrives after its launch or submission committed (R311). -/
def receivePacket (p : BitVec 512) (s : State) : State :=
  let fail := fun (reason : Nat) =>
    let x := arriveSet p (pktMask p s) s
    distributeAll (failSet x.2 reason s.die.coord (modSet x.2 (fun e => { e with here := true }) x.1))
  if (awaited p s).any (·.failed) then takePacket p (pktMask p s) s
  else if heldSet (pktSetid p) s then fail 1
  else if s.setsFull then fail 2
  else
    match platHeader p s with
    | .error _ => fail 5
    | .ok h => if ownInMask (platDmask h) s then takePacket p (platDmask h) s else s

def launchPacketTo (p : BitVec 512) (dst : Coord) (s : State) : Packet :=
  { setPacket dst false p s with type := 48, aux := 0 }

/-- The checks of R304 on what a packet names: a trap's cause with the address of FADDR, or the plat header. -/
def launchCheck (p : BitVec 512) (spawn : Bool) (s : State) : Except (Cause × Word) (BitVec 512) := do
  if !packetOk p spawn then throw (.operandValue, 0)
  let tb ← queueRead (pktAsid p) (pktTmpl p).toNat 64 s
  if (tmplHeader tb).isNone then throw (.operandValue, 0)
  let h ← platHeader p s
  let covered := if spawn then platCovers h ((pktGx p).toNat + 1) ((pktGy p).toNat + 1) ((pktGz p).toNat + 1)
                 else platCovers h (pktGx p).toNat (pktGy p).toNat (pktGz p).toNat
  if !platOk h s || !covered then throw (.operandValue, 0)
  pure h

/-- The packet or descriptor that `launch` and `spawn` read, under the task's own translation (spec/07_scalar_control.md
R103). -/
def needPacket (key : Nat) (r : GP) (s : State) (k : BitVec 512 → SlotRes) : SlotRes :=
  cleanG key r.reg s fun a =>
  if bits 0 6 a != 0 then .trapOf .misalignedOperand
  else
    match readVirtual s.cur.sys.asid s.user a.toNat 64 s with
    | .fail x va => xlateTrap x va
    | .poisoned => .trap .uncorrectable 0 a
    | .ok bs => k (BitVec.ofNat 512 (leNat bs))

/-- `launch`: a rebuild's has no effect (R334). -/
def slotLaunch (r : GP) (s : State) : SlotRes :=
  if s.isRebuild then .nothing
  else
    needPacket keyC r s fun p =>
    match launchCheck p false s with
    | .error c => .trap c.1 0 c.2
    | .ok h =>
      let mine := ownInMask (platDmask h) s
      if mine && heldSet (pktSetid p) s then .trapOf .operandValue
      else if (mine && s.setsFull) || bankFull (pktBank p) s then .trapOf .queueFull
      else .ok (fun u =>
        let u := if mine then takePacket p (platDmask h) u else u
        ((maskDies (platDmask h) u).filter (fun c => c != u.die.coord)).foldl (fun u c => sendPacket (launchPacketTo p c u) u) u)

/-- Domain index mask of this die alone. -/
def ownMask (s : State) : BitVec 64 :=
  match domainIndex s.die.coord s with | some i => BitVec.ofNat 64 (2 ^ i) | none => 0

/-- `spawn` (R305). -/
def slotSpawn (r : GP) (s : State) : SlotRes :=
  if s.isRebuild then .nothing
  else
    needPacket keyC r s fun p =>
    let place := (launchCheck p true s).bind (fun h =>
      (platEntry p h (pktGx p).toNat (pktGy p).toNat (pktGz p).toNat s).map (fun e => (h, e)))
    match place with
    | .error c => .trap c.1 0 c.2
    | .ok (h, e) =>
      if !entryOk e (platDmask h) s || entHome e ≠ s.die.coord then .trapOf .operandValue
      else if bankFull (pktBank p) s then .trapOf .queueFull
      else
        let known := trackedSet (pktSetid p) s
        if known.isNone && s.setsFull then .trapOf .queueFull
        else .ok (fun u =>
          let slot := freeCopy u
          let u := match known with
            | some _ => u
            | none => knowSet { emptySet p (ownMask u) with here := true, copy := slot } u
          let i := match known with | some e => e.inst | none => lastInst u
          let u := modSet i (fun e => { e with live := e.live + 1 }) (stepSerial u)
          let n := lastInst u
          let t : TaskRef := { serial := n, inst := i, packet := p, packetAddr := copyAddr slot, x := pktGx p, y := pktGy p,
                               z := pktGz p, notice := false, rebuild := none, pour := pktPour p }
          checkPred i (enqueueTask t (pktBank p) (pktPri p) (keepCopy slot p u)))

/-- `succ` (R102): the second of a task has no effect, nor has a rebuild's. -/
def slotSucc (s : State) : SlotRes :=
  if s.isRebuild then .nothing
  else .ok (fun u =>
    if u.cur.flow.succDone then u
    else
      let u := u.modFlow (fun w => { w with succDone := true })
      match u.cur.flow.task with
      | some t => if t.notice then u else modSet t.inst (fun e => { e with succ := true }) u
      | none => u)

/-! ## Eligibility and waits (R314, R316, R332) -/

/-- A set's tasks are eligible on this die.  While no instance of its predecessor is known here, whether the die lies outside
that set's DMASK is not known here either, and is a free value (log entry 52). -/
def setEligible (e : SetEntry) (s : State) : Bool :=
  if pktPredid e.packet = 0 then true
  else
    match e.pred.bind (fun i => findSet i s) with
    | none => Config.outsideMask e.inst
    | some p =>
      if p.here then
        (p.cursor.isNone && p.live == 0) ||
          (p.succ && pktSuccpol p.packet == 1 && (pktSuccid p.packet == 0 || pktSuccid p.packet == e.setid))
      else !ownInMask p.dmask s

/-- Input versions of a task that has been selected. -/
def inputsOf (t : TaskRef) : List VersionId :=
  match t.sel with
  | some x => x.tmpl.ins.map (fun v => evalTerm v t.x t.y t.z)
  | none => []

def Queues.lost (q : Queues) (v : VersionId) : Bool := q.unavailable.any (fun x => x.1 == v)

/-- A task is held while an input version is unavailable (R332). -/
def inputHeld (t : TaskRef) (s : State) : Bool := (inputsOf t).any s.die.queues.lost

/-- The state of a task's wait terms. -/
inductive WaitState where
  | ready
  | below
  | park (va : Word)
  deriving DecidableEq, Repr

/-- The state of one wait term (R316). -/
def waitOne (t : TaskRef) (s : State) (v : BitVec 256) : WaitState :=
  let va := waitVa v t.x t.y t.z
  if va.toNat % 8 ≠ 0 then .ready
  else
    match translate (pktAsid t.packet) true .read none va.toNat s with
    | .ok k pa => if k = .hbm ∧ physNum (k, pa) 8 s < waitThresh v then .below else .ready
    | .translation => .park va
    | _ => .ready

/-- The wait terms of a task; one that is to retire before its first bundle waits for nothing. -/
def waitState (t : TaskRef) (s : State) : WaitState :=
  let x := selOf t s
  if t.rebuild.isSome || t.notice || x.fault.isSome then .ready
  else
    match x.tmpl.waits.map (waitOne t s) with
    | [] => .ready
    | [a] => a
    | a :: b :: _ =>
      match a, b with
      | .park x, _ => .park x
      | _, .park x => .park x
      | .below, _ => .below
      | _, x => x

/-- A queued task that dispatch may take next.  A pre-empted one resumes on the core it left (R144), and needs there the very
context that it left (log entry 51). -/
def dispatchable (t : QTask) (s : State) : Bool :=
  t.parked.isNone && !t.watching &&
    (match t.saved with
     | some i => (match s.die.queues.saved.find? (fun v => v.index == i) with
        | some v => (ctxAt v.home s).flow.residency == .free
        | none => false)
     | none => (t.ref.rebuild.isSome || (match findSet t.ref.inst s with | some e => setEligible e s | none => false)) &&
        !inputHeld t.ref s)

/-- The banks in turn, after the one that gave the task before. -/
def bankOrder (s : State) : List (BitVec 4) :=
  (List.range 16).map (fun i => s.die.queues.lastBank + 1 + BitVec.ofNat 4 i)

/-- The task that R312 dispatches next. -/
def nextTask (s : State) : Option QTask :=
  let able := s.die.queues.tasks.filter (fun t => dispatchable t s)
  (List.range 8).reverse.findSome? (fun p =>
    (bankOrder s).findSome? (fun b => able.find? (fun t => t.pri.toNat == p && t.bank == b)))

/-! ## Cores (R312) -/

def freeCtx (c : BitVec 6) (s : State) : Option CtxId :=
  ((List.range 4).map (fun i => ({ core := c, ctx := BitVec.ofNat 2 i } : CtxId))).find? (fun x =>
    (ctxAt x s).flow.residency == .free)

/-- The cores in turn, after the one that received the task before. -/
def coreOrder (s : State) : List (BitVec 6) :=
  (List.range 64).map (fun i => s.die.queues.lastCore + 1 + BitVec.ofNat 6 i)

def chooseCore (s : State) : Option (BitVec 6) :=
  match (coreOrder s).find? (fun c => (coreAt c s).prefetch.isEmpty && (freeCtx c s).isSome) with
  | some c => some c
  | none => (coreOrder s).find? (fun c => (coreAt c s).prefetch.length < 2)

/-- The cluster a pour takes: the lowest with a free context on each core. -/
def pourCluster (s : State) : Option (List CtxId) :=
  (List.range 8).findSome? (fun k =>
    ((List.range 8).map (fun r => freeCtx (BitVec.ofNat 3 k ++ BitVec.ofNat 3 r) s)).foldr (fun o acc =>
      match o, acc with | some c, some l => some (c :: l) | _, _ => none) (some []))

/-! ## Start of a task (R317) -/

/-- Peers that the plat gives. -/
def startPeers (t : TaskRef) (s : State) : Vector Coord 8 :=
  match if t.notice then .error (.operandValue, 0) else platHeader t.packet s with
  | .ok h => Vector.ofFn (fun (i : Fin 8) => if i.val = 0 then s.die.coord else platPeer h i.val)
  | .error _ => Vector.ofFn (fun (i : Fin 8) => if i.val = 0 then s.die.coord else 0)

/-- The context as a task finds it. -/
def startCtx (t : TaskRef) (s : State) : Ctx :=
  let c := s.cur
  { Ctx.reset with
    g := ((((Vector.replicate 32 (0 : Word)).set 1 (t.x.setWidth 64)).set 2 (t.y.setWidth 64)).set 3 (t.z.setWidth 64)).set 4
      (BitVec.ofNat 64 t.packetAddr)
    n := startPeers t s
    arr := { c.arr with fprog := 0, mlprog := 0 }
    sys := { SysCtx.reset with
      wdlim := s.die.defwdlim, wdSince := s.core.cycle, mode := if t.notice then .supervisor else .user,
      asid := if t.notice then 0 else pktAsid t.packet }
    flow := { FlowCtx.reset with
      pc := s.taskCode t, lastPc := s.taskCode t, residency := .running, slots := c.flow.slots, task := some t,
      pourStart := s.core.cycle } }

/-- A task starts on the context in focus: what held regions overlap its allotment is written out first; a malformed
template or place retires it at once (R307). -/
def startHere (t : TaskRef) (s : State) : State :=
  let s := (allotment t).foldl (fun s k => clearRegion k s) s
  let s := if s.coreRuns then s else s.modCore (fun k => { k with now := s.pkg.clocks })
  let s := s.modCtx (fun _ => startCtx t s)
  match startFault t s with
  | none => s
  | some c =>
    let r : TrapReq := { cause := c, aux := 0, faddr := 0, slot := 0, pc := s.taskCode t, logged := [], ret := none,
                         cycle := s.core.cycle }
    retireFaulted r (writeRecord r s)

def startTask (c : CtxId) (t : TaskRef) (s : State) : State := withFocus c (startHere t) s

/-- A start on a core waits while a held range that its allotment meets cannot be written out yet (R143). -/
def startBusy (core : BitVec 6) (t : TaskRef) (s : State) : Bool := (allotment t).any (fun k => regionBusyAt core k s)

/-- A core starts the oldest task of its buffer on its lowest free context. -/
def startBuffered (c : BitVec 6) (s : State) : State :=
  match (coreAt c s).prefetch, freeCtx c s with
  | t :: _, some x => if startBusy c t s then s else startTask x t (modCoreAt c (fun k => { k with prefetch := k.prefetch.tail }) s)
  | _, _ => s

/-- A task leaves the queue unit, and its bank has room again. -/
def leaveQueue (t : QTask) (s : State) : State :=
  distributeAll (s.modQueues (fun q =>
    { q with tasks := q.tasks.filter (fun x => !(x.ref.serial == t.ref.serial && x.saved == t.saved)), lastBank := t.bank }))

/-- The pour of a task begins on the cluster of its contexts (spec/01_machine.md R14). -/
def openPour (t : TaskRef) (cs : List CtxId) (s : State) : State :=
  match cs with
  | [] => s
  | c :: _ => modClusterAt (clusterOf c.core) (fun k => { k with pours :=
      k.pours ++ [{ serial := t.serial, skew := k.pourskew, stream := [], stop := none, causes := [] }] }) s

/-- A pour starts on each core of its cluster; one with a faulty template or place retires on the first of them. -/
def startPour (t : TaskRef) (cs : List CtxId) (s : State) : State :=
  if (startFault t s).isSome then (cs.take 1).foldl (fun s c => startTask c t s) s
  else cs.foldl (fun s c => startTask c t s) (openPour t cs s)

/-- A task goes to a core, or a pour to a cluster, or a pre-empted task back to its context; none where it must wait. -/
def placeTask (t : QTask) (s : State) : Option State :=
  match t.saved with
  | some i =>
    match s.die.queues.saved.find? (fun v => v.index == i) with
    | some v =>
      if v.store.any (fun d => regionBusyAt v.home.core d.kind s) then none
      else some (leaveQueue t (withFocus v.home (restoreSaved v) s))
    | none => none
  | none =>
    if t.ref.pour then
      (pourCluster s).bind (fun cs =>
        if cs.any (fun c => startBusy c.core t.ref s) then none else some (leaveQueue t (startPour t.ref cs s)))
    else
      (chooseCore s).map (fun c => leaveQueue t (startBuffered c ((modCoreAt c (fun k =>
        { k with prefetch := k.prefetch ++ [t.ref] }) s).modQueues (fun q => { q with lastCore := c }))))

/-- A notice becomes a supervisor task (R319). -/
def noticeRef (n : BitVec 512) (s : State) : TaskRef :=
  { serial := nextSerial s, inst := 0, packet := n,
    packetAddr := Config.noticeVA + 64 * ((bits 80 16 n : BitVec 16).toNat % 4096), x := 0, y := 0, z := 0, notice := true,
    rebuild := none, pour := false }

def placeNotice (n : BitVec 512) (s : State) : Option State :=
  (chooseCore s).map (fun c =>
    let t := noticeRef n s
    let s := physPut (.hbm, Config.noticeBase + 64 * ((bits 80 16 n : BitVec 16).toNat % 4096)) 64 n.toNat (stepSerial s)
    let s := s.modQueues (fun q => { q with notices := q.notices.erase n, lastCore := c })
    startBuffered c (modCoreAt c (fun k => { k with prefetch := k.prefetch ++ [t] }) s))

def markTask (serial : Nat) (f : QTask → QTask) (s : State) : State :=
  s.modQueues (fun q => { q with tasks := q.tasks.map (fun t => if t.ref.serial = serial then f t else t) })

/-- A page of a signal word that is not resident parks the task, with a wait-fault notice (R316). -/
def parkTask (t : QTask) (va : Word) (s : State) : State :=
  enqueueNotice 8 0 { a0 := va, a1 := (pktAsid t.ref.packet).setWidth 64, a2 := 0, a3 := 0, a4 := 0 } (some t.ref) 0
    (markTask t.ref.serial (fun t => { t with parked := some va }) s)

/-- A task that is selected for the first time: its template and output record are read (R307). -/
def selectAt (t : QTask) (s : State) : State :=
  markTask t.ref.serial (fun x => if x.saved.isNone then { x with ref := { x.ref with sel := some (selectTask x.ref s) } } else x) s

/-- Dispatch takes one task: it selects those that it meets for the first time, and tests the waits of those it passes; none
where nothing changes. -/
def dispatchGo : Nat → Bool → State → Option State
  | 0, changed, s => if changed then some s else none
  | n + 1, changed, s =>
    let stay := if changed then some s else none
    match nextTask s with
    | none => stay
    | some t =>
      if t.saved.isNone && t.ref.sel.isNone then dispatchGo n true (selectAt t s)
      else
        match (if t.saved.isSome then WaitState.ready else waitState t.ref s) with
        | .ready => (match placeTask t s with | some s' => some s' | none => stay)
        | .below => dispatchGo n true (markTask t.ref.serial (fun t => { t with watching := true }) s)
        | .park va => dispatchGo n true (parkTask t va s)

/-- Dispatch has stopped: STATE 3 or 4, or the die is being reset (spec/26_host.md R389, R399; spec/28_package.md R406). -/
def State.dispatchStopped (s : State) : Bool :=
  let st : BitVec 3 := bits 0 3 s.pkg.regs.fwstate
  s.die.resetting || st == 3 || st == 4

/-- A buffered task that its core can start. -/
def startable (c : BitVec 6) (s : State) : Bool :=
  (freeCtx c s).isSome && (match (coreAt c s).prefetch with | t :: _ => !startBusy c t s | [] => false)

/-- One dispatch (R312): a buffered task that can start, then a notice for whose KIND firmware has written a code address
(log entry 25), then the next task. -/
def dispatchOne (s : State) : Option State :=
  if s.dispatchStopped then none else
  match ((List.range 64).map (BitVec.ofNat 6)).find? (fun c => startable c s) with
  | some c => some (startBuffered c s)
  | none =>
    match s.die.queues.notices.find? (fun n => (s.noticeCode n).isSome) with
    | some n => placeNotice n s
    | none => dispatchGo (2 * s.die.queues.tasks.length + 1) false s

/-! ## Aging, waits and unparking (R313, R316, R320) -/

/-- Cycles that a task has waited at its priority. -/
def waited (t : QTask) (s : State) : Nat := s.pkg.clocks - t.since

def agesNow (t : QTask) (s : State) : Bool :=
  s.die.queues.agelim != 0 && t.pri < 7 && s.die.queues.agelim.toNat ≤ waited t s

/-- A task moves to the next priority, behind the tasks there. -/
def ageTask (serial : Nat) (s : State) : State :=
  match s.die.queues.tasks.findIdx? (fun t => t.ref.serial == serial && agesNow t s) with
  | none => s
  | some i =>
    s.modQueues (fun q =>
      match q.tasks[i]? with
      | some t => { q with tasks := q.tasks.eraseIdx i ++ [{ t with pri := t.pri + 1, since := s.pkg.clocks }] }
      | none => q)

/-- A watched task whose words all qualify is dispatchable again. -/
def qualifyTask (serial : Nat) (s : State) : State :=
  match s.die.queues.tasks.find? (fun t => t.ref.serial == serial) with
  | none => s
  | some t =>
    if t.watching && waitState t.ref s != .below then markTask serial (fun t => { t with watching := false }) s else s

/-- A store to the unpark word: a page-mapped notice; the tasks it names go to the head of their priority, and adopted
versions whose output place the page holds are mapped anew (R316, R320, R330). -/
def unpark (v : Word) (s : State) : State :=
  let page := v &&& 0x00FFFFFFFFFF0000
  let asid : BitVec 16 := v.setWidth 16
  let s := enqueueNotice 3 0 { a0 := page, a1 := asid.setWidth 64, a2 := 0, a3 := 0, a4 := 0 } none 0 s
  let hit := fun (t : QTask) => pktAsid t.ref.packet == asid &&
    (match t.parked with | some va => va &&& ~~~(0xFFFF : Word) == page | none => false)
  let back := s.die.queues.tasks.filter hit
  let s := s.modQueues (fun q => { q with tasks := back.map (fun t => { t with parked := none }) ++ q.tasks.filter (fun t => !hit t) })
  s.modLineage (fun l => { l with adopted := l.adopted.map (fun a =>
    if back.any (fun t => t.ref.rebuild == some a.1) then (a.1, true) else a) })

/-- A store to the interrupt word raises a vector of the host (spec/26_host.md R384): 16 to 2,047. -/
def interruptHost (v : Word) (s : State) : State := if 16 ≤ v.toNat ∧ v.toNat ≤ 2047 then raiseVector v.toNat s else s

end Sys2Proof.Machine
end

