-- ==== Sys2Proof/Machine/Lineage.lean ====
section
/-! DEFINITION. The cadastre: publication, replication, loss, needs, rebuilds and the depth bound (spec/21_tasks.md R318,
R327 to R337, R411). -/
namespace Sys2Proof.Machine

/-- The entry of a version homed here. -/
def findCad (v : VersionId) (s : State) : Option CadEntry :=
  s.die.lineage.entries.find? (fun e => cadId e == v && !cadMirror e)

/-- A message of one die's firmware to another (spec/23_fabric.md R342). -/
def mgmtPacket (ty : BitVec 6) (dst : Coord) (opa opb : Word) (payload : List Byte) (s : State) : Packet :=
  { dst := dst, src := s.die.coord, type := ty, cls := 2, dl := false, tag := 0, core := 0, ctx := 0, part := 0, scope := 4,
    asid := 0, offset := 0, len := payload.length, aux := 0, opa := opa, opb := opb, clk := [], payload := payload }

/-- The mirror of an entry on REP1 is updated (R330). -/
def sendMirror (e : CadEntry) (s : State) : State :=
  if cadRep1 e = 0 ∨ cadRep1 e = s.die.coord then s
  else sendPacket (mgmtPacket 52 (cadRep1 e) 0 0 (leBytes 128 (putBits 896 1 1 e).toNat) s) s

/-- An entry homed here changes; its place in the order of publication stays. -/
def changeCad (v : VersionId) (f : CadEntry → CadEntry) (s : State) : State :=
  match findCad v s with
  | none => s
  | some e =>
    sendMirror (f e) (s.modLineage (fun l =>
      { l with entries := l.entries.map (fun x => if cadId x = v ∧ !cadMirror x then f x else x) }))

/-! ## Control word (R329) -/

def dmaxOf (c : BitVec 64) : Nat := (bits 0 8 c : BitVec 8).toNat
def costOf (c : BitVec 64) : Nat := (bits 16 16 c : BitVec 16).toNat

/-- A saturating counter in the control word. -/
def countControl (lo : Nat) (s : State) : State :=
  s.modLineage (fun l =>
    let n := (bits lo 16 l.control : BitVec 16).toNat
    { l with control := putBits lo 16 (min (n + 1) 65535) l.control })

def countUnrec (s : State) : State := countControl 32 s
def countNoent (s : State) : State := countControl 48 s

/-! ## Room (R327, R328) -/

def cadFree (s : State) : Bool := s.die.lineage.entries.length < 983040
def cadReserve (s : State) : Bool := s.die.lineage.entries.length < 1048576

/-- An entry names a version as operand and still needs it. -/
def namedBy (v : VersionId) (e : CadEntry) : Bool :=
  (cadState e == 1 || cadState e == 2 || cadState e == 3) && (cadOps e).contains v

/-- The dies that hold an intact copy of a version. -/
def intactReps (e : CadEntry) (s : State) : List Coord :=
  if cadState e = 4 then [cadRep1 e, cadRep2 e].filter (fun c => c != 0)
  else match s.die.lineage.replicas.find? (fun r => r.version == cadId e) with | some r => r.acks | none => []

/-- A restore of a version is under way: it is replicated and unavailable, or lost with an intact replica. -/
def restoring (e : CadEntry) (s : State) : Bool :=
  !(intactReps e s).isEmpty && (cadState e == 2 || (cadState e == 4 && s.die.queues.lost (cadId e)))

/-- Entries that may be freed leave: a newer version of the identity is published, no entry needs it as an operand, and it
is not under recovery, being rebuilt or restored (R328). -/
def freeEntries (s : State) : State :=
  let all := s.die.lineage.entries
  let keep := fun (i : Nat) (e : CadEntry) =>
    cadMirror e || cadState e == 3 || restoring e s ||
      !((all.drop (i + 1)).any (fun x => !cadMirror x && (cadId x).ident == (cadId e).ident)) || all.any (namedBy (cadId e))
  let gone := (all.mapIdx (fun i e => (keep i e, e))).filter (fun x => !x.1)
  let s := s.modLineage (fun l => { l with entries := (all.mapIdx (fun i e => (keep i e, e))).filterMap (fun x =>
    if x.1 then some x.2 else none) })
  gone.foldl (fun s x => sendMirror (setState 0 x.2) s) s

/-! ## Places -/

/-- The set of a packet copy of this die: the one whose copy it is, or, for a spawned task that joined a set, the latest with the
SETID of its descriptor (R334). -/
def setOfCopy (p : BitVec 512) (addr : Nat) (s : State) : Nat :=
  let here := s.die.queues.sets.reverse.filter (fun x => x.here)
  match (here.find? (fun x => copyAddr x.copy == addr && x.packet == p)).orElse (fun _ => here.find? (fun x => x.setid == pktSetid p)) with
  | some x => x.inst
  | none => 0

/-- The producer of an entry: its packet copy and coordinate (R327).  The PACKET of an adopted entry names a copy of the lost
die; the adopting die takes its own copy of the set that made the version (log entry 58). -/
def producer (e : CadEntry) (s : State) : TaskRef :=
  let src := if foreignEntry e s then
      match makerOf e s with | some x => (x.packet, copyAddr x.copy, x.inst) | none => (0, Config.packetVA, 0)
    else
      let at_ := (cadPacket e).toNat
      let p := BitVec.ofNat 512 (physNum (.hbm, Config.packetBase + (at_ - Config.packetVA)) 64 s)
      (p, at_, setOfCopy p at_ s)
  { serial := 0, inst := src.2.2, packet := src.1, packetAddr := src.2.1, x := bits 752 16 e, y := bits 736 16 e,
    z := bits 720 16 e, notice := false, rebuild := some (cadId e), pour := pktPour src.1 }

/-- The memory bytes of a version's place. -/
def entryPlace (e : CadEntry) (s : State) : List PByte := placeOf (producer e s) s

/-- CRC-64 of the bytes of a place (R318). -/
def digestOf (cs : List PByte) (s : State) : BitVec 64 := crc64 (cs.map (fun c => physRead c.1 c.2 s))

/-! ## Notices and broadcasts (R331) -/

def versionNotice (kind : BitVec 8) (v : VersionId) (s : State) : State :=
  enqueueNotice kind 0 { a0 := packVersion v, a1 := 0, a2 := 0, a3 := 0, a4 := 0 } none 0 s

/-- The table of unavailable versions follows a change; a need that was sent for the version stands only towards the same
home. -/
def Queues.setLost (v : VersionId) (lost : Bool) (home : Coord) (q : Queues) : Queues :=
  let rest := q.unavailable.filter (fun x => x.1 != v)
  { q with unavailable := if lost then rest ++ [(v, home)] else rest,
           asked := if lost && q.unavailable.contains (v, home) then q.asked else q.asked.filter (fun x => x.1 != v) }

/-- A change of availability enters the own table and goes to every die of the domain. -/
def announce (v : VersionId) (lost : Bool) (s : State) : State :=
  let s := s.modQueues (Queues.setLost v lost s.die.coord)
  (otherDies s).foldl (fun s c => sendPacket (mgmtPacket 50 c (packVersion v) (if lost then 0 else 1) [] s) s) s

/-- `LOSSCOUNT` rises by 1, and saturates (spec/07_scalar_control.md R114). -/
def countLoss (s : State) : State :=
  s.modLineage (fun l => { l with losscount := if l.losscount = BitVec.allOnes 32 then l.losscount else l.losscount + 1 })

/-! ## Publication (R318, R328) -/

/-- Depth of an operand: 0 where it is replicated or trimmed, or has no entry.  The entry stands here, or a mirror of it does; one
that another die alone holds is none to this die (log entry 54). -/
def opDepth (v : VersionId) (s : State) : Nat :=
  match (findCad v s).orElse (fun _ => s.die.lineage.entries.find? (fun e => cadId e == v)) with
  | some e => if cadState e = 4 ∨ cadState e = 5 then 0 else cadDepth e
  | none => 0

/-- The entry of a version as its template, packet and plat give it. -/
def entryFor (t : TaskRef) (tm : Tmpl) (state : Nat) (digest : BitVec 64) (nodig : Bool) (s : State) : CadEntry :=
  let ops := tm.ins.map (fun v => evalTerm v t.x t.y t.z)
  let out := evalTerm tm.out t.x t.y t.z
  let depth := min 127 (1 + (ops.map (fun v => opDepth v s)).foldl max 0)
  let ent := match (platHeader t.packet s).bind (fun h => platEntry t.packet h t.x.toNat t.y.toNat t.z.toNat s) with
    | .ok e => e | .error _ => 0
  let e : CadEntry := (out.ident ++ out.ver ++ s.die.coord ++ entRep1 ent ++ entRep2 ent).setWidth 1024 <<< 912
  let e := putBits 905 7 depth (putBits 902 3 state (putBits 899 3 ops.length e))
  let e := putBits 832 64 digest.toNat (putBits 768 64 t.packetAddr e)
  let e := putBits 752 16 t.x.toNat (putBits 736 16 t.y.toNat (putBits 720 16 t.z.toNat e))
  let e := putBits 717 3 (pktPri t.packet).toNat (putBits 716 1 (if nodig then 1 else 0) e)
  (ops.mapIdx (fun k v => (k, v))).foldl (fun e x => putBits (64 * x.1 + 320) 64 (packVersion x.2).toNat e) e

/-- An entry enters the cadastre, in place of one of the same version; none where even the reserve is full. -/
def addCad (e : CadEntry) (fromReserve : Bool) (s : State) : Option State :=
  let s := s.modLineage (fun l => { l with entries := l.entries.filter (fun x => !(cadId x == cadId e && !cadMirror x)) })
  if cadFree s || (fromReserve && cadReserve s) then
    some (sendMirror e (s.modLineage (fun l => { l with entries := l.entries ++ [e] })))
  else none

/-- A version is to be replicated: the copies are under way until both dies acknowledge (R328). -/
def beginReplica (v : VersionId) (s : State) : State :=
  s.modLineage (fun l => { l with replicas := l.replicas.filter (fun r => r.version != v) ++ [{ version := v, acks := [] }] })

/-- The output version of a task that retired done is published. -/
def publishDone (t : TaskRef) (s : State) : State :=
  let x := selOf t s
  if x.fault.isSome then s
  else
    let digest := digestOf (placeOf t s) s
    let s := freeEntries s
    let e := entryFor t x.tmpl 1 digest false s
    let s := s.modLineage (fun l => { l with published := l.published + 1 })
    if dmaxOf s.die.lineage.control < cadDepth e || !cadFree s then
      match addCad e true s with
      | some s => freeEntries (beginReplica (cadId e) s)
      | none => countNoent s
    else
      match addCad e false s with
      | some s => freeEntries s
      | none => s

/-- The replica dies of a version: those its entry names, and for one whose copy is lost that of the plat. -/
def repDies (e : CadEntry) (s : State) : Coord × Coord :=
  let t := producer e s
  let ent := match (platHeader t.packet s).bind (fun h => platEntry t.packet h t.x.toNat t.y.toNat t.z.toNat s) with
    | .ok e => e | .error _ => 0
  (if cadRep1 e != 0 then cadRep1 e else entRep1 ent, if cadRep2 e != 0 then cadRep2 e else entRep2 ent)

/-- A replica die acknowledges its copy; with both, the version is replicated and its lineage trimmed. -/
def ackReplica (v : VersionId) (die : Coord) (s : State) : State :=
  match s.die.lineage.replicas.find? (fun r => r.version == v), findCad v s with
  | some r, some e =>
    let d := repDies e s
    if die ≠ d.1 ∧ die ≠ d.2 then s
    else
      let acks := if r.acks.contains die then r.acks else r.acks ++ [die]
      let s := s.modLineage (fun l => { l with replicas := l.replicas.map (fun x => if x.version = v then { x with acks := acks } else x) })
      let name := fun (e : CadEntry) => if die = d.1 then putBits 928 16 die.toNat e else putBits 912 16 die.toNat e
      let whole := acks.contains d.1 && acks.contains d.2 && (cadState e == 1 || cadState e == 5)
      let s := changeCad v (fun e => if whole then setState 4 (putBits 899 3 0 (name e)) else name e) s
      if whole then freeEntries (s.modLineage (fun l => { l with replicas := l.replicas.filter (fun x => x.version != v) })) else s
  | _, _ => s

/-- The REP field of a die whose copy is destroyed is 0 (R327, R331). -/
def clearRep (c : Coord) (e : CadEntry) : CadEntry :=
  let e := if cadRep1 e = c then putBits 928 16 0 e else e
  if cadRep2 e = c then putBits 912 16 0 e else e

/-- The copy of a version on a die is no longer counted. -/
def dropReplica (v : VersionId) (c : Coord) (s : State) : State :=
  let s := s.modLineage (fun l => { l with replicas := l.replicas.map (fun r =>
    if r.version = v then { r with acks := r.acks.filter (fun d => d != c) } else r) })
  changeCad v (clearRep c) s

/-! ## Unrecoverable versions (R335) -/

def poisonPlace (cs : List PByte) (s : State) : State := cs.foldl (fun s c => markPoison c.1 c.2 1 s) s

def declareLost (v : VersionId) (s : State) : State :=
  match findCad v s with
  | none => s
  | some e =>
    let cs := entryPlace e s
    let s := versionNotice 9 v (countUnrec (changeCad v (setState 6) s))
    announce v false (poisonPlace cs s)

/-! ## Needs and rebuilds (R332 to R334) -/

/-- A rebuild of a version is queued, buffered, on a context, or retiring. -/
def rebuildActive (v : VersionId) (s : State) : Bool :=
  let is := fun (t : TaskRef) => t.rebuild == some v
  s.die.queues.tasks.any (fun t => is t.ref) || s.die.queues.publications.any (fun p => is p.ref) ||
    ((List.range 64).map (BitVec.ofNat 6)).any (fun c => (coreAt c s).prefetch.any is) ||
    allCtxs.any (fun c => (ctxAt c s).flow.residency != .free && (ctxAt c s).flow.task.any is)

/-- An operand is lost or being rebuilt; one without an entry here counts as intact unless its loss has been told. -/
def opBad (s : State) (v : VersionId) : Bool :=
  (match findCad v s with | some o => cadState o == 2 || cadState o == 3 | none => false) || s.die.queues.lost v

/-- No operand is lost or being rebuilt. -/
def opsIntact (e : CadEntry) (s : State) : Bool := !(cadOps e).any (opBad s)

/-- Where a rebuild of an adopted entry is parked: at the page of its output place, or at the one whose absence keeps that
from being known (R330). -/
def placeVa (t : TaskRef) (s : State) : Word :=
  match readTmpl t.packet s with
  | .error c => c.2
  | .ok tm => match readPlace t.packet tm s with
    | .error c => c.2
    | .ok r => BitVec.ofInt 64 ((recBase r).toNat + placeOffset t tm)

/-- The output place of an adopted version has not been mapped anew (R330). -/
def unmapped (v : VersionId) (s : State) : Bool := s.die.lineage.adopted.contains (v, false)

/-- The rebuild of an entry is enqueued in its packet's bank, once that has room; one of an adopted entry is parked. -/
def enqueueRebuild (e : CadEntry) (s : State) : State :=
  let t : TaskRef := { producer e s with serial := nextSerial s }
  if bankFull (pktBank t.packet) s then s
  else
    let s := enqueueTask t (pktBank t.packet) (cadPri e) (stepSerial s)
    match s.die.queues.tasks.getLast? with
    | some q => if unmapped (cadId e) s then parkTask q (placeVa t s) s else s
    | none => s

/-- The host has been asked for the rebuilds of a version, and has not answered (spec/26_host.md R397). -/
def State.walkAsked (v : VersionId) (s : State) : Bool := s.pkg.fw.assists.any (fun a => a.work == .walk v)

/-- A rebuild waits to be enqueued, and can be. -/
def pumpable (s : State) (e : CadEntry) : Bool :=
  !cadMirror e && cadState e == 3 && !s.walkAsked (cadId e) && opsIntact e s && !rebuildActive (cadId e) s && !bankFull (pktBank (producer e s).packet) s

/-- Rebuilds whose operands are all intact are enqueued. -/
def pumpRebuilds (s : State) : State :=
  s.die.lineage.entries.foldl (fun s e => if pumpable s e then enqueueRebuild e s else s) s

/-- A queued rebuild rises to a priority, behind the tasks there. -/
def raiseRebuild (v : VersionId) (p : BitVec 3) (s : State) : State :=
  let up := fun (t : QTask) => t.ref.rebuild == some v && t.pri < p
  let raised := (s.die.queues.tasks.filter up).map (fun t => { t with pri := p, since := s.pkg.clocks })
  s.modQueues (fun q => { q with tasks := q.tasks.filter (fun t => !up t) ++ raised })

/-- A need goes to the home of a lost version that is another die, once for each priority (R332, R333).  No packet of R342
carries one: it takes the type of the broadcast, with OPB 2 and the priority in its next byte (log entry 18). -/
def sendNeed (v : VersionId) (p : BitVec 3) (s : State) : State :=
  match s.die.queues.unavailable.lookup v with
  | none => s
  | some home =>
    if home = s.die.coord ∨ s.die.queues.asked.any (fun a => a.1 == v && p ≤ a.2) then s
    else
      sendPacket (mgmtPacket 50 home (packVersion v) (BitVec.ofNat 64 (2 + 256 * p.toNat)) [] s)
        (s.modQueues (fun q => { q with asked := q.asked.filter (fun a => a.1 != v) ++ [(v, p)] }))

/-- A lost version is to be rebuilt, at a priority. -/
def setRebuilding (v : VersionId) (pri : BitVec 3) : State → State :=
  changeCad v (fun e => setState 3 (putBits 717 3 pri.toNat (putBits 897 2 0 e)))

/-- The host is asked for the rebuilds that a lost version needs; the flag tells that it was. -/
def askWalk (e : CadEntry) (s : State) : State × Bool :=
  askHost 1 (.walk (cadId e)) (Config.assistBody 1 (leBytes 8 (packVersion (cadId e)).toNat ++ leBytes 128 e.toNat)) s

/-- `need` of R333, where `host` holds with the walk left to the host (spec/26_host.md R396); a restore from a replica is
performed by its own event. -/
def needVersion : Nat → Bool → VersionId → BitVec 3 → State → State
  | 0, _, _, _, s => s
  | n + 1, host, v, p, s =>
    match findCad v s with
    | none => sendNeed v p s
    | some e =>
      let pri := if cadPri e < p then p else cadPri e
      if cadState e = 3 then raiseRebuild v pri (changeCad v (putBits 717 3 pri.toNat) s)
      else if cadState e = 2 then
        if !(intactReps e s).isEmpty then s
        else if cadNops e = 0 then declareLost v s
        else
          let s := setRebuilding v pri s
          let x := if host then askWalk e s else (s, false)
          if x.2 then x.1 else ((cadOps e).filter (opBad x.1)).foldl (fun s o => needVersion n false o pri s) x.1
      else if cadState e = 5 then declareLost v s
      else s

def need (v : VersionId) (p : BitVec 3) (s : State) : State :=
  pumpRebuilds (needVersion (s.die.lineage.entries.length + 1) (s.duty 1) v p s)

/-- The walk that the host was asked for is made here after all (spec/26_host.md R397). -/
def walkHere (v : VersionId) (s : State) : State :=
  match findCad v s with
  | some e =>
    if cadState e = 3 then
      pumpRebuilds (((cadOps e).filter (opBad s)).foldl (fun s o =>
        needVersion (s.die.lineage.entries.length + 1) false o (cadPri e) s) s)
    else s
  | none => s

/-- The host's answer to a walk: the versions to rebuild in dependence order, at the priority of the one it was asked for. -/
def walkAnswer (v : VersionId) (vs : List VersionId) (s : State) : State :=
  let pri := match findCad v s with | some e => cadPri e | none => 0
  pumpRebuilds (vs.foldl (fun s w =>
    match findCad w s with
    | some e => if cadState e = 2 && (intactReps e s).isEmpty && cadNops e ≠ 0 then
        setRebuilding w (if cadPri e < pri then pri else cadPri e) s else s
    | none => sendNeed w pri s) s)

/-- A lost version has no copy left to be restored from: it is rebuilt, or without lineage declared (R334, R336). -/
def rebuildInstead (e : CadEntry) (s : State) : State :=
  if cadNops e = 0 then pumpRebuilds (declareLost (cadId e) s) else need (cadId e) (cadPri e) s

/-- A copy on another die is destroyed (R331): a replicated version that loses both is trimmed, and is copied again (R328);
one whose place is destroyed as well has neither bytes nor lineage.  A lost version whose restore was using its last copy is
rebuilt (R336). -/
def loseReplica (c : Coord) (v : VersionId) (s : State) : State :=
  match findCad v s with
  | none => s
  | some e =>
    if !(intactReps e s).contains c then s
    else
      let s := dropReplica v c s
      match findCad v s with
      | none => s
      | some e =>
        if !(intactReps e s).isEmpty then s
        else if cadState e = 2 then rebuildInstead e s
        else if cadState e ≠ 4 then s
        else if s.die.queues.lost v then declareLost v s
        else beginReplica v (changeCad v (setState 5) s)

/-- A version is the newest of its identity here. -/
def isNewest (v : VersionId) (s : State) : Bool :=
  match (s.die.lineage.entries.filter (fun e => !cadMirror e && (cadId e).ident == v.ident)).getLast? with
  | some e => cadId e == v
  | none => false

/-- STATE becomes lost, and the loss is counted, told to firmware and broadcast (R331). -/
def noteLost (v : VersionId) (s : State) : State :=
  announce v true (versionNotice 6 v (countLoss (changeCad v (setState 2) s)))

/-- A version that is the newest of its identity is needed at its own priority (R332, R333). -/
def needNewest (v : VersionId) (s : State) : State :=
  match findCad v s with
  | some e => if isNewest v s then need v (cadPri e) s else s
  | none => s

def markLost (v : VersionId) (s : State) : State := needNewest v (noteLost v s)

/-- The place of a version is destroyed: a replicated one is restored by its own event and stays replicated (R331). -/
def loseVersion (v : VersionId) (s : State) : State :=
  match findCad v s with
  | none => s
  | some e =>
    if cadState e = 4 then announce v true s
    else if cadState e = 1 ∨ cadState e = 5 then markLost v s
    else s

/-- Versions whose place holds one of some bytes, recovery aside. -/
def versionsAt (hit : PByte → Bool) (s : State) : List VersionId :=
  (s.die.lineage.entries.filter (fun e => !cadMirror e && (cadState e == 1 || cadState e == 4 || cadState e == 5) &&
    (entryPlace e s).any hit)).map cadId

/-- A version is intact again: held consumers are released. -/
def makePresent (v : VersionId) (f : CadEntry → CadEntry) (s : State) : State :=
  pumpRebuilds (announce v false (changeCad v f s))

/-- The end of a rebuild (R334, R411). -/
def endRebuild (t : Option TaskRef) (v : VersionId) (faulted : Bool) (s : State) : State :=
  match findCad v s with
  | none => s
  | some e =>
    let d := digestOf (placeOf (t.getD (producer e s)) s) s
    if !faulted && cadNodig e then
      makePresent v (fun e => setState 1 (putBits 716 1 0 (putBits 832 64 d.toNat e))) s
    else if !faulted && d == cadDigest e then makePresent v (setState 1) s
    else
      let n := cadTries e + 1
      let s := changeCad v (putBits 897 2 n) s
      pumpRebuilds (if n = 1 then enqueueRebuild (putBits 897 2 n e) s else declareLost v s)

/-- The end of a restore: the bytes come from a replica, which is dropped where they do not match; without another, the
version is rebuilt or declared (R334). -/
def endRestore (v : VersionId) (bs : List Byte) (s : State) : State :=
  match findCad v s with
  | none => s
  | some e =>
    let cs := entryPlace e s
    if !restoring e s then s
    else if crc64 bs = cadDigest e ∧ bs.length = cs.length then
      makePresent v (fun e => if cadState e = 2 then setState 1 e else e) (storeCells (cs.zip bs) s)
    else
      let s := dropReplica v ((intactReps e s).headD 0) s
      match findCad v s with
      | none => s
      | some e =>
        if !(intactReps e s).isEmpty then s else rebuildInstead e s

/-! ## Mirrors and lost dies (R330) -/

/-- A mirror arrives, in the place of the one it follows, so that the order of publication stays; STATE 0 frees it, and a new one
takes an entry outside the reserve (R327; log entry 59). -/
def storeMirror (e : CadEntry) (s : State) : State :=
  let same := fun (x : CadEntry) => cadMirror x && cadId x == cadId e && cadHome x == cadHome e
  let new := putBits 896 1 1 e
  if cadState e = 0 then s.modLineage (fun l => { l with entries := l.entries.filter (fun x => !same x) })
  else if s.die.lineage.entries.any same then
    s.modLineage (fun l => { l with entries := l.entries.map (fun x => if same x then new else x) })
  else if cadFree s then s.modLineage (fun l => { l with entries := l.entries ++ [new] })
  else s

/-- The mirrors of a lost die are adopted; those not replicated are lost, and what was being rebuilt is needed again (R330,
R336). -/
def adoptMirrors (die : Coord) (s : State) : State :=
  let mine := s.die.lineage.entries.filter (fun e => cadMirror e && cadHome e == die)
  let s := s.modLineage (fun l => { l with
    entries := l.entries.map (fun e =>
      if cadMirror e && cadHome e == die then putBits 896 1 0 (putBits 944 16 s.die.coord.toNat e) else e)
    adopted := l.adopted ++ mine.map (fun e => (cadId e, false)) })
  let s := mine.foldl (fun s e =>
    let n := cadState e
    if n = 2 ∨ n = 4 then announce (cadId e) true s else if n = 1 ∨ n = 3 ∨ n = 5 then noteLost (cadId e) s else s) s
  mine.foldl (fun s e => if cadState e = 3 then need (cadId e) (cadPri e) s else needNewest (cadId e) s) s

/-! ## A context declared lost (R145, R411) -/

/-- The output version of a lost task enters the cadastre as lost; without an entry for it, it is declared at once. -/
def recordLost (t : TaskRef) (s : State) : State :=
  let x := selOf t s
  if x.fault.isSome then s
  else
    let e := entryFor t x.tmpl 2 0 true s
    let v := cadId e
    let gone := fun (s : State) => versionNotice 6 v (countLoss s)
    match addCad e true (freeEntries s) with
    | some s => needNewest v (announce v true (gone s))
    | none => versionNotice 9 v (countUnrec (poisonPlace (placeOf t s) (gone s)))

/-! ## The depth bound (R329) -/

/-- ρ := (7ρ + L/P)/8 as an exact fraction. -/
def nextRho (r : Nat × Nat) (l p : Nat) : Nat × Nat := (7 * r.1 * p + l * r.2, 8 * r.2 * p)

/-- DMAX of ρ and COST: floor of the square root of 2C/ρ with C = COST/256, in 2 to 64. -/
def dmaxFor (cost : Nat) (r : Nat × Nat) : Nat :=
  if r.1 = 0 then 64 else min 64 (max 2 (isqrt (cost * r.2 / (128 * r.1))))

/-- The end of a window of 2^36 ns; the next one counts its own losses. -/
def updateDmax (s : State) : State :=
  s.modLineage (fun l =>
    if l.published = 0 then { l with lossBase := l.losscount }
    else
      let rho := nextRho l.rho (l.losscount - l.lossBase).toNat l.published
      { l with rho := rho, published := 0, lossBase := l.losscount,
               control := putBits 0 8 (dmaxFor (costOf l.control) rho) l.control })

end Sys2Proof.Machine
end

