-- ==== Sys2Proof/Machine/Engine.lean ====
section
/-! DEFINITION. The engines: `mload`, the completion of operations on the own die, and their interruption
(spec/11_storage.md R165 to R172; spec/17_matrix.md R258, R259; spec/09_traps.md R138; spec/21_tasks.md R337). -/
namespace Sys2Proof.Machine

/-! ## Reading and writing byte by byte -/

/-- How an engine's pass over the bytes of an access ends. -/
inductive ScanEnd where
  | done
  | fail (x : Xlate) (va : Nat)
  /-- poisoned bytes, the first of them at an address -/
  | poisoned (va : Nat)
  /-- the walk for an address read poisoned bytes -/
  | walk (va : Nat)
  deriving DecidableEq, Repr

/-- The bytes of memory that an engine reaches, in order, up to the first that fails. -/
def scanCells (o : Op) (access : Access) (space : Option (BitVec 2)) (s : State) :
    List (Option Nat) → List (Option PByte) × ScanEnd
  | [] => ([], .done)
  | none :: r => let x := scanCells o access space s r; (none :: x.1, x.2)
  | some va :: r =>
    match seek o.asid o.user access space va s with
    | .ok k pa =>
      if access = .read ∧ physPoison k pa s then ([], .poisoned va)
      else let x := scanCells o access space s r; (some (k, pa) :: x.1, x.2)
    | .poisoned => ([], .walk va)
    | x => ([], .fail x va)

/-- The bytes an engine reads through a record.  A line of scratchpad with FAULT set counts as poisoned.  DESIGN CHOICE: for `tld`,
`tldn` and `mload`, whose sources may lie in scratchpad, R165 does not say what such a line does (log entry 66). -/
def engineRead (o : Op) (r : Record) (ps : List Place) (s : State) : List Byte × ScanEnd :=
  let addrs := placeAddrs r ps
  if recSpace r = 2 then (readScratch addrs s, if scratchFault addrs s then .poisoned 0 else .done)
  else let x := scanCells o .read (kindSpace r) s addrs; (readCells x.1 s, x.2)

/-- Granules of `dst` every byte of which an operation has written once the first `n` of its bytes have landed (R154). -/
def landedGranules (dst : List (Option Nat)) (n : Nat) : List Nat :=
  let missing := accessGranules (dst.drop n)
  (accessGranules dst).filter (fun g => !missing.contains g)

/-- An engine writes bytes through its operation's record, as far as there are bytes and the addresses translate; where a
block transfer has written the last of its bytes of a granule of scratchpad, the granule becomes full (R154). -/
def engineWrite (o : Op) (ps : List Place) (bs : List Byte) (s : State) : State × ScanEnd :=
  let addrs := placeAddrs o.record ps
  if recSpace o.record = 2 then
    let full := match o.kind with | .blockCopy .. => landedGranules addrs bs.length | _ => []
    (setFullAll full true (writeScratch addrs bs s), .done)
  else
    let x := scanCells o .write (kindSpace o.record) s addrs
    (storeCells (pairCells x.1 bs) s, x.2)

/-- How an operation that meets a fault ends; beyond the installed memory it never ends, and for a translation that the host fills
it waits. -/
def engineFail (o : Op) (before : State → State) (e : ScanEnd) (s : State) : State :=
  match e with
  | .done => s
  | .fail .absent _ => s
  | .fail (.pending w asked) _ => askOnce w asked s
  | .fail _ va => engineStop o .engineFault (BitVec.ofNat 64 va) (before s)
  | .poisoned va => engineStop o .uncorrectable (BitVec.ofNat 64 va) (before s)
  | .walk va => engineStop o .uncorrectable (BitVec.ofNat 64 va) (before s)

/-! ## Loads into scratchpad (R169 to R171) -/

/-- Lines all of whose bytes an operation writes. -/
def wholeLines (dst : List Nat) : List Nat :=
  ((dst.map (· / 4096)).dedup).filter (fun e => 4096 ≤ (dst.filter (fun a => a / 4096 == e)).dedup.length)

/-- The destination bytes of a load into scratchpad, by position. -/
def loadDst (o : Op) : List Nat :=
  match o.kind with
  | .tileLoad _ sp shape =>
    (match tileShape o.record shape with | some (rows, w) => named (scratchRun sp (rows * w)) | none => [])
  | .rowsLoad sp d => named (rowScratch sp d)
  | .lineFill e => named (scratchRun (e * 4096) 4096)
  | _ => []

/-- The source places of a load into scratchpad. -/
def loadPlaces (o : Op) : List Place :=
  match o.kind with
  | .tileLoad _ _ shape => tilePlaces o.record o.offset shape
  | .rowsLoad _ d => rowPlaces o.record o.offset d
  | .lineFill _ => blockPlaces o.record (tprfVa o.record o.offset)
  | _ => []

/-- Bytes of a load at some positions land. -/
def landBytes (xs : List (Nat × Byte)) (s : State) : State := xs.foldl (fun s x => scratchWrite x.1 x.2 s) s

/-- The load clears FAULT of the lines that it writes whole: `tld` and `tprf` do, `tldn` does not (R165). -/
def clearsFault (k : OpKind) : Bool := match k with | .rowsLoad .. => false | _ => true

/-- A load ends with every byte received: granules full, FAULT cleared in the lines it wrote whole. -/
def loadClean (k : OpKind) (dst : List Nat) (s : State) : State :=
  (if clearsFault k then wholeLines dst else []).foldl (fun s e => setLineFault e false s) (setFullAll (granulesOf dst) true s)

/-- A load that lacks bytes: those it has not received become zero, granules full, FAULT in every line touched (R165,
R353). -/
def loadFaulted (dst missing : List Nat) (s : State) : State :=
  let s := landBytes (missing.map (fun a => (a, 0))) s
  ((dst.map (· / 4096)).dedup).foldl (fun s e => setLineFault e true s) (setFullAll (granulesOf dst) true s)

def loadSpec (o : Op) : Bool := match o.kind with | .tileLoad spec .. => spec | _ => false

/-- A load into scratchpad from the own die. -/
def completeLoad (o : Op) (s : State) : State :=
  let dst := loadDst o
  if o.doomed then finishOp o (loadFaulted dst dst s)
  else
    let x := engineRead o o.record (loadPlaces o) s
    let put := fun (s : State) =>
      setFullAll (landedGranules (dst.map some) x.1.length) true (landBytes (dst.zip x.1) s)
    match x.2 with
    | .done => finishOp o (loadClean o.kind dst (put s))
    | .poisoned _ => finishOp o (loadFaulted dst (dst.drop x.1.length) (put s))
    | .fail .absent _ => s
    | .fail (.pending w asked) _ => askOnce w asked s
    | _ =>
      if loadSpec o then finishOp o (loadFaulted dst (dst.drop x.1.length) (put s))
      else engineFail o put x.2 s

/-! ## Stores from scratchpad, and block transfers (R169, R170, R172) -/

/-- The source bytes and destination places of a store from scratchpad. -/
def storeParts (o : Op) (s : State) : List Place × List Byte :=
  match o.kind with
  | .tileStore sp shape =>
    (match tileShape o.record shape with
     | some (rows, w) => (tilePlaces o.record o.offset shape, readScratch (scratchRun sp (rows * w)) s)
     | none => ([], []))
  | .rowsStore sp d => (rowPlaces o.record o.offset d, readScratch (rowScratch sp d) s)
  | _ => ([], [])

def completeStore (o : Op) (s : State) : State :=
  let p := storeParts o s
  let x := engineWrite o p.1 p.2 s
  match x.2 with
  | .done => finishOp o x.1
  | e => engineFail o (fun _ => x.1) e s

/-- The post of a block transfer at the die that n names, here the own die. -/
def postRemoteFlag (rf : Option (BitVec 6 × BitVec 5)) (s : State) : State :=
  match rf with | some (c, f) => postFlag c f 1 s | none => s

def completeCopy (o : Op) (src : Record) (rf : Option (BitVec 6 × BitVec 5)) (s : State) : State :=
  if o.doomed then
    engineStop o (if o.hi = 1 then .uncorrectable else .engineFault) (BitVec.ofNat 64 o.lo) s
  else
    let x := engineRead o src (bxfSource src) s
    let y := engineWrite o (recRun o.record o.offset (bxfLen src)) x.1 s
    match x.2, y.2 with
    | .done, .done => finishOp o (postRemoteFlag rf y.1)
    | .done, e => engineFail o (fun _ => y.1) e s
    | e, _ => engineFail o (fun _ => y.1) e s

/-! ## `mload` (R258, R259) -/

/-- The tile of the formats that `mload` takes. -/
def mloadShape (r : Record) : Option (Nat × Nat) :=
  match (recFmt r).toNat with
  | 12 | 13 | 9 | 8 | 11 => stdShape (recFmt r)
  | _ => none

/-- SCALE enters every entry of the cope-scale table that a tile touches. -/
def writeScales (c n : Nat) (v : BitVec 32) (s : State) : State :=
  let gs := (List.range ((c + n - 1) / 128 + 1 - c / 128)).map (fun i => c / 128 + i)
  s.modCore (fun k => { k with copeScale := gs.foldl (fun m g => smSet 0 m g v) k.copeScale })

/-- One unit of the cope store is written. -/
def writeUnit (u : Nat) (bs : List Byte) (poison : Bool) (s : State) : State :=
  s.modCore (fun k => { k with cope := memWrite k.cope (64 * u) bs, copePoison := smSet false k.copePoison u poison })

/-- The addresses of a tile, unit by unit. -/
def unitAddrs (o : Op) : List (List (Option Nat)) :=
  let addrs := placeAddrs o.record (tilePlaces o.record o.offset 0)
  (List.range (addrs.length / 64)).map (fun i => (addrs.drop (64 * i)).take 64)

/-- One unit from the own die; the fault that stops it. -/
def loadUnit (o : Op) (u : Nat) (addrs : List (Option Nat)) (s : State) : State × ScanEnd :=
  if recSpace o.record = 2 then
    (writeUnit u (readScratch addrs s) (scratchFault addrs s) s, .done)
  else
    match cellsBy (fun va => seek o.asid o.user .read (kindSpace o.record) va s) addrs with
    | .ok cs => (writeUnit u (readCells cs s) (cellsPoison cs s) s, .done)
    | .fail .poisoned va => (s, .walk va)
    | .fail x va => (s, .fail x va)

/-- Units from number `u` on; how many were written, and how the pass ends. -/
def loadUnits (o : Op) : Nat → List (List (Option Nat)) → State → State × Nat × ScanEnd
  | u, [], s => (s, u, .done)
  | u, a :: r, s =>
    match loadUnit o ((match o.kind with | .mload f _ _ => f.caddr.toNat | _ => 0) + u) a s with
    | (s', .done) => loadUnits o (u + 1) r s'
    | (s', e) => (s', u, e)

def setMlprog (o : Op) (v : Word) (s : State) : State :=
  if ownerPresent o s then modCtxAt o.owner (Ctx.modArr (fun a => { a with mlprog := v })) s else s

/-- `mload` completes: MLPROG becomes 0. -/
def finishMload (o : Op) (s : State) : State := endOp o (if o.doomed then s else setMlprog o 0 s)

/-- Some context of the core in focus still has beats to issue. -/
def State.beatsLeft (s : State) : Bool := !s.cur.flow.beats.isEmpty || s.arrayTaken

/-- The `mload` of an operation on the own die runs to its end. -/
def completeMload (o : Op) (f : MF) (done : Nat) (s : State) : State :=
  if s.beatsLeft then s
  else
    let x := loadUnits o done ((unitAddrs o).drop done) s
    match x.2.2 with
    | .done => finishMload o x.1
    | .fail .absent _ => s
    | .fail (.pending w asked) _ => askOnce w asked s
    | .fail _ va => engineStop o .engineFault (BitVec.ofNat 64 va) (setMlprog o (mlprogOf f x.2.1) x.1)
    | .poisoned va => engineStop o .uncorrectable (BitVec.ofNat 64 va) (setMlprog o (mlprogOf f x.2.1) x.1)
    | .walk va => engineStop o .uncorrectable (BitVec.ofNat 64 va) (setMlprog o (mlprogOf f x.2.1) x.1)

/-- Heap bytes from the first unit that is not skipped. -/
def mloadReqs (done : Nat) (q : Packet) (l : List (Nat × Nat)) : List (Packet × Nat) :=
  readReqs q (l.filter (fun x => 64 * done ≤ x.2))

/-- An `mload` begins, or is restarted. -/
def beginMload (f : MF) (fmt : BitVec 8) (r : Record) (t : Int) (peer : Coord) (done : Nat) (s : State) : State :=
  let rg := rangeOf (placeAddrs r (tilePlaces r t 0))
  let o : Op := { mkOp (.mload f fmt done) s with
    record := r, offset := t, space := (recSpace r).setWidth 3, lo := rg.1, hi := rg.2, isRead := true, counted := false }
  if mloadN f = 0 then beginLocal o s
  else beginRemote o peer (mloadReqs done (requestOf o peer s) (heapBytes r (tilePlaces r t 0))) s

def slotMload (f : MF) (s : State) : SlotRes :=
  needArray s <|
  if s.mloadBusy then .engine
  else
    needB (mloadB f) s fun r =>
    let remote := mloadN f != 0
    let n := match mloadShape r with | some (rows, w) => rows * w / 64 | none => 0
    if n != 0 && s.copeHeld f.caddr.toNat n then .engine
    else if orderHeld (isRelease r) s then .hold
    else if remote && freeSlots s.cur = 0 then .engine
    else
      cleanG keyM (bits 0 5 f.row) s fun v =>
      if (mloadShape r).isNone || !recordOk r remote || Config.copeUnits < f.caddr.toNat + n then .trapOf .operandValue
      else
        match firstOutside r (tilePlaces r v.toInt 0) with
        | some a => .trap .bounds 0 a
        | none =>
          let peer := if remote then s.readN (mloadN f) else s.die.coord
          let src := named (placeAddrs r (tilePlaces r v.toInt 0))
          if conflicts ((recSpace r).setWidth 3) peer src s then .hold
          else if recSpace r = 2 && s.spHeld src then .engine
          else
            .ok (fun u => beginMload f (recFmt r) r v.toInt peer (mloadSkip f s.cur.arr.mlprog)
              (writeScales f.caddr.toNat n (recScale r) (bumpFor (isRelease r) r remote u)))

/-! ## The completion of an operation on the own die (R167) -/

/-- A load brings a value, or a poisoned one. -/
def completeG (o : Op) (g : BitVec 5) (v : Word) (poison : Bool) (s : State) : State :=
  finishOp o (deliverG o g (if poison then Config.freeWord o.id else v) poison s)

/-- An atomic on memory; one that reads poisoned bytes writes nothing (R337). -/
def completeAtomic (o : Op) (g : Option (BitVec 5)) (s : State) : State :=
  let bad := cellsPoison o.cells s
  let old := leNat (readCells o.cells s)
  let s := match atomicBytes o.kind old with
    | some bs => if bad then s else storeCells (pairCells o.cells bs) s
    | none => s
  match g with
  | some g => completeG o g (BitVec.ofNat 64 old) bad s
  | none => finishOp o s

/-- A store of a scalar: the supervisor's words of R320 and R384 act when they are written. -/
def completeElemStore (o : Op) (size : Nat) (v : Word) (s : State) : State :=
  let word := fun (off : Nat) => size == 8 && o.cells.head? == some (some ((Tier.hbm, Config.devicePage + off) : PByte))
  if word 0 then finishOp o (unpark v s)
  else if word 8 then finishOp o (interruptHost v s)
  else finishOp o (storeCells (pairCells o.cells (leBytes size v.toNat)) s)

/-- A tentative access at this die's shard; one whose region has ended writes nothing, and brings a free value (R295). -/
def completeTentative (o : Op) (n : RegionName) (s : State) : State :=
  match o.kind with
  | .regionLoad g size sg _ =>
    if handleLive o n s then
      completeG o g (loadValue size sg (tentativeBytes n o.cells s)) (cellsPoison o.cells s) s
    else finishOp o (landFree o s)
  | .regionStore size v _ =>
    finishOp o (if handleLive o n s then tentativeCells n (pairCells o.cells (leBytes size v.toNat)) s else s)
  | _ => s

/-- An access of scratchpad that followed an `mload` of its bundle is performed (R173, R177, R178). -/
def completeScratch (o : Op) (s : State) : State :=
  let run := fun (n : Nat) => placeAddrs o.record (recRun o.record o.offset n)
  let full := fun (n : Nat) => (accessGranules (run n)).all (fun g => isFull g s)
  let clear := fun (n : Nat) (s : State) => if o.fe = 2 then setFullAll (accessGranules (run n)) false s else s
  let store := fun (bs : List Byte) =>
    if o.fe = 2 && (accessGranules (run bs.length)).any (fun g => isFull g s) then s
    else
      let u := writeScratch (run bs.length) bs s
      finishOp o (if o.fe ≠ 0 then setFullAll (accessGranules (run bs.length)) true u else u)
  let update := fun (n : Nat) (done : Nat → State → State) =>
    let old := leNat (readScratch (run n) s)
    done old (match atomicBytes o.kind old with | some bs => writeScratch (run n) bs s | none => s)
  match o.kind with
  | .vecLoad q _ _ =>
    if o.fe ≠ 0 && !full 128 then s
    else finishOp o (deliverQueue o q (BitVec.ofNat 1024 (leNat (readScratch (run 128) s))) (scratchFault (run 128) s) (clear 128 s))
  | .elemLoad g n sg _ _ =>
    if o.fe ≠ 0 && !full n then s
    else finishOp o (deliverG o g (loadValue n sg (readScratch (run n) s)) (scratchFault (run n) s) (clear n s))
  | .vecStore d => store (leBytes 128 d.toNat)
  | .elemStore n v => store (leBytes n v.toNat)
  | .amo g _ _ wide nr _ => update (amoBytes wide) (fun old s =>
      finishOp o (if nr then s else deliverG o g (BitVec.ofNat 64 old) false s))
  | .amoc g wide _ _ => update (amoBytes wide) (fun old s => finishOp o (deliverG o g (BitVec.ofNat 64 old) false s))
  | .signal .. => update 8 (fun _ s => finishOp o s)
  | _ => s

/-- The operation is such an access. -/
def Op.inScratch (o : Op) : Bool :=
  o.space == 2 && (match o.kind with
    | .vecLoad .. | .elemLoad .. | .vecStore _ | .elemStore .. | .amo .. | .amoc .. | .signal .. => true
    | _ => false)

/-- The completion of an operation on the own die, its owner's core in focus; one that has still to wait is unchanged. -/
def completeLocal (o : Op) (s : State) : State :=
  if o.inScratch then completeScratch o s
  else
  match o.kind with
  | .tileLoad .. => completeLoad o s
  | .rowsLoad .. => completeLoad o s
  | .lineFill _ => completeLoad o s
  | .tileStore .. => completeStore o s
  | .rowsStore .. => completeStore o s
  | .blockCopy src rf => completeCopy o src rf s
  | .vecLoad q _ value =>
    (match value with
     | some (v, p) => finishOp o (deliverQueue o q v p s)
     | none =>
       if cellsPoison o.cells s then finishOp o (deliverQueue o q (Config.freeEntry o.id) true s)
       else finishOp o (deliverQueue o q (BitVec.ofNat 1024 (leNat (readCells o.cells s))) false s))
  | .vecStore d => finishOp o (storeCells (pairCells o.cells (leBytes 128 d.toNat)) s)
  | .elemLoad g size sg _ value =>
    (match value with
     | some (v, p) => finishOp o (deliverG o g v p s)
     | none => completeG o g (loadValue size sg (readCells o.cells s)) (cellsPoison o.cells s) s)
  | .elemStore size v => completeElemStore o size v s
  | .amo g _ _ _ nr _ => completeAtomic o (if nr then none else some g) s
  | .amoc g .. => completeAtomic o (some g) s
  | .signal add v =>
    if add then completeAtomic o none s else finishOp o (storeCells (pairCells o.cells (leBytes 8 v.toNat)) s)
  | .recLoad b =>
    if cellsPoison o.cells s then engineStop o .uncorrectable (BitVec.ofNat 64 o.lo) s
    else finishOp o (deliverB o b (bits256 (readCells o.cells s)) s)
  | .recStore r => finishOp o (storeCells (pairCells o.cells (leBytes 32 r.toNat)) s)
  | .rsync _ _ _ => settleRsync s
  | .acquire _ => settleRsync s
  | .treeFill w fp fe => applyFill o w fp fe s
  | .treeDump l fp fe => applyDump o l fp fe s
  | .mload f _ done => completeMload o f done s
  | .push q v p fl => if s.core.cycle < o.lo then s else endOp o (opFlags o fl (deliverQueue o q v p s))
  | .ringGet _ q st => serveGet o q st s
  | .regionLoad _ _ _ h => completeTentative o h s
  | .regionStore _ _ h => completeTentative o h s
  | .regionAsk _ _ => s
  | .posted => finishOp o s

/-- An operation of the array or of the tree unit, which a freeze of its core stops (spec/09_traps.md R148). -/
def Op.inCore (o : Op) : Bool :=
  match o.kind with | .push .. => true | .treeFill .. => true | .treeDump .. => true | .mload .. => true | _ => false

/-- The operation reads or writes memory of this die, whose locked lines wait for their region's commit (spec/19_trees_regions.md
R298): its own bytes, or, for an engine, whatever line (log entry 21). -/
def Op.atLock (o : Op) (s : State) : Bool :=
  s.linesLocked && o.remote.isNone && (match o.kind with
    | .tileLoad .. | .tileStore .. | .rowsLoad .. | .rowsStore .. | .lineFill _ | .blockCopy .. | .mload .. => true
    | _ => o.cells.any (fun c => match c with | some p => s.die.shard.any (fun l => l.locked && l.line == lineKey p) | none => false))

/-- OPERATION_COMPLETE for an operation on the own die. -/
def completeOp (id : Nat) (s : State) : State :=
  match findOp id s with
  | none => s
  | some o =>
    if o.remote.isSome || o.follows s || o.atLock s || (o.inCore && 0 < (coreAt o.owner.core s).frozenLeft) then s
    else withFocus o.owner (completeLocal o) s

/-! ## Interruption points (R138) -/

/-- A part whose bytes have not come. -/
def Part.lost (p : Part) : Bool := !p.answered || p.poisoned || p.unreachable

/-- Leading units that an interrupted remote `mload` has received. -/
def unitsReceived (o : Op) : Nat :=
  match o.kind, o.remote with
  | .mload _ fm done, some r =>
    let open_ := (r.parts.filter Part.lost).map (·.pos)
    let n := if fm = 12 ∨ fm = 13 then 256 else 128
    max done ((open_.foldl min (64 * n)) / 64)
  | _, _ => 0

/-- The `mload` of the current context stops at its next unit and is pending.  How far it came is not stated: a number of
further units, free, has been written; requests of a remote one go on by themselves. -/
def interruptMload (s : State) : State :=
  match s.die.ops.find? (fun o => o.isMload && o.owner == s.curId && o.serial == s.cur.serial) with
  | none => s
  | some o =>
    match o.kind with
    | .mload f _ done =>
      let mk := fun (n : Nat) (dst : Coord) (s : State) =>
        let p : PendingInstr := { instr := .mload f, record := o.record, offset := o.offset, dst := dst, pc := o.pc,
                                  logged := o.logged }
        (setMlprog o (mlprogOf f n) s).modFlow (fun w => { w with pendingArray := w.pendingArray ++ [p] })
      (match o.remote with
       | some r => modOp o.id (fun o => { o with doomed := true }) (mk (unitsReceived o) r.dst s)
       | none =>
         let rest := (unitAddrs o).drop done
         let k := (Config.freeWord (s.freeIdx (keyM + 7))).toNat % (rest.length + 1)
         let x := loadUnits o done (rest.take k) s
         match x.2.2 with
         | .done => endOp o (mk x.2.1 s.die.coord x.1)
         | .fail .absent _ => endOp o (mk x.2.1 s.die.coord x.1)
         | .fail (.pending ..) _ => endOp o (mk x.2.1 s.die.coord x.1)
         | .fail _ va => engineStop o .engineFault (BitVec.ofNat 64 va) (setMlprog o (mlprogOf f x.2.1) x.1)
         | .poisoned va => engineStop o .uncorrectable (BitVec.ofNat 64 va) (setMlprog o (mlprogOf f x.2.1) x.1)
         | .walk va => engineStop o .uncorrectable (BitVec.ofNat 64 va) (setMlprog o (mlprogOf f x.2.1) x.1))
    | _ => s

/-- One pending instruction is restarted from FPROG or MLPROG as it stands. -/
def restartOne (p : PendingInstr) (s : State) : State :=
  match p.instr with
  | .mload f =>
    let id := s.die.nextId
    modOp id (fun o => { o with pc := p.pc, logged := p.logged }) (beginMload f (recFmt p.record) p.record p.offset p.dst
      (mloadSkip f s.cur.arr.mlprog) s)
  | i => beginFact i s.fmt p.pc p.logged p.flags (factStart s.cur.arr.fprog i) s

/-- A pending instruction can restart: the array and a response slot are free for it. -/
def canRestart (p : PendingInstr) (s : State) : Bool :=
  s.core.fact.isNone && !s.beatsLeft &&
    (match p.instr with | .mload f => !s.mloadBusy && (mloadN f = 0 || freeSlots s.cur != 0) | _ => true)

/-- Whether the current context is to restart pending instructions before its next bundle: after `eret` or a restore, not
while the handler runs (R138). -/
def State.restarts (s : State) : Bool := !s.cur.sys.handler && !s.cur.flow.pendingArray.isEmpty

/-- One pending instruction restarts, if it can. -/
def restartFirst (s : State) (p : PendingInstr) : State :=
  if canRestart p s then restartOne p (s.modFlow (fun w => { w with pendingArray := w.pendingArray.erase p })) else s

/-- Pending instructions of the current context restart, as far as they can, before its next bundle. -/
def restartPending (s : State) : State := if s.restarts then s.cur.flow.pendingArray.foldl restartFirst s else s

end Sys2Proof.Machine
end

