-- ==== Sys2Proof/Machine/Remote.lean ====
section
/-! DEFINITION. The fabric at both ends: responses, retries and timeouts of a remote operation, and the serving of requests
(spec/23_fabric.md R343, R348 to R357; spec/15_ordering.md R230). -/
namespace Sys2Proof.Machine

/-! ## Clocks that arrive (R230, R357) -/

/-- The clock that a packet carries, with the clock kept for its source and class; packets between domains carry none. -/
def takeClock (p : Packet) (s : State) : State × SMap (BitVec 64) :=
  if (domainIndex p.src s).isNone then (s, [])
  else
    let c := p.clk.foldl (fun m e => smSet 0 m e.1.toNat (smGet 0 m e.1.toNat + e.2.setWidth 64))
      (storedClock s.die.clocks.received (p.src, p.cls))
    (s.modDie (fun d => { d with clocks := { d.clocks with received := setStored d.clocks.received (p.src, p.cls) c } }), c)

def mergeOwn (c : SMap (BitVec 64)) (s : State) : State :=
  s.modDie (fun d => { d with clocks := { d.clocks with own := mergeClock d.clocks.own c } })

/-- A clock packet replaces half of the clock kept for its source and class. -/
def takeClockPacket (p : Packet) (s : State) : State :=
  if (domainIndex p.src s).isNone then s
  else
    let half := if p.aux.getLsbD 0 then 1 else 0
    let old := storedClock s.die.clocks.received (p.src, p.cls)
    let c := (List.range 32).foldl (fun m i =>
      smSet 0 m (32 * half + i) (BitVec.ofNat 64 (leNat ((p.payload.drop (8 * i)).take 8)))) old
    s.modDie (fun d => { d with clocks := { d.clocks with received := setStored d.clocks.received (p.src, p.cls) c } })

/-! ## Responses (R350) -/

def packetCtx (p : Packet) : CtxId := { core := p.core, ctx := p.ctx }
def tagSlot (p : Packet) : BitVec 3 := bits 5 3 p.tag
def tagGen (p : Packet) : BitVec 5 := bits 0 5 p.tag

/-- The operation that holds the slot a response names, under its generation; none where the response is stale. -/
def acceptedOp (p : Packet) (s : State) : Option Op :=
  match (ctxAt (packetCtx p) s).flow.slots[(tagSlot p).toNat]? with
  | some x => if x.held ∧ x.gen = tagGen p then findOp x.op s else none
  | none => none

/-- A response that is not accepted counts in FABSTALE of its context and in STALE. -/
def dropStale (p : Packet) (s : State) : State :=
  (modCtxAt (packetCtx p) (Ctx.modSys (fun y =>
    { y with fabstale := if y.fabstale = BitVec.allOnes 32 then y.fabstale else y.fabstale + 1 })) s).modRouter
    (fun r => { r with stale := r.stale + 1 })

/-- The slot's timer starts again (R352). -/
def restartTimer (p : Packet) (s : State) : State :=
  modCtxAt (packetCtx p) (modSlot (tagSlot p).toNat (fun x => { x with since := s.timeNs })) s

def modRemote (id : Nat) (f : Remote → Remote) (s : State) : State :=
  modOp id (fun o => { o with remote := o.remote.map f }) s

/-- The answer of part `k` is counted. -/
def answerPart (k : Nat) (f : Part → Part) (r : Remote) : Remote :=
  { r with parts := r.parts.mapIdx (fun i x => if i = k ∧ !x.answered then f { x with answered := true } else x) }

/-! ## The bytes of a remote operation -/

/-- Positions that a part covers. -/
def Part.positions (p : Part) : List Nat := (List.range p.req.len).map (fun i => p.pos + i)

/-- Whether every byte of some positions has come, or is clamped. -/
def allReceived (r : Remote) (ps : List Nat) : Bool :=
  ps.all (fun i => !r.parts.any (fun p => p.lost && p.pos ≤ i && i < p.pos + p.req.len))

/-- The units of a cope tile that hold some positions. -/
def unitsOf (ps : List Nat) : List Nat := (ps.map (· / 64)).dedup

def mloadAddr (o : Op) : Nat := match o.kind with | .mload f _ _ => f.caddr.toNat | _ => 0

/-- Positions that no request covers: the bounds mode clamps them, and they read 0 (R158). -/
def clampedPositions (r : Remote) (n : Nat) : List Nat :=
  (List.range n).filter (fun i => !r.parts.any (fun p => p.pos ≤ i && i < p.pos + p.req.len))

/-- A later position of a load into scratchpad writes the same byte, and its bytes remain (R170). -/
def overwritten (dst : List Nat) (i : Nat) : List Nat :=
  (List.range dst.length).filter (fun j => i < j && dst[j]? == dst[i]?)

/-- A position has been received, and is no clamped one. -/
def hasCome (r : Remote) (i : Nat) : Bool := r.parts.any (fun p => !p.lost && p.pos ≤ i && i < p.pos + p.req.len)

/-- Bytes arrive at the destination of an operation, its owner's core in focus.  A granule of scratchpad is full once every byte
that the operation writes in it has landed; clamped bytes land when the operation ends (R154). -/
def placeBytes (o : Op) (r : Remote) (xs : List (Nat × Byte)) (s : State) : State :=
  match o.kind with
  | .mload .. =>
    let c := mloadAddr o
    let whole := (unitsOf (xs.map (·.1))).filter (fun u => allReceived r ((List.range 64).map (fun i => 64 * u + i)))
    s.modCore (fun k => { k with
      cope := xs.foldl (fun m x => memSet m (64 * c + x.1) x.2) k.cope
      copePoison := whole.foldl (fun m u => smSet false m (c + u) false) k.copePoison })
  | .tileLoad .. | .rowsLoad .. =>
    let dst := loadDst o
    let xs := xs.filter (fun x => !(overwritten dst x.1).any (hasCome r))
    let s := landBytes (xs.filterMap (fun x => (dst[x.1]?).map (fun a => (a, x.2)))) s
    let gs := granulesOf (xs.filterMap (fun x => dst[x.1]?))
    setFullAll (gs.filter (fun g => ((List.range dst.length).filter (fun i => dst.getD i 0 / 16 == g)).all (hasCome r))) true s
  | _ => modRemote o.id (fun r => { r with data := r.data ++ xs }) s

/-- `n` bytes that have come for a register. -/
def remoteBytes (r : Remote) (n : Nat) : List Byte := (List.range n).map (fun i => (r.data.lookup i).getD 0)

/-- The destination of a remote operation takes its result; bytes that are lost have the effect of R353. -/
def deliverRemote (o : Op) (r : Remote) (s : State) : State :=
  let lost := r.parts.filter Part.lost
  let bad := !lost.isEmpty
  let g := fun (g : BitVec 5) (v : Word) => deliverG o g (if bad then Config.freeWord o.id else v) bad s
  match o.kind with
  | .vecLoad q _ _ =>
    deliverQueue o q (if bad then Config.freeEntry o.id else BitVec.ofNat 1024 (leNat (remoteBytes r 128))) bad s
  | .elemLoad d size sg _ _ => g d (loadValue size sg (remoteBytes r size))
  | .regionLoad d size sg _ => g d (loadValue size sg (remoteBytes r size))
  | .amo d _ _ wide nr _ => if nr then s else g d (BitVec.ofNat 64 (leNat (remoteBytes r (amoBytes wide))))
  | .amoc d wide _ _ => g d (BitVec.ofNat 64 (leNat (remoteBytes r (amoBytes wide))))
  | .tileLoad .. | .rowsLoad .. =>
    let dst := loadDst o
    let at_ := fun (ps : List Nat) => (ps.filter (fun i => (overwritten dst i).isEmpty)).filterMap (fun i => dst[i]?)
    let s := landBytes ((at_ (clampedPositions r dst.length)).map (fun a => (a, 0))) s
    if bad then loadFaulted dst (at_ (lost.flatMap Part.positions)) s else loadClean o.kind dst s
  | .mload _ fm done =>
    let c := mloadAddr o
    let n := if fm = 12 ∨ fm = 13 then 256 else 128
    let zero := (clampedPositions r (64 * n)).filter (fun i => 64 * done ≤ i)
    let hit := unitsOf (lost.flatMap Part.positions)
    s.modCore (fun k => { k with
      cope := zero.foldl (fun m i => memSet m (64 * c + i) 0) k.cope
      copePoison := hit.foldl (fun m u => smSet false m (c + u) true)
        ((unitsOf zero).foldl (fun m u => smSet false m (c + u) false) k.copePoison) })
  | _ => s

/-! ## Region instructions that wait for their home (R291) -/

/-- The task that asked still waits for this answer. -/
def asksFor (o : Op) (s : State) : Bool := ownerPresent o s && (ctxAt o.owner s).flow.homeAnswer == some (.asked o.id)

/-- The answer of a home reaches the waiting bundle; a bundle of which nothing commits asks for no post any more (R353). -/
def answerHome (o : Op) (a : HomeAnswer) (s : State) : State :=
  let quiet := fun (r : Option Member) => match a with | .refused .. => r.map (fun m => { m with flag := none }) | _ => r
  if asksFor o s then modCtxAt o.owner (Ctx.modFlow (fun w => { w with homeAnswer := some a, region := quiet w.region })) s else s

/-- The trap that a home's refusal names. -/
def refusalCause (code : Word) : Cause := if code = 0x17 then .regionAborted else .operandValue

/-! ## The end of a remote operation (R350, R352, R356) -/

/-- The address of a part, as the requester names it. -/
def partAddr (p : Part) : Word := BitVec.ofNat 64 (Config.heapBase + p.req.offset.toNat)

/-- The address of the first of some parts. -/
def firstAddr (ps : List Part) : Word := match ps with | p :: _ => partAddr p | [] => 0

/-- The causes whose trap names an address (spec/09_traps.md R131). -/
def Cause.namesAddress (c : Cause) : Bool :=
  c == .translationFault || c == .permissionFault || c == .bounds || c == .fabricTimeout

/-- An operation ends with a timeout: with BOUNDS 0 a boundary trap, which logs the return point and no bytes (spec/09_traps.md
R125), and no post, otherwise its post.  An invalidation that a die does not answer just ends (log entry 67). -/
def endTimedOut (o : Op) (first : Option Part) (s : State) : State :=
  if o.kind = .posted then endOp o s
  else if recBounds o.record = 0 then
    endOp o (raiseLogged o none .fabricTimeout 0 (firstAddr first.toList) s)
  else finishOp o (match o.kind with | .mload .. => (if o.doomed then s else setMlprog o 0 s) | _ => s)

/-- The flag post of a block transfer follows its bytes (R172). -/
def sendFlagPart (o : Op) (r : Remote) (c : BitVec 6) (f : BitVec 5) (s : State) : State :=
  let p := partOf r.slot r.gen r.parts.length (flagReq (requestOf o r.dst s) c f) 0
  sendPacket p.req (modRemote o.id (fun r => { r with parts := r.parts ++ [p] }) s)

/-- The flag post that a block transfer has still to send. -/
def flagOwed (o : Op) (r : Remote) : Option (BitVec 6 × BitVec 5) :=
  match o.kind with
  | .blockCopy _ rf => if r.parts.any (fun p => p.req.type == 7) then none else rf
  | _ => none

/-- What follows once every part of an operation has been answered. -/
def settleRemote (id : Nat) (s : State) : State :=
  match findOp id s with
  | none => s
  | some o =>
    match o.remote with
    | none => s
    | some r =>
      if r.parts.any (fun p => !p.answered) then s
      else if r.failed then endOp o s
      else
        match r.parts.find? (·.unreachable), o.kind with
        | some p, .regionAsk .. => endOp o (answerHome o (.refused .fabricTimeout (partAddr p)) s)
        | some p, _ => endTimedOut o (some p) (withFocus o.owner (deliverRemote o r) s)
        | none, _ =>
          match flagOwed o r with
          | some (c, f) => sendFlagPart o r c f s
          | none =>
            let s := withFocus o.owner (deliverRemote o r) s
            (match o.kind with | .mload .. => finishMload o s | _ => finishOp o s)

/-- A fault found at the peer stops the operation, unless it is a speculative load (R165, R356). -/
def failRemote (o : Op) (cause : Cause) (p : Part) (s : State) : State :=
  match o.kind with
  | .regionAsk .. => modRemote o.id (fun r => { r with failed := true }) (answerHome o (.refused cause (if cause.namesAddress then partAddr p else 0)) s)
  | k =>
    let s := raiseFor o .engineFault 0 (partAddr p) (landFree o s)
    let s := match k, o.remote with
      | .mload f _ _, some _ => if o.doomed then s else setMlprog o (mlprogOf f (min (unitsReceived o) (p.pos / 64))) s
      | _, _ => s
    modOp o.id (fun x => { x with doomed := true, remote := x.remote.map (fun r => { r with failed := true }) }) s

def Op.speculative (o : Op) : Bool :=
  match o.kind with
  | .tileLoad spec .. => spec
  | .vecLoad _ spec _ => spec
  | .elemLoad _ _ _ spec _ => spec
  | _ => false

/-- The part a response answers. -/
def partFor (p : Packet) (o : Op) : Option Part := o.remote.bind (fun r => r.parts[p.part.toNat]?)

/-- FABTMO in ns, and RETRYLIM. -/
def fabTmoNs (c : BitVec 64) : Nat := (bits 20 20 c : BitVec 20).toNat * 1000
def retryLim (c : BitVec 64) : Nat := (bits 16 4 c : BitVec 4).toNat

/-- The time of a slot with an unanswered part is up. -/
def slotExpired (c : CtxId) (i : Nat) (s : State) : Bool :=
  match (ctxAt c s).flow.slots[i]? with
  | some x => x.held && x.since + fabTmoNs s.die.router.control ≤ s.timeNs
  | none => false

/-- SLOT_TIMEOUT. -/
def timeoutSlot (c : CtxId) (i : Nat) (s : State) : State :=
  if !slotExpired c i s then s
  else
    match (ctxAt c s).flow.slots[i]? with
    | none => s
    | some x =>
      let s := modCtxAt c (modSlot i (fun y => { y with held := false, gen := y.gen + 1 })) s
      let s := s.modRouter (fun r => { r with timeout := r.timeout + 1 })
      match findOp x.op s with
      | none => s
      | some o =>
        match o.remote with
        | none => s
        | some r =>
          if r.failed then endOp o s
          else
            match o.kind with
            | .regionAsk .. => endOp o (answerHome o (.refused .fabricTimeout (firstAddr r.parts)) s)
            | _ => endTimedOut o (r.parts.find? (fun p => !p.answered || p.unreachable))
                     (withFocus o.owner (deliverRemote o r) s)

/-- A response that comes after the cycle in which its slot's timer expired finds the slot timed out (R352). -/
def expireFirst (p : Packet) (s : State) : State :=
  match (ctxAt (packetCtx p) s).flow.slots[(tagSlot p).toNat]? with
  | some x => if x.held && x.since + fabTmoNs s.die.router.control < s.timeNs then timeoutSlot (packetCtx p) (tagSlot p).toNat s else s
  | none => s

/-- A packet answers one that the die sent for itself (log entry 21). -/
def answersOwn (p : Packet) (s : State) : Bool := p.part == ownPart && !(acceptedOp p s).any (fun o => (partFor p o).isSome)

/-- The answer of another die's region unit: it has locked the lines of a region of this home, or cannot be reached. -/
def takeOwn (p : Packet) (s : State) : State :=
  let x := takeClock p s
  shardAnswers p.src (nameOf p.opa p.asid) (mergeOwn x.2 x.1)

/-- A response of the classes that answer parts: `act` is what it does to an operation that has not failed. -/
def onResponse (p : Packet) (mark : Part → Part) (act : Op → Part → State → State) (s : State) : State :=
  let x := takeClock p s
  let s := expireFirst p (mergeOwn x.2 x.1)
  match acceptedOp p s with
  | none => dropStale p s
  | some o =>
    match partFor p o with
    | none => restartTimer p s
    | some part =>
      let s := restartTimer p (modRemote o.id (answerPart p.part.toNat mark) s)
      let dead := match o.remote with | some r => r.failed || part.answered | none => true
      let s := if dead then s else (match findOp o.id s with | some o => act o part s | none => s)
      settleRemote o.id s

/-- DATA_RESPONSE: the bytes go to the operation's destination. -/
def takeData (p : Packet) : State → State :=
  onResponse p id (fun o part s =>
    match o.kind, o.remote with
    | _, some r => withFocus o.owner (placeBytes o r (p.payload.mapIdx (fun i b => (part.pos + i, b)))) s
    | _, none => s)

/-- ACKNOWLEDGEMENT; that of a region operation names its value in OPA and the region's address space (log entry 21). -/
def takeAck (p : Packet) (s : State) : State :=
  if answersOwn p s then takeOwn p s
  else onResponse p id (fun o _ s => match o.kind with | .regionAsk .. => answerHome o (.done p.opa p.asid) s | _ => s) s

/-- ERROR_RESPONSE by status. -/
def takeError (p : Packet) (s : State) : State :=
  if answersOwn p s then takeOwn p s
  else
  match p.aux.toNat with
  | 3 => onResponse p (fun x => { x with poisoned := true }) (fun o part s => match o.kind with
      | .regionAsk .. => failRemote o .uncorrectable part s | _ => s) s
  | 4 => onResponse p (fun x => { x with unreachable := true }) (fun _ _ s => s) s
  | 5 => onResponse p id (fun o part s => failRemote o (refusalCause p.opa) part s) s
  | n =>
    if (acceptedOp p s).any Op.speculative then onResponse p (fun x => { x with poisoned := true }) (fun _ _ s => s) s
    else onResponse p id (fun o part s =>
      failRemote o (if n = 2 then .permissionFault else .translationFault) part s) s

/-! ## Retries (R351) -/

/-- RETRY_RESPONSE: the request is sent again 1 µs later. -/
def takeRetry (p : Packet) (s : State) : State :=
  let x := takeClock p s
  let s := expireFirst p (mergeOwn x.2 x.1)
  match acceptedOp p s with
  | none => dropStale p s
  | some o =>
    match partFor p o with
    | some part =>
      if part.answered then s
      else s.modRouter (fun r => { r with retries := r.retries ++ [(s.timeNs + 1000, part.req)] })
    | none => s

/-- RETRY_RESEND once its time has come. -/
def resend (i : Nat) (s : State) : State :=
  match s.die.router.retries[i]? with
  | none => s
  | some (t, q) =>
    if s.timeNs < t then s
    else
      let s := s.modRouter (fun r => { r with retries := r.retries.eraseIdx i })
      if (acceptedOp q s).isSome then sendPacket q s else s

/-! ## Serving requests (R177, R178, R182, R292 to R300, R356) -/

/-- A response to a request. -/
def replyTo (p : Packet) (ty : BitVec 6) (aux : BitVec 8) (opa : Word) (payload : List Byte) (s : State) : State :=
  sendPacket { dst := p.src, src := s.die.coord, type := ty, cls := 1, dl := false, tag := p.tag, core := p.core,
               ctx := p.ctx, part := p.part, scope := p.scope, asid := p.asid, offset := p.offset, len := payload.length,
               aux := aux, opa := opa, opb := 0, clk := [], payload := payload } s

def replyError (p : Packet) (status : BitVec 8) (opa : Word) (s : State) : State := replyTo p 34 status opa [] s
def replyAck (p : Packet) (s : State) : State := replyTo p 33 0 0 [] s
def replyData (p : Packet) (bs : List Byte) (s : State) : State := replyTo p 32 0 0 bs s

/-- Addresses of the heap bytes that a request names: those from its offset, or those that its payload names (log entry 46). -/
def requestBytes (p : Packet) (n : Nat) : List (Option Nat) :=
  if (p.type.toNat = 3 ∨ p.type.toNat = 4 ∨ p.type.toNat = 5 ∨ p.type.toNat = 6) ∧ p.payload.length = 8 * n then
    (List.range n).map (fun i =>
      let o := leNat ((p.payload.drop (8 * i)).take 8)
      if o = 2 ^ 64 - 1 then none else some (Config.heapBase + o))
  else (List.range n).map (fun i => some (Config.heapBase + p.offset.toNat + i))

/-- The heap bytes that a request names, translated under its ASID with the rights of user mode, since a packet names no mode
(log entry 48); a fault is answered.  A request for what lies beyond the installed memory is never answered, and is dropped
after 1 ms (R348; log entry 14). -/
def onHeap (p : Packet) (n : Nat) (access : Access) (s : State) (k : List (Option PByte) → State) : State :=
  match cellsFor p.asid true access none s (requestBytes p n) with
  | .ok cs => k cs
  | .fail .translation _ => replyError p 1 0 s
  | .fail .permission _ => replyError p 2 0 s
  | .fail .poisoned _ => replyError p 3 0 s
  | .fail _ _ => s.modRouter (fun r => { r with heldRequests := r.heldRequests ++
      [({ req := p, clock := [], since := s.timeNs, stuck := true } : HeldRequest)] })

def serveRead (p : Packet) (s : State) : State :=
  onHeap p p.len .read s (fun cs => if cellsPoison cs s then replyError p 3 0 s else replyData p (readCells cs s) s)

def serveWrite (p : Packet) (s : State) : State :=
  onHeap p p.len .write s (fun cs => replyAck p (storeCells (pairCells cs p.payload) s))

/-- An indivisible update of the bytes by an operation's rule (R177, R178). -/
def serveAtomic (p : Packet) (n : Nat) (access : Access) (k : OpKind) (reply : Bool) (s : State) : State :=
  onHeap p n access s (fun cs =>
    if access = .atomic ∧ cellsPoison cs s then replyError p 3 0 s
    else
      let old := leNat (readCells cs s)
      let s := match atomicBytes k old with | some bs => storeCells (pairCells cs bs) s | none => s
      if reply then replyData p (leBytes n old) s else replyAck p s)

def serveAmo (p : Packet) (s : State) : State :=
  let wide := p.aux.getLsbD 5
  serveAtomic p (amoBytes wide) .atomic (.amo 0 (bits 0 3 p.aux) (p.aux.getLsbD 6) wide (p.aux.getLsbD 7) p.opa)
    (!p.aux.getLsbD 7) s

def serveCas (p : Packet) (s : State) : State :=
  let wide := p.aux.getLsbD 5
  serveAtomic p (amoBytes wide) .atomic (.amoc 0 wide p.opa p.opb) true s

def serveSignal (add : Bool) (p : Packet) (s : State) : State := serveAtomic p 8 .write (.signal add p.opa) false s

def servePost (p : Packet) (s : State) : State :=
  replyAck p (postFlag (p.offset.setWidth 6) (p.aux.setWidth 5) p.opa.toNat s)

/-- The region of a tentative request. -/
def packetRegion (p : Packet) : RegionName := nameOf p.opa (p.opb.setWidth 16)

/-- A tentative access at this shard; where its region has ended, a read brings free bytes and a write records nothing
(R295). -/
def serveTentRead (p : Packet) (s : State) : State :=
  onHeap p p.len .read s (fun cs =>
    if !regionLive (packetRegion p) s then replyData p (leBytes p.len (Config.freeWord (s.freeIdx 63)).toNat) s
    else if cellsPoison cs s then replyError p 3 0 s
    else replyData p (tentativeBytes (packetRegion p) cs s) s)

def serveTentWrite (p : Packet) (s : State) : State :=
  onHeap p p.len .write s (fun cs =>
    replyAck p (if regionLive (packetRegion p) s then tentativeCells (packetRegion p) (pairCells cs p.payload) s else s))

/-- The object that a region operation names. -/
def packetObj (p : Packet) : BitVec 34 := bits 6 34 p.offset

def serveOpen (p : Packet) (s : State) : State :=
  onHeap p 64 .atomic s (fun cs =>
    match cs.head? with
    | some (some c) =>
      (match homeOpen c (packetObj p) p.asid (bits 0 6 p.opa) (bits 6 10 p.opa) s with
       | (s, some gen) => replyTo p 33 0 (handleOf s.die.coord gen (packetObj p)) [] s
       | (s, none) => replyError p 5 0x0B s)
    | _ => s)

/-- The answer to an operation of the home. -/
def replyHome (p : Packet) (r : State × Option Cause) : State :=
  match r.2 with
  | none => replyAck p r.1
  | some c => replyError p 5 (c.code.setWidth 64) r.1

/-- The region that a region operation names, OBJ being the packet's offset. -/
def askedRegion (p : Packet) : RegionName := { nameOf p.opa p.asid with obj := packetObj p }

/-- A join's answer names the address space of the region, which the member keeps (log entry 21). -/
def serveJoin (p : Packet) (s : State) : State :=
  replyHome { p with asid := (ownName { askedRegion p with home := s.die.coord } s).asid }
    (homeJoin (askedRegion p) { die := p.src, ctx := packetCtx p, serial := 0, flag := none } s)

/-- The answer to a region unit names the region. -/
def replyOwn (p : Packet) (s : State) : State := replyTo p 33 0 p.opa [] s

/-- A vote, which names in OPB the dies to whose shards the voter has stored; or the word of a region's home on another die,
which asks for its lines to be locked, or to be made visible (log entry 21). -/
def serveCommit (p : Packet) (s : State) : State :=
  if handleHome p.opa = s.die.coord then replyHome p (homeCommit (askedRegion p) p.opb s)
  else if p.opb = lockCode then replyOwn p (lockLines (askedRegion p) s)
  else replyOwn p (regionEnds (askedRegion p) true s)

/-- A member's abort; or a shard's report, which OPB tells (log entry 21). -/
def serveAbort (p : Packet) (s : State) : State :=
  if p.opb = 0 then replyAck p (abortRegion (askedRegion p) 1 s)
  else if p.opb.toNat = lineReport then replyOwn p (countLine (askedRegion p) s)
  else replyOwn p (abortRegion (askedRegion p) p.opb.toNat s)

/-- The TLB entries that an invalidation of another die names (spec/11_storage.md R181). -/
def serveInvalidate (p : Packet) (s : State) : State :=
  replyAck p (dropTlb (if p.opa = 1 then notGlobal p.asid else mapsVa p.asid (Config.heapBase + p.offset.toNat)) s)

def serveLeave (p : Packet) (s : State) : State := replyHome p (homeLeave (askedRegion p) s)

/-- A request by type; the flag tells that it is a write or a post, with which the clock is merged (R230). -/
def requestAct (p : Packet) : Option ((State → State) × Bool) :=
  match p.type.toNat with
  | 1 => some (serveRead p, false)
  | 2 => some (serveWrite p, true)
  | 3 => some (serveAmo p, true)
  | 4 => some (serveCas p, true)
  | 5 => some (serveSignal false p, true)
  | 6 => some (serveSignal true p, true)
  | 7 => some (servePost p, true)
  | 8 => some (serveTentRead p, false)
  | 9 => some (serveTentWrite p, true)
  | 10 =>
    (match p.aux.toNat with
     | 1 => some (serveOpen p, true)
     | 2 => some (serveJoin p, true)
     | 3 => some (serveCommit p, true)
     | 4 => some (serveAbort p, true)
     | 5 => some (serveLeave p, true)
     | 6 => some (serveInvalidate p, false)
     | _ => none)
  | _ => none

/-- A held write of another die was sent before the release that a clock names (R230). -/
def heldBefore (c : SMap (BitVec 64)) (q : HeldRequest) (s : State) : Bool :=
  match domainIndex q.req.src s, requestAct q.req with
  | some j, some act => act.2 && !q.stuck && smGet 0 q.clock j < smGet 0 c j
  | _, _ => false

/-- The clock that a request carries covers a write that this home has still to apply (R230): one of this die before a release
that it has not performed, or one of another die that is held here.  Packets of one class arrive in order, and a release is
performed once the writes before it are acknowledged, so no other write that it covers is missing (log entry 49). -/
def clockAhead (c : SMap (BitVec 64)) (s : State) : Bool :=
  (match domainIndex s.die.coord s with
   | some i => smGet 0 s.die.clocks.own i < smGet 0 c i
   | none => false) || s.die.router.heldRequests.any (fun q => heldBefore c q s)

/-- A request that reads or writes bytes of memory. -/
def namesMemory (p : Packet) : Bool := (1 ≤ p.type.toNat && p.type.toNat ≤ 6) || p.type == 8 || p.type == 9

/-- A request has still to wait at its target: for writes that its clock covers (R230), for the lines of a region that has come
to its commit point (spec/19_trees_regions.md R297), or, as an invalidation, for the requests that this die has translated
(spec/11_storage.md R181).  The messages of region units never wait. -/
def mustWait (c : SMap (BitVec 64)) (p : Packet) (s : State) : Bool :=
  p.part != ownPart && (clockAhead c s || (namesMemory p && s.linesLocked) ||
    (p.type == 10 && p.aux == 6 && s.die.ops.any (fun o => o.asid == p.asid && !o.cells.isEmpty)))

/-- A request is served: the clock is merged with a write. -/
def serveNow (act : (State → State) × Bool) (c : SMap (BitVec 64)) (s : State) : State :=
  act.1 (if act.2 then mergeOwn c s else s)

/-- A request arrives: it is served, or held until its causal predecessors have been applied, at most 4,096 of them; beyond
that it is answered with a retry (R351). -/
def serveRequest (p : Packet) (s : State) : State :=
  match requestAct p with
  | none => s
  | some act =>
    let x := takeClock p s
    if mustWait x.2 p x.1 then
      if x.1.die.router.heldRequests.length < 4096 then
        x.1.modRouter (fun r => { r with heldRequests := r.heldRequests ++ [{ req := p, clock := x.2, since := s.timeNs }] })
      else replyTo p 35 0 0 [] x.1
    else serveNow act x.2 x.1

/-- The first held request whose predecessors have been applied is served. -/
def serveHeld (s : State) : Option State :=
  match s.die.router.heldRequests.findIdx? (fun q => !q.stuck && !mustWait q.clock q.req s) with
  | none => none
  | some i =>
    match s.die.router.heldRequests[i]? with
    | none => none
    | some q =>
      let s := s.modRouter (fun r => { r with heldRequests := r.heldRequests.eraseIdx i })
      some (match requestAct q.req with | some act => serveNow act q.clock s | none => s)

end Sys2Proof.Machine
end

