-- ==== Sys2Proof/Machine/Control.lean ====
section
/-! DEFINITION. The C slot: condition trees, transfers, loops, `setfmt`, traps and services, and the control of tasks
(spec/03_bundles.md R28 to R31, R51, R52; spec/07_scalar_control.md R86 to R104). -/
namespace Sys2Proof.Machine

/-! ## The condition tree (R30, R31) -/

/-- Testing nodes by shape, the first with TEST1. -/
def testNodes (shape : BitVec 3) : List Nat :=
  match shape.toNat with
  | 0 => []
  | 1 => [1]
  | 2 => [1, 2]
  | 3 => [1, 3]
  | 4 => [1, 2, 3]
  | 5 => [1, 2, 4]
  | 6 => [1, 3, 5]
  | _ => [1, 2, 3, 4]

/-- Number of nodes of a shape. -/
def nodeCount (shape : BitVec 3) : Nat := 2 * (testNodes shape).length + 1

/-- Leaves by shape, in target order. -/
def leafNodes (shape : BitVec 3) : List Nat :=
  ((List.range (nodeCount shape)).map (· + 1)).filter (fun n => !(testNodes shape).contains n)

def treeTest (t : TreeF) (k : Nat) : BitVec 4 :=
  match k with | 0 => t.test1 | 1 => t.test2 | 2 => t.test3 | _ => t.test4

def treeOff (t : TreeF) (k : Nat) : BitVec 14 :=
  match k with | 0 => t.off0 | 1 => t.off1 | 2 => t.off2 | 3 => t.off3 | _ => t.off4

/-- A test holds where its predicate, inverted for polarity 1, is 1. -/
def testHolds (pred : Nat → BitVec 4 → Bool) (k : Nat) (t : BitVec 4) : Bool :=
  pred k ((bits 0 3 t : BitVec 3).setWidth 4) != t.getLsbD 3

/-- The taken path from a node to its leaf, root first.  Node `n`, when the `k`-th testing node counted from 1, has the
children 2k where its test holds and 2k + 1 where it fails. -/
def pathFrom (t : TreeF) (pred : Nat → BitVec 4 → Bool) : Nat → Nat → List Nat
  | 0, n => [n]
  | fuel + 1, n =>
    match (testNodes t.shape).findIdx? (· == n) with
    | none => [n]
    | some k => n :: pathFrom t pred fuel (if testHolds pred k (treeTest t k) then 2 * (k + 1) else 2 * (k + 1) + 1)

def treePath (t : TreeF) (pred : Nat → BitVec 4 → Bool) : List Nat := pathFrom t pred 4 1

/-- The leaf taken, by its number among the targets. -/
def leafTaken (t : TreeF) (path : List Nat) : Nat := ((leafNodes t.shape).findIdx? (· == path.getLastD 1)).getD 0

/-- The predicates that the tests of a bundle see. -/
def State.treePred (s : State) (k : Nat) (r : BitVec 4) : Bool := s.readK (keyC + k) r

/-! ## Transfers (R86 to R89) -/

/-- A taken transfer ends every open level and continues at its target (R93). -/
def goto (target : Word) (s : State) : State := s.modFlow (fun w => { w with pc := target, levels := [] })

/-- A transfer to an address as an integer; outside 0 to 2^56 − 1 it raises fetch fault, FADDR the target (R86). -/
def jumpTo (target : Int) : SlotRes :=
  if target < 0 ∨ 2 ^ 56 ≤ target then .trap .fetchFault 0 (BitVec.ofInt 64 target) else .ok (goto (BitVec.ofInt 64 target))

/-- The line target at a signed offset. -/
def lineTarget (off : Int) (s : State) : Int := (s.line.toNat : Int) + 64 * off

def slotTree (t : TreeF) (s : State) : SlotRes :=
  let off := treeOff t (leafTaken t (treePath t s.treePred))
  if off = 0 then .nothing else jumpTo (lineTarget off.toInt s)

def slotJmp (off : BitVec 25) (s : State) : SlotRes := jumpTo (lineTarget off.toInt s)

def slotJmpr (r : GP) (s : State) : SlotRes :=
  cleanG keyC r.reg s fun a => if bits 0 6 a != 0 then .trapOf .misalignedTarget else jumpTo a.toNat

/-- `call` writes the address after its bundle to g31, with a bound of 1. -/
def slotCall (off : BitVec 25) (next : Word) (s : State) : SlotRes :=
  destG 31 s (match jumpTo (lineTarget off.toInt s) with
    | .ok f => .ok (fun u => f (u.resultG 31 next false 0 1))
    | x => x)

def slotRet (r : GP) (s : State) : SlotRes := cleanG keyC r.reg s fun a => jumpTo a.toNat

/-! ## Loops (R90 to R93) -/

/-- The levels around one that ends where they end, after the bundle at `pc`, count a pass each, without closing. -/
def countEnds (pc : Word) : List Level → List Level
  | [] => []
  | o :: r => if o.last = some pc then { o with left := o.left - 1 } :: countEnds pc r else o :: r

/-- The bundle at `pc` is done: where the context continues, and the levels that stay open. -/
def passBody (pc next : Word) : List Level → List Level × Word
  | [] => ([], next)
  | o :: r =>
    if o.last ≠ some pc then (o :: r, next)
    else if 0 < o.left - 1 then ({ o with left := o.left - 1 } :: countEnds pc r, o.first)
    else passBody pc next r

/-- How far a bundle takes a context in the stream of its pour. -/
def FlowCtx.pourStep (w : FlowCtx) : Nat := match w.task with | some t => if t.pour then 1 else 0 | none => 0

/-- A bundle has committed: the pc moves on, by way of the innermost open level. -/
def advanceFlow (next : Word) (w : FlowCtx) : FlowCtx :=
  let r := passBody w.pc next w.levels
  { w with pc := r.2, levels := r.1, lastPc := w.pc, rptLeft := w.rptLeft - 1, pourPos := w.pourPos + w.pourStep }

/-- How the scan of a body ends: at the address after it, or at what cannot be scanned. -/
inductive BodyEnd where
  | at_ (a : Nat)
  | fault (line : Nat)
  | poisoned
  | illegal
  | absent
  | pending (w : WalkArg) (asked : Bool)
  deriving DecidableEq, Repr

/-- The addresses of the `n` bundles that follow an address (R91), as far as they can be fetched; marks are skipped and not
counted (R26).  Each turn takes a bundle or a line, and addresses end at 2^56 (R86), so `scanFuel` turns always suffice. -/
def scanBody (s : State) : Nat → Nat → Nat → List Nat × BodyEnd
  | 0, _, a => ([], .fault (a / 64 * 64))
  | _ + 1, 0, a => ([], .at_ a)
  | fuel + 1, n + 1, a =>
    match fetchAt a s with
    | .fault => ([], .fault (a / 64 * 64))
    | .poisoned => ([], .poisoned)
    | .absent => ([], .absent)
    | .pending w asked => ([], .pending w asked)
    | .line bs =>
      match bs with
      | [] => ([], .illegal)
      | h :: t =>
        if h = 0 then scanBody s fuel (n + 1) ((a / 64 + 1) * 64)
        else match bundleLength h (t.headD 0) with
          | none => ([], .illegal)
          | some l =>
            if bs.length < l then ([], .illegal)
            else let x := scanBody s fuel n (a + l); (a :: x.1, x.2)

def scanFuel : Nat := 2 ^ 51

/-- The bundles of a body, as far as its lines can be fetched. -/
def bodyAt (s : State) (len : Nat) (first : Word) : List Nat × BodyEnd := scanBody s scanFuel len first.toNat

/-- The last bundle of a body, once its lines can be fetched. -/
def lastBundle (s : State) (len : Nat) (first : Word) : Option Word :=
  let x := bodyAt s len first
  if x.1.length = len then x.1.getLast?.map (BitVec.ofNat 64) else none

/-- The last bundles of open levels are found as soon as the lines of their bodies can be fetched. -/
def State.foundLevels (s : State) : List Level :=
  s.cur.flow.levels.map (fun o => if o.last.isNone then { o with last := lastBundle s o.len o.first } else o)

/-- At most one level is open, and a body of `len` bundles that is opened inside its body ends at or before its last bundle
(R92). -/
def nestOk (len : Nat) (s : State) : Bool :=
  match s.cur.flow.levels with
  | [] => true
  | [o] =>
    (match (bodyAt s o.len o.first).1.findIdx? (· == s.pc.toNat) with
     | some k => k + 1 + len ≤ o.len
     | none => true)
  | _ => false

def loopLen (len : BitVec 6) : Nat := if len = 0 then 64 else len.toNat

/-- Cycles that pass without an issue. -/
def ticks : Nat → State → State
  | 0, s => s
  | n + 1, s => ticks n s.tick

/-- A loop with its count: a level opens, or the body is passed over.  A line of a body of count 0 that holds poisoned bytes
or no bundle raises uncorrectable error or illegal instruction at the `loop` bundle, as it would at a bundle of its own: the
rule speaks of lines that cannot be fetched alone (log entry 38).  DESIGN CHOICE: a body of count 0 that ends at the last bundle
of the enclosing body counts a pass of the enclosing level, like an inner level that closes there, so the context may go on at
the enclosing body's first bundle; R91 says only that it goes to the bundle after the body (log entry 38). -/
def openLoop (cnt len : Nat) (next : Word) (s : State) : SlotRes :=
  if !nestOk len s then .trapOf .loopNest
  else if cnt = 0 then
    let x := bodyAt s len next
    match x.2 with
    | .at_ a => .ok (fun u => ticks ((x.1.map (· / 64)).dedup.length) (u.modFlow (fun w =>
        let r := passBody (BitVec.ofNat 64 (x.1.getLastD 0)) (BitVec.ofNat 64 a) w.levels
        { w with pc := r.2, levels := r.1 })))
    | .fault l => .trap .fetchFault 0 (BitVec.ofNat 64 l)
    | .poisoned => .trapOf .uncorrectable
    | .illegal => .trapOf .illegal
    | .absent => .stop .absentMemory
    | .pending w asked => fillWait w asked
  else
    .ok (State.modFlow (fun w => { w with
      levels := { first := next, len := len, last := lastBundle s len next, left := cnt } :: w.levels }))

def slotLoopImm (count : BitVec 16) (len : BitVec 6) (next : Word) (s : State) : SlotRes :=
  openLoop count.toNat (loopLen len) next s

def slotLoopReg (r : GP) (len : BitVec 6) (next : Word) (s : State) : SlotRes :=
  cleanG keyC r.reg s fun v => openLoop (low32 v).toNat (loopLen len) next s

/-! ## `rpt`, `setfmt` (R52, R95) -/

/-- The repeat window: the n − 1 bundles after this one. -/
def slotRpt (r : RptF) (_s : State) : SlotRes :=
  .ok (State.modFlow (fun w => { w with rptLeft := rptCount (some r) - 1 }))

def slotSetfmtImm (v : BitVec 32) (_s : State) : SlotRes := fmtWrite (v.setWidth 64)
def slotSetfmtReg (r : GP) (s : State) : SlotRes := cleanG keyC r.reg s fmtWrite

/-! ## Traps and services (R98 to R100) -/

def slotTrap (code : BitVec 8) (_s : State) : SlotRes := .trap .softwareTrap code 0

/-- Earlier results of the context have all landed. -/
def State.resultsLanded (s : State) : Bool :=
  s.cur.pend.all (·.landed) && s.cur.owed.isEmpty && s.cur.q.toList.all (fun l => l.all (·.landed))

/-- `sysc`: the notice carries the service number, NEXT and g1 to g4; then the context waits for its service flag. -/
def slotSysc (code : BitVec 8) (next : Word) (s : State) : SlotRes :=
  if !s.resultsLanded then .hold
  else
    cleanG keyC 1 s fun a1 => cleanG keyC 2 s fun a2 => cleanG keyC 3 s fun a3 => cleanG keyC 4 s fun a4 =>
    if s.noticesFull then .trapOf .queueFull
    else .ok (fun u =>
      (enqueueNotice 2 code { a0 := next, a1 := a1, a2 := a2, a3 := a3, a4 := a4 } u.cur.flow.task (rankOf u.curId) u).modFlow
        (fun w => { w with serviceWait := some next }) |>.modCore (Core.addWaiter u.core.sel (28 + u.core.sel.setWidth 5) 1))

def slotEret (s : State) : SlotRes := if s.cur.sys.handler then .ok returnTrap else .trapOf .noHandler

/-- `done`: the task retires once the plane operations of its context have completed. -/
def slotDone (_s : State) : SlotRes := .ok (State.modFlow (fun w => { w with doneWait := true }))

/-! ## `wdog` (R104) -/

/-- The four actions on a context's watchdog. -/
def wdogAct (act : BitVec 2) (cyc : Nat) (c : Ctx) : Ctx :=
  let c := c.modSys (fun y => { y with wdArmed := cyc })
  match act.toNat with
  | 0 => c.wdZero cyc
  | 1 => (c.wdSettle cyc).modSys (fun y => { y with wdSuspended := true })
  | 2 => (c.wdSettle cyc).modSys (fun y => { y with wdSuspended := false })
  | _ => c.modSys (fun y => { y with wdForced := true })

/-- An expiry during a save is latched (spec/09_traps.md R147). -/
def latchExpiry (c : CtxId) (s : State) : State :=
  s.modQueues (fun q => { q with saved := q.saved.map (fun v => if v.home = c ∧ v.saving then { v with expired := true } else v) })

/-- The watchdog of a context in its save has expired, by its count or by this action; an expiry while the context drains for
its save stays forced. -/
def latchWdog (act : BitVec 2) (c : CtxId) (s : State) : State :=
  let x := ctxAt c s
  let out := act == 3 || x.wdOver (coreAt c.core s).cycle
  if out && x.flow.residency == .saving then latchExpiry c s
  else if out && x.flow.saveWait.isSome then modCtxAt c (Ctx.modSys (fun y => { y with wdForced := true })) s
  else s

def slotWdog (r : GP) (s : State) : SlotRes :=
  cleanG keyC r.reg s fun v =>
  if bits 2 60 v != 0 then .trapOf .operandValue
  else
    .ok (fun u =>
      let c : CtxId := { core := u.core.id, ctx := bits 0 2 v }
      modCtxAt c (wdogAct (bits 62 2 v) u.core.cycle) (latchWdog (bits 62 2 v) c u))

end Sys2Proof.Machine
end

