-- ==== Sys2Proof/Machine/Bundle.lean ====
section
/-! DEFINITION. What a bundle's encoding alone decides: guards, ports, destinations, pops and pushes, the checks across slots
of spec/03_bundles.md R53, and privilege (R54). -/
namespace Sys2Proof.Machine

/-! ## Registers and queues that an instruction names -/

/-- A destination of R48. -/
inductive Name where
  | g (r : BitVec 5)
  | k (r : BitVec 4)
  | m (r : BitVec 3)
  | q (r : BitVec 5)
  | b (r : BitVec 4)
  | sys (n : BitVec 10)
  deriving DecidableEq, Repr

/-- g0, k0 and m0 are no destinations. -/
def gDest (r : BitVec 5) : List Name := if r = 0 then [] else [.g r]
def kDest (r : BitVec 4) : List Name := if r = 0 then [] else [.k r]
def mDest (r : BitVec 3) : List Name := if r = 0 then [] else [.m r]

/-- The architectural destinations of an instruction (R48). -/
def dests : Instr → List Name
  | .call _ => [.g 31]
  | .setfmtImmediate _ | .setfmtRegister _ => [.sys 0]
  | .add _ f | .sub _ f | .mul _ f | .mulh _ f | .mulhn _ f | .and _ f | .or _ f | .xor _ f | .andn _ f | .shl _ f
  | .shr _ f | .sar _ f | .min _ f | .max _ f | .minn _ f | .maxn _ f | .clz _ f | .popc _ f | .brev _ f | .bfx _ f
  | .bfi _ f | .sel _ f | .div f | .rem f | .fadd f | .fsub f | .fmul f | .fma f | .fdiv f | .fsqrt f | .fmin f | .fmax f
  | .fsgn f | .fcvt f | .fclass f | .wget f | .wsum f | .wfind f | .wcut f | .wtot f => gDest f.dst
  | .lea _ f | .addi _ f | .andi _ f | .ori _ f | .shli _ f | .rdsys f | .rdsysTrapinfo f => gDest f.dst
  | .movi _ f | .movhi _ f => gDest f.dst
  | .cmp _ f | .kop _ f | .fcmp f => kDest (f.dst.setWidth 4)
  | .cmpi _ f => kDest (f.dst.setWidth 4)
  | .wrsys f | .wrsysFmt f | .wrsysFstat f | .wrsysFprog f | .wrsysMlprog f | .wrsysPourskew f | .wrsysWdlim f
  | .wrsysTvec f | .wrsysTrapinfo f | .wrsysDutymode f | .wrsysPeer f | .wrsysFlag f => [.sys f.imm]
  | .vadd f | .vsub f | .vmul f | .vfma f | .vfms f | .vmin f | .vmax f | .vabs f | .vneg f | .vdiv f | .vsqrt f
  | .vrsqrt f | .vrcp f | .vexp2 f | .vlog2 f | .vcvt f | .vsel f | .vand f | .vor f | .vxor f | .vnot f | .vshl f
  | .vshr f | .vsar f | .vredsum f | .vredmax f | .vredmin f | .vscan f | .vperm f | .vslide f | .vbcast f | .vdup f
  | .vdrop f | .viota f | .vclamp f | .vmovi f => [.q f.dst]
  | .vcmp f | .vlen f | .mand f | .mor f | .mnot f => mDest (f.dst.setWidth 3)
  | .xsv f => [.q f.pair]
  | .xkm f => mDest f.mask
  | .xvs f => gDest f.pair
  | .xmk f => kDest f.pred
  | .mdrain f | .mrdp f | .mstat f => [.q f.queue]
  | .vld f => [.q f.d]
  | .sld f | .tlook f | .amoc f | .arOpen f | .arLd f => gDest f.d
  | .amo f => if f.modf.getLsbD 5 then [] else gDest f.d
  | .rget f => .q f.d :: gDest (f.imm.setWidth 5)
  | .recld f | .recmk f => [.b f.b]
  | _ => []

/-- A read of a general register through a port (R44). -/
abbrev PortRead := BitVec 2 × BitVec 5

def rrReads1 (f : RR) : List PortRead := [(f.port1, f.src1)]
def rrReads2 (f : RR) : List PortRead := [(f.port1, f.src1), (f.port2, f.src2)]
def lReadO (f : LF) : List PortRead := [(f.oport, f.o)]
def lReadD (f : LF) : List PortRead := [(f.dport, f.d)]

/-- The general registers that an instruction reads, with their ports. -/
def gReads : Instr → List PortRead
  | .jmpr r | .ret r | .loopRegister r _ | .setfmtRegister r | .spawn r | .launch r | .wdogSetZero r | .wdogSuspend r
  | .wdogResume r | .wdogExpire r => [(r.port, r.reg)]
  | .add _ f | .sub _ f | .mul _ f | .mulh _ f | .mulhn _ f | .and _ f | .or _ f | .xor _ f | .andn _ f | .shl _ f
  | .shr _ f | .sar _ f | .min _ f | .max _ f | .minn _ f | .maxn _ f | .bfx _ f | .sel _ f | .cmp _ f | .div f | .rem f
  | .fadd f | .fsub f | .fmul f | .fdiv f | .fmin f | .fmax f | .fsgn f | .fcmp f | .wset f | .wadd f => rrReads2 f
  | .bfi _ f | .fma f => (3, f.dst) :: rrReads2 f
  | .clz _ f | .popc _ f | .brev _ f | .chk _ f | .fsqrt f | .fcvt f | .fclass f | .wclr f | .wget f | .wsum f | .wfind f
  | .wcut f => rrReads1 f
  | .lea _ f | .addi _ f | .andi _ f | .ori _ f | .shli _ f | .wrsys f | .wrsysFmt f | .wrsysFstat f | .wrsysFprog f
  | .wrsysMlprog f | .wrsysPourskew f | .wrsysWdlim f | .wrsysTvec f | .wrsysTrapinfo f | .wrsysDutymode f
  | .wrsysPeer f | .wrsysFlag f => [(f.port1, f.src1)]
  | .cmpi _ f => [(f.port1, f.src1)]
  | .xsv f => [(f.port, f.pair)]
  | .mload f => [(bits 5 2 f.row, bits 0 5 f.row)]
  | .tld f | .tst f | .tldn f | .tstn f | .tprf f | .sst f | .ttag f | .amo f | .swait f | .ssig f | .arSt f =>
    lReadO f ++ lReadD f
  | .amoc f => (bits 5 2 f.imm, bits 0 5 f.imm) :: (lReadO f ++ lReadD f)
  | .arJoin f => lReadD f
  | .bxf f | .vld f | .vst f | .sld f | .tlook f | .tinv f | .feset f | .feclr f | .tfenceInv f | .recld f | .recst f
  | .recmk f | .arOpen f | .arLd f | .wfill f | .wdump f | .rput f | .rputReg f | .rget f | .reos f => lReadO f
  | _ => []

/-- The pops of a V-slot instruction of `n` queue sources: one for each source field without keep (R49). -/
def vPops (n : Nat) (f : VF) : List (BitVec 5) :=
  (if 0 < n ∧ !f.keep1 then [f.src1] else []) ++ (if 1 < n ∧ !f.keep2 then [f.src2] else []) ++
    (if 2 < n ∧ !f.keep3 then [f.src3] else [])

/-- The queues that an instruction pops. -/
def pops : Instr → List (BitVec 5)
  | .vadd f | .vsub f | .vmul f | .vmin f | .vmax f | .vdiv f | .vcmp f | .vsel f | .vand f | .vor f | .vxor f | .vshl f
  | .vshr f | .vsar f | .vperm f => vPops 2 f
  | .vfma f | .vfms f | .vclamp f => vPops 3 f
  | .vabs f | .vneg f | .vsqrt f | .vrsqrt f | .vrcp f | .vexp2 f | .vlog2 f | .vcvt f | .vnot f | .vredsum f | .vredmax f
  | .vredmin f | .vscan f | .vdup f | .vdrop f | .vlen f => vPops 1 f
  | .vslide f => vPops (if f.modf = 0x20 then 3 else 2) f
  | .vbcast f => vPops (if f.modf = 0x20 then 2 else 1) f
  | .xvs f => if f.keep then [] else [f.pair]
  | .mpush f => if f.modf.getLsbD 1 then [] else [f.queue]
  | .mfill f => if f.modf.getLsbD 2 then [] else [f.queue]
  | .vst f | .rput f => if f.modf.getLsbD 0 then [] else [f.d]
  | _ => []

/-- The queues whose heads an instruction reads, kept or popped; `mfill` waits for its entries itself (spec/17_matrix.md
R257). -/
def qReads : Instr → List (BitVec 5)
  | .vadd f | .vsub f | .vmul f | .vmin f | .vmax f | .vdiv f | .vcmp f | .vsel f | .vand f | .vor f | .vxor f | .vshl f
  | .vshr f | .vsar f | .vperm f => [f.src1, f.src2]
  | .vfma f | .vfms f | .vclamp f => [f.src1, f.src2, f.src3]
  | .vabs f | .vneg f | .vsqrt f | .vrsqrt f | .vrcp f | .vexp2 f | .vlog2 f | .vcvt f | .vnot f | .vredsum f | .vredmax f
  | .vredmin f | .vscan f | .vdup f | .vdrop f | .vlen f => [f.src1]
  | .vslide f => if f.modf = 0x20 then [f.src1, f.src2, f.src3] else [f.src1, f.src2]
  | .vbcast f => if f.modf = 0x20 then [f.src1, f.src2] else [f.src1]
  | .xvs f => [f.pair]
  | .mpush f => [f.queue]
  | .vst f | .rput f => [f.d]
  | _ => []

/-- The pushes of an instruction, `n` its beats. -/
def pushesOf (n : Nat) (i : Instr) : List (BitVec 5) :=
  (dests i).flatMap (fun d => match d with
    | .q r => (match i with | .mdrain _ => List.replicate n r | _ => [r])
    | _ => [])

/-- The pops of an instruction of `n` beats. -/
def popsOf (n : Nat) (i : Instr) : List (BitVec 5) :=
  match i with | .mfill _ => (pops i).flatMap (fun r => List.replicate n r) | _ => pops i

/-! ## Guards -/

/-- The guard of a slot (R28); the C slot always executes. -/
def guardOf (i : Instr) : BitVec 4 :=
  match encode i with | some (.c, _) => 0 | some (_, w) => bits 0 4 w | none => 0

def treeOf : List Instr → Option TreeF
  | .tree t :: _ => some t
  | _ => none

/-- Nodes of a bundle's tree: without one, node 1 alone. -/
def bundleNodes (is : List Instr) : Nat := match treeOf is with | some t => nodeCount t.shape | none => 1

/-- The taken path of a bundle. -/
def bundlePath (is : List Instr) (s : State) : List Nat :=
  match treeOf is with | some t => treePath t s.treePred | none => [1]

/-- A slot executes (R28). -/
def taken (path : List Nat) (i : Instr) : Bool := guardOf i = 0 || path.contains (guardOf i).toNat

/-! ## Legality (R53) -/

def rptOf : List Instr → Option RptF
  | .rpt f :: _ => some f
  | _ => none

/-- The order of slots in a bundle, the halves of X apart; none for an event. -/
def slotRank (i : Instr) : Option Nat :=
  (slotOf i).map (fun k => match k with
    | .c => 0 | .a => 1 | .b => 2 | .v => 3 | .m => 4 | .l => 5 | .xlo => 6 | .xhi => 7 | .s => 8)

/-- The slots stand in order, one of each. -/
def slotsOrdered : List (Option Nat) → Bool
  | [] => true
  | [a] => a.isSome
  | a :: b :: r => (match a, b with | some x, some y => x < y | _, _ => false) && slotsOrdered (b :: r)

/-- The halves of the X slot share its guard. -/
def xGuardsOk (is : List Instr) : Bool :=
  match is.filter (fun i => slotOf i == some .xlo || slotOf i == some .xhi) with
  | [a, b] => guardOf a == guardOf b
  | _ => true

/-- One port reads one register (R44). -/
def portsOk : List PortRead → Bool
  | [] => true
  | p :: r => r.all (fun x => x.1 != p.1 || x.2 == p.2) && portsOk r

/-- No element twice. -/
def allDistinct {α : Type} [BEq α] : List α → Bool
  | [] => true
  | a :: r => !r.contains a && allDistinct r

/-- The tree of a B or L slot, and whether the slot updates it (R278). -/
def treeUses : Instr → List (BitVec 3 × Bool)
  | .wclr f | .wset f | .wadd f | .wcut f => [(f.modf, true)]
  | .wget f | .wsum f | .wfind f | .wtot f => [(f.modf, false)]
  | .wmov f => [(f.modf, true), (f.src1.setWidth 3, false)]
  | .wfill f => [(bulkTree f, true)]
  | .wdump f => [(bulkTree f, false)]
  | _ => []

def treesOk (is : List Instr) : Bool :=
  let b := (is.filter (fun i => slotOf i == some .b)).flatMap treeUses
  let l := (is.filter (fun i => slotOf i == some .l)).flatMap treeUses
  !b.any (fun x => l.any (fun y => x.1 == y.1 && (x.2 || y.2)))

/-- A `rpt` bundle holds `macc`, `mdrain` or `mfill`, the last two with a cope-address stride of 0 (R52, R257). -/
def rptOk (is : List Instr) : Bool :=
  match rptOf is with
  | none => true
  | some r => is.any (fun i => match i with
    | .macc _ => true | .mdrain _ => r.stride == 0 | .mfill _ => r.stride == 0 | _ => false)

def hasM (is : List Instr) : Bool := is.any (fun i => slotOf i == some .m)

/-- The checks of R53 on a bundle of decoded slots; `window` tells that it lies in a repeat window. -/
def legal (is : List Instr) (window : Bool) : Bool :=
  !is.isEmpty && is.all wellFormed && slotsOrdered (is.map slotRank) && xGuardsOk is &&
    is.all (fun i => (guardOf i).toNat ≤ bundleNodes is) && portsOk (is.flatMap gReads) && allDistinct (is.flatMap dests) &&
    allDistinct (is.flatMap pops) && treesOk is && rptOk is && !(window && hasM is)

/-! ## Planes and trees that a restore left undefined (spec/07_scalar_control.md R97; spec/09_traps.md R140) -/

/-- The planes that an M slot works on. -/
def planeUses : Instr → List (BitVec 2)
  | .macc f | .mfill f | .mdrain f | .mzero f | .mflu f | .mfch f | .mfqr f => [f.plane]
  | .mtrs f => [f.plane, bits 4 2 f.modf]
  | _ => []

/-- The planes and trees that slots use, as masks. -/
def usedRegions (is : List Instr) : BitVec 4 × BitVec 8 :=
  ((is.flatMap planeUses).foldl (fun m i => setBit m i.toNat true) 0, (is.flatMap treeUses).foldl (fun m x => setBit m x.1.toNat true) 0)

/-- The planes and trees of a mask that are undefined for the current context, and that no other task holds. -/
def blankRegions (u : BitVec 4 × BitVec 8) (s : State) : List HeldKind :=
  let w := s.cur.flow
  ((List.range 4).filter (fun i => (u.1 &&& w.blankPlanes).getLsbD i && !s.planeHeld (BitVec.ofNat 2 i))).map (fun i => .plane (BitVec.ofNat 2 i)) ++
    ((List.range 8).filter (fun i => (u.2 &&& w.blankTrees).getLsbD i && !s.treeHeld (BitVec.ofNat 3 i))).map (fun i => .tree (BitVec.ofNat 3 i))

/-- A region is undefined for a context no more. -/
def FlowCtx.fillBlank (w : FlowCtx) : HeldKind → FlowCtx
  | .plane i => { w with blankPlanes := setBit w.blankPlanes i.toNat false }
  | .tree i => { w with blankTrees := setBit w.blankTrees i.toNat false }
  | _ => w

/-- What the executing slots of a bundle use takes the free values that a restore gave it. -/
def unblank (is : List Instr) (s : State) : State :=
  match blankRegions (usedRegions (is.filter (taken (bundlePath is s)))) s with
  | [] => s
  | ks => ks.foldl (fun t k => (scrubRegion s.freeCount k t).modFlow (fun w => w.fillBlank k)) { s with freeCount := s.freeCount + 1 }

/-! ## Privilege (R54) -/

/-- A slot that user mode may not execute. -/
def privileged (i : Instr) (s : State) : Bool :=
  s.user && (match i with
    | .eret => !s.cur.sys.handler
    | .wdogSetZero _ | .wdogSuspend _ | .wdogResume _ | .wdogExpire _ => true
    | .rdsys f => f.imm == 0x00B
    | .wrsys _ | .wrsysWdlim _ | .wrsysTrapinfo _ | .wrsysDutymode _ => true
    | .tfenceInv _ | .tfenceAll _ => true
    | _ => false)

end Sys2Proof.Machine
end

