-- ==== Sys2Proof/Machine/Slots.lean ====
section
/-! DEFINITION. The slot meanings of all instructions of a bundle in one table (spec/03_bundles.md R45, R46). -/
namespace Sys2Proof.Machine

/-- A rebuild performs no region instruction (spec/21_tasks.md R334). -/
def arGuard (s : State) (k : SlotRes) : SlotRes := if s.isRebuild then .trapOf .operandValue else k

/-- What a slot does: `next` is the address after its bundle, `rpt` the repeat that the bundle's C slot asks for.  An event
is no slot. -/
def slotRes (next : Word) (rpt : Option RptF) (i : Instr) (s : State) : SlotRes :=
  match i with
  | .tree f => slotTree f s
  | .jmp o => slotJmp o s
  | .jmpr r => slotJmpr r s
  | .call o => slotCall o next s
  | .ret r => slotRet r s
  | .loopImmediate c l => slotLoopImm c l next s
  | .loopRegister r l => slotLoopReg r l next s
  | .rpt f => slotRpt f s
  | .setfmtImmediate v => slotSetfmtImm v s
  | .setfmtRegister r => slotSetfmtReg r s
  | .yield => .nothing
  | .phint _ => .nothing
  | .trap c => slotTrap c s
  | .sysc c => slotSysc c next s
  | .eret => slotEret s
  | .done => slotDone s
  | .succ => slotSucc s
  | .spawn r => slotSpawn r s
  | .launch r => slotLaunch r s
  | .wdogSetZero r => slotWdog r s
  | .wdogSuspend r => slotWdog r s
  | .wdogResume r => slotWdog r s
  | .wdogExpire r => slotWdog r s
  | .add u f => slotAdd u f s
  | .sub u f => slotSub u f s
  | .mul u f => slotMul u f s
  | .mulh u f => slotMulh u f s
  | .mulhn u f => slotMulhn u f s
  | .div f => slotDiv f s
  | .rem f => slotRem f s
  | .and u f => slotAnd u f s
  | .or u f => slotOr u f s
  | .xor u f => slotXor u f s
  | .andn u f => slotAndn u f s
  | .shl u f => slotShl u f s
  | .shr u f => slotShr u f s
  | .sar u f => slotSar u f s
  | .min u f => slotMin u f s
  | .max u f => slotMax u f s
  | .minn u f => slotMinn u f s
  | .maxn u f => slotMaxn u f s
  | .clz u f => slotClz u f s
  | .popc u f => slotPopc u f s
  | .brev u f => slotBrev u f s
  | .bfx u f => slotBfx u f s
  | .bfi u f => slotBfi u f s
  | .lea u f => slotLea u f s
  | .sel u f => slotSel u f s
  | .addi u f => slotAddi u f s
  | .andi u f => slotAndi u f s
  | .ori u f => slotOri u f s
  | .shli u f => slotShli u f s
  | .movi u f => slotMovi u f s
  | .movhi u f => slotMovhi u f s
  | .cmp u f => slotCmp u f s
  | .cmpi u f => slotCmpi u f s
  | .kop u f => slotKop u f s
  | .chk u f => slotChk u f s
  | .rdsys f => slotRdsys f s
  | .rdsysTrapinfo f => slotRdsysTrapinfo f s
  | .wrsys f => slotWrsys f s
  | .wrsysFmt f => slotWrsysFmt f s
  | .wrsysFstat f => slotWrsysFstat f s
  | .wrsysFprog f => slotWrsysFprog f s
  | .wrsysMlprog f => slotWrsysMlprog f s
  | .wrsysPourskew f => slotWrsysPourskew f s
  | .wrsysWdlim f => slotWrsysWdlim f s
  | .wrsysTvec f => slotWrsysTvec f s
  | .wrsysTrapinfo f => slotWrsysTrapinfo f s
  | .wrsysDutymode f => slotWrsysDutymode f s
  | .wrsysPeer f => slotWrsysPeer f s
  | .wrsysFlag f => slotWrsysFlag f s
  | .fadd f => slotFadd f s
  | .fsub f => slotFsub f s
  | .fmul f => slotFmul f s
  | .fma f => slotFma f s
  | .fdiv f => slotFdiv f s
  | .fsqrt f => slotFsqrt f s
  | .fmin f => slotFmin f s
  | .fmax f => slotFmax f s
  | .fsgn f => slotFsgn f s
  | .fcmp f => slotFcmp f s
  | .fcvt f => slotFcvt f s
  | .fclass f => slotFclass f s
  | .wclr f => slotWclr f s
  | .wset f => slotWset f s
  | .wadd f => slotWadd f s
  | .wget f => slotWget f s
  | .wsum f => slotWsum f s
  | .wfind f => slotWfind f s
  | .wcut f => slotWcut f s
  | .wtot f => slotWtot f s
  | .wmov f => slotWmov f s
  | .vadd f => slotVadd f s
  | .vsub f => slotVsub f s
  | .vmul f => slotVmul f s
  | .vfma f => slotVfma f s
  | .vfms f => slotVfms f s
  | .vmin f => slotVmin f s
  | .vmax f => slotVmax f s
  | .vabs f => slotVabs f s
  | .vneg f => slotVneg f s
  | .vdiv f => slotVdiv f s
  | .vsqrt f => slotVsqrt f s
  | .vrsqrt f => slotVrsqrt f s
  | .vrcp f => slotVrcp f s
  | .vexp2 f => slotVexp2 f s
  | .vlog2 f => slotVlog2 f s
  | .vcvt f => slotVcvt f s
  | .vcmp f => slotVcmp f s
  | .vsel f => slotVsel f s
  | .vand f => slotVand f s
  | .vor f => slotVor f s
  | .vxor f => slotVxor f s
  | .vnot f => slotVnot f s
  | .vshl f => slotVshl f s
  | .vshr f => slotVshr f s
  | .vsar f => slotVsar f s
  | .vredsum f => slotVredsum f s
  | .vredmax f => slotVredmax f s
  | .vredmin f => slotVredmin f s
  | .vscan f => slotVscan f s
  | .vperm f => slotVperm f s
  | .vslide f => slotVslide f s
  | .vbcast f => slotVbcast f s
  | .vdup f => slotVdup f s
  | .vdrop f => slotVdrop f s
  | .viota f => slotViota f s
  | .vclamp f => slotVclamp f s
  | .vlen f => slotVlen f s
  | .mand f => slotMand f s
  | .mor f => slotMor f s
  | .mnot f => slotMnot f s
  | .vmovi f => slotVmovi f s
  | .xsv f => slotXsv f s
  | .xkm f => slotXkm f s
  | .xvs f => slotXvs f s
  | .xmk f => slotXmk f s
  | .wflag f => slotWflag f s
  | .pflag f => slotPflag f s
  | .bar f => slotBar f s
  | .rsync f => slotRsync f s
  | .mpush f => slotMpush f s
  | .mshift f => slotMshift f s
  | .macc f => slotMacc f rpt s
  | .mdrain f => slotMdrain f rpt s
  | .mzero f => slotMzero f s
  | .mfill f => slotMfill f rpt s
  | .mload f => slotMload f s
  | .mflu f => slotMflu f s
  | .mfch f => slotMfch f s
  | .mfqr f => slotMfqr f s
  | .mtrs f => slotMtrs f s
  | .mrdp f => slotMrdp f s
  | .mstat f => slotMstat f s
  | .mwait f => slotMwait f s
  | .tld f => slotTld f s
  | .tst f => slotTst f s
  | .tldn f => slotTldn f s
  | .tstn f => slotTstn f s
  | .tprf f => slotTprf f s
  | .bxf f => slotBxf f s
  | .vld f => slotVld f s
  | .vst f => slotVst f s
  | .sld f => slotSld f s
  | .sst f => slotSst f s
  | .tlook f => slotTlook f s
  | .ttag f => slotTtag f s
  | .tinv f => slotTinv f s
  | .feset f => slotFeset f s
  | .feclr f => slotFeclr f s
  | .amo f => slotAmo f s
  | .amoc f => slotAmoc f s
  | .fenceAcq f => slotFenceAcq f s
  | .fenceRel f => slotFenceRel f s
  | .fenceAr f => slotFenceAr f s
  | .tfence f => slotTfence f s
  | .tfenceInv f => slotTfenceInv f s
  | .tfenceAll f => slotTfenceAll f s
  | .recld f => slotRecld f s
  | .recst f => slotRecst f s
  | .recmk f => slotRecmk f s
  | .swait f => slotSwait f s
  | .ssig f => slotSsig f s
  | .wvis f => slotWvis f s
  | .arOpen f => arGuard s (slotArOpen f s)
  | .arJoin f => arGuard s (slotArJoin f s)
  | .arLd f => arGuard s (slotArLd f s)
  | .arSt f => arGuard s (slotArSt f s)
  | .arCommit f => arGuard s (slotArCommit f s)
  | .arAbort f => arGuard s (slotArAbort f s)
  | .arLeave f => arGuard s (slotArLeave f s)
  | .wfill f => slotWfill f s
  | .wdump f => slotWdump f s
  | .rput f => slotRput f s
  | .rputReg f => slotRputReg f s
  | .rget f => slotRget f s
  | .reos f => slotReos f s
  | _ => .nothing

end Sys2Proof.Machine
end

