-- ==== Sys2Proof/Machine/Drain.lean ====
section
/-! DEFINITION. The drain before a trap or a save, taking a trap, and what follows the retirement of a task
(spec/09_traps.md R122 to R130, R138; spec/07_scalar_control.md R101; spec/21_tasks.md R318). -/
namespace Sys2Proof.Machine

/-! ## The drain (R123) -/

/-- Results within their bounds land, in program order, and their flags enter FSTAT.  A read of such a destination within
the bound gives a free value as before (R126), so each stays listed until its bound has come. -/
def Ctx.landEarly (c : Ctx) : Ctx :=
  { c.pend.foldl (fun c p => c.landOne p) c with pend := c.pend.map (fun p => { p with landed := true, flags := 0 }) }

def landAll (s : State) : State := s.modCtx Ctx.landEarly

/-- An operation that owes its context a register, a record or a queue entry. -/
def Op.owes (o : Op) : Bool :=
  match o.kind with
  | .vecLoad .. | .elemLoad .. | .amo .. | .amoc .. | .recLoad _ | .push .. | .ringGet .. | .regionLoad .. => true
  | _ => false

/-- A drain completes the operation: it owes its context a result, or fills a tree, whose leaves a save keeps
(spec/19_trees_regions.md R276, R286). -/
def Op.drains (o : Op) : Bool := o.owes || (match o.kind with | .treeFill .. => true | _ => false)

/-- The local operations of the current context that a drain completes do so. -/
def completeOwing (s : State) : State :=
  ((s.taskOps.filter (fun o => o.drains && o.remote.isNone)).map (·.id)).foldl (fun s i => completeOp i s) s

/-- The beats that remain issue, one a cycle (spec/17_matrix.md R257). -/
def finishBeats : Nat → State → State
  | 0, s => s
  | n + 1, s => if s.cur.flow.beats.isEmpty then s else finishBeats n (nextBeat s.tick)

/-- The drain of the current context; array work in progress stops and is pending (R138). -/
def drain (s : State) : State :=
  let s := landAll (completeOwing (finishBeats 128 (landAll s)))
  stopFact (interruptMload s)

/-- Nothing that the current context waits for is in flight.  A fixed-latency entry of a queue lands at its own bound: a
read before it gives a free value, be there a trap or not (R126). -/
def drained (s : State) : Bool :=
  s.cur.pend.all (·.landed) && s.cur.owed.isEmpty && s.cur.q.toList.all (fun l => l.all (fun e => e.landed || !e.interlocked)) &&
    !s.taskOps.any Op.drains

/-- A trap of the current context: the drain, then its delivery, which waits for results from other dies. -/
def takeTrap (r : TrapReq) (s : State) : State :=
  let s := drain s
  if drained s then deliverTrap r s else (endWaits s).modFlow (fun w => { w with taking := some r })

/-- A trap that a bundle raises (R122, R124). -/
def bundleTrap (is : List Instr) (cause : Cause) (aux : BitVec 8) (faddr : Word) (slot : Nat) (s : State) : TrapReq :=
  { cause := cause, aux := aux, faddr := faddr, slot := BitVec.ofNat 3 slot, pc := s.pc,
    logged := (bundleBytes is).take 47, ret := none, cycle := s.core.cycle }

/-- TRAP_DELIVERY of a trap that has waited for the drain; a frozen core stands still (R148). -/
def deliverTaking (s : State) : State :=
  match s.cur.flow.taking with
  | none => s
  | some r =>
    if 0 < s.core.frozenLeft then s
    else
    let s := drain s
    if drained s then deliverTrap r (s.modFlow (fun w => { w with taking := none })) else s

/-! ## The end of a task (R101, R129, R318) -/

/-- The publication of a task. -/
def pubOf (serial : Nat) (s : State) : Option Publication := s.die.queues.publications.find? (fun p => p.key == serial)

/-- The core in focus starts what its buffer holds. -/
def startNext (s : State) : State := if s.core.prefetch.isEmpty then s else startBuffered s.core.id s

/-- What follows a retirement on the current context: its region and its ring lanes, and, once every response slot has been
freed, and after a faulted task every operation of it has ended, the context is free. -/
def settleCur (s : State) : State :=
  if s.cur.flow.residency ≠ .retiring then s
  else
    let serial := s.cur.serial
    let faulted := s.cur.flow.faulted
    let s := closeLanes serial (leaveAtRetire faulted s)
    if freeSlots s.cur = 8 && !(faulted && s.die.ops.any (fun o => o.owner == s.curId && o.serial == serial)) then
      startNext (vacate s)
    else s

/-- Every context that retires is settled. -/
def settleAll (s : State) : State :=
  (allCtxs.filter (fun c => (ctxAt c s).flow.residency == .retiring)).foldl (fun s c => withFocus c settleCur s) s

/-- `done` still holds its context: array work of it is in progress, or waits to be restarted (R101, R138). -/
def State.doneHeld (s : State) : Bool := s.arrayBusy || s.restarts

/-- `done` retires the task once the plane operations of its context have completed. -/
def retireDone (s : State) : State :=
  if s.cur.flow.doneWait && !s.doneHeld then settleCur (retire false s) else s

/-- A write of a task has still to complete. -/
def writesLeft (serial : Nat) (s : State) : Bool := s.die.ops.any (fun o => o.serial == serial && o.isWrite)

/-- TASK_PUBLICATION: once every write of a retired task has completed, its output is published, or its rebuild ends, and
it counts towards the completion of its set. -/
def publish (key : Nat) (s : State) : State :=
  match pubOf key s with
  | none => s
  | some p =>
    if writesLeft key s then s
    else
      let s := s.modQueues (fun q => { q with publications := q.publications.filter (fun x => x.key != key) })
      match p.ref.rebuild with
      | some v => endRebuild (some p.ref) v p.faulted s
      | none => completeOwn p.ref.inst (if p.faulted then s else publishDone p.ref s)

end Sys2Proof.Machine
end

