-- ==== Sys2Proof/Machine/Preempt.lean ====
section
/-! DEFINITION. Pre-emption requests, the end of a save, its overrun, restores, held regions, the watchdog, and errors in
on-die state (spec/09_traps.md R138 to R149). -/
namespace Sys2Proof.Machine

/-! ## Requests and saves (R139, R142) -/

/-- A request for a context becomes pending. -/
def requestPreempt (c : CtxId) (s : State) : State :=
  modCtxAt c (fun x => if x.flow.residency = .running then x.modFlow (fun w => { w with preempt := true }) else x) s

/-- The save that waits for the drain begins once nothing of the context is in flight (R142). -/
def settleSave (s : State) : State :=
  match s.cur.flow.saveWait with
  | none => s
  | some l =>
    let s := drain s
    if drained s then beginSave l (s.modFlow (fun w => { w with saveWait := none })) else s

/-- The request of the current context is served with a live set. -/
def serveSave (l : LiveSet) (s : State) : State := settleSave (s.modFlow (fun w => { w with saveWait := some l }))

/-- The planes of the factorisation in progress. -/
def factPlanes (s : State) : BitVec 4 :=
  match s.core.fact with
  | some f => BitVec.ofNat 4 (2 ^ (factField f.instr).plane.toNat) ||| (match f.instr with
    | .mtrs _ => BitVec.ofNat 4 (2 ^ (factPlane2 f.instr).toNat) | _ => 0)
  | none => 0

/-- A pending request is served at a boundary outside a repeat window and handler state, unless a trap is due (R139). -/
def State.servable (s : State) : Bool :=
  s.cur.flow.preempt && !s.cur.sys.handler && s.cur.flow.rptLeft == 0 && s.cur.flow.due.isEmpty

/-- The request that came to an interruption point is served at this boundary, or else waits for the next such point (R139). -/
def serveAtPoint (s : State) : State :=
  let t := s.modFlow (fun w => { w with factPoint := false })
  if s.servable then serveSave (factLive (factPlanes s) t) t else t

/-- A factorisation reaches its interruption point with a trap, a watchdog expiry or a pre-emption due (R138): one column
ends, and the instruction is pending.  A request is then served there; a freeze stops the sequencer (R148). -/
def interruptionPoint (s : State) : State :=
  if !s.factBusy || 0 < s.core.frozenLeft then s
  else if !(s.servable || !s.cur.flow.due.isEmpty || s.cur.wdExpired s.core.cycle || s.cur.flow.taking.isSome) then s
  else
    let planes := factPlanes s
    let s := stopFact s
    if s.servable then serveSave (factLive planes s) s else s

/-- The next column of the factorisation of the current context; a pending request then finds an interruption point. -/
def stepFact (s : State) : State :=
  let x := runColumn s
  if x.2 = 0 && s.cur.flow.preempt then x.1.modFlow (fun w => { w with factPoint := true }) else x.1

/-- A pre-empted task enters the queue unit, ahead of the tasks of its priority. -/
def queueSaved (v : Saved) (s : State) : State :=
  match v.ctx.flow.task with
  | none => s
  | some t =>
    let q : QTask := { ref := t, bank := if t.notice then 0 else pktBank t.packet, pri := if t.notice then 7 else pktPri t.packet,
                       since := s.pkg.clocks, parked := none, watching := false, saved := some v.index }
    s.modQueues (fun x => { x with tasks := q :: x.tasks })

/-- The context in focus is declared lost, its save block at `block`: the record, the notice, the end of its region and the
lost version (R145, R411). -/
def declareContext (block : Word) (s : State) : State :=
  let r : TrapReq := { cause := .saveOverrun, aux := 0, faddr := 0, slot := 0, pc := s.pc, logged := [], ret := none,
                       cycle := s.core.cycle }
  let s := writeRecord r s
  let s := enqueueNotice 7 (causeByte .saveOverrun false) { a0 := block, a1 := 0, a2 := 0, a3 := 0, a4 := 0 }
    s.cur.flow.task (rankOf s.curId) s
  let s := match s.cur.flow.region with
    | some m => reportAbort m.region 7 (s.modFlow (fun w => { w with region := none }))
    | none => s
  match s.cur.flow.task with
  | some t => if t.notice || t.rebuild.isSome then s else recordLost t s
  | none => s

/-- A resident context is declared lost, and its task counts as retired. -/
def contextLost (block : Word) (s : State) : State :=
  settleCur (retire true (declareContext block (s.modFlow (fun w => { w with residency := .running }))))

/-- A pre-empted task is declared lost: it leaves the queue unit, and its held regions are released (R145). -/
def savedLost (v : Saved) (s : State) : State :=
  let back := s.cur
  let s := declareContext (saveBlock v.index) (s.modCtx (fun _ => v.ctx.modFlow (fun w => { w with region := none })))
  let s := closeLanes v.ctx.serial (s.modCtx (fun _ => back))
  let s := match v.ctx.flow.region with | some m => reportAbort m.region 7 s | none => s
  let s := match v.ctx.flow.task with
    | some t => if t.notice then s else countRetired t v.home true s
    | none => s
  let s := s.modDie (fun d => { d with ops := d.ops.map (fun o => if o.serial = v.ctx.serial then o.unposted else o) })
  let s := s.modCore (fun k => { k with held := k.held.filter (fun h => h.owner != v.ctx.serial) })
  dropSaved v.index (s.modQueues (fun q => { q with tasks := q.tasks.filter (fun t => t.saved != some v.index) }))

/-- The save of the context in focus ends without its save block: the context is again that of its task, with the membership that
stood in the block. -/
def dropSave (v : Saved) (s : State) : State :=
  (dropSaved v.index s).modFlow (fun w => { w with residency := .running, region := v.ctx.flow.region })

/-- SAVE_OVERRUN: the save bound of the context has passed, or a region that its task holds cannot be written out, in the
save or after it (R145). -/
def loseSave (s : State) : State :=
  let holds := fun (v : Saved) => s.core.held.any (fun h => h.owner == v.ctx.serial)
  match savedOf s.curId s with
  | some v => if saveOver v s || holds v then contextLost (saveBlock v.index) (dropSave v s) else s
  | none =>
    match s.die.queues.saved.find? (fun v => v.home == s.curId && holds v) with
    | some v => savedLost v s
    | none => s

/-- The save block takes the watchdog's count and what `wdog` has done to it during the save (R146). -/
def countSave (s : State) (c : Ctx) : Ctx :=
  let y := (s.cur.wdSettle s.core.cycle).sys
  c.modSys (fun z => { z with wdCount := y.wdCount, wdSuspended := y.wdSuspended, wdForced := y.wdForced, wdArmed := y.wdArmed })

/-- SAVE_COMPLETE: the context slot passes on; an expiry latched during the save retires the task instead. -/
def endSave (s : State) : State :=
  match savedOf s.curId s with
  | none => s
  | some v =>
    if s.cur.flow.residency ≠ .saving then s
    else if saveOver v s then contextLost (saveBlock v.index) (dropSave v s)
    else if v.expired || s.cur.wdOver s.core.cycle then
      let s := dropSave v s
      let r : TrapReq := { cause := .watchdog, aux := 0, faddr := 0, slot := 0, pc := s.pc, logged := [], ret := none,
                           cycle := s.core.cycle }
      settleCur (retireFaulted r (writeRecord r s))
    else if !limitClear v.ctx.serial s then s
    else
      let t := (limitHeld v.ctx.serial s).modQueues (fun q => { q with saved := q.saved.map (fun x =>
        if x.index = v.index then { x with saving := false, ctx := countSave s x.ctx } else x) })
      startNext (queueSaved v (vacate t))

/-- HELD_REGION_WRITEOUT of one region; a scratchpad or cope-store range waits for the operations of its task (R355). -/
def writeOutAt (i : Nat) (s : State) : State :=
  match s.core.held[i]? with
  | none => s
  | some h =>
    if heldBusy s.core.id h s then s else writeOut h s

/-- CONTEXT_RESTORE: the queued task comes back to the context it left, which is free. -/
def restoreAt (c : CtxId) (s : State) : State :=
  if (ctxAt c s).flow.residency ≠ .free then s
  else
    match s.die.queues.tasks.find? (fun t => match t.saved with
      | some i => s.die.queues.saved.any (fun v => v.index == i && v.home == c) | none => false) with
    | some t => (placeTask t s).getD s
    | none => s

/-! ## The watchdog (R146) -/

/-- The cycle of an expiry: the one in which the count reached the limit, or that of the act that forced it or lowered the
limit (R410). -/
def Ctx.wdCycle (cyc : Nat) (c : Ctx) : Nat :=
  if c.sys.wdForced then c.sys.wdArmed else max c.sys.wdArmed (cyc - (c.wdValue cyc - c.sys.wdlim.toNat))

/-- An expiry becomes due at the next boundary. -/
def dueWatchdog (s : State) : State :=
  if s.cur.wdExpired s.core.cycle && !s.cur.flow.due.any (fun r => r.cause == .watchdog) then
    s.modCtx (fun c => c.addDue (boundaryReq .watchdog 0 0 none (c.wdCycle s.core.cycle) c))
  else s

/-- The boundary cause that the current context takes now: while it waits to retire, one of class X alone (R410).  A context
whose save block could not be read back is declared lost (spec/21_tasks.md R337). -/
def takeDue (s : State) : Option State :=
  match pickDue s.cur.flow.due with
  | none => none
  | some (r, rest) =>
    if s.cur.flow.doneWait && !r.cause.classX then none
    else
      let s := s.modFlow (fun w => { w with due := rest })
      some (if r.cause = .saveOverrun then contextLost r.faddr s else takeTrap { r with ret := none } s)

/-- WATCHDOG_EXPIRY, taken at the boundary where the context stands: not in a frozen core (R148), nor while a trap waits for the
drain or the context drains for its save, where the expiry stays due or is latched (R147). -/
def expireWatchdog (s : State) : State :=
  if s.cur.wdExpired s.core.cycle && s.core.frozenLeft == 0 && s.cur.flow.taking.isNone && s.cur.flow.saveWait.isNone then
    match takeDue (dueWatchdog s) with | some t => settleCur t | none => s
  else s

/-! ## Errors in on-die state (R148, R149) -/

/-- The cores of a cluster. -/
def coresOf (k : BitVec 3) : List (BitVec 6) := (List.range 8).map (fun r => k ++ BitVec.ofNat 3 r)

/-- A core runs a pour. -/
def runsPour (core : BitVec 6) (s : State) : Bool :=
  (List.range 4).any (fun i =>
    let c := ctxAt { core := core, ctx := BitVec.ofNat 2 i } s
    c.flow.residency == .running && (match c.flow.task with | some t => t.pour | none => false))

/-- The cores that an error freezes, and the one that counts it. -/
def errorCores (p : ErrorPlace) (s : State) : List (BitVec 6) × BitVec 6 :=
  match p with
  | .registers c => (if runsPour c.core s then coresOf (clusterOf c.core) else [c.core], c.core)
  | .array k => (if runsPour k s then coresOf (clusterOf k) else [k], k)
  | .scratchpad k => (coresOf k, k ++ (0 : BitVec 3))

/-- A correctable error freezes cores for 24 cycles from its detection. -/
def correctable (p : ErrorPlace) (s : State) : State :=
  let x := errorCores p s
  let s := x.1.foldl (fun s c => modCoreAt c (fun k => { k with frozenLeft := max k.frozenLeft 24 }) s) s
  modCoreAt x.2 (fun k => { k with cecount := if k.cecount = BitVec.allOnes 32 then k.cecount else k.cecount + 1 }) s

/-- The freeze of a core passes, its pipelines unchanged. -/
def endFreeze (core : BitVec 6) (s : State) : State :=
  withFocus { core := core, ctx := (coreAt core s).sel } (fun t =>
    (t.modCore (fun k => { k with frozenLeft := 0 })).passClocks t.core.frozenLeft) s

/-- A pre-empted task with a region in damaged storage. -/
def failSaved (owners : List Nat) (s : State) : State :=
  s.modQueues (fun q => { q with saved := q.saved.map (fun v =>
    if owners.contains v.ctx.serial then
      let cyc := (coreAt v.home.core s).cycle
      { v with ctx := v.ctx.addDue (boundaryReq .uncorrectable 0 0 none cyc v.ctx) }
    else v) })

/-- Contexts of some cores. -/
def ctxsOf (cs : List (BitVec 6)) : List CtxId :=
  cs.flatMap (fun k => (List.range 4).map (fun i => { core := k, ctx := BitVec.ofNat 2 i }))

/-- The cores that have been used, the one in focus first. -/
def liveCores (s : State) : List (BitVec 6) := s.core.id :: s.cores.map (fun p => BitVec.ofNat 6 p.1)

/-- The contexts of those cores. -/
def liveCtxs (s : State) : List CtxId := ctxsOf (liveCores s)

/-- An uncorrectable error retires the tasks whose state it hits. -/
def uncorrectable (p : ErrorPlace) (s : State) : State :=
  let hit := fun (cs : List CtxId) (s : State) =>
    cs.foldl (fun s c => raiseBoundary c .uncorrectable 0 0 none s) s
  let isScratch := fun (h : Held) => match h.kind with | .scratch .. => true | _ => false
  match p with
  | .registers c => hit [c] s
  | .array k =>
    failSaved (((coreAt k s).held.filter (fun h => !isScratch h)).map (·.owner)) (hit (ctxsOf [k]) s)
  | .scratchpad k =>
    let cs := coresOf k
    failSaved (cs.flatMap (fun c => ((coreAt c s).held.filter isScratch).map (·.owner))) (hit (ctxsOf cs) s)

end Sys2Proof.Machine
end

