-- ==== Sys2Proof/Machine/Router.lean ====
section
/-! DEFINITION. The router, the links and the management sink (spec/23_fabric.md R340, R345 to R348, R357 to R362). -/
namespace Sys2Proof.Machine

/-! ## Packets that arrive -/

/-- A TYPE and CLASS of R342. -/
def packetKnown (p : Packet) : Bool :=
  match p.cls.toNat with
  | 0 => (1 ≤ p.type.toNat && p.type.toNat ≤ 10) || p.type == 15
  | 1 => p.type == 15 || (32 ≤ p.type.toNat && p.type.toNat ≤ 35)
  | 2 => 48 ≤ p.type.toNat && p.type.toNat ≤ 53
  | _ => false

/-- The ring of the management sink has room. -/
def mgmtRoom (s : State) : Bool := s.die.router.mgmtRing.length < 65536

/-- MANAGEMENT_ARRIVAL (R358): a full ring drops the packet, but for launch packets and set messages, which wait. -/
def takeManagement (p : Packet) (s : State) : State :=
  let x := takeClock p s
  let s := if p.type = 49 then mergeOwn x.2 x.1 else x.1
  if mgmtRoom s then s.modRouter (fun r => { r with mgmtRing := r.mgmtRing ++ [p] })
  else if p.type = 48 ∨ p.type = 49 then s.modRouter (fun r => { r with mgmtHeld := r.mgmtHeld ++ [p] })
  else s.modRouter (fun r => { r with mgmtdrop := r.mgmtdrop + 1 })

/-- The die takes no packet: it is being reset, or its package has still to adopt the time of its domain, when it takes none of
another package (spec/28_package.md R404, R406). -/
def State.deaf (src : Coord) (s : State) : Bool := s.die.resetting || (!s.pkg.timeHeld && src != s.die.coord)

/-- A packet leaves by the local port. -/
def receive (p : Packet) (s : State) : State :=
  if s.deaf p.src then s
  else if !packetKnown p then s.modRouter (fun r => { r with badpkt := r.badpkt + 1 })
  else
    match p.cls.toNat, p.type.toNat with
    | 2, _ => takeManagement p s
    | _, 15 => takeClockPacket p s
    | 1, 32 => takeData p s
    | 1, 33 => takeAck p s
    | 1, 34 => takeError p s
    | 1, _ => takeRetry p s
    | _, _ => serveRequest p s

/-- The flits of a packet are counted at the port by which it arrives (R338, R362). -/
def countArrival (port : Option Nat) (p : Packet) (s : State) : State :=
  match port with
  | some n => s.modRouter (addPort n (fun c => { c with flitrx := c.flitrx + BitVec.ofNat 64 (flitsOf p) }))
  | none => s

/-- A packet of another die has arrived here. -/
def arrived (p : Packet) (s : State) : State := countArrival (arrivalPort p.src s.die.coord) p s

/-! ## Routing (R346, R348) -/

/-- The way of a packet through this router. -/
def passOn (from_ : Option Nat) (p : Packet) (s : State) : State :=
  match routeOf s.die.coord p.dst s.die.router with
  | .here => receive p s
  | .unreachable =>
    if from_.isSome then s.modRouter (fun r => { r with unreach := r.unreach + 1 }) else unrouted p s
  | .port n => leaveBy from_ n p s

/-- PACKET_FORWARD: a packet that came in by a link port, or from the die itself, read off its flits (R341). -/
def forward (port : BitVec 3) (p : Packet) (s : State) : State :=
  if s.die.resetting then s else
  let from_ := if port.toNat < 6 then some port.toNat else none
  let p := onWire p
  let s := countArrival from_ p s
  if !packetKnown p then s.modRouter (fun r => { r with badpkt := r.badpkt + 1 }) else passOn from_ p s

/-- A packet has waited at its router input for more than 100 µs. -/
def WaitingPacket.old (w : WaitingPacket) (s : State) : Bool := w.since + 100000 < s.timeNs

/-- The packet that waits at place `i` is dropped, if its time is up. -/
def dropWaiting (i : Nat) (s : State) : State :=
  match s.die.router.waiting[i]? with
  | some w =>
    if w.old s then s.modRouter (fun r => { r with waiting := r.waiting.eraseIdx i, agedrop := r.agedrop + 1 }) else s
  | none => s

/-- PACKET_AGE_DROP: a packet held at a router input over 100 µs. -/
def ageDrop (p : Packet) (s : State) : State :=
  match s.die.router.waiting.findIdx? (fun w => w.pkt == p && w.old s) with
  | some i => dropWaiting i s
  | none => s

/-- A request has waited here for 1 ms. -/
def HeldRequest.old (q : HeldRequest) (s : State) : Bool := q.since + 1000000 ≤ s.timeNs

/-- REQUEST_AGE_DROP. -/
def dropRequest (i : Nat) (s : State) : State :=
  match s.die.router.heldRequests[i]? with
  | some q =>
    if q.old s then
      s.modRouter (fun r => { r with heldRequests := r.heldRequests.eraseIdx i, agedrop := r.agedrop + 1 })
    else s
  | none => s

/-- A packet that this die sent to itself arrives by its local port. -/
def loopBack (s : State) : Option State :=
  match s.die.router.outbox.findIdx? (fun p => p.dst == s.die.coord) with
  | none => none
  | some i =>
    match s.die.router.outbox[i]? with
    | none => none
    | some p => some (receive p (s.modRouter (fun r => { r with outbox := r.outbox.eraseIdx i })))

/-! ## The management ring (R358) -/

/-- The table of unavailable versions follows a broadcast of a version's home (R331); rebuilds that waited for it go on. -/
def setUnavailable (home : Coord) (v : VersionId) (lost : Bool) (s : State) : State :=
  pumpRebuilds (s.modQueues (Queues.setLost v lost home))

/-- A loss, a restoration, a need of another die, or the end of the copy that a replica die held (R331, R332; log entries 18 and
57). -/
def takeVersion (p : Packet) (s : State) : State :=
  let v := unpackVersion p.opa
  if bits 0 8 p.opb = (2 : BitVec 8) then need v (bits 8 3 p.opb) s
  else if p.opb = 3 then loseReplica p.src v s
  else setUnavailable p.src v (p.opb = 0) s

/-- The 64 coordinates of a domain table's bytes (R340). -/
def tableFrom (bs : List Byte) : List Coord :=
  (List.range 64).map (fun i => BitVec.ofNat 16 (leNat ((bs.drop (2 * i)).take 2)))

/-- A table has 64 entries (R340). -/
def fullTable (t : List Coord) : List Coord := (t ++ List.replicate 64 0xFFFF).take 64

/-- A die of this package. -/
def inPackage (c : Coord) (s : State) : Bool := c &&& ~~~(0x0210 : Coord) == s.die.coord &&& ~~~(0x0210 : Coord)

/-- A table makes the package join a domain: the die that holds index 0 changes, to one of another package (spec/28_package.md
R403, R404). -/
def joins (t : List Coord) (s : State) : Bool :=
  t.head? != s.die.domain.head? && (match t.head? with | some c => c != 0xFFFF && !inPackage c s | none => false)

/-- DOMAIN_TABLE: the table is installed, and a change of it is measured (R340, R394).  Running firmware sets STATE 3 for the
rewrite (spec/26_host.md R389); a package that joins a domain has still to adopt its time (spec/28_package.md R404). -/
def installDomain (t : List Coord) (s : State) : State :=
  let t := fullTable t
  let s := if fwState s.pkg.regs.fwstate = 1 then (setFwState 3 s).modFw (fun w => { w with phase := .rewriting }) else s
  let s := if joins t s then s.modPkg (fun p => { p with timeHeld := false }) else s
  let u := s.modDie (fun d => { d with domain := t })
  if s.die.domain = t then u else measureDuty u

/-- The rewrite of the domain table is over. -/
def endRewriting (s : State) : State := setFwState 1 (s.modFw (fun w => { w with phase := .usual }))

/-- The bytes of a payload as a 512-bit packet. -/
def payload512 (p : Packet) : BitVec 512 := BitVec.ofNat 512 (leNat (p.payload.take 64))

/-- What the units do with a management packet. -/
def manage (p : Packet) (s : State) : State :=
  match p.type.toNat with
  | 48 => receivePacket (payload512 p) s
  | 49 => if p.aux.getLsbD 0 then receiveFailure p.src (payload512 p) s else receiveCompletion p.src (payload512 p) s
  | 50 => takeVersion p s
  | 51 => regionEnds (nameOf p.opa p.asid) false s
  | 52 => storeMirror (BitVec.ofNat 1024 (leNat p.payload)) s
  | _ => installDomain (tableFrom p.payload) s

/-- The units take the oldest packet of the ring; a held one follows into the room. -/
def takeMgmt (s : State) : Option State :=
  match s.die.router.mgmtRing with
  | [] => none
  | p :: r =>
    some (manage p (s.modRouter (fun x => { x with mgmtRing := r ++ x.mgmtHeld.take 1, mgmtHeld := x.mgmtHeld.drop 1 })))

/-! ## Tables and links (R345, R359 to R361) -/

/-- GRATICULE_INSTALL. -/
def installRoutes (x y z : List (BitVec 2)) (s : State) : State :=
  if x.length = 32 ∧ y.length = 32 ∧ z.length = 16 then
    s.modRouter (fun r => { r with routeX := x, routeY := y, routeZ := z })
  else s

/-- A packet that left by a port. -/
def wentBy (n : Nat) (s : State) (p : Packet) : Bool := routeOf s.die.coord p.dst s.die.router == .port n

/-- The last of some packets, newest first, that hold a number of flits. -/
def lastFlits : Nat → List Packet → List Packet
  | 0, _ => []
  | _, [] => []
  | n, p :: r => p :: lastFlits (n - flitsOf p) r

/-- LINK_REPLAY: a flit failed its check or was lost; it and those sent after it, which the replay buffer holds, are sent again.
Flits are numbered as they are sent; which of the two befell it the event does not say, and CHKERR counts failed checks alone, so
whether it rises is a free value (R359, R362; log entry 69). -/
def replay (n resent : Nat) (s : State) : State :=
  let sent := (s.die.router.outbox.filter (wentBy n s)).reverse
  let number := (match s.die.router.ports[n]? with | some c => c.flittx.toNat | none => 0) - resent
  let again := match s.die.router.fails[n]? with
    | some (some (k, c)) => if k = number then c + 1 else 0
    | _ => 0
  let bad := Config.freeBit (s.freeCount * 64)
  { s.modRouter (fun r => { addPort n (fun c =>
      { c with chkerr := if bad then c.chkerr + 1 else c.chkerr, retry := c.retry + BitVec.ofNat 64 resent }) r with
      replay := vecModify n (fun _ => (lastFlits resent sent).reverse) r.replay
      fails := vecModify n (fun _ => some (number, again)) r.fails }) with freeCount := s.freeCount + 1 }

/-- The other port of the same link: in a dimension of extent 2 both directions use one link (R338). -/
def twinPort (n : Nat) : Nat := if portExtent n = 2 then (if n % 2 = 0 then n + 1 else n - 1) else n

def setLink (n : Nat) (l : LinkState) (s : State) : State :=
  s.modRouter (fun r => { r with links := vecModify n (fun _ => l) (vecModify (twinPort n) (fun _ => l) r.links) })

def countRetrain (n : Nat) (s : State) : State := s.modRouter (addPort n (fun c => { c with retrain := c.retrain + 1 }))

/-- RETRYLIM resends of one flit in a row have failed on a link. -/
def retriesSpent (n : Nat) (s : State) : Bool :=
  match s.die.router.fails[n]? with
  | some (some (_, c)) => retryLim s.die.router.control ≤ c
  | _ => false

/-- LINK_RETRAIN: after RETRYLIM failed resends. -/
def retrain (n : Nat) (s : State) : State :=
  match s.die.router.links[n]? with
  | some .up => if retriesSpent n s then countRetrain n (setLink n (.retraining 0) s) else s
  | _ => s

/-- The link-retrained notice. -/
def linkNotice (n : Nat) (down : Bool) (s : State) : State :=
  enqueueNotice 4 0 { a0 := BitVec.ofNat 64 n, a1 := if down then 1 else 0, a2 := 0, a3 := 0, a4 := 0 } none 0 s

/-- A launch packet is lost on the way to a die: this die fails its set there, for that die (R311, reason 3), unless it has failed
the set already; each launch sends a die one packet, so a second loss towards the same die is of another instance. -/
def failLost (p : Packet) (s : State) : State :=
  let q := payload512 p
  let x := match s.die.queues.sets.reverse.find? (fun e => e.packet == q && !e.doneAt.contains p.dst) with
    | some e => (e.inst, s)
    | none => let t := knowSet (emptySet q (pktMask q s)) s; (lastInst t, t)
  heardFrom p.dst x.1 (failSet x.1 3 p.dst x.2)

/-- The packets that waited for a link go on their way. -/
def releaseWaiting (n : Nat) (s : State) : State :=
  let mine := fun (w : WaitingPacket) => w.port == n || w.port == twinPort n
  let go := s.die.router.waiting.filter mine
  go.foldl (fun s w => passOn w.from_ w.pkt s) (s.modRouter (fun r => { r with waiting := r.waiting.filter (fun w => !mine w) }))

/-- The replay buffer of a port is empty. -/
def clearReplay (n : Nat) (r : Router) : Router :=
  { r with replay := vecModify n (fun _ => []) r.replay, fails := vecModify n (fun _ => none) r.fails }

/-- A link goes down: the flits in its replay buffer are discarded. -/
def linkDown (n : Nat) (s : State) : State :=
  let lost := match s.die.router.replay[n]? with | some l => l | none => []
  let s := s.modRouter (fun r => { clearReplay n (addPort n (fun c => { c with down := c.down + 1 }) r) with
    outbox := lost.foldl (fun o p => o.erase p) r.outbox
    mgmtdrop := r.mgmtdrop + BitVec.ofNat 64 (lost.countP (fun p => p.cls == 2)) })
  releaseWaiting n
    ((lost.filter (fun p => p.type == 48)).foldl (fun s p => failLost p s) (linkNotice n true (setLink n .down s)))

/-- RETRAIN_END: success, another try, or after the third failure the link is down. -/
def endRetrain (n : Nat) (ok : Bool) (s : State) : State :=
  match s.die.router.links[n]? with
  | some (.retraining k) =>
    if ok then releaseWaiting n (linkNotice n false ((setLink n .up s).modRouter (clearReplay n)))
    else if k + 1 < 3 then countRetrain n (setLink n (.retraining (k + 1)) s)
    else linkDown n s
  | _ => s

/-- FIRMWARE_LINK_RETRAIN of a link that is down. -/
def firmwareRetrain (n : Nat) (ok : Bool) (s : State) : State :=
  match s.die.router.links[n]? with
  | some .down =>
    let s := countRetrain n s
    if ok then linkNotice n false (setLink n .up s) else s
  | _ => s

/-- The values that the fabric control word takes. -/
def controlOk (v : BitVec 64) : Bool :=
  bits 40 24 v == 0 && bits 6 10 v == 0 && 300 ≤ (bits 20 20 v : BitVec 20).toNat &&
    (bits 20 20 v : BitVec 20).toNat ≤ 1000000 && 1 ≤ retryLim v

/-- FABRIC_CONTROL_WRITE. -/
def writeControl (v : BitVec 64) (s : State) : State := if controlOk v then s.modRouter (fun r => { r with control := v }) else s

end Sys2Proof.Machine
end

