-- ==== Sys2Proof/Machine/Host.lean ====
section
/-! DEFINITION. The host interface and the firmware complex: submission, the memory window, the control registers, images,
measurement, host assistance and shakeout (spec/26_host.md R381 to R400). -/
namespace Sys2Proof.Machine

/-! ## The submission log (R385 to R388) -/

/-- SUBFREE: 4,096 − (SUBTAIL − SUBDONE). -/
def HostRegs.subfree (r : HostRegs) : Nat := 4096 - (r.subtail - r.subdone).toNat

/-- The ordering keys of R388, beside those of the dies' notices. -/
def keySubmission : Nat := 0
def keyMailbox : Nat := 5
def keyReply : Nat := 6

/-- A write of one submission: 64 bytes, aligned, within BAR2. -/
def isSubmission (w : HostWrite) : Bool :=
  w.bytes.length == 64 && w.offset % 64 == 0 && w.offset + 64 ≤ 262144

/-- SUBMISSION. -/
def submit (w : HostWrite) (s : State) : State :=
  if !isSubmission w then s.modRegs (fun r => { r with subbad := r.subbad + 1 })
  else if 0 < s.pkg.regs.subfree && !s.quiesced then
    let p := BitVec.ofNat 512 (leNat w.bytes)
    pushEvent keySubmission (.submission p) ((s.modFw (fun w => { w with log := w.log ++ [p] })).modRegs (fun r => { r with subtail := r.subtail + 1 }))
  else raiseVector 0 (s.modRegs (fun r => { r with subdrop := r.subdrop + 1 }))

/-- The key of the submission log is released. -/
def releaseKey (key : Nat) (s : State) : State :=
  s.modFw (fun w =>
    match w.busy.find? (fun e => e.key == key) with
    | some e => { w with busy := w.busy.erase e }
    | none =>
      match w.events.find? (fun e => e.key == key) with
      | some e => { w with events := w.events.erase e }
      | none => w)

/-- The other dies of the package that a mask names. -/
def packageDies (m : BitVec 64) (s : State) : List Coord :=
  (maskDies m s).filter (fun c => c != s.die.coord && coordX c / 2 == coordX s.die.coord / 2 &&
    coordY c / 2 == coordY s.die.coord / 2 && coordZ c == coordZ s.die.coord)

/-- What firmware finds when it processes a packet: a cause of refusal, or the dies to send it to.  What the other dies of
the package hold is outside the model: a free value each. -/
def submissionCheck (p : BitVec 512) (s : State) : Except Cause (List Coord) := do
  let h ← (launchCheck p false s).mapError (·.1)
  let m := platDmask h
  let own := ownInMask m s
  let away := (packageDies m s).length
  if (own && heldSet (pktSetid p) s) || (List.range away).any (fun i => Config.freeBit (s.freeIdx (2 * i))) then
    throw .operandValue
  else if (own && s.setsFull) || (List.range away).any (fun i => Config.freeBit (s.freeIdx (2 * i + 1))) then throw .queueFull
  else pure (maskDies m s)

/-- The commit for the next entry: SUBDONE rises, and the log frees the entry (R386). -/
def commitEntry (s : State) : State :=
  let full := s.pkg.regs.subfree == 0
  let s := (s.modFw (fun w => { w with log := w.log.tail })).modRegs (fun r => { r with subdone := r.subdone + 1 })
  releaseKey keySubmission (if full then raiseVector 0 s else s)

/-- SUBMISSION_PROCESS: the next entry is sent, or refused. -/
def processSubmission (s : State) : State :=
  if fwState s.pkg.regs.fwstate ≠ 1 then s
  else
    match s.pkg.fw.log with
    | [] => s
    | p :: _ =>
      let t := { s with freeCount := s.freeCount + 1 }
      match submissionCheck p s with
      | .ok dies => commitEntry (dies.foldl (fun t c => sendPacket (launchPacketTo p c t) t) t)
      | .error c =>
        let t := t.modRegs (fun r => { r with subrej := r.subrej + 1, rejlast := ((r.subdone + 1) <<< 8) ||| c.code.setWidth 64 })
        commitEntry (raiseVector 1 t)

/-! ## Images and the version fence (R390 to R393) -/

/-- Low bits that a base register holds as zero. -/
def alignDown (n : Nat) (v : BitVec 64) : BitVec 64 := (v >>> n) <<< n

/-- `n` bytes of an image from byte `off`, as a number. -/
def imageNum (im : List Byte) (off n : Nat) : Nat := leNat ((im.drop off).take n)

def imageSvn (im : List Byte) : BitVec 8 := BitVec.ofNat 8 (imageNum im 23 1)

/-- The six conditions of R391, with the lengths of R390. -/
def imageOk (im : List Byte) (fuse : BitVec 8) : Bool :=
  let body := im.drop 4760
  4760 ≤ im.length && imageNum im 0 8 == 0x37484D5249464C53 && imageNum im 20 3 == 0 && imageNum im 32 32 == 0 &&
    imageNum im 4755 5 == 0 && imageNum im 24 8 == body.length && 1 ≤ body.length && body.length ≤ 2 ^ 26 &&
    BitVec.ofNat 64 (imageNum im 8 8) == Config.vendorKeyId &&
    Config.mldsaVerify Config.vendorKeyId (im.take 128) ((im.drop 128).take 4627) &&
    BitVec.ofNat 512 (imageNum im 64 64) == sha3 body && imageNum im 16 4 ≤ Config.revision.toNat && fuse ≤ imageSvn im

/-- Running firmware writes the notice table: a code address for each KIND of spec/21_tasks.md R320 (R319; log entry 53). -/
def writeNotices (s : State) : State :=
  s.modQueues (fun q => { q with noticeTable := (List.range 10).map (fun k => (k + 1, Config.noticeEntry (k + 1))) })

/-- An image is accepted: it runs and writes the notice table, FWSTATE shows its SVN, and MR1 is extended with its HASH and
SVN (R394). -/
def acceptImage (im : List Byte) (s : State) : State :=
  let s := writeNotices s
  let s := s.modFw (fun w => { w with store := im, running := im, loaded := [] })
  let s := s.modRegs (fun r => { r with fwstate := putBits 32 8 (imageSvn im).toNat r.fwstate })
  extendMr 1 ((im.drop 64).take 64 ++ [imageSvn im]) s

/-- The image that a restart takes: the one loaded since, or else the one in the store. -/
def chooseImage (s : State) : Option (List Byte) :=
  let w := s.pkg.fw
  if !w.loaded.isEmpty && imageOk w.loaded w.fuse then some w.loaded
  else if imageOk w.store w.fuse then some w.store
  else none

/-- Firmware reloads its image; the flag tells whether one was accepted. -/
def reloadImage (s : State) : State × Bool :=
  match chooseImage s with
  | some im => (acceptImage im s, true)
  | none => (s.modFw (fun w => { w with loaded := [] }), false)

/-- Boot: MR0 to MR3 are extended, and a refused image leaves no firmware running (R391, R394). -/
def bootFirmware (s : State) : State × Bool :=
  let s := extendMr 0 (bytes512 Config.bootRomHash) s
  let x := reloadImage s
  (measureDuty (extendMr 2 [x.1.pkg.fw.fuse] x.1), x.2)

/-- The fields of FWSTATE beside STATE and SVN. -/
def countRestart (r : HostRegs) : HostRegs :=
  let n := (bits 16 16 r.fwstate : BitVec 16).toNat
  { r with fwstate := putBits 16 16 (min (n + 1) 65535) r.fwstate }

/-- Firmware is started from the image store: boot, and the end of a package reset, after which STATE shows whether an image was
accepted; a device that had failed stays so (R389, R391, R400). -/
def startFirmware (s : State) : State :=
  let x := bootFirmware s
  let t := x.1.modFw (fun w => { w with phase := .usual })
  if fwState t.pkg.regs.fwstate = 5 then t else setFwState (if x.2 then 1 else 5) t

/-- FIRMWARE_RESTART: events that cores held are delivered again, and the log goes on at SUBDONE + 1; running firmware goes on
with its image where none is accepted (R387, R389, R391).  While firmware boots, the restart is the end of the boot. -/
def restartFirmware (s : State) : State :=
  let st := fwState s.pkg.regs.fwstate
  if st = 0 ∨ s.pkg.fw.phase = .booting then startFirmware s
  else if st = 1 then
    let s := (setFwState 2 s).modRegs countRestart
    let s := (reloadImage s).1
    let s := s.modFw (fun w => { w with events := w.busy ++ w.events, busy := [] })
    setFwState 1 s
  else s

/-- IMAGE_LOAD. -/
def loadImage (im : List Byte) (s : State) : State := s.modFw (fun w => { w with loaded := im })

/-- FUSE_COMMIT: the message names the counter value as one byte. -/
def commitFuse (v : BitVec 8) (sig : List Byte) (s : State) : State :=
  let svn : BitVec 8 := bits 32 8 s.pkg.regs.fwstate
  if Config.mldsaVerify Config.vendorKeyId [v] sig ∧ v ≤ svn ∧ s.pkg.fw.fuse < v then
    extendMr 2 [v] (s.modFw (fun w => { w with fuse := v }))
  else s

/-! ## Attestation (R394, R395) -/

/-- MEASUREMENT_EXTEND: the host reaches MR5 to MR15. -/
def extendHost (r : BitVec 4) (m : BitVec 512) (s : State) : State := if 5 ≤ r.toNat then extendMr r (bytes512 m) s else s

def answerDigests (s : State) : State := hostOut (.doe (bytes512 (sha3 Config.certificateChain))) s

def answerCertificate (off len : Nat) (s : State) : State := hostOut (.doe ((Config.certificateChain.drop off).take len)) s

def answerChallenge (nonce : BitVec 256) (s : State) : State :=
  hostOut (.doe (Config.identitySign (leBytes 32 nonce.toNat ++ bytes512 (sha3 Config.certificateChain)))) s

/-- MR0 to MR15 and the fuse counter. -/
def measurements (s : State) : List Byte := (s.pkg.fw.mr.toList.flatMap bytes512) ++ [s.pkg.fw.fuse]

def answerMeasurements (nonce : BitVec 256) (s : State) : State :=
  let m := measurements s
  hostOut (.doe (m ++ Config.identitySign (m ++ leBytes 32 nonce.toNat))) s

/-! ## The zeroing of a shakeout or a package reset (R399; spec/28_package.md R405) -/

def setLinks (l : LinkState) (s : State) : State := s.modRouter (fun r => { r with links := Vector.replicate 6 l })

/-- The counters of the host's registers, and the fields of FWSTATE beside STATE, are 0; a package reset keeps RESTARTS. -/
def HostRegs.zeroed (keep : Bool) (r : HostRegs) : HostRegs :=
  { r with
    subtail := 0, subdone := 0, subdrop := 0, subbad := 0, subrej := 0, rejlast := 0
    fwstate := r.fwstate &&& (if keep then 0xFFFF0007 else 7) }

/-- Steps 1 and 2: every context has stopped, every link is down, and all state is zero; the second tier too for a shakeout.
The time base, the fuse counter, the image store and the firmware log stay.  A log that was full has room again. -/
def zeroAll (tier2 : Bool) (s : State) : State :=
  let full := s.pkg.regs.subfree == 0
  let die : Die := { Die.reset with
    coord := s.die.coord, router := if tier2 then Router.reset else s.die.router.restarted }
  let s : State := { s with
    cur := Ctx.reset, core := Core.reset 0, cluster := Cluster.reset 0, cores := [], clusters := [], die := die
    pkg := { s.pkg with
      hbm := [], hbmPoison := []
      tier2 := if tier2 then [] else s.pkg.tier2
      tier2Poison := if tier2 then [] else s.pkg.tier2Poison
      power := if tier2 then Power.reset else s.pkg.power
      regs := s.pkg.regs.zeroed (!tier2)
      fw := { s.pkg.fw with log := [], events := [], busy := [], running := [], mr := Vector.replicate 16 0 } } }
  setLinks .down (if full then raiseVector 0 s else s)

/-! ## Duties and host assistance (R396, R397) -/

/-- Route of R345 towards coordinate `d` of a dimension of extent `e`, from coordinate `c`. -/
def routeEntry (e c d : Nat) : BitVec 2 :=
  if e ≤ d then 3
  else
    let k := (d + e - c) % e
    if k = 0 then 0 else if 2 * k ≤ e then 1 else 2

/-- The route tables that firmware computes. -/
def computeRoutes (s : State) : State :=
  let c := s.die.coord
  installRoutes ((List.range 32).map (routeEntry Config.torusX (coordX c))) ((List.range 32).map (routeEntry Config.torusY (coordY c)))
    ((List.range 16).map (routeEntry Config.torusZ (coordZ c))) s

/-- The tables of a reply, 2 bits an entry, x lowest. -/
def replyRoutes (v : BitVec 512) (s : State) : State :=
  let tab := fun (lo n : Nat) => (List.range n).map (fun i => (bits (lo + 2 * i) 2 v : BitVec 2))
  installRoutes (tab 0 32) (tab 64 32) (tab 128 16) s

/-- Step 1 of a shakeout: STATE is 4, every context stops, nothing more is published, and every link is down. -/
def quiesceAll (s : State) : State :=
  let s := (setFwState 4 s).modFw (fun w => { w with phase := .usual, assists := [] })
  let stop := fun (c : Ctx) => c.modFlow (fun w => { w with residency := .free })
  setLinks .down (((liveCtxs s).foldl (fun s c => modCtxAt c stop s) s).modQueues (fun q => { q with publications := [] }))

/-- The steps 1 to 3 of a shakeout; a link that failed and bits of an earlier check are cleared with the first. -/
def shakeStep (k : Nat) (s : State) : State :=
  match k with
  | 1 => (quiesceAll s).modRegs (fun r => { r with shakestat := r.shakestat &&& ~~~(0x1F : BitVec 64) })
  | 2 => zeroAll true s
  | 3 =>
    let x := bootFirmware s
    let bad := if x.2 then 0 else 2
    x.1.modRegs (fun r => { r with shakestat := r.shakestat ||| bad })
  | _ => s

/-- DMAX of a window's losses and publications. -/
def retain (losses published : Nat) (s : State) : State :=
  if published = 0 then s
  else s.modLineage (fun l =>
    let rho := nextRho l.rho losses published
    { l with rho := rho, control := putBits 0 8 (dmaxFor (costOf l.control) rho) l.control })

/-- A function that the hardware or firmware performs in the host's place. -/
def performAssist (w : AssistWork) (s : State) : State :=
  match w with
  | .dist inst => distributeAll (modSet inst (fun e => if e.order = .asked then { e with order := .own } else e) s)
  | .walk v => walkHere v s
  | .fill a => s.fillEnded a .walk
  | .routes => computeRoutes s
  | .retain l p => retain l p s
  | .shake k => shakeStep k s
  | .other => s

/-- The host's answer to a translation: a leaf entry, which is kept, or a fault code; an entry that is no leaf of its level counts as
a translation fault (spec/11_storage.md R162, R163). -/
def takeFill (a : WalkArg) (reply : BitVec 512) (s : State) : State :=
  match Config.replyLeaf reply with
  | none => s.fillEnded a (.fault (Config.replyPermission reply))
  | some (e, level) =>
    match walkLevels[level]? with
    | some (sh, _) =>
      if level = 0 || !e.getLsbD 0 || !e.getLsbD 1 || pteMalformed e (2 ^ sh) then s.fillEnded a (.fault false)
      else
        let page := a.va.toNat / 2 ^ sh * 2 ^ sh
        s.modDie (fun d => { d with fills :=
          { asid := a.asid, page := page, size := 2 ^ sh, pte := e } :: d.fills.filter (fun t => !t.serves a.asid a.va.toNat) })
    | none => s.fillEnded a (.fault false)

/-- What the host's reply brings. -/
def takeReply (w : AssistWork) (reply : BitVec 512) (s : State) : State :=
  match w with
  | .dist inst => distributeAll (modSet inst (fun e =>
      if e.order = .asked then { e with order := .given (Config.replyPlaces reply) } else e) s)
  | .walk v => walkAnswer v ((Config.replyRebuilds reply).map unpackVersion) s
  | .fill a => takeFill a reply s
  | .routes => replyRoutes reply s
  | .retain _ _ => s.modLineage (fun l =>
      { l with control := putBits 0 8 (min 64 (max 2 (bits 0 64 reply : BitVec 64).toNat)) l.control })
  | .shake k => shakeStep k s
  | .other => s

/-- What a request to the host is about.  The layout of requests is not given: one of DIST is taken to hold its launch packet, one
of WALK its version in the low word, and those of RETAIN the window's losses and publications in the two low words (log entry
15). -/
def workOf (fn : BitVec 3) (body : BitVec 512) (s : State) : AssistWork :=
  match fn.toNat with
  | 0 => (match s.die.queues.sets.find? (fun e => e.packet == body && e.cursor.isSome && e.order == .own) with
    | some e => .dist e.inst
    | none => .other)
  | 1 => .walk (unpackVersion (body.setWidth 64))
  | 3 => .routes
  | 4 => .retain (bits 0 64 body : BitVec 64).toNat (bits 64 64 body : BitVec 64).toNat
  | _ => .other

/-- The host is asked; where it cannot be, the work is done at once. -/
def assist (fn : BitVec 3) (w : AssistWork) (body : BitVec 512) (s : State) : State :=
  let x := askHost fn w body s
  if x.2 then
    match w with
    | .dist inst => modSet inst (fun e => { e with order := .asked }) x.1
    | _ => x.1
  else performAssist w x.1

/-- Steps of a shakeout from `k` to 5: in host-assisted mode each waits for the host. -/
def shakeSteps : Nat → Nat → State → State
  | 0, _, s => s
  | n + 1, k, s =>
    if s.duty 5 then
      let x := askHost 5 (.shake k) (Config.assistBody 5 [BitVec.ofNat 8 k]) s
      if x.2 then x.1 else shakeSteps n (k + 1) (shakeStep k x.1)
    else shakeSteps n (k + 1) (shakeStep k s)

/-- After a go or a time-out of step `k` of a shakeout. -/
def goOn (w : AssistWork) (s : State) : State :=
  match w with
  | .shake k => shakeSteps (5 - k) (k + 1) s
  | _ => s

/-- ASSIST_REQUEST: a function whose bit is 1 asks the host. -/
def requestAssist (fn : BitVec 3) (body : BitVec 512) (s : State) : State :=
  if fn.toNat < 5 ∧ s.duty fn.toNat then assist fn (workOf fn body s) body s else s

/-- A request leaves the ring. -/
def dropAssist (seq : Nat) (s : State) : State :=
  s.modFw (fun w => { w with assists := w.assists.filter (fun a => a.seq != seq) })

/-- A reply that names an outstanding request ends it; any other is ignored. -/
def replyAssist (seq : Nat) (reply : BitVec 512) (s : State) : State :=
  match s.pkg.fw.assists.find? (fun a => a.seq == seq) with
  | some a => goOn a.work (takeReply a.work reply (dropAssist seq s))
  | none => s

/-- ASSIST_TIMEOUT: 100 ms without a reply. -/
def timeoutAssist (seq : Nat) (s : State) : State :=
  match s.pkg.fw.assists.find? (fun a => a.seq == seq) with
  | some a =>
    goOn a.work (performAssist a.work ((dropAssist seq s).modFw (fun w => { w with assistFallback := w.assistFallback + 1 })))
  | none => s

/-! ## The firmware cores (R388) -/

/-- What a core does for an event; an entry of the submission log is processed by SUBMISSION_PROCESS, and what firmware does with a
notice is not given. -/
def FwWork.perform (w : FwWork) (s : State) : State :=
  match w with
  | .submission _ => s
  | .notice _ => s
  | .digests => answerDigests s
  | .certificate off len => answerCertificate off len s
  | .challenge n => answerChallenge n s
  | .measurements n => answerMeasurements n s
  | .fuse v sig => commitFuse v sig s
  | .extend r m => extendHost r m s
  | .load im => loadImage im s
  | .reply seq r => replyAssist seq r s

/-- A core of the complex is idle, and none holds a key; firmware that boots takes no event. -/
def coreFor (key : Nat) (s : State) : Bool :=
  s.pkg.fw.phase != .booting && s.pkg.fw.busy.length < 12 && !s.pkg.fw.busy.any (fun b => b.key == key)

/-- A core takes an event and runs to completion; an entry of the submission log holds its key until it has been processed. -/
def runEvent (e : FwEvent) (s : State) : State :=
  match e.work with
  | .submission _ => s.modFw (fun w => { w with busy := w.busy ++ [e] })
  | w => w.perform s

/-- FIRMWARE_EVENT_DELIVERY: the first event that a core can take. -/
def deliverEvent (s : State) : State :=
  match s.pkg.fw.events.find? (fun e => coreFor e.key s) with
  | some e => runEvent e (s.modFw (fun w => { w with events := w.events.erase e }))
  | none => s

/-- An event of a key arrives: a core takes it at once where it can, and no earlier event of its key waits. -/
def comes (key : Nat) (w : FwWork) (s : State) : State :=
  if s.pkg.fw.events.length < 65536 ∧ coreFor key s ∧ !s.pkg.fw.events.any (fun e => e.key == key) then w.perform s
  else pushEvent key w s

/-- A message of the DOE mailbox; a reply of the host. -/
def mailbox (w : FwWork) (s : State) : State := comes keyMailbox w s
def hostReplies (seq : Nat) (r : BitVec 512) (s : State) : State := comes keyReply (.reply seq r) s

/-- DMAX_UPDATE; in host-assisted mode the host sets DMAX (spec/21_tasks.md R329). -/
def windowEnds (s : State) : State :=
  let l := s.die.lineage
  if s.duty 4 then
    if l.published = 0 then s.modLineage (fun l => { l with lossBase := l.losscount })
    else
      let lost := (l.losscount - l.lossBase).toNat
      assist 4 (.retain lost l.published) (BitVec.ofNat 512 (lost + l.published * 2 ^ 64))
        (s.modLineage (fun l => { l with published := 0, lossBase := l.losscount }))
  else updateDmax s

/-! ## Shakeout (R398 to R400) -/

/-- A shakeout waits for the host's go. -/
def State.shakeAsked (s : State) : Bool := s.pkg.fw.assists.any (fun a => match a.work with | .shake _ => true | _ => false)

/-- SHAKECMD: the write's nonce starts a shakeout, whose first step sets STATE 4.  One that waits for the host's go on that step is
under way already (log entry 22). -/
def shakeout (nonce : BitVec 64) (s : State) : State :=
  if nonce = 0 ∨ fwState s.pkg.regs.fwstate = 4 ∨ s.shakeAsked then s
  else shakeSteps 5 1 (s.modFw (fun w => { w with nonce := nonce }))

/-- The word of R400. -/
def shakeWord (r : ShakeResult) (noImage : Bool) : BitVec 64 :=
  let flag := fun (b : Bool) (i : Nat) => if b then BitVec.ofNat 64 (2 ^ i) else 0
  (r.timeMs.setWidth 64 <<< 32) ||| 0x80 ||| flag r.zeroFailed 0 ||| flag (r.measFailed || noImage) 1 |||
    flag r.selfFailed 2 ||| flag r.marchFailed 3 ||| flag r.berFailed 4

/-- What the report holds (R400): the word, the nonce, the time of each step, the bit errors of each link, and core and address of
each failed check. -/
def reportContents (w nonce : BitVec 64) (r : ShakeResult) : List Byte :=
  leBytes 8 w.toNat ++ leBytes 8 nonce.toNat ++ r.stepMs.flatMap (fun t => leBytes 4 t.toNat) ++
    r.linkErrors.flatMap (fun n => leBytes 8 n.toNat) ++ r.failures.flatMap (fun f => leBytes 8 f.1.toNat ++ leBytes 8 f.2.toNat)

/-- The report of 4,096 bytes: the word and the nonce, then the rest of its contents with the signature over them and MR0 to MR15, in
a layout that is not given (log entry 22). -/
def shakeReport (w nonce : BitVec 64) (r : ShakeResult) (s : State) : List Byte :=
  let c := reportContents w nonce r
  let signed := c ++ Config.identitySign (c ++ s.pkg.fw.mr.toList.flatMap bytes512)
  leBytes 8 w.toNat ++ leBytes 8 nonce.toNat ++ (List.range 4080).map (Config.reportByte signed)

/-- SHAKEOUT_COMPLETE: the steps 4 and 5. -/
def endShakeout (r : ShakeResult) (s : State) : State :=
  if fwState s.pkg.regs.fwstate ≠ 4 ∨ s.shakeAsked then s
  else
    let w := shakeWord r (s.pkg.regs.shakestat.getLsbD 1)
    let report := shakeReport w s.pkg.fw.nonce r s
    let s := extendMr 4 report (hostOut (.memory s.pkg.regs.reportaddr report) s)
    let s := (setLinks .up s).modRegs (fun r => { r with shakestat := w })
    let s := writeDutymode 0 s
    let s := s.modRegs (fun r => { r with winbase := 0, assistbase := 0, reportaddr := 0, msix := [] })
    let s := s.modFw (fun f => { f with nonce := 0, assists := [], assistSeq := 0 })
    raiseVector 3 (setFwState (if bits 0 5 w = (0 : BitVec 5) then 1 else 5) s)

/-- CONTROL_REGISTER_WRITE (R383); reserved and read-only offsets ignore it. -/
def writeRegister (off : Nat) (v : BitVec 64) (s : State) : State :=
  match off with
  | 0x18 => if v = 0 then s.modRegs (fun r => { r with subdrop := 0 }) else s
  | 0x20 => if v = 0 then s.modRegs (fun r => { r with subbad := 0 }) else s
  | 0x28 => if v = 0 then s.modRegs (fun r => { r with subrej := 0 }) else s
  | 0x48 => writeDutymode v s
  | 0x50 => s.modRegs (fun r => { r with winbase := alignDown 36 v })
  | 0x58 => s.modRegs (fun r => { r with assistbase := alignDown 12 v })
  | 0x68 => shakeout v s
  | 0x78 => s.modRegs (fun r => { r with reportaddr := alignDown 12 v })
  | _ => s

/-! ## Host accesses (R382, R383, R385) -/

/-- A control register as the host reads it; the two that can only be written read as a free value, and a reserved offset as 0. -/
def readRegister (off : Nat) (s : State) : BitVec 64 :=
  let r := s.pkg.regs
  match off with
  | 0x00 => r.subtail
  | 0x08 => r.subdone
  | 0x10 => BitVec.ofNat 64 r.subfree
  | 0x18 => r.subdrop
  | 0x20 => r.subbad
  | 0x28 => r.subrej
  | 0x30 => r.rejlast
  | 0x40 => r.fwstate
  | 0x48 => r.dutymode
  | 0x50 => r.winbase
  | 0x58 => r.assistbase
  | 0x60 => Config.freeWord s.freeCount
  | 0x68 => Config.freeWord s.freeCount
  | 0x70 => r.shakestat
  | 0x78 => r.reportaddr
  | 0x80 => r.infoaddr
  | _ => 0

/-- The router counters of die `i` of the package at place `k` of R362's order. -/
def dieCounter (i k : Nat) (s : State) : BitVec 64 :=
  if 42 ≤ k then 0
  else if i = dieIndex s.die.coord then (routerCounters s.die.router).getD k 0 else Config.otherCounter i s.pkg.clocks k

/-- The MSI-X table: 2,048 entries of 16 bytes. -/
def inMsix (a : Nat) : Bool := 0x80000 ≤ a && a < 0x88000

/-- A byte of BAR0: the control registers, the MSI-X table, and the router counters, 4 KiB for each die. -/
def barByte (s : State) (a : Nat) : Byte :=
  if inMsix a then memGet s.pkg.regs.msix (a - 0x80000)
  else if 0x90000 ≤ a && a < 0x94000 then byteOf (dieCounter ((a - 0x90000) / 4096) (a % 4096 / 8) s) (a % 8)
  else byteOf (readRegister (a / 8 * 8) s) (a % 8)

/-- A write to BAR0: a register by its 8 bytes, or bytes of the MSI-X table; nothing else there takes a write. -/
def writeBar (off : Nat) (bs : List Byte) (s : State) : State :=
  if off % 8 = 0 ∧ bs.length = 8 ∧ off < 0x80000 then writeRegister off (BitVec.ofNat 64 (leNat bs)) s
  else s.modRegs (fun r => { r with msix := (bs.mapIdx (fun i b => (off + i, b))).foldl (fun m x =>
    if inMsix x.1 then memSet m (x.1 - 0x80000) x.2 else m) r.msix })

/-- The memory byte of a package physical address: HBM first, then the second tier (PRESUMED, log entry 6). -/
def packageByte (a : Nat) : Option PByte :=
  if a < Config.hbmBytes then some (.hbm, a)
  else if a < Config.hbmBytes + Config.tier2Bytes then some (.second, a - Config.hbmBytes)
  else none

/-- A BAR's size. -/
def barSize : HostBar → Nat
  | .registers => 2 ^ 20
  | .submission => 2 ^ 18
  | .memory => 2 ^ 36

/-- The memory byte that a byte of BAR4 shows. -/
def windowByte (off : Nat) (s : State) : Option PByte := packageByte (s.pkg.regs.winbase.toNat + off)

/-- A host access to a BAR; memory is reached untranslated, and beyond installed memory a read gives ones and a write is dropped.
Reads of the submission window give ones (R385). -/
def windowAccess (w : WindowAccess) (s : State) : State :=
  match w.write with
  | some bs =>
    if barSize w.bar < w.offset + bs.length then s
    else
      match w.bar with
      | .registers => writeBar w.offset bs s
      | .submission => submit { offset := w.offset, bytes := bs } s
      | .memory => storeCells (pairCells ((List.range bs.length).map (fun i => windowByte (w.offset + i) s)) bs) s
  | none =>
    if barSize w.bar < w.offset + w.len then s
    else
      let at_ := (List.range w.len).map (fun i => w.offset + i)
      match w.bar with
      | .registers => hostOut (.completion (at_.map (barByte s)) false) { s with freeCount := s.freeCount + 1 }
      | .submission => hostOut (.completion (at_.map (fun _ => 0xFF)) false) s
      | .memory =>
        let cs := at_.map (fun a => windowByte a s)
        hostOut (.completion (cs.map (fun c => match c with | some p => physRead p.1 p.2 s | none => 0xFF)) (cellsPoison cs s)) s

end Sys2Proof.Machine
end

