-- ==== Sys2Proof/Machine/Package.lean ====
section
/-! DEFINITION. The package: clock and power, the time base, sensors, resets, errors in memory, and a die that is lost
(spec/28_package.md R401 to R409; spec/21_tasks.md R331, R337; spec/15_ordering.md R230). -/
namespace Sys2Proof.Machine

def State.modPower (f : Power → Power) (s : State) : State := s.modPkg (fun p => { p with power := f p.power })

/-! ## Resets of the package (R405) -/

/-- PACKAGE_RESET: steps 1 to 3 of a shakeout, with STATE 3 until the restarted firmware runs, the second tier and the counters of
R408 kept; a device that had failed stays failed (R400).  The package has then to adopt its domain's time (R404), and its links stay
down until it has.  A package reset during a shakeout is absorbed by it, as a die reset is (log entry 19). -/
def resetPackage (s : State) : State :=
  let st := fwState s.pkg.regs.fwstate
  if st = 4 then s
  else
    let s := zeroAll false (if st = 5 then s else setFwState 3 s)
    (s.modFw (fun w => { w with phase := .booting })).modPkg (fun p => { p with timeHeld := false })

/-- POWER_ON_RESET: every state at its reset value but the fuse counter, the image store and the identity key; firmware
boots. -/
def powerOn (s : State) : State :=
  let w := s.pkg.fw
  let pkg : Package := { Package.reset with fw := { Firmware.reset with store := w.store, loaded := w.loaded, fuse := w.fuse } }
  let x := bootFirmware { State.reset with pkg := pkg, inputs := s.inputs, turns := s.turns, freeCount := s.freeCount }
  setFwState (if x.2 then 1 else 5) x.1

/-! ## Clock and power (R401, R402) -/

/-- A sample of the power manager, every 10 µs; 100 calm samples fill the 1 ms window. -/
def samplePower (p : PowerReading) (s : State) : State :=
  let calmNow := p.package ≤ 1800 && p.junction ≤ 95
  let floor := s.pkg.power.freq == 600
  let s := s.modPower (fun w => { w with
    calm := if calmNow then w.calm + 1 else 0
    floorns := if floor then w.floorns + 10000 else w.floorns })
  if 110 ≤ p.junction ∨ 45 < p.inlet then resetPackage (s.modPower (fun w => { w with trips := w.trips + 1 }))
  else if 1900 < p.package ∨ 2200 < p.module ∨ 100 ≤ p.junction then
    if s.pkg.power.freq ≤ 600 then s
    else s.modPower (fun w => { w with freq := w.freq - 25, stepdn := w.stepdn + 1 })
  else if calmNow && 100 ≤ s.pkg.power.calm then
    s.modPower (fun w => { w with freq := if w.freq < 1100 then w.freq + 25 else w.freq, calm := 0 })
  else s

/-- TIME_SYNC: what the time base differs from the reference by is slewed in from now on (R403).  A package that joins its domain, or
returns to it, first adopts the domain's time, without going back, and then takes fabric traffic (R404). -/
def syncTime (reference : Nat) (s : State) : State :=
  if s.pkg.timeHeld then s.modPkg (fun p => { p with slew := 1000 * reference - p.timePs })
  else
    setLinks .up (s.modPkg (fun p =>
      { p with timePs := max p.timePs (1000 * reference), slew := min 0 (1000 * reference - p.timePs : Int), timeHeld := true }))

/-- The sensor word of R407. -/
def sensorWord (freq : Nat) (p : PowerReading) : BitVec 64 :=
  BitVec.ofNat 16 freq ++ BitVec.ofNat 12 p.package ++ BitVec.ofNat 12 p.module ++ BitVec.ofNat 8 p.junction ++
    BitVec.ofNat 8 p.hbm ++ BitVec.ofNat 8 p.inlet

/-- SENSOR_SAMPLE: the word of the die, which the host sensor page shows too. -/
def sampleSensors (p : PowerReading) (s : State) : State :=
  s.modDie (fun d => { d with sensor := sensorWord s.pkg.power.freq p })

/-! ## A die is reset (R406) -/

/-- Its number in this package, where it lies there. -/
def packageIndex (c : Coord) (s : State) : Option Nat := if inPackage c s then some (dieIndex c) else none

/-- A die of this package restarts with its two stacks zeroed. -/
def zeroStacks (i : Nat) (p : Package) : Package :=
  let outside := fun (a : Nat) => decide (a < i * Config.dieHbmBytes) || decide ((i + 1) * Config.dieHbmBytes ≤ a)
  { p with hbm := p.hbm.filter (fun c => outside c.1), hbmPoison := p.hbmPoison.filter (fun b => outside (64 * b.1)) }

def countDieReset (c : Coord) (s : State) : State :=
  match packageIndex c s with
  | some i => s.modPower (fun w => { w with diereset := vecModify i (· + 1) w.diereset })
  | none => s

/-- The clocks towards a die are 0. -/
def clearClocks (c : Coord) (s : State) : State :=
  let own := match domainIndex c s with | some i => smErase i s.die.clocks.own | none => s.die.clocks.own
  s.modDie (fun d => { d with clocks := { own := own, sent := d.clocks.sent.filter (fun x => x.1.1 != c),
                                          received := d.clocks.received.filter (fun x => x.1.1 != c) } })

/-- The regions of this die's contexts whose home is the die that was lost. -/
def regionsHomed (c : Coord) (s : State) : List Member :=
  ((allCtxs.filterMap (fun x => (ctxAt x s).flow.region)) ++ (s.die.queues.saved.filterMap (fun v => v.ctx.flow.region)) ++
    s.die.votes.map (·.2)).filter (fun m => m.region.home == c)

/-- Another die is reset: this die learns of it. -/
def otherDieReset (c : Coord) (s : State) : State :=
  let s := enqueueNotice 5 0 { a0 := c.setWidth 64, a1 := 0, a2 := 0, a3 := 0, a4 := 0 } none 0 s
  let s := clearClocks c s
  let mine := s.die.regions.filter (fun r => r.members.any (fun m => m.die == c))
  let s := mine.foldl (fun s r => abortRegion r.name 7 s) s
  let s := (regionsHomed c s).foldl (fun s m => deliverAborts m.region s) s
  let s := s.die.lineage.entries.foldl (fun s e => if cadMirror e then s else loseReplica c (cadId e) s) s
  let s := s.modDie (fun d => { d with shard := d.shard.filter (fun l => l.region.home != c), ended := d.ended.filter (fun e => e.home != c) })
  let s := match packageIndex c s with | some i => s.modPkg (zeroStacks i) | none => s
  adoptMirrors c s

/-- The tasks of this die that are being saved retire faulted (R406; spec/09_traps.md R145): each is declared lost, and what is sent
for it leaves. -/
def loseSaves (s : State) : State :=
  (liveCtxs s).foldl (fun s c =>
    match savedOf c s with
    | some v => withFocus c (fun t => contextLost (saveBlock v.index) (dropSave v t)) s
    | none => s) s

/-- This die is reset: its contexts stop, its own two stacks of HBM are zero, its queues and its cadastre are empty; the tables that firmware
wrote at bring-up stay. -/
def ownDieReset (s : State) : State :=
  let s := loseSaves (s.modRouter (fun r => { r with outbox := [] }))
  let die : Die := { Die.reset with
    coord := s.die.coord, domain := s.die.domain, resetting := true
    queues := { Queues.reset with noticeTable := s.die.queues.noticeTable }
    router := { s.die.router.restarted with
      routeX := s.die.router.routeX, routeY := s.die.router.routeY, routeZ := s.die.router.routeZ, control := s.die.router.control
      outbox := s.die.router.outbox } }
  { s with
    cur := Ctx.reset, core := Core.reset 0, cluster := Cluster.reset 0, cores := [], clusters := [], die := die
    pkg := zeroStacks (dieIndex s.die.coord) s.pkg }

/-- DIE_RESET; one during a shakeout is absorbed by it. -/
def resetDie (c : Coord) (s : State) : State :=
  if fwState s.pkg.regs.fwstate = 4 then s
  else
    let s := countDieReset c s
    if c = s.die.coord then ownDieReset s else otherDieReset c s

/-- DIE_RETURN. -/
def returnDie (c : Coord) (s : State) : State :=
  if c = s.die.coord then s.modDie (fun d => { d with resetting := false }) else s

/-- DOMAIN_RESET: every counter and stored clock is 0 (spec/15_ordering.md R230). -/
def resetDomain (s : State) : State := s.modDie (fun d => { d with clocks := { own := [], sent := [], received := [] } })

/-! ## Errors in memory (spec/21_tasks.md R331, R337) -/

/-- Pre-empted tasks whose save blocks hold a byte of a range are declared lost when they come back. -/
def loseSavedAt (addr len : Nat) (s : State) : State :=
  s.modQueues (fun q => { q with saved := q.saved.map (fun v =>
    let b := (saveBlock v.index).toNat
    if addr < b + 1048576 ∧ b < addr + len then
      let cyc := (coreAt v.home.core s).cycle
      { v with ctx := v.ctx.addDue (boundaryReq .saveOverrun 0 (saveBlock v.index) none cyc v.ctx) }
    else v) })

/-- Some bytes of own HBM lie in a destroyed range. -/
def hits (addr len base n : Nat) : Bool := base < addr + len && addr < base + n

/-- Cadastre entries in destroyed bytes (R337): a mirror is lost; an entry of this die is taken from its own mirror, and where
that is destroyed too, which is a free value, the version counts as having no lineage (log entry 61). -/
def loseEntries (addr len : Nat) (s : State) : State :=
  let ix := s.freeCount
  let hit := fun (i : Nat) => hits addr len (Config.cadBase + 128 * i) 128
  let es := s.die.lineage.entries.mapIdx (fun i e =>
    if !hit i then some e
    else if cadMirror e then none
    else if Config.freeBit (ix * 64 + i) then some (putBits 899 3 0 e)
    else some e)
  if (List.range s.die.lineage.entries.length).any hit then
    { s.modLineage (fun l => { l with entries := es.filterMap id }) with freeCount := ix + 1 }
  else s

/-- Trap records and queued notices in destroyed bytes are lost (R337). -/
def loseLogs (addr len : Nat) (s : State) : State :=
  (s.modDie (fun d => { d with trapLog := d.trapLog.filter (fun r => !hits addr len (Config.trapLogBase + 64 * r.1) 64) })).modQueues
    (fun q => { q with notices := q.notices.filter (fun n =>
      !hits addr len (Config.noticeBase + 64 * ((bits 80 16 n : BitVec 16).toNat % 4096)) 64) })

/-- What the device keeps in reserved HBM loses what lies in destroyed bytes. -/
def loseReserved (addr len : Nat) (s : State) : State := loseLogs addr len (loseEntries addr len (loseSavedAt addr len s))

/-- HBM_UNCORRECTABLE_ERROR: rows of HBM or of the second tier are destroyed. -/
def memoryError (tier2 : Bool) (addr len : Nat) (s : State) : State :=
  let k := if tier2 then Tier.second else Tier.hbm
  if len = 0 ∨ k.size < addr + len then s
  else
    let vs := versionsAt (fun c => c.1 == k && addr ≤ c.2 && c.2 < addr + len) s
    let s := markPoison k addr len s
    let s := s.modFw (fun w => { w with rowsLogged := w.rowsLogged ++ [(if tier2 then Config.hbmBytes + addr else addr, len)] })
    let s := if tier2 then s else loseReserved addr len s
    vs.foldl (fun s v => loseVersion v s) s

/-- The memory bytes that an engine's operation writes. -/
def writtenBytes (o : Op) (s : State) : List PByte :=
  let ps := match o.kind with
    | .blockCopy src _ => recRun o.record o.offset (bxfLen src)
    | _ => (storeParts o s).1
  if recSpace o.record = 2 then []
  else (scanCells o .write (kindSpace o.record) s (placeAddrs o.record ps)).1.filterMap id

/-- COPY_ENGINE_FAILURE: the versions whose places the engine was writing are lost; the operation itself stays in flight. -/
def copyFailure (id : Nat) (s : State) : State :=
  match findOp id s with
  | none => s
  | some o =>
    let bs := writtenBytes o s
    (versionsAt (fun c => bs.contains c) s).foldl (fun s v => loseVersion v s) s

/-! ## The information page and aging (R409; spec/21_tasks.md R313) -/

/-- DEFWDLIM_WRITE. -/
def writeDefwdlim (v : BitVec 64) (s : State) : State := s.modDie (fun d => { d with defwdlim := v.setWidth 32 })

/-- AGELIM_WRITE: 0, or a limit that R313 allows; any other value changes nothing (log entry 62). -/
def writeAgelim (v : BitVec 64) (s : State) : State :=
  if v = 0 ∨ (2 ^ 10 ≤ v.toNat ∧ v.toNat ≤ 2 ^ 32) then s.modQueues (fun q => { q with agelim := v }) else s

/-- REGION_DEADLINE: the time base has reached the DEADLINE of an open region homed here (spec/19_trees_regions.md R298). -/
def deadline (obj : BitVec 40) (s : State) : State :=
  match s.die.regions.find? (fun r => r.name.obj == (bits 6 34 obj : BitVec 34)) with
  | none => s
  | some r => expireRegion r s

/-- REGION_ABORT_DELIVERY: the abort of a region reaches a member whose region has ended. -/
def abortReaches (c : CtxId) (s : State) : State :=
  match (ctxAt c s).flow.region with
  | none => s
  | some m => if m.region.home = s.die.coord ∧ (findRegion m.region s).isSome then s else deliverAborts m.region s

end Sys2Proof.Machine
end

