-- ==== Sys2Proof/Machine/Progress.lean ====
section
/-! DEFINITION. What the units outside the issue path do next when nothing else is asked for: each act is one of the events
of the opcode table, and the order in which the model takes them is its own (log entry 2). -/
namespace Sys2Proof.Machine

/-! ## Events of flags and watches -/

/-- FLAG_WAIT_RELEASE: the first waiter of a flag is served once the flag meets its count (spec/11_storage.md R183). -/
def releaseWait (core : BitVec 6) (flag : BitVec 5) (s : State) : State :=
  let k := coreAt core s
  match k.firstWaiter flag with
  | none => s
  | some w =>
    if k.flagMet w.ctx flag w.count then
      let c : CtxId := { core := core, ctx := w.ctx }
      let s := modCoreAt core (Core.serveFlag w.ctx flag w.count) s
      modCtxAt c (fun x => x.modFlow (fun f => { f with flagGrant := some f.pc })) s
    else s

/-- The watches of a context's task, and of pre-empted tasks that left it; each with its owner. -/
def watchesOf (c : CtxId) (s : State) : List (Option Nat × Nat × Watch) :=
  ((ctxAt c s).flow.watches.mapIdx (fun i w => (none, i, w))) ++
    (s.die.queues.saved.filter (fun v => v.home == c)).flatMap (fun v => v.ctx.flow.watches.mapIdx (fun i w => (some v.index, i, w)))

/-- What a watch waits for has come (R178). -/
def watchMet (c : CtxId) (inst : Nat) (w : Watch) (s : State) : Bool :=
  match w.kind with
  | .scratch .. => wordMet w.kind { s with cluster := clusterAt (clusterOf c.core) s }
  | .memory .. => wordMet w.kind s
  | .never => false
  | .set _ => predDone inst s

/-- The instance of the set of a watch's task. -/
def watchInst (c : CtxId) (v : Option Nat) (s : State) : Nat :=
  let t := match v with
    | none => (ctxAt c s).flow.task
    | some i => ((s.die.queues.saved.find? (fun (x : Saved) => x.index == i)).bind (fun x => x.ctx.flow.task))
  match t with | some t => t.inst | none => 0

/-- A watch ends. -/
def dropWatch (c : CtxId) (v : Option Nat) (i : Nat) (s : State) : State :=
  let cut := fun (x : Ctx) => x.modFlow (fun w => { w with watches := w.watches.eraseIdx i })
  match v with
  | none => modCtxAt c cut s
  | some n => s.modQueues (fun q => { q with saved := q.saved.map (fun x => if x.index = n then { x with ctx := cut x.ctx } else x) })

/-- SWAIT_POST: a watch that is met posts its flag and ends. -/
def postWatch (c : CtxId) (n : Nat) (s : State) : State :=
  match (watchesOf c s)[n]? with
  | none => s
  | some (v, i, w) => if watchMet c (watchInst c v s) w s then postFlag c.core w.flag 1 (dropWatch c v i s) else s

/-- RING_SPILL of the ring whose descriptor lies at a physical address of HBM. -/
def spillAt (ring : BitVec 64) (s : State) : State :=
  match s.die.rings.find? (fun r => r.place == (Tier.hbm, ring.toNat)) with
  | none => s
  | some r => if r.spillable then spillRing r s else s

/-! ## Acts -/

/-- The first of some acts that changes anything. -/
def firstAct : List (State → Option State) → State → Option State
  | [], _ => none
  | f :: r, s => match f s with | some t => some t | none => firstAct r s

/-- An operation on the own die completes, the oldest first. -/
def actComplete (s : State) : Option State :=
  (s.die.ops.filter (fun o => o.remote.isNone)).findSome? (fun o =>
    let t := completeOp o.id s
    if (findOp o.id t).isNone then some t else none)

/-- An operation on the own die asks the host for a translation (spec/26_host.md R397). -/
def actFill (s : State) : Option State :=
  if s.duty 2 then
    (s.die.ops.filter (fun o => o.remote.isNone)).findSome? (fun o =>
      let t := completeOp o.id s
      if (findOp o.id t).isSome && t.pkg.fw.assistSeq + t.pkg.fw.assistFallback != s.pkg.fw.assistSeq + s.pkg.fw.assistFallback then
        some t
      else none)
  else none

/-- A factorisation runs its next column; one on a frozen core stands still (R148). -/
def actFactor (s : State) : Option State :=
  (liveCores s).findSome? (fun k =>
    match (coreAt k s).fact with
    | some f => if (coreAt k s).frozenLeft = 0 then some (withFocus { core := k, ctx := f.ctx } stepFact s) else none
    | none => none)

/-- A trap that waits for the drain is delivered. -/
def actDeliver (s : State) : Option State :=
  (liveCtxs s).findSome? (fun c =>
    if (ctxAt c s).flow.taking.isSome then
      let t := withFocus c (fun u => settleCur (deliverTaking u)) s
      if (ctxAt c t).flow.taking.isSome then none else some t
    else none)

/-- A watch that is met posts. -/
def actWatch (s : State) : Option State :=
  (liveCtxs s).findSome? (fun c =>
    match (watchesOf c s).findIdx? (fun x => watchMet c (watchInst c x.1 s) x.2.2 s) with
    | some n => some (postWatch c n s)
    | none => none)

/-- A save ends. -/
def actSave (s : State) : Option State :=
  (liveCtxs s).findSome? (fun c =>
    if (ctxAt c s).flow.residency == .saving then
      let t := withFocus c endSave s
      if (ctxAt c t).flow.residency == .saving then none else some t
    else none)

/-- A region that a pre-empted task holds is written out. -/
def actWriteout (s : State) : Option State :=
  (liveCores s).findSome? (fun k =>
    let n := (coreAt k s).held.length
    if n = 0 then none
    else (List.range n).findSome? (fun i =>
      let t := withFocus { core := k, ctx := (coreAt k s).sel } (writeOutAt i) s
      if (coreAt k t).held.length < n then some t else none))

/-- A task is published. -/
def actPublish (s : State) : Option State :=
  (s.die.queues.publications.find? (fun p => !writesLeft p.key s)).map (fun p => publish p.key s)

/-- A ring's entry is spilled. -/
def actSpill (s : State) : Option State :=
  s.die.rings.findSome? (fun r =>
    if r.spillable then
      let t := spillRing r s
      if (t.die.rings.find? (fun x => x.place == r.place)).any (fun x => x.spilled != r.spilled) then some t else none
    else none)

/-- A context whose task has retired becomes free. -/
def actSettle (s : State) : Option State :=
  (liveCtxs s).findSome? (fun c =>
    if (ctxAt c s).flow.residency == .retiring then
      let t := withFocus c settleCur s
      if (ctxAt c t).flow.residency == .retiring then none else some t
    else none)

/-- A watched word of a queued task qualifies. -/
def actQualify (s : State) : Option State :=
  (s.die.queues.tasks.find? (fun t => t.watching && waitState t.ref s != .below)).map (fun t => qualifyTask t.ref.serial s)

/-- The lost inputs of the tasks that are held, each with the task's priority (spec/21_tasks.md R332). -/
def wantedInputs (s : State) : List (VersionId × BitVec 3) :=
  s.die.queues.tasks.flatMap (fun t => ((inputsOf t.ref).filter s.die.queues.lost).map (fun v => (v, t.pri)))

/-- A need has work to do: at this home, or to be sent to another (R332, R333). -/
def needActs (v : VersionId) (p : BitVec 3) (s : State) : Bool :=
  match findCad v s with
  | some e => (cadState e == 2 && (intactReps e s).isEmpty) || cadState e == 5 || (cadState e == 3 && cadPri e < p)
  | none =>
    match s.die.queues.unavailable.lookup v with
    | some home => home != s.die.coord && !s.die.queues.asked.any (fun a => a.1 == v && p ≤ a.2)
    | none => false

/-- The need of a held task goes to its version's home. -/
def actNeed (s : State) : Option State :=
  ((wantedInputs s).find? (fun w => needActs w.1 w.2 s)).map (fun w => need w.1 w.2 s)

/-- A rebuild that could not be enqueued before is, and entries that may be freed are (R328, R333). -/
def actLineage (s : State) : Option State :=
  if s.die.lineage.entries.any (pumpable s) then some (pumpRebuilds s)
  else
    let t := freeEntries s
    if t.die.lineage.entries.length < s.die.lineage.entries.length then some t else none

/-- A distribution that was paused goes on (R310). -/
def actDistribute (s : State) : Option State := if canDistribute s then some (distributeAll s) else none

/-- A queued task that has waited AGELIM cycles rises (R313). -/
def actAge (s : State) : Option State :=
  (s.die.queues.tasks.find? (fun t => agesNow t s)).map (fun t => ageTask t.ref.serial s)

/-- The DEADLINE of a region homed here comes (spec/19_trees_regions.md R298). -/
def actDeadline (s : State) : Option State :=
  (s.die.regions.find? (fun r => (objDeadline (readObj r.place s)).toNat ≤ s.timeNs &&
    objState (readObj r.place s) == 1)).map (fun r => expireRegion r s)

/-- A response slot's timer has passed FABTMO (spec/23_fabric.md R352). -/
def actTimeout (s : State) : Option State :=
  (liveCtxs s).findSome? (fun c =>
    ((List.range 8).find? (fun i => slotExpired c i s)).map (fun i => timeoutSlot c i s))

/-- A request that drew a retry is sent again (R351). -/
def actResend (s : State) : Option State :=
  (s.die.router.retries.findIdx? (fun r => r.1 ≤ s.timeNs)).map (fun i => resend i s)

/-- A request that has waited here for 1 ms is dropped (R348). -/
def actAgeDrop (s : State) : Option State :=
  (s.die.router.heldRequests.findIdx? (fun q => q.old s)).map (fun i => dropRequest i s)

/-- A packet that has waited at a router input for 100 µs is dropped (R348). -/
def actDropWaiting (s : State) : Option State :=
  (s.die.router.waiting.findIdx? (fun w => w.old s)).map (fun i => dropWaiting i s)

/-- A link whose resends are spent retrains (R360). -/
def actRetrain (s : State) : Option State :=
  ((List.range 6).find? (fun n => s.die.router.links[n]? == some .up && retriesSpent n s)).map (fun n => retrain n s)

/-- Firmware ends a rewrite of the domain table, or runs again after a package reset (spec/26_host.md R389). -/
def actFirmware (s : State) : Option State :=
  match s.pkg.fw.phase with
  | .usual => none
  | .rewriting => some (endRewriting s)
  | .booting => some (startFirmware s)

/-- One act of the units outside the issue path; none where there is none to take. -/
def progress (s : State) : Option State :=
  firstAct [actTimeout, actFirmware, loopBack, actDeadline, actResend, sendWaiting, actDropWaiting, actRetrain, actAgeDrop, actComplete, actFill, actFactor, actDeliver, actWatch,
    serveHeld, actSettle, actPublish, actSave, takeMgmt, actSpill, actQualify, actAge, actDistribute, actNeed, actLineage, dispatchOne, actWriteout] s

end Sys2Proof.Machine
end

