-- ==== Sys2Proof/Machine/Issue.lean ====
section
/-! DEFINITION. The issue of one bundle: its checks, its waits, its trap or its commit, and what follows (spec/03_bundles.md
R25, R46, R47, R53 to R56; spec/01_machine.md R15; spec/09_traps.md R122 to R125). -/
namespace Sys2Proof.Machine

/-! ## The slots of a bundle -/

/-- A slot that executes, with what it does. -/
abbrev SlotRun := Instr × SlotRes

/-- The general registers that an instruction writes. -/
def gWrites (i : Instr) : List (BitVec 5) := (dests i).filterMap (fun d => match d with | .g r => some r | _ => none)

/-- The buffer record that an instruction works through (spec/11_storage.md R168), with the peer register it names. -/
def recordUse : Instr → Option (BitVec 4 × BitVec 3)
  | .tld f | .tst f | .tldn f | .tstn f | .bxf f | .vld f | .vst f | .sld f | .sst f | .amo f | .amoc f | .ssig f
  | .arLd f | .arSt f => some (f.b, f.n)
  | .tprf f | .feset f | .feclr f | .swait f => some (f.b, 0)
  | .mload f => some (mloadB f, mloadN f)
  | _ => none

/-- The buffer records that an instruction reads or writes. -/
def recordsOf (i : Instr) : List (BitVec 4) :=
  match i with
  | .bxf f => [f.b, bits 0 4 f.modf]
  | .recld f | .recst f => [f.b]
  | .recmk f => [f.b, f.imm.setWidth 4]
  | _ => ((recordUse i).map (·.1)).toList

/-- The slot needs a response slot (spec/23_fabric.md R349). -/
def remoteSlot (i : Instr) : Bool := (recordUse i).any (fun x => x.2 != 0)

/-- The slot may take a response slot: as above, for a region's home (R291), or for an invalidation (log entry 67). -/
def mayTakeSlot : Instr → Bool
  | .arOpen _ | .arJoin _ | .arCommit _ | .arAbort _ | .arLeave _ | .tfenceInv _ | .tfenceAll _ => true
  | i => remoteSlot i

def inLSlot (i : Instr) : Bool := slotOf i == some .l

/-- The ORDER of the slot's records asks it to wait. -/
def orderWaits (i : Instr) (s : State) : Bool :=
  match recordUse i with
  | some x => orderHeld (isRelease (s.readB x.1)) s
  | none => false

/-- The slot works on a tree that a fill or a pre-empted task holds (spec/19_trees_regions.md R286, spec/09_traps.md R143). -/
def treeWaits (i : Instr) (s : State) : Bool := (treeUses i).any (fun x => s.treeHeld x.1)

/-- The slot waits for the head of a queue that it reads, for a tree, or for a response slot (R15). -/
def engineHeld (i : Instr) (s : State) : Bool :=
  treeWaits i s || (qReads i).any (fun q => match s.cur.queue q with | e :: _ => e.interlocked && !e.landed | [] => false) ||
    (remoteSlot i && freeSlots s.cur == 0)

/-- The slot waits for a register or a record that an operation owes (R50), for room among the operations of the core
(spec/11_storage.md R167), or for what its record's ORDER asks for (R166). -/
def interlockHeld (i : Instr) (s : State) : Bool :=
  ((gReads i).map (·.2) ++ gWrites i).any (fun r => s.cur.isOwed (.g r)) || (recordsOf i).any (fun b => s.cur.isOwed (.b b)) ||
    (inLSlot i && 256 ≤ s.coreOps) || orderWaits i s

/-- A cause is not raised while its own slot has still to wait (R25). -/
def deferTrap (i : Instr) (s : State) (r : SlotRes) : SlotRes :=
  match r with
  | .trap .. => if engineHeld i s then .engine else if interlockHeld i s then .hold else r
  | _ => r

/-- The instruction is an operation of the kinds of spec/15_ordering.md R222, or begins one. -/
def inOrder : Instr → Bool
  | .wclr _ | .wset _ | .wadd _ | .wcut _ | .wmov _ | .mload _ | .sysc _ | .wrsysFlag _ => true
  | .rdsys f => 0x020 ≤ f.imm && f.imm ≤ 0x03F
  | .recmk _ => false
  | i => slotOf i == some .l || slotOf i == some .s

/-- What a slot does, once no earlier acquire, and no access of scratchpad by a tree, is still to be performed before it
(R223, R236); a tree with a fill still to be applied is an engine wait (spec/19_trees_regions.md R286). -/
def slotInOrder (i : Instr) (s : State) (r : SlotRes) : SlotRes :=
  if inOrder i && s.acquireHeld then (if treeWaits i s then .engine else .hold) else r

/-- The slots on the taken path, each computed from the state before the bundle (R46, R47). -/
def runSlots (is : List Instr) (s : State) : List SlotRun :=
  (is.filter (taken (bundlePath is s))).map (fun i =>
    (i, slotInOrder i s (deferTrap i s (slotRes (s.nextPc is) (rptOf is) i s))))

/-- The response slots that what a slot commits, or begins, takes. -/
def SlotRes.slotsTaken (s : State) : SlotRes → Nat
  | .ok f | .arrive f | .begins f => freeSlots s.cur - freeSlots (f s).cur
  | _ => 0

/-- The L slot and the M slot of one bundle together need more response slots than are free. -/
def slotsShort (rs : List SlotRun) (s : State) : Bool :=
  1 < rs.countP (fun r => mayTakeSlot r.1) && freeSlots s.cur < (rs.map (fun r => r.2.slotsTaken s)).sum

def SlotRes.engineWait : SlotRes → Bool
  | .wait e => e
  | .arrive _ => true
  | _ => false

/-- What the beginning of a slot's wait does. -/
def SlotRes.begin? : SlotRes → Option (State → State)
  | .arrive f | .begins f => some f
  | _ => none

/-- The wait that begins now: of the slots that have still to arrive somewhere, the one with the lowest header bit, once no other
slot of the bundle waits.  DESIGN CHOICE: R25 lets no slot issue while another waits, and no rule says whether the arrival at a
barrier or a request to a region's home, which a waiting slot makes, may come before; here it comes after every hold of the
bundle, so that an arrival follows a release fence of its own bundle (R236; log entry 65). -/
def waitBegins (rs : List SlotRun) : Option (State → State) :=
  if rs.any (fun r => r.2.waits && r.2.begin?.isNone) then none else rs.findSome? (fun r => r.2.begin?)

/-- The state in which a waiting bundle waits on. -/
def applyWaits (rs : List SlotRun) (s : State) : State := match waitBegins rs with | some f => f s | none => s

/-- The bundle is in an engine wait of R15, and nothing of the wait has still to begin. -/
def engineWaits (rs : List SlotRun) (s : State) : Bool :=
  if rs.any (fun r => r.2.waits) then rs.any (fun r => r.2.engineWait) && (waitBegins rs).isNone else slotsShort rs s

/-- What the slots commit, in slot order. -/
def applyCommits (rs : List SlotRun) (s : State) : State :=
  rs.foldl (fun s r => match r.2 with | .ok f => f s | _ => s) s

/-- A slot's pushes do not fit (spec/13_vector.md R187): four entries are the most a queue holds, and the pops of the slots
`is` that execute have been taken away. -/
def overflows (is : List Instr) (i : Instr) (s : State) : Bool :=
  let n := rptCount (rptOf is)
  (pushesOf n i).any (fun q =>
    4 < (s.cur.queue q).length - (is.flatMap (popsOf n)).count q + (pushesOf n i).count q)

/-- What ends the issue of a slot that does not wait. -/
inductive SlotEnd where
  | clean
  | trap (cause : Cause) (aux : BitVec 8) (faddr : Word) (slot : Nat)
  | stop (f : Fault)

/-- A slot's own cause comes before the overflow of its push.  DESIGN CHOICE: R55 orders the slots, and not two causes of one slot
(log entry 64).  A software trap gives way to every other cause (R98). -/
def slotEnd (is : List Instr) (s : State) (r : SlotRun) : SlotEnd :=
  match r.2 with
  | .trap c aux a => if c = .softwareTrap then .clean else .trap c aux a (slotBit r.1)
  | .stop f => .stop f
  | _ => if overflows is r.1 s then .trap .queueOverflow 0 0 (slotBit r.1) else .clean

/-- The cause of the slot with the lowest header bit (R55); `is` are the slots that execute. -/
def firstEnd (is : List Instr) (s : State) : List SlotRun → SlotEnd
  | [] => .clean
  | r :: rest => match slotEnd is s r with | .clean => firstEnd is s rest | e => e

/-- The slots of the bundle that execute, as instructions. -/
def runOf (rs : List SlotRun) : List Instr := rs.map Prod.fst

/-! ## The passing of a cycle and of the issue path (spec/01_machine.md R15, R96) -/

/-- The beats of the repeat windows of this core's other contexts. -/
def parkedBeats (s : State) : Option (BitVec 2) :=
  ((s.core.parked.find? (fun p => !p.2.flow.beats.isEmpty)).map (fun p => BitVec.ofNat 2 p.1))

/-- One beat of the context that has beats to issue. -/
def beatNow (s : State) : State :=
  if !s.cur.flow.beats.isEmpty then nextBeat s
  else match parkedBeats s with
    | some x => withFocus { core := s.core.id, ctx := x } nextBeat s
    | none => s

/-- One cycle passes. -/
def passCycle (s : State) : State := beatNow s.tick

/-- The bundle at the pc, where there is one. -/
def State.bundleAt (s : State) : Option (List Instr) :=
  match fetchAt s.pc.toNat s with
  | .line bs => (match decodeBundle bs with | .ok (is, _) => some is | .error _ => none)
  | _ => none

/-- The state in which the current context takes its next bundle: as it is, or, in a pour, at the bundle of the stream that
the context takes next; none while it has not received that bundle (spec/01_machine.md R14).  The core of rank 0 leads the
stream (log entry 40). -/
def pourNext (s : State) : Option State :=
  match s.pour with
  | none => some s
  | some p =>
    let row := rowOf s.core.id
    let w := s.cur.flow
    if row = 0 then some s
    else
      match p.stream[w.pourPos]? with
      | some (pc, t) =>
        if s.core.cycle - w.pourStart < t + p.skew.toNat * row then none else some (s.modFlow (fun w => { w with pc := pc }))
      | none => none

/-- The stream of the pour has stopped, and the context has executed what it received of it (spec/09_traps.md R130). -/
def pourOver (s : State) : Bool :=
  match s.pour with
  | some p => (match p.stop with | some l => l.getD (rowOf s.core.id) 0 ≤ s.cur.flow.pourPos | none => false)
  | none => false

/-- The context in focus stands in an engine wait: the wait of `done`, of `sysc`, of a pending instruction, or one of its
next bundle.  The wait of a pour's context for its next bundle is none (R15). -/
def inEngineWait (s : State) : Bool :=
  let w := s.cur.flow
  if w.taking.isSome || w.saveWait.isSome then false
  else if (takeDue (dueWatchdog s)).isSome then false
  else if w.factPoint && s.servable then false
  else if w.serviceWait.isSome then
    !(w.flagGrant.isSome || s.core.flagMet s.core.sel (28 + s.core.sel.setWidth 5) 1)
  else if w.doneWait then (restartPending s).doneHeld
  else if (restartPending s).restarts then true
  else if pourOver s then false
  else
    match (pourNext s).bind State.bundleAt with
    | some is => legal is (0 < w.rptLeft) && !(is.filter (taken (bundlePath is s))).any (fun i => privileged i s) &&
      engineWaits (runSlots is s) s
    | none => false

/-- A context that may issue. -/
def readyCtx (x : BitVec 2) (s : State) : Bool :=
  let t := focusCtx x s
  t.cur.flow.residency == .running && !inEngineWait t

/-- The next ready context in the order CTX+1, CTX+2, CTX+3. -/
def nextReady (s : State) : Option (BitVec 2) :=
  [s.core.sel + 1, s.core.sel + 2, s.core.sel + 3].find? (fun x => readyCtx x s)

/-- The issue path passes to the next ready context; where there is none it stays. -/
def passPath (s : State) : State := match nextReady s with | some x => focusCtx x s | none => s

/-- Another core on which a task runs takes the next turn, in the order of their numbers (log entry 2). -/
def nextCore (s : State) : Option (BitVec 6) :=
  let busy := (s.cores.filter (fun p => p.2.parked.any (fun x => x.2.flow.residency == .running) ||
    (smGet Ctx.reset p.2.parked p.2.sel.toNat).flow.residency == .running)).map (·.1)
  ((busy.find? (fun k => s.core.id.toNat < k)).orElse (fun _ => busy.head?)).map (BitVec.ofNat 6)

/-- A cycle without an issue: a unit outside the issue path acts, or else another core takes the next turn. -/
def holdCycle (s : State) : State :=
  match progress s with
  | some t => passCycle t
  | none => match nextCore s with | some k => focusCore k (passCycle s) | none => passCycle s

/-- The context in focus waits: another one gets the issue path, or else the units outside go on.  A context that kept the
path because no other was ready passes it on in the first cycle in which another is; R15 does not say whether it does (log
entry 41). -/
def waitEngine (s : State) : State :=
  match nextReady s with
  | some x => focusCtx x (passCycle s)
  | none => holdCycle s

/-! ## Commit -/

/-- Kept entries that the bundle pops are gone for the beats that remain (spec/17_matrix.md R257). -/
def dropKept (is : List Instr) (b : Beat) : Beat :=
  match b.instr with
  | .mfill f => if f.modf.getLsbD 2 && (is.flatMap pops).contains f.queue then { b with entry := none } else b
  | _ => b

/-- The operations and the factorisation that the bundle started are logged with its pc and bytes (R125). -/
def stampStarted (is : List Instr) (pc : Word) (id : Nat) (fresh : Bool) (s : State) : State :=
  let logged := (bundleBytes is).take 47
  let s := if s.die.nextId = id then s else s.modDie (fun d => { d with ops := d.ops.map (fun o =>
    if id ≤ o.id then { o with pc := pc, logged := logged } else o) })
  if fresh then s.modCore (fun k => { k with fact := k.fact.map (fun f => { f with pc := pc, logged := logged }) }) else s

/-- The effects of the slots that execute, in slot order, after the pc has moved on (R46). -/
def commitSlots (is : List Instr) (rs : List SlotRun) (s : State) : State :=
  let s0 := s.modFlow (fun w =>
    let w := advanceFlow (s.nextPc is) { w with levels := s.foundLevels }
    { w with beats := w.beats.map (dropKept (runOf rs)), firstOp := s.die.nextId })
  let t := applyCommits rs s0
  (stampStarted is s.pc s.die.nextId s.core.fact.isNone t).modSys SysCtx.stepDelay

/-! ## What follows a commit -/

/-- A software trap: the other slots have committed, and the return point is `NEXT` (R98, R124). -/
def softTrap (is : List Instr) (code : BitVec 8) (pc : Word) (s : State) : State :=
  let r := bundleTrap is .softwareTrap code 0 0 s
  settleCur (takeTrap { r with pc := pc, ret := some (pc + BitVec.ofNat 64 (bundleBytes is).length) } s)

/-- A `phint` becomes the hint in force; a pending request is served between this bundle and the next (R97, R139). -/
def afterPhint (f : PhintF) (serve : Bool) (s : State) : State :=
  let s := s.modFlow (fun w => { w with hint := some { f := f } })
  if serve then serveSave (hintLive f ((liveRanges f.index s).getD [])) s else s

/-- What the C slot does once its bundle has committed. -/
def afterCommit (is : List Instr) (pc : Word) (serve : Bool) (s : State) : State :=
  match is with
  | .trap code :: _ => softTrap is code pc s
  | .yield :: _ => passPath (s.modCtx (Ctx.wdZero s.core.cycle))
  | .phint f :: _ => afterPhint f serve s
  | .done :: _ => retireDone s
  | .sysc _ :: _ => if s.core.flagMet s.core.sel (28 + s.core.sel.setWidth 5) 1 then s else passPath s
  | _ => s

/-! ## The issue -/

/-- A pre-emption request is served at a `phint` that commits outside a repeat window and handler state (R97). -/
def servesNow (is : List Instr) (s : State) : Bool :=
  match is with
  | .phint _ :: _ => s.cur.flow.preempt && !s.cur.sys.handler && s.cur.flow.rptLeft == 0
  | _ => false

/-- The liveness entry of a `phint` that would serve a request faults (R141). -/
def livenessFault (is : List Instr) (s : State) : Bool :=
  match is with
  | .phint f :: _ => servesNow is s && (liveRanges f.index s).isNone
  | _ => false

/-- A trap of the bundle is taken. -/
def trapBundle (is : List Instr) (cause : Cause) (aux : BitVec 8) (faddr : Word) (slot : Nat) (s : State) : State :=
  settleCur (takeTrap (bundleTrap is cause aux faddr slot s) s).tick

/-- The commit of a bundle none of whose slots waits or traps, and the cycle in which it issues. -/
def commitBundle (is : List Instr) (rs : List SlotRun) (s : State) : State :=
  let serve := servesNow is s
  afterCommit is s.pc serve (passCycle (commitSlots is rs s))

/-- The issue of one bundle of the context in focus.  DESIGN CHOICE: what the slots of a bundle do, they do in one order at its
commit, so a store to scratchpad, or the acquire of a load, that shares a bundle with `bar` comes after the barrier's release:
R25 lets no slot issue while `bar` waits, while R220 and R236 put the store before the arrival (log entry 65). -/
def issueBundle (is : List Instr) (s : State) : Host.Outcome State Fault Refusal :=
  if !legal is (0 < s.cur.flow.rptLeft) then .next (trapBundle is .illegal 0 0 0 s)
  else
    match (is.filter (taken (bundlePath is s))).find? (fun i => privileged i s) with
    | some i => .next (trapBundle is .privilege 0 0 (slotBit i) s)
    | none =>
      let rs := runSlots is s
      if slotsShort rs s then .next (waitEngine s)
      else if rs.any (fun r => r.2.waits) then
        if rs.any (fun r => r.2.engineWait) then .next (waitEngine (applyWaits rs s))
        else .next (holdCycle (applyWaits rs s))
      else if livenessFault is s then .next (trapBundle is .livenessEntry 0 0 0 s)
      else
        match firstEnd (runOf rs) s rs with
        | .stop f => .fault f
        | .trap c aux a k => .next (trapBundle is c aux a k s)
        | .clean => .next (commitBundle is rs s)

/-- The meaning of an instruction as a row: the first slot of its bundle, whose other slots stand in `rest`. -/
def issueOne (i : Instr) (s : State) : Host.Outcome State Fault Refusal := issueBundle (i :: s.rest) { s with rest := [] }

end Sys2Proof.Machine
end

