-- ==== Sys2Proof/Machine/ArrayRows.lean ====
section
/-! DEFINITION. Meanings of the instructions of the M slot, one definition for each. -/
namespace Sys2Proof.Machine

/-- MPUSH: Loads E, its high half, or ES from a queue entry (R251) -/
def execMpush (f : MF) (s : State) : Host.Outcome State Fault Refusal := issueOne (.mpush f) s

/-- MSHIFT: Shifts the elements of E up or down with zero fill (R252) -/
def execMshift (f : MF) (s : State) : Host.Outcome State Fault Refusal := issueOne (.mshift f) s

/-- MACC: Multiplies E by a cope tile into one plane row, initialising or accumulating (R253) -/
def execMacc (f : MF) (s : State) : Host.Outcome State Fault Refusal := issueOne (.macc f) s

/-- MDRAIN: Converts one part of a plane row and pushes it onto a queue (R255) -/
def execMdrain (f : MF) (s : State) : Host.Outcome State Fault Refusal := issueOne (.mdrain f) s

/-- MZERO: Zeroes a whole plane and sets its KIND (R254) -/
def execMzero (f : MF) (s : State) : Host.Outcome State Fault Refusal := issueOne (.mzero f) s

/-- MFILL: Writes one part of a plane row from a queue entry (R256) -/
def execMfill (f : MF) (s : State) : Host.Outcome State Fault Refusal := issueOne (.mfill f) s

/-- MLOAD: Starts filling a cope tile from a buffer record, possibly remote, resuming from MLPROG (R258) -/
def execMload (f : MF) (s : State) : Host.Outcome State Fault Refusal := issueOne (.mload f) s

/-- MFLU: Starts an LU factorisation with partial pivoting of an FP64 plane (R266) -/
def execMflu (f : MF) (s : State) : Host.Outcome State Fault Refusal := issueOne (.mflu f) s

/-- MFCH: Starts a Cholesky factorisation of an FP64 plane (R265) -/
def execMfch (f : MF) (s : State) : Host.Outcome State Fault Refusal := issueOne (.mfch f) s

/-- MFQR: Starts a Householder QR factorisation of an FP64 plane (R267) -/
def execMfqr (f : MF) (s : State) : Host.Outcome State Fault Refusal := issueOne (.mfqr f) s

/-- MTRS: Starts a triangular solve of one plane against another (R268) -/
def execMtrs (f : MF) (s : State) : Host.Outcome State Fault Refusal := issueOne (.mtrs f) s

/-- MRDP: Waits for the factorisation and pushes PVEC as byte lanes (R269) -/
def execMrdp (f : MF) (s : State) : Host.Outcome State Fault Refusal := issueOne (.mrdp f) s

/-- MSTAT: Waits for the factorisation and pushes statistics or tau values (R270) -/
def execMstat (f : MF) (s : State) : Host.Outcome State Fault Refusal := issueOne (.mstat f) s

/-- MWAIT: Holds until every M-slot operation of the context has completed (R271) -/
def execMwait (f : MF) (s : State) : Host.Outcome State Fault Refusal := issueOne (.mwait f) s

end Sys2Proof.Machine
end

