-- ==== Sys2Proof/Machine/ControlRows.lean ====
section
/-! DEFINITION. Meanings of the instructions of the C slot, one definition for each. -/
namespace Sys2Proof.Machine

/-- TREE: C-slot condition tree: tests up to four predicates, takes one leaf and continues at its line target or
falls through (R31) -/
def execTree (f : TreeF) (s : State) : Host.Outcome State Fault Refusal := issueOne (.tree f) s

/-- JMP: Jumps to byte 0 of the line at a signed 25-bit line offset from the bundle's line (R88) -/
def execJmp (off : BitVec 25) (s : State) : Host.Outcome State Fault Refusal := issueOne (.jmp off) s

/-- JMPR: Jumps to a line-aligned byte address held in a g register (R89) -/
def execJmpr (r : GP) (s : State) : Host.Outcome State Fault Refusal := issueOne (.jmpr r) s

/-- CALL: Writes NEXT to g31 and jumps to a line at a signed line offset (R88) -/
def execCall (off : BitVec 25) (s : State) : Host.Outcome State Fault Refusal := issueOne (.call off) s

/-- RET: Continues at the byte address in a g register, which may be any bundle start (R89) -/
def execRet (r : GP) (s : State) : Host.Outcome State Fault Refusal := issueOne (.ret r) s

/-- LOOP_IMMEDIATE: Opens a zero-overhead loop level over the next L bundles with an immediate count, or passes over
the body when the count is 0 (R91) -/
def execLoopImmediate (count : BitVec 16) (len : BitVec 6) (s : State) : Host.Outcome State Fault Refusal :=
  issueOne (.loopImmediate count len) s

/-- LOOP_REGISTER: Opens a zero-overhead loop level with a count taken from bits [31:0] of a g register (R91) -/
def execLoopRegister (r : GP) (len : BitVec 6) (s : State) : Host.Outcome State Fault Refusal :=
  issueOne (.loopRegister r len) s

/-- RPT: Issues the bundle's M-slot operation on n consecutive cycles with row and cope-address strides, opening a
repeat window (R52) -/
def execRpt (f : RptF) (s : State) : Host.Outcome State Fault Refusal := issueOne (.rpt f) s

/-- SETFMT_IMMEDIATE: Writes FMT from a 32-bit immediate, checked under R77, with the four-bundle delay of R51 (R95) -/
def execSetfmtImmediate (v : BitVec 32) (s : State) : Host.Outcome State Fault Refusal :=
  issueOne (.setfmtImmediate v) s

/-- SETFMT_REGISTER: Writes FMT from bits [31:0] of a g register, checked under R77, with the four-bundle delay of
R51 (R95) -/
def execSetfmtRegister (r : GP) (s : State) : Host.Outcome State Fault Refusal := issueOne (.setfmtRegister r) s

/-- YIELD: Zeroes the watchdog count and passes the issue path to the next ready context (R96) -/
def execYield (s : State) : Host.Outcome State Fault Refusal := issueOne .yield s

/-- PHINT: Sets the live-set hint and, when a pre-emption request is pending, pre-empts the context after the bundle
(R97) -/
def execPhint (f : PhintF) (s : State) : Host.Outcome State Fault Refusal := issueOne (.phint f) s

/-- TRAP: Commits the other slots and raises a software trap with an 8-bit code and return point NEXT (R98) -/
def execTrap (code : BitVec 8) (s : State) : Host.Outcome State Fault Refusal := issueOne (.trap code) s

/-- SYSC: Waits for earlier results, commits, enqueues a service notice in the privileged queue and waits on the
context's service flag (R99) -/
def execSysc (code : BitVec 8) (s : State) : Host.Outcome State Fault Refusal := issueOne (.sysc code) s

/-- ERET: Ends handler state, restores kept loop levels, restarts pending array work and continues at TRAPINFO.RET
(R100) -/
def execEret (s : State) : Host.Outcome State Fault Refusal := issueOne .eret s

/-- DONE: Retires the task with status done after its plane operations complete and frees the context (R101) -/
def execDone (s : State) : Host.Outcome State Fault Refusal := issueOne .done s

/-- SUCC: Lets the successors named by the launch policy become resident (R102) -/
def execSucc (s : State) : Host.Outcome State Fault Refusal := issueOne .succ s

/-- SPAWN: Enqueues a 64-byte task descriptor on the issuing die (R103) -/
def execSpawn (r : GP) (s : State) : Host.Outcome State Fault Refusal := issueOne (.spawn r) s

/-- LAUNCH: Checks a launch packet and issues it to every die its distribution reaches (R103) -/
def execLaunch (r : GP) (s : State) : Host.Outcome State Fault Refusal := issueOne (.launch r) s

/-- WDOG_SET_ZERO: Supervisor wdog with ACT 0: sets a context's watchdog count to zero (R104) -/
def execWdogSetZero (r : GP) (s : State) : Host.Outcome State Fault Refusal := issueOne (.wdogSetZero r) s

/-- WDOG_SUSPEND: Supervisor wdog with ACT 1: suspends a context's watchdog counting (R104) -/
def execWdogSuspend (r : GP) (s : State) : Host.Outcome State Fault Refusal := issueOne (.wdogSuspend r) s

/-- WDOG_RESUME: Supervisor wdog with ACT 2: resumes a context's watchdog counting (R104) -/
def execWdogResume (r : GP) (s : State) : Host.Outcome State Fault Refusal := issueOne (.wdogResume r) s

/-- WDOG_EXPIRE: Supervisor wdog with ACT 3: forces the target context's watchdog to expire at its next bundle
boundary (R104) -/
def execWdogExpire (r : GP) (s : State) : Host.Outcome State Fault Refusal := issueOne (.wdogExpire r) s

end Sys2Proof.Machine
end

