-- ==== Sys2Proof/Machine/Units.lean ====
section
/-! DEFINITION. Events of single units that no other file holds: the array, the landing of results, table walks, sets, and
requests by their type (spec/03_bundles.md R50; spec/11_storage.md R163, R164; spec/17_matrix.md R247, R259 to R263;
spec/21_tasks.md R311; spec/23_fabric.md R342). -/
namespace Sys2Proof.Machine

/-- FIXED_LATENCY_RESULT_LANDING: a result lands at its destination, and brings its flags, at some cycle up to its bound; an older
one for the same destination is discarded.  In a frozen core nothing lands (spec/09_traps.md R148), and what a drain has put into
a destination stays undefined to readers until the bound (R126). -/
def landEarly (index : Nat) (s : State) : State :=
  if 0 < s.core.frozenLeft then s else
  match s.cur.pend[index]? with
  | none => s
  | some p =>
    if p.landed then s
    else s.modCtx (fun c => { c.landOne p with
      pend := (c.pend.take index).map (fun x => if x.dest = p.dest then { x with dest := .fstat } else x) ++ c.pend.drop (index + 1) })

/-- ARRAY_PUSH_LANDING: the array delivers the oldest entry that it owes to a queue of a context (R247). -/
def landPush (c : CtxId) (queue : BitVec 5) (s : State) : State :=
  match s.die.ops.find? (fun o => o.owner == c && (match o.kind with | .push q _ _ _ => q == queue | _ => false)) with
  | some o => completeOp o.id s
  | none => s

/-- MLOAD_COMPLETE (R259). -/
def endMload (c : CtxId) (s : State) : State :=
  match s.die.ops.find? (fun o => o.isMload && o.owner == c) with
  | some o => completeOp o.id s
  | none => s

/-- The factorisation of a context runs to its end, which is the one asked for: 1 complete, 2 a pivot stop (R260 to R263). -/
def endFactor (want : Nat) (c : CtxId) (s : State) : State :=
  match (coreAt c.core s).fact with
  | some f =>
    if f.ctx = c.ctx ∧ (coreAt c.core s).frozenLeft = 0 then withFocus c (fun t => let r := runColumns 32 t; if r.2 = want then r.1 else t) s else s
  | none => s

/-- WFILL_APPLY. -/
def applyWfill (id : Nat) (s : State) : State :=
  match findOp id s with
  | some o => (match o.kind with | .treeFill .. => completeOp id s | _ => s)
  | none => s

/-- ENGINE_FAULT: the operation ends with a boundary trap of its owner. -/
def faultOp (id : Nat) (s : State) : State :=
  match findOp id s with
  | some o =>
    let t := completeOp id s
    if (ctxAt o.owner s).flow.due.length < (ctxAt o.owner t).flow.due.length then t else s
  | none => s

/-- TRANSLATION_WALK_COMPLETE: a walk that finds a page the access may use is kept in the TLB of a core. -/
def fillTlb (core : BitVec 6) (w : WalkArg) (s : State) : State :=
  match s.die.asTable.lookup w.asid.toNat with
  | none => s
  | some root =>
    match walkFrom w.va.toNat s walkLevels true root with
    | .leaf e size =>
      if w.va.toNat < 2 ^ 56 ∧ pteAllows e w.access w.user w.space then
        let page := w.va.toNat / size * size
        let n : TlbEntry := { asid := w.asid, page := page, size := size, pte := e }
        modCoreAt core (fun k => { k with tlb := n :: k.tlb.filter (fun t => !(t.asid == w.asid && t.page == page)) }) s
      else s
    | _ => s

/-- The die that a failure made here names: for reason 3 the destination that the packet never reached, the first other die of
its mask (log entry 60). -/
def failedDie (p : BitVec 512) (reason : Nat) (s : State) : Coord :=
  if reason = 3 then ((maskDies (pktMask p s) s).filter (fun c => c != s.die.coord)).headD s.die.coord else s.die.coord

/-- SET_FAILURE: a mark that arrives, or one that this die makes for a set it knows. -/
def setFails (src : Coord) (p : BitVec 512) (reason : Nat) (s : State) : State :=
  if src = s.die.coord then
    match s.die.queues.sets.reverse.find? (fun e => e.packet == p && !e.failed) with
    | some e => failSet e.inst reason (failedDie p reason s) s
    | none => s
  else receiveFailure src p s

/-- A packet of another die arrives: it is read off its flits and counted at its port, and what fits is done with it. -/
def whenArrived (fits : Packet → Bool) (f : Packet → State → State) (p : Packet) (s : State) : State :=
  let p := onWire p
  if fits p && !s.deaf p.src then f p (arrived p s) else s

/-- A request of a type, and for region operations of a code (spec/23_fabric.md R342). -/
def requestOfType (ty : BitVec 6) (aux : Option (BitVec 8)) : Packet → State → State :=
  whenArrived (fun p => p.cls == 0 && p.type == ty && (match aux with | some a => p.aux == a | none => true)) serveRequest

/-- A response of a type. -/
def responseOfType (ty : BitVec 6) (f : Packet → State → State) : Packet → State → State :=
  whenArrived (fun p => p.cls == 1 && p.type == ty) f

/-- CLOCK_PACKET. -/
def clockArrives : Packet → State → State := whenArrived (fun p => p.type == 15 && p.cls.toNat < 2) takeClockPacket

/-- MANAGEMENT_ARRIVAL. -/
def managementArrives : Packet → State → State := whenArrived (fun p => p.cls == 2 && packetKnown p) takeManagement

end Sys2Proof.Machine
end

