-- ==== Sys2Proof/Machine/FabricRows.lean ====
section
/-! DEFINITION. Meanings of the events of the fabric, one definition for each. -/
namespace Sys2Proof.Machine

/-- READ_REQUEST: A remote read arrives, is translated and answered with data or an error (R356) -/
def execReadRequest (p : Packet) (s : State) : Host.Outcome State Fault Refusal := .next (requestOfType 1 none p s)

/-- WRITE_REQUEST: A remote write arrives, is performed and acknowledged (R356) -/
def execWriteRequest (p : Packet) (s : State) : Host.Outcome State Fault Refusal := .next (requestOfType 2 none p s)

/-- ATOMIC_REQUEST: A remote atomic arrives and is performed indivisibly at the target (R177) -/
def execAtomicRequest (p : Packet) (s : State) : Host.Outcome State Fault Refusal := .next (requestOfType 3 none p s)

/-- COMPARE_SWAP_REQUEST: A remote compare-swap arrives and is performed at the target (R177) -/
def execCompareSwapRequest (p : Packet) (s : State) : Host.Outcome State Fault Refusal :=
  .next (requestOfType 4 none p s)

/-- SIGNAL_SET_REQUEST: A remote signal set arrives and writes the word as a release (R178) -/
def execSignalSetRequest (p : Packet) (s : State) : Host.Outcome State Fault Refusal := .next (requestOfType 5 none p s)

/-- SIGNAL_ADD_REQUEST: A remote signal add arrives and adds to the word (R178) -/
def execSignalAddRequest (p : Packet) (s : State) : Host.Outcome State Fault Refusal := .next (requestOfType 6 none p s)

/-- FLAG_POST_REQUEST: A remote flag post arrives and is applied to the target core's flag (R182) -/
def execFlagPostRequest (p : Packet) (s : State) : Host.Outcome State Fault Refusal := .next (requestOfType 7 none p s)

/-- TENTATIVE_READ_REQUEST: A tentative read arrives at the shard and returns tentative or memory bytes (R295) -/
def execTentativeReadRequest (p : Packet) (s : State) : Host.Outcome State Fault Refusal :=
  .next (requestOfType 8 none p s)

/-- TENTATIVE_WRITE_REQUEST: A tentative write arrives at the shard and is recorded, or overflows the directory
(R296) -/
def execTentativeWriteRequest (p : Packet) (s : State) : Host.Outcome State Fault Refusal :=
  .next (requestOfType 9 none p s)

/-- REGION_OPEN_REQUEST: A region open arrives at the home and opens the object (R292) -/
def execRegionOpenRequest (p : Packet) (s : State) : Host.Outcome State Fault Refusal :=
  .next (requestOfType 10 (some 1) p s)

/-- REGION_JOIN_REQUEST: A region join arrives at the home and adds a member (R293) -/
def execRegionJoinRequest (p : Packet) (s : State) : Host.Outcome State Fault Refusal :=
  .next (requestOfType 10 (some 2) p s)

/-- REGION_COMMIT_REQUEST: A commit vote arrives at the home and raises VOTED (R298) -/
def execRegionCommitRequest (p : Packet) (s : State) : Host.Outcome State Fault Refusal :=
  .next (requestOfType 10 (some 3) p s)

/-- REGION_ABORT_REQUEST: A member's abort arrives at the home and aborts the region (R298) -/
def execRegionAbortRequest (p : Packet) (s : State) : Host.Outcome State Fault Refusal :=
  .next (requestOfType 10 (some 4) p s)

/-- REGION_LEAVE_REQUEST: A leave arrives at the home and lowers JOINED (R300) -/
def execRegionLeaveRequest (p : Packet) (s : State) : Host.Outcome State Fault Refusal :=
  .next (requestOfType 10 (some 5) p s)

/-- CLOCK_PACKET: A clock packet arrives and replaces half of the stored clock of its source and class (R357) -/
def execClockPacket (p : Packet) (s : State) : Host.Outcome State Fault Refusal := .next (clockArrives p s)

/-- DATA_RESPONSE: A data response is accepted into its operation's destination or dropped as stale (R350) -/
def execDataResponse (p : Packet) (s : State) : Host.Outcome State Fault Refusal :=
  .next (responseOfType 32 takeData p s)

/-- ACKNOWLEDGEMENT: An acknowledgement is accepted and counts its part, or dropped as stale (R350) -/
def execAcknowledgement (p : Packet) (s : State) : Host.Outcome State Fault Refusal :=
  .next (responseOfType 33 takeAck p s)

/-- ERROR_RESPONSE: An error response fails, poisons or treats its part as timed out (R350) -/
def execErrorResponse (p : Packet) (s : State) : Host.Outcome State Fault Refusal :=
  .next (responseOfType 34 takeError p s)

/-- RETRY_RESPONSE: A retry is accepted and schedules a resend of the request 1 us later (R351) -/
def execRetryResponse (p : Packet) (s : State) : Host.Outcome State Fault Refusal :=
  .next (responseOfType 35 takeRetry p s)

/-- RETRY_RESEND: 1 us after an accepted retry, the source sends the same request again (R351) -/
def execRetryResend (index : Nat) (s : State) : Host.Outcome State Fault Refusal := .next (resend index s)

/-- SLOT_TIMEOUT: A response slot's timer passes FABTMO; the generation advances and parts take their timeout effects
(R352) -/
def execSlotTimeout (c : CtxId) (slot : BitVec 3) (s : State) : Host.Outcome State Fault Refusal :=
  .next (timeoutSlot c slot.toNat s)

/-- PACKET_FORWARD: A router forwards a packet by its graticule, or drops it as unreachable (R346) -/
def execPacketForward (port : BitVec 3) (p : Packet) (s : State) : Host.Outcome State Fault Refusal :=
  .next (forward port p s)

/-- PACKET_AGE_DROP: A packet held at a router input over 100 us is dropped and counted (R348) -/
def execPacketAgeDrop (p : Packet) (s : State) : Host.Outcome State Fault Refusal := .next (ageDrop p s)

/-- REQUEST_AGE_DROP: A request unanswered 1 ms after arriving at its target is dropped (R348) -/
def execRequestAgeDrop (index : Nat) (s : State) : Host.Outcome State Fault Refusal := .next (dropRequest index s)

/-- MANAGEMENT_ARRIVAL: The management sink moves an arriving packet into its ring, holding or dropping it when full
(R358) -/
def execManagementArrival (p : Packet) (s : State) : Host.Outcome State Fault Refusal := .next (managementArrives p s)

/-- DOMAIN_TABLE: A domain-table message installs the die's domain table (R340) -/
def execDomainTable (table : List (BitVec 16)) (s : State) : Host.Outcome State Fault Refusal :=
  .next (installDomain table s)

/-- GRATICULE_INSTALL: Firmware or the host replaces a router's route tables between two packets (R345) -/
def execGraticuleInstall (x y z : List (BitVec 2)) (s : State) : Host.Outcome State Fault Refusal :=
  .next (installRoutes x y z s)

/-- LINK_REPLAY: A flit fails its check or is lost and is resent from the replay buffer with later flits (R359) -/
def execLinkReplay (port : BitVec 3) (resent : Nat) (s : State) : Host.Outcome State Fault Refusal :=
  .next (replay port.toNat resent s)

/-- LINK_RETRAIN: After RETRYLIM failed resends, the link starts retraining (R360) -/
def execLinkRetrain (port : BitVec 3) (s : State) : Host.Outcome State Fault Refusal := .next (retrain port.toNat s)

/-- RETRAIN_END: A retrain succeeds, or the third failure takes the link down, with a notice (R360) -/
def execRetrainEnd (port : BitVec 3) (ok : Bool) (s : State) : Host.Outcome State Fault Refusal :=
  .next (endRetrain port.toNat ok s)

/-- FABRIC_CONTROL_WRITE: Firmware writes a router's FABTMO, RETRYLIM and LINKEN, ignoring out-of-range values (R361) -/
def execFabricControlWrite (v : BitVec 64) (s : State) : Host.Outcome State Fault Refusal := .next (writeControl v s)

/-- FIRMWARE_LINK_RETRAIN: Firmware retrains a link that is down, which brings it back into service (R360) -/
def execFirmwareLinkRetrain (port : BitVec 3) (ok : Bool) (s : State) : Host.Outcome State Fault Refusal :=
  .next (firmwareRetrain port.toNat ok s)

end Sys2Proof.Machine
end

