-- ==== Sys2Proof/Machine/HostRows.lean ====
section
/-! DEFINITION. Meanings of the events of the host and the firmware complex, one definition for each. -/
namespace Sys2Proof.Machine

/-- SUBMISSION: A 64-byte host write to BAR2 is appended to the submission log or dropped and counted (R385) -/
def execSubmission (w : HostWrite) (s : State) : Host.Outcome State Fault Refusal := .next (submit w s)

/-- SUBMISSION_PROCESS: Firmware checks the next log entry and commits its send and SUBDONE, or refuses it (R386) -/
def execSubmissionProcess (s : State) : Host.Outcome State Fault Refusal := .next (processSubmission s)

/-- MEMORY_WINDOW_ACCESS: A host access through BAR4 reaches HBM or the second tier untranslated (R382); accesses through the other
BARs, which have no row of their own but for writes, are taken here too -/
def execMemoryWindowAccess (w : WindowAccess) (s : State) : Host.Outcome State Fault Refusal := .next (windowAccess w s)

/-- CONTROL_REGISTER_WRITE: A host write to a BAR0 register without behaviour of its own, such as clearing a counter
or setting a base (R383) -/
def execControlRegisterWrite (offset : Nat) (v : BitVec 64) (s : State) : Host.Outcome State Fault Refusal :=
  .next (writeRegister offset v s)

/-- DUTYMODE_WRITE: A host write to DUTYMODE, ignored when a reserved bit is set (R396) -/
def execDutymodeWrite (v : BitVec 64) (s : State) : Host.Outcome State Fault Refusal := .next (writeDutymode v s)

/-- ASSIST_REQUEST: The device writes a 64-byte assist request to the host ring and raises vector 2 (R397) -/
def execAssistRequest (fn : BitVec 3) (request : BitVec 512) (s : State) : Host.Outcome State Fault Refusal :=
  .next (requestAssist fn request s)

/-- ASSISTREPLY: A host reply written to ASSISTREPLY completes an outstanding assist request (R397) -/
def execAssistreply (seq : Nat) (reply : BitVec 512) (s : State) : Host.Outcome State Fault Refusal :=
  .next (hostReplies seq reply s)

/-- ASSIST_TIMEOUT: An assist request unanswered for 100 ms is performed as in hardware mode (R397) -/
def execAssistTimeout (seq : Nat) (s : State) : Host.Outcome State Fault Refusal := .next (timeoutAssist seq s)

/-- SHAKECMD: A host write of a non-zero nonce starts shakeout: quiesce, zero, re-measure and proof test (R399) -/
def execShakecmd (nonce : BitVec 64) (s : State) : Host.Outcome State Fault Refusal := .next (shakeout nonce s)

/-- SHAKEOUT_COMPLETE: Shakeout writes its report, extends MR4, re-enables links, sets STATE and raises vector 3
(R399) -/
def execShakeoutComplete (r : ShakeResult) (s : State) : Host.Outcome State Fault Refusal := .next (endShakeout r s)

/-- FIRMWARE_RESTART: Firmware reloads and verifies its image and resumes held events and the submission log (R389) -/
def execFirmwareRestart (s : State) : Host.Outcome State Fault Refusal := .next (restartFirmware s)

/-- FIRMWARE_EVENT_DELIVERY: The event queue delivers an event to an idle firmware core under its ordering key (R388) -/
def execFirmwareEventDelivery (s : State) : Host.Outcome State Fault Refusal := .next (deliverEvent s)

/-- IMAGE_LOAD: The host loads a new firmware image into the image store through the DOE mailbox (R393) -/
def execImageLoad (image : List (BitVec 8)) (s : State) : Host.Outcome State Fault Refusal := .next (mailbox (.load image) s)

/-- FUSE_COMMIT: A signed commit message advances the fuse counter, or is refused (R392) -/
def execFuseCommit (v : BitVec 8) (sig : List (BitVec 8)) (s : State) : Host.Outcome State Fault Refusal :=
  .next (mailbox (.fuse v sig) s)

/-- MEASUREMENT_EXTEND: A host-supplied 64-byte value extends one of MR5 to MR15 (R394) -/
def execMeasurementExtend (reg : BitVec 4) (m : BitVec 512) (s : State) : Host.Outcome State Fault Refusal :=
  .next (mailbox (.extend reg m) s)

/-- GET_DIGESTS: SPDM request answered with certificate chain digests (R395) -/
def execGetDigests (s : State) : Host.Outcome State Fault Refusal := .next (mailbox .digests s)

/-- GET_CERTIFICATE: SPDM request answered with the identity certificate chain (R395) -/
def execGetCertificate (offset len : Nat) (s : State) : Host.Outcome State Fault Refusal :=
  .next (mailbox (.certificate offset len) s)

/-- CHALLENGE: SPDM challenge answered with a signature under the identity key (R395) -/
def execChallenge (nonce : BitVec 256) (s : State) : Host.Outcome State Fault Refusal := .next (mailbox (.challenge nonce) s)

/-- GET_MEASUREMENTS: SPDM request answered with MR0 to MR15 and the fuse counter, signed over the nonce (R395) -/
def execGetMeasurements (nonce : BitVec 256) (s : State) : Host.Outcome State Fault Refusal :=
  .next (mailbox (.measurements nonce) s)

end Sys2Proof.Machine
end

