-- ==== Sys2Proof/Machine/MemoryRows.lean ====
section
/-! DEFINITION. Meanings of the instructions of the L slot, one definition for each. -/
namespace Sys2Proof.Machine

/-- TLD: Starts a copy-engine tile load from memory into scratchpad (R169) -/
def execTld (f : LF) (s : State) : Host.Outcome State Fault Refusal := issueOne (.tld f) s

/-- TST: Starts a copy-engine tile store from scratchpad into memory (R169) -/
def execTst (f : LF) (s : State) : Host.Outcome State Fault Refusal := issueOne (.tst f) s

/-- TLDN: Starts a row load under a six-dimension loop descriptor (R170) -/
def execTldn (f : LF) (s : State) : Host.Outcome State Fault Refusal := issueOne (.tldn f) s

/-- TSTN: Starts a row store under a loop descriptor (R170) -/
def execTstn (f : LF) (s : State) : Host.Outcome State Fault Refusal := issueOne (.tstn f) s

/-- TPRF: Tags a scratchpad line, clears its bits and starts filling it with a 4 KiB block (R171) -/
def execTprf (f : LF) (s : State) : Host.Outcome State Fault Refusal := issueOne (.tprf f) s

/-- BXF: Starts a block transfer of a whole source record to a destination record (R172) -/
def execBxf (f : LF) (s : State) : Host.Outcome State Fault Refusal := issueOne (.bxf f) s

/-- VLD: Loads 128 bytes into a queue entry as an interlocked push (R173) -/
def execVld (f : LF) (s : State) : Host.Outcome State Fault Refusal := issueOne (.vld f) s

/-- VST: Stores a queue entry's 128 bytes (R173) -/
def execVst (f : LF) (s : State) : Host.Outcome State Fault Refusal := issueOne (.vst f) s

/-- SLD: Loads one element into a g register, interlocked (R173) -/
def execSld (f : LF) (s : State) : Host.Outcome State Fault Refusal := issueOne (.sld f) s

/-- SST: Stores the low bytes of a g register (R173) -/
def execSst (f : LF) (s : State) : Host.Outcome State Fault Refusal := issueOne (.sst f) s

/-- TLOOK: Searches a tag-table set for an entry matching a VA (R174) -/
def execTlook (f : LF) (s : State) : Host.Outcome State Fault Refusal := issueOne (.tlook f) s

/-- TTAG: Sets an entry's VALID, TAG and ASID and clears FAULT (R174) -/
def execTtag (f : LF) (s : State) : Host.Outcome State Fault Refusal := issueOne (.ttag f) s

/-- TINV: Clears VALID and FAULT of a tag entry (R174) -/
def execTinv (f : LF) (s : State) : Host.Outcome State Fault Refusal := issueOne (.tinv f) s

/-- FESET: Sets full-empty bits of a run of granules (R175) -/
def execFeset (f : LF) (s : State) : Host.Outcome State Fault Refusal := issueOne (.feset f) s

/-- FECLR: Clears full-empty bits of a run of granules (R175) -/
def execFeclr (f : LF) (s : State) : Host.Outcome State Fault Refusal := issueOne (.feclr f) s

/-- AMO: Indivisible read-modify-write at the target, returning the old value unless .nr (R177) -/
def execAmo (f : LF) (s : State) : Host.Outcome State Fault Refusal := issueOne (.amo f) s

/-- AMOC: Indivisible compare-and-swap at the target (R177) -/
def execAmoc (f : LF) (s : State) : Host.Outcome State Fault Refusal := issueOne (.amoc f) s

/-- FENCE_ACQ: Holds until every earlier load and atomic of the task has completed (R179) -/
def execFenceAcq (f : LF) (s : State) : Host.Outcome State Fault Refusal := issueOne (.fenceAcq f) s

/-- FENCE_REL: Holds until every earlier write, atomic and signal has completed at the scope (R179) -/
def execFenceRel (f : LF) (s : State) : Host.Outcome State Fault Refusal := issueOne (.fenceRel f) s

/-- FENCE_AR: Holds for both acquire and release conditions (R179) -/
def execFenceAr (f : LF) (s : State) : Host.Outcome State Fault Refusal := issueOne (.fenceAr f) s

/-- TFENCE: Holds until earlier stores are visible to every walker at the scope (R180) -/
def execTfence (f : LF) (s : State) : Host.Outcome State Fault Refusal := issueOne (.tfence f) s

/-- TFENCE_INV: Supervisor tfence that then invalidates TLB entries mapping one VA (R180) -/
def execTfenceInv (f : LF) (s : State) : Host.Outcome State Fault Refusal := issueOne (.tfenceInv f) s

/-- TFENCE_ALL: Supervisor tfence that then invalidates every non-global TLB entry of the ASID (R180) -/
def execTfenceAll (f : LF) (s : State) : Host.Outcome State Fault Refusal := issueOne (.tfenceAll f) s

/-- RECLD: Loads a 32-byte buffer record, interlocked (R176) -/
def execRecld (f : LF) (s : State) : Host.Outcome State Fault Refusal := issueOne (.recld f) s

/-- RECST: Stores a buffer record to memory (R176) -/
def execRecst (f : LF) (s : State) : Host.Outcome State Fault Refusal := issueOne (.recst f) s

/-- RECMK: Writes a record as a copy of another with one field replaced (R176) -/
def execRecmk (f : LF) (s : State) : Host.Outcome State Fault Refusal := issueOne (.recmk f) s

/-- SWAIT: Arms a watch on a 64-bit word that posts a flag when the word reaches a value (R178) -/
def execSwait (f : LF) (s : State) : Host.Outcome State Fault Refusal := issueOne (.swait f) s

/-- SSIG: Sets or adds to a 64-bit signal word as a release (R178) -/
def execSsig (f : LF) (s : State) : Host.Outcome State Fault Refusal := issueOne (.ssig f) s

/-- WVIS: Arms a watch posting a flag when the predecessor set's writes are visible (R178) -/
def execWvis (f : LF) (s : State) : Host.Outcome State Fault Refusal := issueOne (.wvis f) s

/-- AR_OPEN: Opens a region object at its home and returns a handle (R292) -/
def execArOpen (f : LF) (s : State) : Host.Outcome State Fault Refusal := issueOne (.arOpen f) s

/-- AR_JOIN: Makes the task a member of the region its handle names (R293) -/
def execArJoin (f : LF) (s : State) : Host.Outcome State Fault Refusal := issueOne (.arJoin f) s

/-- AR_LD: Tentative load seeing members' tentative stores (R295) -/
def execArLd (f : LF) (s : State) : Host.Outcome State Fault Refusal := issueOne (.arLd f) s

/-- AR_ST: Tentative store recorded at the shard's write-set directory (R295) -/
def execArSt (f : LF) (s : State) : Host.Outcome State Fault Refusal := issueOne (.arSt f) s

/-- AR_COMMIT: Votes to commit after the member's tentative stores are performed (R298) -/
def execArCommit (f : LF) (s : State) : Host.Outcome State Fault Refusal := issueOne (.arCommit f) s

/-- AR_ABORT: Aborts the member's region with cause 1 (R298) -/
def execArAbort (f : LF) (s : State) : Host.Outcome State Fault Refusal := issueOne (.arAbort f) s

/-- AR_LEAVE: Ends membership, aborting the region if the member has not voted (R300) -/
def execArLeave (f : LF) (s : State) : Host.Outcome State Fault Refusal := issueOne (.arLeave f) s

/-- WFILL: Takes a place in a tree's order and starts replacing all leaves from scratchpad (R286) -/
def execWfill (f : LF) (s : State) : Host.Outcome State Fault Refusal := issueOne (.wfill f) s

/-- WDUMP: Snapshots a tree and writes its leaves to scratchpad (R287) -/
def execWdump (f : LF) (s : State) : Host.Outcome State Fault Refusal := issueOne (.wdump f) s

/-- RPUT: Appends a queue entry to a registered ring lane, waiting for room (R324) -/
def execRput (f : LF) (s : State) : Host.Outcome State Fault Refusal := issueOne (.rput f) s

/-- RPUT_REG: Registers a ring lane for the issuing task (R324) -/
def execRputReg (f : LF) (s : State) : Host.Outcome State Fault Refusal := issueOne (.rputReg f) s

/-- RGET: Interlocked push of the ring's oldest entry and its lane, or end of stream (R326) -/
def execRget (f : LF) (s : State) : Host.Outcome State Fault Refusal := issueOne (.rget f) s

/-- REOS: Appends a lane's end token and closes the lane (R325) -/
def execReos (f : LF) (s : State) : Host.Outcome State Fault Refusal := issueOne (.reos f) s

end Sys2Proof.Machine
end

