-- ==== Sys2Proof/Machine/PackageRows.lean ====
section
/-! DEFINITION. Meanings of the events of the package, one definition for each. -/
namespace Sys2Proof.Machine

/-- POWER_SAMPLE: Every 10 us the power manager samples and trips, steps the clock down or up, or holds (R402) -/
def execPowerSample (p : PowerReading) (s : State) : Host.Outcome State Fault Refusal := .next (samplePower p s)

/-- TIME_SYNC: Every 1 ms package firmware exchanges time and slews the time base (R403) -/
def execTimeSync (reference : Nat) (s : State) : Host.Outcome State Fault Refusal := .next (syncTime reference s)

/-- SENSOR_SAMPLE: Every 1 ms firmware writes the sensor word and host sensor page (R407) -/
def execSensorSample (p : PowerReading) (s : State) : Host.Outcome State Fault Refusal := .next (sampleSensors p s)

/-- POWER_ON_RESET: Power applied to the module resets all state and boots firmware (R405) -/
def execPowerOnReset (s : State) : Host.Outcome State Fault Refusal := .next (powerOn s)

/-- PACKAGE_RESET: A thermal trip, function-level reset or firmware resets the package as shakeout steps 1 to 3
(R405) -/
def execPackageReset (s : State) : Host.Outcome State Fault Refusal := .next (resetPackage s)

/-- DIE_RESET: A die is reset: its tasks stop, it is declared lost, regions abort and mirrors are adopted (R406) -/
def execDieReset (die : BitVec 16) (s : State) : Host.Outcome State Fault Refusal := .next (resetDie die s)

/-- DOMAIN_RESET: A reset of the domain sets every vector-clock counter and stored clock of its dies to 0 (R230) -/
def execDomainReset (s : State) : Host.Outcome State Fault Refusal := .next (resetDomain s)

/-- DIE_RETURN: A die whose reset has run its course returns, with its HBM, queues and cadastre empty, and its router
forwards traffic again (R406) -/
def execDieReturn (die : BitVec 16) (s : State) : Host.Outcome State Fault Refusal := .next (returnDie die s)

end Sys2Proof.Machine
end

