-- ==== Sys2Proof/Machine/ScalarRows.lean ====
section
/-! DEFINITION. Meanings of the instructions of the A and B slots, one definition for each. -/
namespace Sys2Proof.Machine

/-- ADD: Adds two g registers, with wrapping, 32-bit or saturating variants (R105) -/
def execAdd (u : AB) (f : RR) (s : State) : Host.Outcome State Fault Refusal := issueOne (.add u f) s

/-- SUB: Subtracts two g registers, with wrapping, 32-bit or saturating variants (R105) -/
def execSub (u : AB) (f : RR) (s : State) : Host.Outcome State Fault Refusal := issueOne (.sub u f) s

/-- MUL: Writes the low 64 bits of a product, or its sign-extended low 32 bits (R105) -/
def execMul (u : AB) (f : RR) (s : State) : Host.Outcome State Fault Refusal := issueOne (.mul u f) s

/-- MULH: Writes bits [127:64] of the signed product (R105) -/
def execMulh (u : AB) (f : RR) (s : State) : Host.Outcome State Fault Refusal := issueOne (.mulh u f) s

/-- MULHN: Writes bits [127:64] of the unsigned product (R105) -/
def execMulhn (u : AB) (f : RR) (s : State) : Host.Outcome State Fault Refusal := issueOne (.mulhn u f) s

/-- DIV: A-slot signed or unsigned division truncated toward zero, with defined results for division by zero (R106) -/
def execDiv (f : RR) (s : State) : Host.Outcome State Fault Refusal := issueOne (.div f) s

/-- REM: A-slot signed or unsigned remainder, with defined results for division by zero (R106) -/
def execRem (f : RR) (s : State) : Host.Outcome State Fault Refusal := issueOne (.rem f) s

/-- AND: Bitwise AND of two g registers (R105) -/
def execAnd (u : AB) (f : RR) (s : State) : Host.Outcome State Fault Refusal := issueOne (.and u f) s

/-- OR: Bitwise OR of two g registers (R105) -/
def execOr (u : AB) (f : RR) (s : State) : Host.Outcome State Fault Refusal := issueOne (.or u f) s

/-- XOR: Bitwise XOR of two g registers (R105) -/
def execXor (u : AB) (f : RR) (s : State) : Host.Outcome State Fault Refusal := issueOne (.xor u f) s

/-- ANDN: Bitwise AND of the first source with the complement of the second (R105) -/
def execAndn (u : AB) (f : RR) (s : State) : Host.Outcome State Fault Refusal := issueOne (.andn u f) s

/-- SHL: Logical left shift, 64-bit or 32-bit form (R105) -/
def execShl (u : AB) (f : RR) (s : State) : Host.Outcome State Fault Refusal := issueOne (.shl u f) s

/-- SHR: Logical right shift, 64-bit or 32-bit form (R105) -/
def execShr (u : AB) (f : RR) (s : State) : Host.Outcome State Fault Refusal := issueOne (.shr u f) s

/-- SAR: Arithmetic right shift, 64-bit or 32-bit form (R105) -/
def execSar (u : AB) (f : RR) (s : State) : Host.Outcome State Fault Refusal := issueOne (.sar u f) s

/-- MIN: Signed minimum of two g registers (R105) -/
def execMin (u : AB) (f : RR) (s : State) : Host.Outcome State Fault Refusal := issueOne (.min u f) s

/-- MAX: Signed maximum of two g registers (R105) -/
def execMax (u : AB) (f : RR) (s : State) : Host.Outcome State Fault Refusal := issueOne (.max u f) s

/-- MINN: Unsigned minimum of two g registers (R105) -/
def execMinn (u : AB) (f : RR) (s : State) : Host.Outcome State Fault Refusal := issueOne (.minn u f) s

/-- MAXN: Unsigned maximum of two g registers (R105) -/
def execMaxn (u : AB) (f : RR) (s : State) : Host.Outcome State Fault Refusal := issueOne (.maxn u f) s

/-- CLZ: Counts leading zero bits (R105) -/
def execClz (u : AB) (f : RR) (s : State) : Host.Outcome State Fault Refusal := issueOne (.clz u f) s

/-- POPC: Counts one bits (R105) -/
def execPopc (u : AB) (f : RR) (s : State) : Host.Outcome State Fault Refusal := issueOne (.popc u f) s

/-- BREV: Reverses the 64 bits of a register (R105) -/
def execBrev (u : AB) (f : RR) (s : State) : Host.Outcome State Fault Refusal := issueOne (.brev u f) s

/-- BFX: Extracts a bit field, zero- or sign-extended (R107) -/
def execBfx (u : AB) (f : RR) (s : State) : Host.Outcome State Fault Refusal := issueOne (.bfx u f) s

/-- BFI: Inserts a bit field into the destination, read through port 3 (R107) -/
def execBfi (u : AB) (f : RR) (s : State) : Host.Outcome State Fault Refusal := issueOne (.bfi u f) s

/-- LEA: Forms LINE plus 32 times a signed immediate plus a register (R109) -/
def execLea (u : AB) (f : RI) (s : State) : Host.Outcome State Fault Refusal := issueOne (.lea u f) s

/-- SEL: Selects one of two g registers by a predicate k0 to k7 (R110) -/
def execSel (u : AB) (f : RR) (s : State) : Host.Outcome State Fault Refusal := issueOne (.sel u f) s

/-- ADDI: Adds a sign-extended 10-bit immediate (R108) -/
def execAddi (u : AB) (f : RI) (s : State) : Host.Outcome State Fault Refusal := issueOne (.addi u f) s

/-- ANDI: ANDs with a sign-extended 10-bit immediate (R108) -/
def execAndi (u : AB) (f : RI) (s : State) : Host.Outcome State Fault Refusal := issueOne (.andi u f) s

/-- ORI: ORs with a sign-extended 10-bit immediate (R108) -/
def execOri (u : AB) (f : RI) (s : State) : Host.Outcome State Fault Refusal := issueOne (.ori u f) s

/-- SHLI: Shifts left by an immediate 0 to 63 (R108) -/
def execShli (u : AB) (f : RI) (s : State) : Host.Outcome State Fault Refusal := issueOne (.shli u f) s

/-- MOVI: Writes a sign-extended 17-bit immediate (R108) -/
def execMovi (u : AB) (f : MI) (s : State) : Host.Outcome State Fault Refusal := issueOne (.movi u f) s

/-- MOVHI: Writes an unsigned 17-bit immediate shifted left by 32 (R108) -/
def execMovhi (u : AB) (f : MI) (s : State) : Host.Outcome State Fault Refusal := issueOne (.movhi u f) s

/-- CMP: Compares two g registers and writes a predicate (R111) -/
def execCmp (u : AB) (f : RR) (s : State) : Host.Outcome State Fault Refusal := issueOne (.cmp u f) s

/-- CMPI: Compares a g register with a sign-extended 7-bit immediate and writes a predicate (R111) -/
def execCmpi (u : AB) (f : RC) (s : State) : Host.Outcome State Fault Refusal := issueOne (.cmpi u f) s

/-- KOP: Writes a predicate as a logic operation of two predicates (R112) -/
def execKop (u : AB) (f : RR) (s : State) : Host.Outcome State Fault Refusal := issueOne (.kop u f) s

/-- CHK: Raises a poison trap when the register is poisoned, otherwise nothing (R113) -/
def execChk (u : AB) (f : RR) (s : State) : Host.Outcome State Fault Refusal := issueOne (.chk u f) s

/-- RDSYS: Reads a system register, peer register or counting flag into a g register (R114) -/
def execRdsys (f : RI) (s : State) : Host.Outcome State Fault Refusal := issueOne (.rdsys f) s

/-- RDSYS_TRAPINFO: Reads word SEL of TRAPINFO and advances SEL modulo 10 (R131) -/
def execRdsysTrapinfo (f : RI) (s : State) : Host.Outcome State Fault Refusal := issueOne (.rdsysTrapinfo f) s

/-- WRSYS: Supervisor write of FABSTALE, CECOUNT or LOSSCOUNT, checked for bits [63:32] zero (R114) -/
def execWrsys (f : RI) (s : State) : Host.Outcome State Fault Refusal := issueOne (.wrsys f) s

/-- WRSYS_FMT: Writes FMT after the format-value check, with the delay of R51 (R77) -/
def execWrsysFmt (f : RI) (s : State) : Host.Outcome State Fault Refusal := issueOne (.wrsysFmt f) s

/-- WRSYS_FSTAT: Sets FSTAT; flags landing later or raised in the bundle are OR-ed in (R79) -/
def execWrsysFstat (f : RI) (s : State) : Host.Outcome State Fault Refusal := issueOne (.wrsysFstat f) s

/-- WRSYS_FPROG: Sets FPROG after checks, holding while a factorisation is in progress (R261) -/
def execWrsysFprog (f : RI) (s : State) : Host.Outcome State Fault Refusal := issueOne (.wrsysFprog f) s

/-- WRSYS_MLPROG: Sets MLPROG after checks, holding while an mload is in progress (R259) -/
def execWrsysMlprog (f : RI) (s : State) : Host.Outcome State Fault Refusal := issueOne (.wrsysMlprog f) s

/-- WRSYS_POURSKEW: Sets the cluster's pour skew for pours that start later; above 63 traps (R114) -/
def execWrsysPourskew (f : RI) (s : State) : Host.Outcome State Fault Refusal := issueOne (.wrsysPourskew f) s

/-- WRSYS_WDLIM: Supervisor write of the watchdog limit; a value at or below the count makes the watchdog expire
(R146) -/
def execWrsysWdlim (f : RI) (s : State) : Host.Outcome State Fault Refusal := issueOne (.wrsysWdlim f) s

/-- WRSYS_TVEC: Sets the trap handler address after alignment and range checks (R114) -/
def execWrsysTvec (f : RI) (s : State) : Host.Outcome State Fault Refusal := issueOne (.wrsysTvec f) s

/-- WRSYS_TRAPINFO: Supervisor write of word SEL of TRAPINFO, advancing SEL (R131) -/
def execWrsysTrapinfo (f : RI) (s : State) : Host.Outcome State Fault Refusal := issueOne (.wrsysTrapinfo f) s

/-- WRSYS_DUTYMODE: Supervisor write of DUTYMODE, choosing hardware or host-assisted mode per function (R396) -/
def execWrsysDutymode (f : RI) (s : State) : Host.Outcome State Fault Refusal := issueOne (.wrsysDutymode f) s

/-- WRSYS_PEER: Writes peer register n1 to n7 after the coordinate check (R161) -/
def execWrsysPeer (f : RI) (s : State) : Host.Outcome State Fault Refusal := issueOne (.wrsysPeer f) s

/-- WRSYS_FLAG: Sets a counting flag, adding posts that land in the same cycle, then tests waits on it (R114) -/
def execWrsysFlag (f : RI) (s : State) : Host.Outcome State Fault Refusal := issueOne (.wrsysFlag f) s

/-- FADD: FP32 or FP64 addition with one rounding in the encoded mode (R116) -/
def execFadd (f : RR) (s : State) : Host.Outcome State Fault Refusal := issueOne (.fadd f) s

/-- FSUB: FP32 or FP64 subtraction with one rounding (R116) -/
def execFsub (f : RR) (s : State) : Host.Outcome State Fault Refusal := issueOne (.fsub f) s

/-- FMUL: FP32 or FP64 multiplication with one rounding (R116) -/
def execFmul (f : RR) (s : State) : Host.Outcome State Fault Refusal := issueOne (.fmul f) s

/-- FMA: Fused multiply-add with the destination as addend, one rounding (R116) -/
def execFma (f : RR) (s : State) : Host.Outcome State Fault Refusal := issueOne (.fma f) s

/-- FDIV: Floating-point division, plain or speculative, RNE or FMT.RMODE (R116) -/
def execFdiv (f : RR) (s : State) : Host.Outcome State Fault Refusal := issueOne (.fdiv f) s

/-- FSQRT: Floating-point square root, plain or speculative (R116) -/
def execFsqrt (f : RR) (s : State) : Host.Outcome State Fault Refusal := issueOne (.fsqrt f) s

/-- FMIN: minimumNumber of two floating-point values (R118) -/
def execFmin (f : RR) (s : State) : Host.Outcome State Fault Refusal := issueOne (.fmin f) s

/-- FMAX: maximumNumber of two floating-point values (R118) -/
def execFmax (f : RR) (s : State) : Host.Outcome State Fault Refusal := issueOne (.fmax f) s

/-- FSGN: Replaces the sign of a value by copy, negated copy or exclusive or (R118) -/
def execFsgn (f : RR) (s : State) : Host.Outcome State Fault Refusal := issueOne (.fsgn f) s

/-- FCMP: Floating-point comparison writing a predicate (R119) -/
def execFcmp (f : RR) (s : State) : Host.Outcome State Fault Refusal := issueOne (.fcmp f) s

/-- FCVT: Converts between floating and integer formats by a conversion code (R120) -/
def execFcvt (f : RR) (s : State) : Host.Outcome State Fault Refusal := issueOne (.fcvt f) s

/-- FCLASS: Writes a one-hot class code of a floating-point value (R121) -/
def execFclass (f : RR) (s : State) : Host.Outcome State Fault Refusal := issueOne (.fclass f) s

/-- WCLR: Zeroes one leaf of a sum tree and recomputes its path (R280) -/
def execWclr (f : RR) (s : State) : Host.Outcome State Fault Refusal := issueOne (.wclr f) s

/-- WSET: Sets one leaf from a raw code or a converted FP32 value (R280) -/
def execWset (f : RR) (s : State) : Host.Outcome State Fault Refusal := issueOne (.wset f) s

/-- WADD: Adds a delta to one leaf, clamping at 0 and saturating (R280) -/
def execWadd (f : RR) (s : State) : Host.Outcome State Fault Refusal := issueOne (.wadd f) s

/-- WGET: Returns one leaf of a tree (R281) -/
def execWget (f : RR) (s : State) : Host.Outcome State Fault Refusal := issueOne (.wget f) s

/-- WSUM: Returns the exclusive prefix sum at an index (R281) -/
def execWsum (f : RR) (s : State) : Host.Outcome State Fault Refusal := issueOne (.wsum f) s

/-- WFIND: Returns the leaf whose mass covers u, or 1024 with IV (R282) -/
def execWfind (f : RR) (s : State) : Host.Outcome State Fault Refusal := issueOne (.wfind f) s

/-- WCUT: Zeroes every leaf whose prefix reaches c and returns the new root (R283) -/
def execWcut (f : RR) (s : State) : Host.Outcome State Fault Refusal := issueOne (.wcut f) s

/-- WTOT: Returns the root of a tree (R281) -/
def execWtot (f : RR) (s : State) : Host.Outcome State Fault Refusal := issueOne (.wtot f) s

/-- WMOV: Copies a whole tree into another tree in one operation (R284) -/
def execWmov (f : RR) (s : State) : Host.Outcome State Fault Refusal := issueOne (.wmov f) s

end Sys2Proof.Machine
end

