-- ==== Sys2Proof/Machine/TaskRows.lean ====
section
/-! DEFINITION. Meanings of the events of tasks, sets and the cadastre, one definition for each. -/
namespace Sys2Proof.Machine

/-- LAUNCH_PACKET: A launch packet arrives at a die, which runs the distribution and enqueues its own tasks (R310) -/
def execLaunchPacket (packet : BitVec 512) (s : State) : Host.Outcome State Fault Refusal :=
  .next (receivePacket packet s)

/-- TASK_DISPATCH: The queue unit gives an eligible task to a core and context, which starts it (R312) -/
def execTaskDispatch (s : State) : Host.Outcome State Fault Refusal := .next ((dispatchOne s).getD s)

/-- TASK_AGING: A task that waited AGELIM cycles at one priority moves up one priority (R313) -/
def execTaskAging (key : Nat) (s : State) : Host.Outcome State Fault Refusal := .next (ageTask key s)

/-- WAIT_WORD_QUALIFY: A watched signal word reaches its threshold and the task becomes dispatchable (R316) -/
def execWaitWordQualify (key : Nat) (s : State) : Host.Outcome State Fault Refusal := .next (qualifyTask key s)

/-- UNPARK_WORD_STORE: A supervisor store to the unpark word enqueues a page-mapped notice that unparks tasks (R320) -/
def execUnparkWordStore (v : BitVec 64) (s : State) : Host.Outcome State Fault Refusal := .next (unpark v s)

/-- INTERRUPT_WORD_STORE: A supervisor store of a vector number to the interrupt word raises that MSI-X vector (R384) -/
def execInterruptWordStore (v : BitVec 64) (s : State) : Host.Outcome State Fault Refusal := .next (interruptHost v s)

/-- TASK_PUBLICATION: Once a done task's writes complete, its digest and cadastre entry are written and it counts
complete (R318) -/
def execTaskPublication (key : Nat) (s : State) : Host.Outcome State Fault Refusal := .next (publish key s)

/-- REPLICA_ACKNOWLEDGE: Both replica dies acknowledge a version's copy and it becomes replicated with lineage
trimmed (R328) -/
def execReplicaAcknowledge (v : VersionId) (die : BitVec 16) (s : State) : Host.Outcome State Fault Refusal :=
  .next (ackReplica v die s)

/-- DMAX_UPDATE: At the end of each 2^36 ns window, firmware updates rho and DMAX (R329) -/
def execDmaxUpdate (s : State) : Host.Outcome State Fault Refusal := .next (windowEnds s)

/-- SET_COMPLETION: A set completion message arrives and the die counts the set done there (R315) -/
def execSetCompletion (src : BitVec 16) (packet : BitVec 512) (s : State) : Host.Outcome State Fault Refusal :=
  .next (receiveCompletion src packet s)

/-- SET_FAILURE: A set failure arrives or is made, removing queued tasks and failing watches and successors (R311) -/
def execSetFailure (src : BitVec 16) (packet : BitVec 512) (reason : Nat) (s : State) : Host.Outcome State Fault Refusal :=
  .next (setFails src packet reason s)

/-- HBM_UNCORRECTABLE_ERROR: An uncorrectable error in HBM or the second tier marks blocks poisoned and loses
versions held there (R337) -/
def execHbmUncorrectableError (tier2 : Bool) (addr : Nat) (len : Nat) (s : State) : Host.Outcome State Fault Refusal :=
  .next (memoryError tier2 addr len s)

/-- LOSS_BROADCAST: A loss or restoration broadcast enters the die's table of unavailable versions (R331) -/
def execLossBroadcast (v : VersionNews) (lost : Bool) (s : State) : Host.Outcome State Fault Refusal :=
  .next (setUnavailable v.src v.version lost s)

/-- NEED: A need for a lost version reaches its home and the resurvey unit walks lineage (R333) -/
def execNeed (v : VersionId) (pri : BitVec 3) (s : State) : Host.Outcome State Fault Refusal :=
  .next (Machine.need v pri s)

/-- REBUILD_RETIRE: A rebuild retires and its digest is compared, releasing consumers, retrying or declaring (R334) -/
def execRebuildRetire (v : VersionId) (faulted : Bool) (s : State) : Host.Outcome State Fault Refusal :=
  .next (endRebuild none v faulted s)

/-- RESTORE_COMPLETE: A restore from a replica finishes and its bytes are compared against DIGEST (R334) -/
def execRestoreComplete (v : VersionId) (bytes : List (BitVec 8)) (s : State) : Host.Outcome State Fault Refusal :=
  .next (endRestore v bytes s)

/-- MIRROR_UPDATE: A mirror update message changes a cadastre mirror on REP1 (R330) -/
def execMirrorUpdate (entry : BitVec 1024) (s : State) : Host.Outcome State Fault Refusal := .next (storeMirror entry s)

/-- COPY_ENGINE_FAILURE: The copy engine that was writing a version back fails, destroying the version's place so
that it is restored or marked lost (R331) -/
def execCopyEngineFailure (op : Nat) (s : State) : Host.Outcome State Fault Refusal := .next (copyFailure op s)

/-- DEFWDLIM_WRITE: Firmware writes DEFWDLIM on the die information page, and the new value governs from the next
task start (R409) -/
def execDefwdlimWrite (v : BitVec 64) (s : State) : Host.Outcome State Fault Refusal := .next (writeDefwdlim v s)

/-- AGELIM_WRITE: Firmware sets a die's aging limit AGELIM, or sets it to 0 to disable aging (R313) -/
def execAgelimWrite (v : BitVec 64) (s : State) : Host.Outcome State Fault Refusal := .next (writeAgelim v s)

end Sys2Proof.Machine
end

