-- ==== Sys2Proof/Machine/TransferRows.lean ====
section
/-! DEFINITION. Meanings of the instructions of the X and S slots, one definition for each. -/
namespace Sys2Proof.Machine

/-- XSV: Pushes a g register onto a queue as broadcast lanes or lane 0 (R214) -/
def execXsv (f : XsvF) (s : State) : Host.Outcome State Fault Refusal := issueOne (.xsv f) s

/-- XKM: Writes all mask bits from a predicate (R215) -/
def execXkm (f : XkmF) (s : State) : Host.Outcome State Fault Refusal := issueOne (.xkm f) s

/-- XVS: Pops or keep-reads a queue and writes one lane into a g register (R216) -/
def execXvs (f : XvsF) (s : State) : Host.Outcome State Fault Refusal := issueOne (.xvs f) s

/-- XMK: Writes a predicate as any or all bits of a mask (R217) -/
def execXmk (f : XmkF) (s : State) : Host.Outcome State Fault Refusal := issueOne (.xmk f) s

/-- WFLAG: Subtracts c from a counting flag when it reaches c, waiting otherwise (R183) -/
def execWflag (f : SF) (s : State) : Host.Outcome State Fault Refusal := issueOne (.wflag f) s

/-- PFLAG: Adds c to a counting flag of the issuing core, saturating (R183) -/
def execPflag (f : SF) (s : State) : Host.Outcome State Fault Refusal := issueOne (.pflag f) s

/-- BAR: Arrives at the cluster barrier and waits for c arrivals of the generation (R183) -/
def execBar (f : SF) (s : State) : Host.Outcome State Fault Refusal := issueOne (.bar f) s

/-- RSYNC: Arranges a post of c to a flag once every earlier L-slot operation of the task has completed (R183) -/
def execRsync (f : SF) (s : State) : Host.Outcome State Fault Refusal := issueOne (.rsync f) s

end Sys2Proof.Machine
end

