-- ==== Sys2Proof/Machine/UnitRows.lean ====
section
/-! DEFINITION. Meanings of the events of the array, of engines, of traps, of saves and of regions, one definition for each. -/
namespace Sys2Proof.Machine

/-- FLAG_WAIT_RELEASE: A waiting wflag or sysc wait is served in order once the flag meets its count (R183) -/
def execFlagWaitRelease (core : BitVec 6) (flag : BitVec 5) (s : State) : Host.Outcome State Fault Refusal :=
  .next (releaseWait core flag s)

/-- MLOAD_COMPLETE: An mload finishes writing its tile and MLPROG becomes 0 (R259) -/
def execMloadComplete (c : CtxId) (s : State) : Host.Outcome State Fault Refusal := .next (endMload c s)

/-- FACTORISATION_COMPLETE: A factorisation or solve finishes, raises its flags and zeroes FPROG (R262) -/
def execFactorisationComplete (c : CtxId) (s : State) : Host.Outcome State Fault Refusal := .next (endFactor 1 c s)

/-- FACTORISATION_PIVOT_STOP: A factorisation meets a pivot condition, sets STOP and traps or sets NPD or ZP (R263) -/
def execFactorisationPivotStop (c : CtxId) (s : State) : Host.Outcome State Fault Refusal := .next (endFactor 2 c s)

/-- FACTORISATION_INTERRUPTION_POINT: At a column end with a trap, watchdog or pre-emption due, the instruction stops
and is recorded as pending (R138) -/
def execFactorisationInterruptionPoint (c : CtxId) (s : State) : Host.Outcome State Fault Refusal :=
  .next (withFocus c (fun t => settleCur (interruptionPoint t)) s)

/-- SWAIT_POST: A watched word qualifies, the engine posts the flag and the watch ends (R178) -/
def execSwaitPost (c : CtxId) (watch : Nat) (s : State) : Host.Outcome State Fault Refusal :=
  .next (postWatch c watch s)

/-- WFILL_APPLY: The fill's bytes are read and all leaves replaced in one update, releasing held operations and
posting f (R286) -/
def execWfillApply (op : Nat) (s : State) : Host.Outcome State Fault Refusal := .next (applyWfill op s)

/-- RING_SPILL: The spill engine moves ring entries beyond the window to the memory ring (R322) -/
def execRingSpill (ring : BitVec 64) (s : State) : Host.Outcome State Fault Refusal := .next (spillAt ring s)

/-- TRANSLATION_WALK_COMPLETE: A table walk finishes with a translation, a translation fault or a permission fault
(R163) -/
def execTranslationWalkComplete (core : BitVec 6) (w : WalkArg) (s : State) : Host.Outcome State Fault Refusal :=
  .next (fillTlb core w s)

/-- OPERATION_COMPLETE: An L-slot or engine operation completes, lands its data and posts its flag (R167) -/
def execOperationComplete (op : Nat) (s : State) : Host.Outcome State Fault Refusal := .next (completeOp op s)

/-- ENGINE_FAULT: An engine finds a fault after commit, stops the operation and raises a boundary trap (R165) -/
def execEngineFault (op : Nat) (s : State) : Host.Outcome State Fault Refusal := .next (faultOp op s)

/-- TRAP_DELIVERY: After the drain, a trap is logged and delivered to TVEC or retires the task faulted (R128) -/
def execTrapDelivery (c : CtxId) (s : State) : Host.Outcome State Fault Refusal :=
  .next (withFocus c (fun t => settleCur (deliverTaking t)) s)

/-- WATCHDOG_EXPIRY: The watchdog count reaches WDLIM and a class X boundary trap retires the task (R146) -/
def execWatchdogExpiry (c : CtxId) (s : State) : Host.Outcome State Fault Refusal :=
  .next (withFocus c expireWatchdog s)

/-- CORRECTABLE_ERROR: A correctable error freezes the affected cores for 24 cycles and counts in CECOUNT (R148) -/
def execCorrectableError (place : ErrorPlace) (s : State) : Host.Outcome State Fault Refusal :=
  .next (correctable place s)

/-- FREEZE_END: A correctable-error freeze ends and frozen cores resume unchanged (R148) -/
def execFreezeEnd (core : BitVec 6) (s : State) : Host.Outcome State Fault Refusal := .next (endFreeze core s)

/-- UNCORRECTABLE_ERROR: An uncorrectable error in context state retires the affected tasks with class X (R149) -/
def execUncorrectableError (place : ErrorPlace) (s : State) : Host.Outcome State Fault Refusal :=
  .next (uncorrectable place s)

/-- PREEMPTION_REQUEST: A scheduler request for a context becomes pending until a phint or interruption point (R139) -/
def execPreemptionRequest (c : CtxId) (s : State) : Host.Outcome State Fault Refusal := .next (requestPreempt c s)

/-- SAVE_COMPLETE: The save engine finishes step 2 and the context slot passes to the incoming task (R142) -/
def execSaveComplete (c : CtxId) (s : State) : Host.Outcome State Fault Refusal := .next (withFocus c endSave s)

/-- SAVE_OVERRUN: The save bound passes or a held region fails, and the context is declared lost (R145) -/
def execSaveOverrun (c : CtxId) (s : State) : Host.Outcome State Fault Refusal := .next (withFocus c loseSave s)

/-- HELD_REGION_WRITEOUT: The save engine writes a held region out before an overlapping incoming task starts (R143) -/
def execHeldRegionWriteout (core : BitVec 6) (index : Nat) (s : State) : Host.Outcome State Fault Refusal :=
  .next (withFocus { core := core, ctx := (coreAt core s).sel } (writeOutAt index) s)

/-- CONTEXT_RESTORE: A pre-empted task resumes on its core, its regions retaken and pending array work restarted
(R144) -/
def execContextRestore (c : CtxId) (s : State) : Host.Outcome State Fault Refusal := .next (restoreAt c s)

/-- REGION_DEADLINE: The time base reaches an open region's DEADLINE and the region aborts with cause 3 (R298) -/
def execRegionDeadline (obj : BitVec 40) (s : State) : Host.Outcome State Fault Refusal := .next (deadline obj s)

/-- REGION_ABORT_DELIVERY: An abort reaches a member's die and raises a boundary trap 0x17 at the member (R299) -/
def execRegionAbortDelivery (c : CtxId) (s : State) : Host.Outcome State Fault Refusal := .next (abortReaches c s)

/-- FIXED_LATENCY_RESULT_LANDING: A fixed-latency result lands in its g register, predicate, mask, system register or
queue entry at some cycle up to its bound, bringing its flags into FSTAT (R50) -/
def execFixedLatencyResultLanding (c : CtxId) (index : Nat) (s : State) : Host.Outcome State Fault Refusal :=
  .next (withFocus c (landEarly index) s)

/-- ARRAY_PUSH_LANDING: The array delivers the entry of an mdrain, mrdp or mstat onto its queue as an interlocked
push, releasing a pop that waits on it (R247) -/
def execArrayPushLanding (c : CtxId) (queue : BitVec 5) (s : State) : Host.Outcome State Fault Refusal :=
  .next (landPush c queue s)

end Sys2Proof.Machine
end

