-- ==== Sys2Proof/Machine/VectorRows.lean ====
section
/-! DEFINITION. Meanings of the instructions of the V slot, one definition for each. -/
namespace Sys2Proof.Machine

/-- VADD: Lane-wise addition of two queue entries (R196) -/
def execVadd (f : VF) (s : State) : Host.Outcome State Fault Refusal := issueOne (.vadd f) s

/-- VSUB: Lane-wise subtraction (R196) -/
def execVsub (f : VF) (s : State) : Host.Outcome State Fault Refusal := issueOne (.vsub f) s

/-- VMUL: Lane-wise multiplication (R196) -/
def execVmul (f : VF) (s : State) : Host.Outcome State Fault Refusal := issueOne (.vmul f) s

/-- VFMA: Lane-wise fused multiply-add (R196) -/
def execVfma (f : VF) (s : State) : Host.Outcome State Fault Refusal := issueOne (.vfma f) s

/-- VFMS: Lane-wise fused multiply-subtract (R196) -/
def execVfms (f : VF) (s : State) : Host.Outcome State Fault Refusal := issueOne (.vfms f) s

/-- VMIN: Lane-wise minimum (R196) -/
def execVmin (f : VF) (s : State) : Host.Outcome State Fault Refusal := issueOne (.vmin f) s

/-- VMAX: Lane-wise maximum (R196) -/
def execVmax (f : VF) (s : State) : Host.Outcome State Fault Refusal := issueOne (.vmax f) s

/-- VABS: Lane-wise absolute value (R196) -/
def execVabs (f : VF) (s : State) : Host.Outcome State Fault Refusal := issueOne (.vabs f) s

/-- VNEG: Lane-wise negation (R196) -/
def execVneg (f : VF) (s : State) : Host.Outcome State Fault Refusal := issueOne (.vneg f) s

/-- VDIV: Lane-wise floating-point division, plain or speculative (R198) -/
def execVdiv (f : VF) (s : State) : Host.Outcome State Fault Refusal := issueOne (.vdiv f) s

/-- VSQRT: Lane-wise floating-point square root (R198) -/
def execVsqrt (f : VF) (s : State) : Host.Outcome State Fault Refusal := issueOne (.vsqrt f) s

/-- VRSQRT: Lane-wise reciprocal square root (R199) -/
def execVrsqrt (f : VF) (s : State) : Host.Outcome State Fault Refusal := issueOne (.vrsqrt f) s

/-- VRCP: Lane-wise reciprocal (R199) -/
def execVrcp (f : VF) (s : State) : Host.Outcome State Fault Refusal := issueOne (.vrcp f) s

/-- VEXP2: Lane-wise power of two (R199) -/
def execVexp2 (f : VF) (s : State) : Host.Outcome State Fault Refusal := issueOne (.vexp2 f) s

/-- VLOG2: Lane-wise base-2 logarithm (R199) -/
def execVlog2 (f : VF) (s : State) : Host.Outcome State Fault Refusal := issueOne (.vlog2 f) s

/-- VCVT: Converts lanes between element types, by part (R210) -/
def execVcvt (f : VF) (s : State) : Host.Outcome State Fault Refusal := issueOne (.vcvt f) s

/-- VCMP: Lane-wise comparison writing a mask (R201) -/
def execVcmp (f : VF) (s : State) : Host.Outcome State Fault Refusal := issueOne (.vcmp f) s

/-- VSEL: Selects lanes of two entries by a mask (R202) -/
def execVsel (f : VF) (s : State) : Host.Outcome State Fault Refusal := issueOne (.vsel f) s

/-- VAND: Lane-wise AND (R200) -/
def execVand (f : VF) (s : State) : Host.Outcome State Fault Refusal := issueOne (.vand f) s

/-- VOR: Lane-wise OR (R200) -/
def execVor (f : VF) (s : State) : Host.Outcome State Fault Refusal := issueOne (.vor f) s

/-- VXOR: Lane-wise XOR (R200) -/
def execVxor (f : VF) (s : State) : Host.Outcome State Fault Refusal := issueOne (.vxor f) s

/-- VNOT: Lane-wise NOT (R200) -/
def execVnot (f : VF) (s : State) : Host.Outcome State Fault Refusal := issueOne (.vnot f) s

/-- VSHL: Lane-wise left shift (R200) -/
def execVshl (f : VF) (s : State) : Host.Outcome State Fault Refusal := issueOne (.vshl f) s

/-- VSHR: Lane-wise logical right shift (R200) -/
def execVshr (f : VF) (s : State) : Host.Outcome State Fault Refusal := issueOne (.vshr f) s

/-- VSAR: Lane-wise arithmetic right shift (R200) -/
def execVsar (f : VF) (s : State) : Host.Outcome State Fault Refusal := issueOne (.vsar f) s

/-- VREDSUM: Reduces active lanes to their sum in lane 0 (R203) -/
def execVredsum (f : VF) (s : State) : Host.Outcome State Fault Refusal := issueOne (.vredsum f) s

/-- VREDMAX: Reduces active lanes to their maximum in lane 0 (R203) -/
def execVredmax (f : VF) (s : State) : Host.Outcome State Fault Refusal := issueOne (.vredmax f) s

/-- VREDMIN: Reduces active lanes to their minimum in lane 0 (R203) -/
def execVredmin (f : VF) (s : State) : Host.Outcome State Fault Refusal := issueOne (.vredmin f) s

/-- VSCAN: Inclusive or exclusive prefix sum of lanes (R204) -/
def execVscan (f : VF) (s : State) : Host.Outcome State Fault Refusal := issueOne (.vscan f) s

/-- VPERM: Permutes lanes by indices from a second entry (R205) -/
def execVperm (f : VF) (s : State) : Host.Outcome State Fault Refusal := issueOne (.vperm f) s

/-- VSLIDE: Takes a window from two joined entries (R206) -/
def execVslide (f : VF) (s : State) : Host.Outcome State Fault Refusal := issueOne (.vslide f) s

/-- VBCAST: Broadcasts one lane to every lane (R207) -/
def execVbcast (f : VF) (s : State) : Host.Outcome State Fault Refusal := issueOne (.vbcast f) s

/-- VDUP: Duplicates lanes of one part by a factor (R208) -/
def execVdup (f : VF) (s : State) : Host.Outcome State Fault Refusal := issueOne (.vdup f) s

/-- VDROP: Keeps every r-th lane from an offset (R208) -/
def execVdrop (f : VF) (s : State) : Host.Outcome State Fault Refusal := issueOne (.vdrop f) s

/-- VIOTA: Writes each lane's index (R209) -/
def execViota (f : VF) (s : State) : Host.Outcome State Fault Refusal := issueOne (.viota f) s

/-- VCLAMP: Clamps lanes between two bounds (R196) -/
def execVclamp (f : VF) (s : State) : Host.Outcome State Fault Refusal := issueOne (.vclamp f) s

/-- VLEN: Writes a mask of the first n lanes (R211) -/
def execVlen (f : VF) (s : State) : Host.Outcome State Fault Refusal := issueOne (.vlen f) s

/-- MAND: ANDs two masks (R212) -/
def execMand (f : VF) (s : State) : Host.Outcome State Fault Refusal := issueOne (.mand f) s

/-- MOR: ORs two masks (R212) -/
def execMor (f : VF) (s : State) : Host.Outcome State Fault Refusal := issueOne (.mor f) s

/-- MNOT: Complements a mask (R212) -/
def execMnot (f : VF) (s : State) : Host.Outcome State Fault Refusal := issueOne (.mnot f) s

/-- VMOVI: Writes an immediate into every lane (R209) -/
def execVmovi (f : VF) (s : State) : Host.Outcome State Fault Refusal := issueOne (.vmovi f) s

end Sys2Proof.Machine
end

