-- ==== Sys2Proof/Machine/Dispatch.lean ====
section
/-! DEFINITION. The meaning of every instruction and event: one arm per constructor. -/
namespace Sys2Proof.Machine

def exec (i : Instr) (s : State) : Host.Outcome State Fault Refusal :=
  match i with
  | .tree f => Sys2Proof.Machine.execTree f s
  | .jmp off => Sys2Proof.Machine.execJmp off s
  | .jmpr r => Sys2Proof.Machine.execJmpr r s
  | .call off => Sys2Proof.Machine.execCall off s
  | .ret r => Sys2Proof.Machine.execRet r s
  | .loopImmediate count len => Sys2Proof.Machine.execLoopImmediate count len s
  | .loopRegister r len => Sys2Proof.Machine.execLoopRegister r len s
  | .rpt f => Sys2Proof.Machine.execRpt f s
  | .setfmtImmediate v => Sys2Proof.Machine.execSetfmtImmediate v s
  | .setfmtRegister r => Sys2Proof.Machine.execSetfmtRegister r s
  | .yield => Sys2Proof.Machine.execYield s
  | .phint f => Sys2Proof.Machine.execPhint f s
  | .trap code => Sys2Proof.Machine.execTrap code s
  | .sysc code => Sys2Proof.Machine.execSysc code s
  | .eret => Sys2Proof.Machine.execEret s
  | .done => Sys2Proof.Machine.execDone s
  | .succ => Sys2Proof.Machine.execSucc s
  | .spawn r => Sys2Proof.Machine.execSpawn r s
  | .launch r => Sys2Proof.Machine.execLaunch r s
  | .wdogSetZero r => Sys2Proof.Machine.execWdogSetZero r s
  | .wdogSuspend r => Sys2Proof.Machine.execWdogSuspend r s
  | .wdogResume r => Sys2Proof.Machine.execWdogResume r s
  | .wdogExpire r => Sys2Proof.Machine.execWdogExpire r s
  | .add u f => Sys2Proof.Machine.execAdd u f s
  | .sub u f => Sys2Proof.Machine.execSub u f s
  | .mul u f => Sys2Proof.Machine.execMul u f s
  | .mulh u f => Sys2Proof.Machine.execMulh u f s
  | .mulhn u f => Sys2Proof.Machine.execMulhn u f s
  | .div f => Sys2Proof.Machine.execDiv f s
  | .rem f => Sys2Proof.Machine.execRem f s
  | .and u f => Sys2Proof.Machine.execAnd u f s
  | .or u f => Sys2Proof.Machine.execOr u f s
  | .xor u f => Sys2Proof.Machine.execXor u f s
  | .andn u f => Sys2Proof.Machine.execAndn u f s
  | .shl u f => Sys2Proof.Machine.execShl u f s
  | .shr u f => Sys2Proof.Machine.execShr u f s
  | .sar u f => Sys2Proof.Machine.execSar u f s
  | .min u f => Sys2Proof.Machine.execMin u f s
  | .max u f => Sys2Proof.Machine.execMax u f s
  | .minn u f => Sys2Proof.Machine.execMinn u f s
  | .maxn u f => Sys2Proof.Machine.execMaxn u f s
  | .clz u f => Sys2Proof.Machine.execClz u f s
  | .popc u f => Sys2Proof.Machine.execPopc u f s
  | .brev u f => Sys2Proof.Machine.execBrev u f s
  | .bfx u f => Sys2Proof.Machine.execBfx u f s
  | .bfi u f => Sys2Proof.Machine.execBfi u f s
  | .lea u f => Sys2Proof.Machine.execLea u f s
  | .sel u f => Sys2Proof.Machine.execSel u f s
  | .addi u f => Sys2Proof.Machine.execAddi u f s
  | .andi u f => Sys2Proof.Machine.execAndi u f s
  | .ori u f => Sys2Proof.Machine.execOri u f s
  | .shli u f => Sys2Proof.Machine.execShli u f s
  | .movi u f => Sys2Proof.Machine.execMovi u f s
  | .movhi u f => Sys2Proof.Machine.execMovhi u f s
  | .cmp u f => Sys2Proof.Machine.execCmp u f s
  | .cmpi u f => Sys2Proof.Machine.execCmpi u f s
  | .kop u f => Sys2Proof.Machine.execKop u f s
  | .chk u f => Sys2Proof.Machine.execChk u f s
  | .rdsys f => Sys2Proof.Machine.execRdsys f s
  | .rdsysTrapinfo f => Sys2Proof.Machine.execRdsysTrapinfo f s
  | .wrsys f => Sys2Proof.Machine.execWrsys f s
  | .wrsysFmt f => Sys2Proof.Machine.execWrsysFmt f s
  | .wrsysFstat f => Sys2Proof.Machine.execWrsysFstat f s
  | .wrsysFprog f => Sys2Proof.Machine.execWrsysFprog f s
  | .wrsysMlprog f => Sys2Proof.Machine.execWrsysMlprog f s
  | .wrsysPourskew f => Sys2Proof.Machine.execWrsysPourskew f s
  | .wrsysWdlim f => Sys2Proof.Machine.execWrsysWdlim f s
  | .wrsysTvec f => Sys2Proof.Machine.execWrsysTvec f s
  | .wrsysTrapinfo f => Sys2Proof.Machine.execWrsysTrapinfo f s
  | .wrsysDutymode f => Sys2Proof.Machine.execWrsysDutymode f s
  | .wrsysPeer f => Sys2Proof.Machine.execWrsysPeer f s
  | .wrsysFlag f => Sys2Proof.Machine.execWrsysFlag f s
  | .fadd f => Sys2Proof.Machine.execFadd f s
  | .fsub f => Sys2Proof.Machine.execFsub f s
  | .fmul f => Sys2Proof.Machine.execFmul f s
  | .fma f => Sys2Proof.Machine.execFma f s
  | .fdiv f => Sys2Proof.Machine.execFdiv f s
  | .fsqrt f => Sys2Proof.Machine.execFsqrt f s
  | .fmin f => Sys2Proof.Machine.execFmin f s
  | .fmax f => Sys2Proof.Machine.execFmax f s
  | .fsgn f => Sys2Proof.Machine.execFsgn f s
  | .fcmp f => Sys2Proof.Machine.execFcmp f s
  | .fcvt f => Sys2Proof.Machine.execFcvt f s
  | .fclass f => Sys2Proof.Machine.execFclass f s
  | .wclr f => Sys2Proof.Machine.execWclr f s
  | .wset f => Sys2Proof.Machine.execWset f s
  | .wadd f => Sys2Proof.Machine.execWadd f s
  | .wget f => Sys2Proof.Machine.execWget f s
  | .wsum f => Sys2Proof.Machine.execWsum f s
  | .wfind f => Sys2Proof.Machine.execWfind f s
  | .wcut f => Sys2Proof.Machine.execWcut f s
  | .wtot f => Sys2Proof.Machine.execWtot f s
  | .wmov f => Sys2Proof.Machine.execWmov f s
  | .vadd f => Sys2Proof.Machine.execVadd f s
  | .vsub f => Sys2Proof.Machine.execVsub f s
  | .vmul f => Sys2Proof.Machine.execVmul f s
  | .vfma f => Sys2Proof.Machine.execVfma f s
  | .vfms f => Sys2Proof.Machine.execVfms f s
  | .vmin f => Sys2Proof.Machine.execVmin f s
  | .vmax f => Sys2Proof.Machine.execVmax f s
  | .vabs f => Sys2Proof.Machine.execVabs f s
  | .vneg f => Sys2Proof.Machine.execVneg f s
  | .vdiv f => Sys2Proof.Machine.execVdiv f s
  | .vsqrt f => Sys2Proof.Machine.execVsqrt f s
  | .vrsqrt f => Sys2Proof.Machine.execVrsqrt f s
  | .vrcp f => Sys2Proof.Machine.execVrcp f s
  | .vexp2 f => Sys2Proof.Machine.execVexp2 f s
  | .vlog2 f => Sys2Proof.Machine.execVlog2 f s
  | .vcvt f => Sys2Proof.Machine.execVcvt f s
  | .vcmp f => Sys2Proof.Machine.execVcmp f s
  | .vsel f => Sys2Proof.Machine.execVsel f s
  | .vand f => Sys2Proof.Machine.execVand f s
  | .vor f => Sys2Proof.Machine.execVor f s
  | .vxor f => Sys2Proof.Machine.execVxor f s
  | .vnot f => Sys2Proof.Machine.execVnot f s
  | .vshl f => Sys2Proof.Machine.execVshl f s
  | .vshr f => Sys2Proof.Machine.execVshr f s
  | .vsar f => Sys2Proof.Machine.execVsar f s
  | .vredsum f => Sys2Proof.Machine.execVredsum f s
  | .vredmax f => Sys2Proof.Machine.execVredmax f s
  | .vredmin f => Sys2Proof.Machine.execVredmin f s
  | .vscan f => Sys2Proof.Machine.execVscan f s
  | .vperm f => Sys2Proof.Machine.execVperm f s
  | .vslide f => Sys2Proof.Machine.execVslide f s
  | .vbcast f => Sys2Proof.Machine.execVbcast f s
  | .vdup f => Sys2Proof.Machine.execVdup f s
  | .vdrop f => Sys2Proof.Machine.execVdrop f s
  | .viota f => Sys2Proof.Machine.execViota f s
  | .vclamp f => Sys2Proof.Machine.execVclamp f s
  | .vlen f => Sys2Proof.Machine.execVlen f s
  | .mand f => Sys2Proof.Machine.execMand f s
  | .mor f => Sys2Proof.Machine.execMor f s
  | .mnot f => Sys2Proof.Machine.execMnot f s
  | .vmovi f => Sys2Proof.Machine.execVmovi f s
  | .xsv f => Sys2Proof.Machine.execXsv f s
  | .xkm f => Sys2Proof.Machine.execXkm f s
  | .xvs f => Sys2Proof.Machine.execXvs f s
  | .xmk f => Sys2Proof.Machine.execXmk f s
  | .wflag f => Sys2Proof.Machine.execWflag f s
  | .pflag f => Sys2Proof.Machine.execPflag f s
  | .bar f => Sys2Proof.Machine.execBar f s
  | .rsync f => Sys2Proof.Machine.execRsync f s
  | .flagWaitRelease core flag => Sys2Proof.Machine.execFlagWaitRelease core flag s
  | .mpush f => Sys2Proof.Machine.execMpush f s
  | .mshift f => Sys2Proof.Machine.execMshift f s
  | .macc f => Sys2Proof.Machine.execMacc f s
  | .mdrain f => Sys2Proof.Machine.execMdrain f s
  | .mzero f => Sys2Proof.Machine.execMzero f s
  | .mfill f => Sys2Proof.Machine.execMfill f s
  | .mload f => Sys2Proof.Machine.execMload f s
  | .mflu f => Sys2Proof.Machine.execMflu f s
  | .mfch f => Sys2Proof.Machine.execMfch f s
  | .mfqr f => Sys2Proof.Machine.execMfqr f s
  | .mtrs f => Sys2Proof.Machine.execMtrs f s
  | .mrdp f => Sys2Proof.Machine.execMrdp f s
  | .mstat f => Sys2Proof.Machine.execMstat f s
  | .mwait f => Sys2Proof.Machine.execMwait f s
  | .mloadComplete c => Sys2Proof.Machine.execMloadComplete c s
  | .factorisationComplete c => Sys2Proof.Machine.execFactorisationComplete c s
  | .factorisationPivotStop c => Sys2Proof.Machine.execFactorisationPivotStop c s
  | .factorisationInterruptionPoint c => Sys2Proof.Machine.execFactorisationInterruptionPoint c s
  | .tld f => Sys2Proof.Machine.execTld f s
  | .tst f => Sys2Proof.Machine.execTst f s
  | .tldn f => Sys2Proof.Machine.execTldn f s
  | .tstn f => Sys2Proof.Machine.execTstn f s
  | .tprf f => Sys2Proof.Machine.execTprf f s
  | .bxf f => Sys2Proof.Machine.execBxf f s
  | .vld f => Sys2Proof.Machine.execVld f s
  | .vst f => Sys2Proof.Machine.execVst f s
  | .sld f => Sys2Proof.Machine.execSld f s
  | .sst f => Sys2Proof.Machine.execSst f s
  | .tlook f => Sys2Proof.Machine.execTlook f s
  | .ttag f => Sys2Proof.Machine.execTtag f s
  | .tinv f => Sys2Proof.Machine.execTinv f s
  | .feset f => Sys2Proof.Machine.execFeset f s
  | .feclr f => Sys2Proof.Machine.execFeclr f s
  | .amo f => Sys2Proof.Machine.execAmo f s
  | .amoc f => Sys2Proof.Machine.execAmoc f s
  | .fenceAcq f => Sys2Proof.Machine.execFenceAcq f s
  | .fenceRel f => Sys2Proof.Machine.execFenceRel f s
  | .fenceAr f => Sys2Proof.Machine.execFenceAr f s
  | .tfence f => Sys2Proof.Machine.execTfence f s
  | .tfenceInv f => Sys2Proof.Machine.execTfenceInv f s
  | .tfenceAll f => Sys2Proof.Machine.execTfenceAll f s
  | .recld f => Sys2Proof.Machine.execRecld f s
  | .recst f => Sys2Proof.Machine.execRecst f s
  | .recmk f => Sys2Proof.Machine.execRecmk f s
  | .swait f => Sys2Proof.Machine.execSwait f s
  | .ssig f => Sys2Proof.Machine.execSsig f s
  | .wvis f => Sys2Proof.Machine.execWvis f s
  | .swaitPost c watch => Sys2Proof.Machine.execSwaitPost c watch s
  | .arOpen f => Sys2Proof.Machine.execArOpen f s
  | .arJoin f => Sys2Proof.Machine.execArJoin f s
  | .arLd f => Sys2Proof.Machine.execArLd f s
  | .arSt f => Sys2Proof.Machine.execArSt f s
  | .arCommit f => Sys2Proof.Machine.execArCommit f s
  | .arAbort f => Sys2Proof.Machine.execArAbort f s
  | .arLeave f => Sys2Proof.Machine.execArLeave f s
  | .wfill f => Sys2Proof.Machine.execWfill f s
  | .wfillApply op => Sys2Proof.Machine.execWfillApply op s
  | .wdump f => Sys2Proof.Machine.execWdump f s
  | .rput f => Sys2Proof.Machine.execRput f s
  | .rputReg f => Sys2Proof.Machine.execRputReg f s
  | .rget f => Sys2Proof.Machine.execRget f s
  | .reos f => Sys2Proof.Machine.execReos f s
  | .ringSpill ring => Sys2Proof.Machine.execRingSpill ring s
  | .translationWalkComplete core w => Sys2Proof.Machine.execTranslationWalkComplete core w s
  | .operationComplete op => Sys2Proof.Machine.execOperationComplete op s
  | .engineFault op => Sys2Proof.Machine.execEngineFault op s
  | .trapDelivery c => Sys2Proof.Machine.execTrapDelivery c s
  | .watchdogExpiry c => Sys2Proof.Machine.execWatchdogExpiry c s
  | .correctableError place => Sys2Proof.Machine.execCorrectableError place s
  | .freezeEnd core => Sys2Proof.Machine.execFreezeEnd core s
  | .uncorrectableError place => Sys2Proof.Machine.execUncorrectableError place s
  | .preemptionRequest c => Sys2Proof.Machine.execPreemptionRequest c s
  | .saveComplete c => Sys2Proof.Machine.execSaveComplete c s
  | .saveOverrun c => Sys2Proof.Machine.execSaveOverrun c s
  | .heldRegionWriteout core index => Sys2Proof.Machine.execHeldRegionWriteout core index s
  | .contextRestore c => Sys2Proof.Machine.execContextRestore c s
  | .regionDeadline obj => Sys2Proof.Machine.execRegionDeadline obj s
  | .regionAbortDelivery c => Sys2Proof.Machine.execRegionAbortDelivery c s
  | .launchPacket packet => Sys2Proof.Machine.execLaunchPacket packet s
  | .taskDispatch => Sys2Proof.Machine.execTaskDispatch s
  | .taskAging key => Sys2Proof.Machine.execTaskAging key s
  | .waitWordQualify key => Sys2Proof.Machine.execWaitWordQualify key s
  | .unparkWordStore v => Sys2Proof.Machine.execUnparkWordStore v s
  | .interruptWordStore v => Sys2Proof.Machine.execInterruptWordStore v s
  | .taskPublication key => Sys2Proof.Machine.execTaskPublication key s
  | .replicaAcknowledge v die => Sys2Proof.Machine.execReplicaAcknowledge v die s
  | .dmaxUpdate => Sys2Proof.Machine.execDmaxUpdate s
  | .setCompletion src packet => Sys2Proof.Machine.execSetCompletion src packet s
  | .setFailure src packet reason => Sys2Proof.Machine.execSetFailure src packet reason s
  | .hbmUncorrectableError tier2 addr len => Sys2Proof.Machine.execHbmUncorrectableError tier2 addr len s
  | .lossBroadcast v lost => Sys2Proof.Machine.execLossBroadcast v lost s
  | .need v pri => Sys2Proof.Machine.execNeed v pri s
  | .rebuildRetire v faulted => Sys2Proof.Machine.execRebuildRetire v faulted s
  | .restoreComplete v bytes => Sys2Proof.Machine.execRestoreComplete v bytes s
  | .mirrorUpdate entry => Sys2Proof.Machine.execMirrorUpdate entry s
  | .readRequest p => Sys2Proof.Machine.execReadRequest p s
  | .writeRequest p => Sys2Proof.Machine.execWriteRequest p s
  | .atomicRequest p => Sys2Proof.Machine.execAtomicRequest p s
  | .compareSwapRequest p => Sys2Proof.Machine.execCompareSwapRequest p s
  | .signalSetRequest p => Sys2Proof.Machine.execSignalSetRequest p s
  | .signalAddRequest p => Sys2Proof.Machine.execSignalAddRequest p s
  | .flagPostRequest p => Sys2Proof.Machine.execFlagPostRequest p s
  | .tentativeReadRequest p => Sys2Proof.Machine.execTentativeReadRequest p s
  | .tentativeWriteRequest p => Sys2Proof.Machine.execTentativeWriteRequest p s
  | .regionOpenRequest p => Sys2Proof.Machine.execRegionOpenRequest p s
  | .regionJoinRequest p => Sys2Proof.Machine.execRegionJoinRequest p s
  | .regionCommitRequest p => Sys2Proof.Machine.execRegionCommitRequest p s
  | .regionAbortRequest p => Sys2Proof.Machine.execRegionAbortRequest p s
  | .regionLeaveRequest p => Sys2Proof.Machine.execRegionLeaveRequest p s
  | .clockPacket p => Sys2Proof.Machine.execClockPacket p s
  | .dataResponse p => Sys2Proof.Machine.execDataResponse p s
  | .acknowledgement p => Sys2Proof.Machine.execAcknowledgement p s
  | .errorResponse p => Sys2Proof.Machine.execErrorResponse p s
  | .retryResponse p => Sys2Proof.Machine.execRetryResponse p s
  | .retryResend index => Sys2Proof.Machine.execRetryResend index s
  | .slotTimeout c slot => Sys2Proof.Machine.execSlotTimeout c slot s
  | .packetForward port p => Sys2Proof.Machine.execPacketForward port p s
  | .packetAgeDrop p => Sys2Proof.Machine.execPacketAgeDrop p s
  | .requestAgeDrop index => Sys2Proof.Machine.execRequestAgeDrop index s
  | .managementArrival p => Sys2Proof.Machine.execManagementArrival p s
  | .domainTable table => Sys2Proof.Machine.execDomainTable table s
  | .graticuleInstall x y z => Sys2Proof.Machine.execGraticuleInstall x y z s
  | .linkReplay port resent => Sys2Proof.Machine.execLinkReplay port resent s
  | .linkRetrain port => Sys2Proof.Machine.execLinkRetrain port s
  | .retrainEnd port ok => Sys2Proof.Machine.execRetrainEnd port ok s
  | .fabricControlWrite v => Sys2Proof.Machine.execFabricControlWrite v s
  | .submission w => Sys2Proof.Machine.execSubmission w s
  | .submissionProcess => Sys2Proof.Machine.execSubmissionProcess s
  | .memoryWindowAccess w => Sys2Proof.Machine.execMemoryWindowAccess w s
  | .controlRegisterWrite offset v => Sys2Proof.Machine.execControlRegisterWrite offset v s
  | .dutymodeWrite v => Sys2Proof.Machine.execDutymodeWrite v s
  | .assistRequest fn request => Sys2Proof.Machine.execAssistRequest fn request s
  | .assistreply seq reply => Sys2Proof.Machine.execAssistreply seq reply s
  | .assistTimeout seq => Sys2Proof.Machine.execAssistTimeout seq s
  | .shakecmd nonce => Sys2Proof.Machine.execShakecmd nonce s
  | .shakeoutComplete r => Sys2Proof.Machine.execShakeoutComplete r s
  | .firmwareRestart => Sys2Proof.Machine.execFirmwareRestart s
  | .firmwareEventDelivery => Sys2Proof.Machine.execFirmwareEventDelivery s
  | .imageLoad image => Sys2Proof.Machine.execImageLoad image s
  | .fuseCommit v sig => Sys2Proof.Machine.execFuseCommit v sig s
  | .measurementExtend reg m => Sys2Proof.Machine.execMeasurementExtend reg m s
  | .getDigests => Sys2Proof.Machine.execGetDigests s
  | .getCertificate offset len => Sys2Proof.Machine.execGetCertificate offset len s
  | .challenge nonce => Sys2Proof.Machine.execChallenge nonce s
  | .getMeasurements nonce => Sys2Proof.Machine.execGetMeasurements nonce s
  | .powerSample p => Sys2Proof.Machine.execPowerSample p s
  | .timeSync reference => Sys2Proof.Machine.execTimeSync reference s
  | .sensorSample p => Sys2Proof.Machine.execSensorSample p s
  | .powerOnReset => Sys2Proof.Machine.execPowerOnReset s
  | .packageReset => Sys2Proof.Machine.execPackageReset s
  | .dieReset die => Sys2Proof.Machine.execDieReset die s
  | .fixedLatencyResultLanding c index => Sys2Proof.Machine.execFixedLatencyResultLanding c index s
  | .arrayPushLanding c queue => Sys2Proof.Machine.execArrayPushLanding c queue s
  | .copyEngineFailure op => Sys2Proof.Machine.execCopyEngineFailure op s
  | .domainReset => Sys2Proof.Machine.execDomainReset s
  | .dieReturn die => Sys2Proof.Machine.execDieReturn die s
  | .firmwareLinkRetrain port ok => Sys2Proof.Machine.execFirmwareLinkRetrain port ok s
  | .defwdlimWrite v => Sys2Proof.Machine.execDefwdlimWrite v s
  | .agelimWrite v => Sys2Proof.Machine.execAgelimWrite v s

end Sys2Proof.Machine
end

