-- ==== Sys2Proof/Machine/Turn.lean ====
section
/-! DEFINITION. One turn of the machine: an event that is due, or the core in focus, its boundary, its fetch and the bundle
it issues; and the placing of an instruction where the next step fetches (spec/01_machine.md R15, R16; spec/03_bundles.md R26,
R56; spec/07_scalar_control.md R86; spec/09_traps.md R125, R138, R148, R410). -/
namespace Sys2Proof.Machine

/-! ## Fetch and issue -/

/-- The bytes that the trap of an undecodable bundle logs (R56). -/
def rawLog (bs : List Byte) : List Byte :=
  match bs with
  | [] => []
  | h :: r => bs.take (min 47 ((bundleLength h (r.headD 0)).getD 47))

/-- A trap at a bundle that cannot be decoded. -/
def illegalFetch (bs : List Byte) (s : State) : State :=
  let r : TrapReq := { cause := .illegal, aux := 0, faddr := 0, slot := 0, pc := s.pc, logged := rawLog bs, ret := none,
                       cycle := s.core.cycle }
  settleCur (takeTrap r s).tick

/-- A trap at a bundle that cannot be fetched: no bytes are logged (R86; spec/21_tasks.md R337). -/
def fetchTrap (cause : Cause) (faddr : Word) (s : State) : State :=
  let r : TrapReq := { cause := cause, aux := 0, faddr := faddr, slot := 0, pc := s.pc, logged := [], ret := none,
                       cycle := s.core.cycle }
  settleCur (takeTrap r s)

/-- A line-end mark: the next bundle is looked for at byte 0 of the next line, and no cycle passes (R26). -/
def skipMark (s : State) : State := s.modFlow (fun w => { w with pc := s.line + 64 })

/-- A bundle all of whose slots commit defines the planes and trees that it uses for the other contexts of the core as well. -/
def fillOthers (is : List Instr) (s : State) : State :=
  let u := usedRegions (is.filter (taken (bundlePath is s)))
  let mine := s.core.parked.filter (fun x => x.2.flow.blankPlanes &&& u.1 != 0 || x.2.flow.blankTrees &&& u.2 != 0)
  if mine.isEmpty || !(runSlots is s).all (fun r => match r.2 with | .ok _ => true | _ => false) then s
  else mine.foldl (fun t x => modCtxAt { core := s.core.id, ctx := BitVec.ofNat 2 x.1 } (Ctx.modFlow (fun w =>
    { w with blankPlanes := w.blankPlanes &&& ~~~u.1, blankTrees := w.blankTrees &&& ~~~u.2 })) t) s

/-- The bundle at the pc is fetched and issued. -/
def fetchIssue (s : State) : Host.Outcome State Fault Refusal :=
  match fetchAt s.pc.toNat s with
  | .fault => .next (fetchTrap .fetchFault s.line s)
  | .poisoned => .next (fetchTrap .uncorrectable 0 s)
  | .absent => .fault .absentMemory
  | .pending w asked => .next (holdCycle (askOnce w asked s))
  | .line bs =>
    if bs.headD 0 = 0 then .next (skipMark s)
    else
      match decodeBundle bs with
      | .ok (i :: is, _) => exec i { fillOthers (i :: is) (unblank (i :: is) s) with rest := is }
      | _ => .next (illegalFetch bs s)

/-! ## Pours (spec/01_machine.md R14; spec/09_traps.md R130) -/

/-- A core of a stopped pour that has executed the bundles it received ends with cause pour stopped, and its record names the
last of them.  DESIGN CHOICE: the record logs no bytes; R130 gives its PC alone (log entry 40). -/
def endMate (s : State) : State :=
  let last := match s.pour with
    | some p => (match p.stream[s.cur.flow.pourPos - 1]? with | some b => b.1 | none => s.pc)
    | none => s.pc
  let r : TrapReq := { cause := .pourStopped, aux := 0, faddr := 0, slot := 0, pc := last, logged := [], ret := some last,
                       cycle := s.core.cycle }
  settleCur (takeTrap r s)

/-- The bundle at the pc of rank 0 joins the stream. -/
def leadStream (s : State) : State :=
  match s.pour with
  | some p =>
    if rowOf s.core.id = 0 && p.stream.length ≤ s.cur.flow.pourPos then
      modPour p.serial (fun p => { p with stream := p.stream ++ [(s.pc, s.core.cycle - s.cur.flow.pourStart)] }) s
    else s
  | none => s

/-- A line-end mark stands at the pc. -/
def State.atMark (s : State) : Bool :=
  match fetchAt s.pc.toNat s with | .line bs => bs.headD 0 == 0 | _ => false

/-- A context of a pour takes the next bundle of the stream, waits for it, which is no engine wait (R15), or ends. -/
def pourIssue (s : State) : Host.Outcome State Fault Refusal :=
  if pourOver s then .next (endMate s)
  else
    match pourNext s with
    | none => .next (holdCycle s)
    | some t => if t.atMark then .next (skipMark t) else fetchIssue (leadStream t)

/-! ## The boundary before a bundle -/

/-- The wait of `sysc` ends: the service flag has been served (spec/07_scalar_control.md R99). -/
def endService (s : State) : State :=
  match waitFlag (28 + s.core.sel.setWidth 5) 1 s with
  | .ok f => (f s).modFlow (fun w => { w with serviceWait := none })
  | .arrive f => waitEngine (f s)
  | .wait _ => waitEngine s
  | _ => s

/-- The running context in focus at a bundle boundary: what is due comes first, then the bundle (R410, R138). -/
def runContext (s : State) : Host.Outcome State Fault Refusal :=
  if s.cur.flow.taking.isSome then
    let t := settleCur (deliverTaking s)
    .next (if t.cur.flow.taking.isSome then holdCycle t else t)
  else if s.cur.flow.saveWait.isSome then
    let t := settleSave s
    .next (if t.cur.flow.saveWait.isSome then holdCycle t else t)
  else
    match takeDue (dueWatchdog s) with
    | some t => .next (settleCur t)
    | none =>
      if s.cur.flow.factPoint then .next (serveAtPoint s)
      else if s.cur.flow.serviceWait.isSome then .next (endService s)
      else
        let t := restartPending s
        if t.cur.flow.doneWait then .next (if t.doneHeld then waitEngine t else retireDone t)
        else if t.restarts then .next (waitEngine t)
        else if t.pour.isSome then pourIssue t
        else fetchIssue t

/-! ## The turn -/

/-- Nothing runs on the context in focus: another context, another core, a unit outside the issue path, or a cycle. -/
def idleTurn (s : State) : State :=
  match nextReady s with
  | some x => focusCtx x s
  | none => holdCycle s

/-- A frozen core issues nothing, and its cycle count stands (R148). -/
def frozenTurn (s : State) : State :=
  (s.modCore (fun k => { k with frozenLeft := k.frozenLeft - 1 })).passClocks 1

/-- The core in focus takes its turn. -/
def coreTurn (s : State) : Host.Outcome State Fault Refusal :=
  if 0 < s.core.frozenLeft then .next (frozenTurn s)
  else if s.cur.flow.residency = .running then runContext s
  else .next (idleTurn s)

/-- An event that is due happens; a row that is no event is none. -/
def inputTurn (i : Instr) (s : State) : Host.Outcome State Fault Refusal :=
  if (slotOf i).isNone then exec i s else .next s

/-- Every sixteenth cycle of a core the units outside the issue path act, and another core on which a task runs goes on (log
entry 2). -/
def State.backDue (s : State) : Bool := s.core.frozenLeft == 0 && s.core.cycle % 16 == 15

def backTurn (s : State) : State :=
  let t := passCycle ((progress s).getD s)
  match nextCore t with | some k => focusCore k t | none => t

/-- One turn: the next event, or else the core whose turn it is. -/
def turn (s : State) : Host.Outcome State Fault Refusal :=
  match s.inputs with
  | i :: r => inputTurn i { s with inputs := r }
  | [] =>
    match s.turns with
    | c :: r => coreTurn (focusCore c { s with turns := r })
    | [] => if s.backDue then .next (backTurn s) else coreTurn s

/-! ## Placing an instruction (log entry 10) -/

/-- Root table and next table of the address space that `placeWord` lays out, and their entries (spec/11_storage.md R162): one
leaf of 1 GiB that maps virtual address 0 to physical address 0 with every permission. -/
def placeRoot : Nat := 0x40000000
def placeTable : Nat := 0x40100000

/-- The word, alone in its bundle, at virtual and physical address 0, where the context in focus runs next, in address space
0. -/
def placeWord (nbits w : Nat) (s : State) : State :=
  let hbm := memWrite (memWrite (memWrite s.pkg.hbm placeRoot (leBytes 8 (placeTable + 1))) placeTable (leBytes 8 0x3F)) 0
    (tableBundle nbits w)
  let cyc := s.core.cycle
  let s := s.modCtx (fun c => { c with
    sys := { c.sys with asid := 0, wdForced := false, wdCount := 0, wdSince := cyc }
    flow := { c.flow with pc := 0, residency := .running, rptLeft := 0, due := [], taking := none, factPoint := false,
                          saveWait := none, doneWait := false, serviceWait := none, pendingArray := [], task := none } })
  { s with
    inputs := [], turns := [], rest := []
    core := { s.core with frozenLeft := 0, tlb := [], now := s.pkg.clocks }
    die := { s.die with
      asTable := smSet 0 s.die.asTable 0 placeRoot
      fills := [{ asid := 0, page := 0, size := 2 ^ 30, pte := 0x3F }] }
    pkg := { s.pkg with hbm := hbm, hbmPoison := [] } }

end Sys2Proof.Machine
end

