-- ==== Sys2Proof/Safety.lean ====
section
/-! DEFINITION. What counts as a safe run, and the words in which the statements speak of states: registers as a program sees
them, a context with nothing under way, a bundle of one slot, and the states that a step leaves. -/
namespace Sys2Proof.Machine

/-! ## Registers as a program sees them (spec/01_machine.md R18) -/

/-- A general register that nothing is on its way to; g0 reads 0. -/
def gReg (r : BitVec 5) (s : State) : Word := if r = 0 then 0 else s.cur.g[r.toNat]

/-- Its poison tag; g0 is never poisoned. -/
def gTag (r : BitVec 5) (s : State) : Bool := if r = 0 then false else s.cur.gPoison.getLsbD r.toNat

/-- A predicate; k0 reads 1. -/
def kReg (r : BitVec 4) (s : State) : Bool := if r = 0 then true else s.cur.k.getLsbD r.toNat

/-- A mask; m0 reads all ones. -/
def mReg (r : BitVec 3) (s : State) : BitVec 128 := if r = 0 then BitVec.allOnes 128 else s.cur.m[r.toNat]

/-! ## Where statements start -/

/-- Nothing of the context in focus is under way: no other slot waits in the bundle, no repeat window is open, every result
and entry has landed, FMT holds what was written last, and no beat has still to issue on the core. -/
def quiet (s : State) : Bool :=
  s.rest.isEmpty && s.cur.flow.rptLeft == 0 && s.cur.flow.beats.isEmpty && (parkedBeats s).isNone &&
    s.cur.pend.isEmpty && s.cur.owed.isEmpty && s.cur.q.toList.all (fun l => l.all (·.landed)) && s.cur.sys.fmtDelay.isEmpty

/-- The instruction alone in its bundle passes the checks of spec/03_bundles.md R53 and R54. -/
def lone (i : Instr) (s : State) : Bool := legal [i] false && !privileged i s

/-! ## Where a bundle leaves the machine -/

/-- One cycle has passed on the core in focus, and nothing has landed in it. -/
def cycled (s : State) : State :=
  let t := s.passClocks 1
  { t with core := { t.core with cycle := s.core.cycle + 1 }, freeCount := s.freeCount + 1 }

/-- The bundle has issued and none of its slots changed anything: the pc and the loop levels have moved on, and one cycle
has passed. -/
def passed (is : List Instr) (s : State) : State :=
  (cycled s).modFlow (fun w =>
    { advanceFlow (s.nextPc is) { w with levels := s.foundLevels } with firstOp := s.die.nextId })

/-- A result has landed (spec/03_bundles.md R50): at g0, k0 or m0 nothing is written, and the flags enter FSTAT. -/
def landed (d : Dest) (v : BitVec 128) (poison : Bool) (fl : Flags) (s : State) : State :=
  s.modCtx (fun c => (c.writeDest d v poison).orFlags fl)

/-- A result is on its way and lands when the core's cycle count reaches `due`. -/
def underWay (d : Dest) (v : BitVec 128) (poison : Bool) (fl : Flags) (due : Nat) (s : State) : State :=
  s.modCtx (fun c => { c with pend := c.pend ++
    [{ dest := if d.isZero then .fstat else d, value := v, poison := poison, flags := fl, due := due, landed := false }] })

/-- The instruction alone in its bundle has issued, and its one effect is a result with a bound. -/
def gives (i : Instr) (d : Dest) (v : BitVec 128) (poison : Bool) (fl : Flags) (bound : Nat) (s : State) : State :=
  if bound = 1 then landed d v poison fl (passed [i] s) else underWay d v poison fl (s.core.cycle + bound) (passed [i] s)

/-- A result for a general register. -/
def givesG (i : Instr) (r : BitVec 5) (v : Word) (poison : Bool) (fl : Flags) (bound : Nat) (s : State) : State :=
  gives i (.g r) (v.setWidth 128) poison fl bound s

/-- A result for a predicate. -/
def givesK (i : Instr) (r : BitVec 4) (v : Bool) (fl : Flags) (bound : Nat) (s : State) : State :=
  gives i (.k r) (if v then 1 else 0) false fl bound s

/-- A result for a mask. -/
def givesM (i : Instr) (r : BitVec 3) (v : BitVec 128) (fl : Flags) (bound : Nat) (s : State) : State :=
  gives i (.m r) v false fl bound s

/-- The flags of a vector instruction are on their way, where it raises any. -/
def flagsUnderWay (fl : Flags) (due : Nat) (s : State) : State := if fl = 0 then s else underWay .fstat 0 false fl due s

/-- The instruction alone in its bundle has issued: its sources are popped, and an entry with its bound is pushed
(spec/13_vector.md R185, R188). -/
def pushes (i : Instr) (src : List (BitVec 5 × Bool)) (dst : BitVec 5) (v : BitVec 1024) (poison : Bool) (fl : Flags)
    (bound : Nat) (s : State) : State :=
  let e : QEntry := { bits := v, poison := poison, landed := false, interlocked := false, due := s.core.cycle + bound, op := 0 }
  flagsUnderWay fl (s.core.cycle + bound)
    ((popSources src (passed [i] s)).modCtx (fun c => c.setQueue dst (c.queue dst ++ [e])))

/-- The instruction alone in its bundle has issued and done `f` besides. -/
def does (i : Instr) (f : State → State) (s : State) : State := f (passed [i] s)

/-- The bundle of the lone instruction traps (spec/09_traps.md R122 to R128). -/
def traps (i : Instr) (cause : Cause) (aux : BitVec 8) (faddr : Word) (s : State) : State :=
  trapBundle [i] cause aux faddr (slotBit i) s

/-! ## Traps (spec/09_traps.md R128 to R132) -/

/-- Nothing of the context in focus is left to drain: no operation of its task is uncompleted, no factorisation runs on the
core, and a task is resident. -/
def settled (s : State) : Bool :=
  s.taskOps.isEmpty && s.core.fact.isNone && s.cur.flow.residency == .running

/-- The code address of the context's task. -/
def codeAddr (s : State) : Word := match s.cur.flow.task with | some t => s.taskCode t | none => 0

/-- The recorded cause: the code of R127, and bit 7 in handler state. -/
def causeNat (c : Cause) (s : State) : Nat := c.code.toNat + (if s.cur.sys.handler then 128 else 0)

/-- The bits of TRAPINFO (R131) for a trap of the bundle at the pc, as a number. -/
def infoNat (bytes : List Byte) (cause : Nat) (slot : Nat) (aux : BitVec 8) (faddr pc ret : Word) : Nat :=
  bytes.length * 2 ^ 39 + slot * 2 ^ 45 + aux.toNat * 2 ^ 48 + cause * 2 ^ 56 + pc.toNat % 2 ^ 56 * 2 ^ 64 +
    ret.toNat % 2 ^ 56 * 2 ^ 128 + faddr.toNat * 2 ^ 192 + leNat bytes * 2 ^ 256

/-- The bits of the trap record (R132), as a number. -/
def recordNat (bytes : List Byte) (cause : Nat) (pc code : Word) (core ctx seq time : Nat) : Nat :=
  time + seq * 2 ^ 64 + cause * 2 ^ 96 + ctx * 2 ^ 104 + core * 2 ^ 106 +
    (if code.toNat ≤ pc.toNat ∧ pc.toNat - code.toNat ≤ 0xFFFFFE then pc.toNat - code.toNat else 0xFFFFFF) * 2 ^ 112 +
    leNat bytes * 2 ^ 136

/-- A record stands in the trap log, a ring of 65,536 slots (R133), and the core has counted it. -/
def logs (record : BitVec 512) (s : State) : State :=
  { s with
    core := { s.core with seq := s.core.seq + 1 }
    die := { s.die with
      trapLog := smSet 0 s.die.trapLog (s.die.trapCount % 65536) record
      trapCount := s.die.trapCount + 1 } }

/-- The record of a trap of the context in focus stands in the trap log. -/
def recorded (bytes : List Byte) (cause : Nat) (pc : Word) (s : State) : State :=
  logs (BitVec.ofNat 512 (recordNat bytes cause pc (codeAddr s) s.core.id.toNat s.core.sel.toNat s.core.seq.toNat
    (s.timeNs % 2 ^ 64))) s

/-- The context in focus has entered its handler (R128): TRAPINFO holds `info`, the open loop levels are kept, and the
context continues at TVEC. -/
def entered (info : Nat) (s : State) : State :=
  { s with
    cur := { s.cur with
      sys := { s.cur.sys with trapinfo := BitVec.ofNat 640 info, sel := 0, handler := true }
      flow := { s.cur.flow with
        pc := s.cur.sys.tvec, levels := [], kept := s.cur.flow.levels, taking := none, homeAnswer := none, rptLeft := 0,
        beats := [], doneWait := false, serviceWait := none } }
    core := { s.core with waiters := s.core.waiters.filter (fun (w : Waiter) => w.ctx != s.core.sel) }
    die := { s.die with fillEnds := [] } }

/-- A trap of the context in focus goes to its handler. -/
def handled (c : Cause) (s : State) : Bool :=
  c.code.toNat < 0x19 && !s.cur.sys.handler && s.cur.sys.tvec != 0 &&
    !(match s.cur.flow.task with | some t => t.pour | none => false)

/-! ## Vector sources (spec/13_vector.md R185 to R188) -/

/-- The bits and the tag of a queue's head, where every entry has landed. -/
def headBits (r : BitVec 5) (s : State) : BitVec 1024 := match s.cur.queue r with | [] => 0 | e :: _ => e.bits
def headTag (r : BitVec 5) (s : State) : Bool := match s.cur.queue r with | [] => false | e :: _ => e.poison

/-- Every source queue holds an entry. -/
def sourcesReady (src : List (BitVec 5 × Bool)) (s : State) : Bool := src.all (fun q => !(s.cur.queue q.1).isEmpty)

/-- The heads of the sources, and whether one of them is poisoned. -/
def heads (src : List (BitVec 5 × Bool)) (s : State) : List (BitVec 1024) := src.map (fun q => headBits q.1 s)
def headsTag (src : List (BitVec 5 × Bool)) (s : State) : Bool := src.any (fun q => headTag q.1 s)

/-- One more entry fits into a queue once the instruction's own pops are gone. -/
def roomIn (dst : BitVec 5) (src : List (BitVec 5 × Bool)) (s : State) : Bool :=
  (s.cur.queue dst).length - ((src.filter (fun q => !q.2)).map Prod.fst).count dst + 1 ≤ 4

/-- Flags that FMT bits 20 to 25 make trap (spec/05_formats.md R80). -/
def enabledFlags (fl : Flags) (s : State) : BitVec 6 := bits 0 6 fl &&& bits 20 6 s.cur.sys.fmt

/-- What a lone vector instruction with an entry to push does: it traps where a source queue is empty, where a flag it would
raise is enabled, or where the destination has no room; else it pops and pushes.  A poisoned source poisons the entry and raises
nothing (spec/05_formats.md R66). -/
def vectorAnswers (i : Instr) (src : List (BitVec 5 × Bool)) (dst : BitVec 5) (v : BitVec 1024) (fl : Flags) (bound : Nat)
    (s : State) : State :=
  if !sourcesReady src s then traps i .queueUnderflow 0 0 s
  else if !headsTag src s && enabledFlags fl s != 0 then traps i .fpException ((bits 0 6 fl : BitVec 6).setWidth 8) 0 s
  else if !roomIn dst src s then traps i .queueOverflow 0 0 s
  else pushes i src dst v (headsTag src s) (if headsTag src s then 0 else fl) bound s

/-! ## Operations -/

/-- The acquire that a record asks for after the operation numbered `id`: it waits for that one and for the loads and atomics
before it (spec/15_ordering.md R223, R236). -/
def acquireOp (id : Nat) (s : State) : Op :=
  { mkOp (.acquire ((s.taskOps.filter (fun (x : Op) => x.isRead)).map (fun (x : Op) => x.id) ++ [id])) s with
    id := id + 1, counted := false }

/-- The lone instruction has issued and begun one operation, under the next number, with what R125 logs of its bundle; the
operation owes what its kind says, and an acquire follows it where its record asks for one. -/
def begins (i : Instr) (o : Op) (s : State) : State :=
  let new := { o with id := s.die.nextId } :: (if o.acquires then [acquireOp s.die.nextId s] else [])
  (oweFor o.kind s.die.nextId (passed [i] s)).modDie (fun d => { d with
    ops := (d.ops ++ new).map (fun (x : Op) =>
      if s.die.nextId ≤ x.id then { x with pc := s.pc, logged := (bundleBytes [i]).take 47 } else x)
    nextId := d.nextId + new.length })

/-- No operation of the task is uncompleted, the core has room for one more, and no vote of the task's region stands: nothing
that R166, R167 or R233 makes an operation of the L slot wait for. -/
def clear (s : State) : Bool :=
  s.taskOps.isEmpty && s.coreOps < 256 && !s.cur.flow.region.any (fun (m : Member) => m.voted)

/-- A performed release bumps the causal clock (spec/15_ordering.md R230), where its record asks for one at domain scope or
above. -/
def ordered (r : Record) (s : State) : State := bumpFor (isRelease r) r false s

/-- How the lone instruction ends where a translation at its issue fails (spec/11_storage.md R165). -/
def answersXlate (i : Instr) (x : Xlate) (va : Nat) (s : State) : Host.Outcome State Fault Refusal :=
  match x with
  | .translation => .next (traps i .translationFault 0 (BitVec.ofNat 64 va) s)
  | .permission => .next (traps i .permissionFault 0 (BitVec.ofNat 64 va) s)
  | .poisoned => .next (traps i .uncorrectable 0 (BitVec.ofNat 64 va) s)
  | .absent => .fault .absentMemory
  | .pending w asked => .next (holdCycle (askOnce w asked s))
  | .ok _ _ => .next (passed [i] s)

/-- The lone instruction has issued and asks a peer: an operation of the task is in flight, under the next number. -/
def asksPeer (i : Instr) (s : State) : Prop :=
  ∃ t, exec i s = .next t ∧ t.core.cycle = s.core.cycle + 1 ∧
    ∃ o ∈ t.die.ops, o.id = s.die.nextId ∧ o.owner = s.curId ∧ o.serial = s.cur.serial

/-- A cause at the issue of a lone instruction: one that asks a peer waits first for a free response slot (spec/03_bundles.md
R25). -/
def trapsAsking (i : Instr) (peer : Bool) (cause : Cause) (faddr : Word) (s : State) : State :=
  if peer && freeSlots s.cur == 0 then waitEngine s else traps i cause 0 faddr s

/-! ## Events -/

/-- No `rsync` and no acquire waits for operations of the die. -/
def noRsync (s : State) : Bool :=
  s.die.ops.all (fun (o : Op) => match o.kind with | .rsync _ _ _ => false | .acquire _ => false | _ => true)

/-- An operation of the context in focus has ended, and its post is made. -/
def ended (o : Op) (s : State) : State :=
  let u := match o.post with
    | some f => s.modCore (fun (c : Core) => { c with f := c.f.set f.toNat (BitVec.ofNat 16 (min (c.f[f.toNat].toNat + 1) 65535)) })
    | none => s
  u.modDie (fun (d : Die) => { d with ops := d.ops.filter (fun (x : Op) => x.id != o.id) })

/-- The task of an operation is the one that runs on the context in focus. -/
def ours (o : Op) (s : State) : Bool :=
  o.owner == s.curId && o.serial == s.cur.serial && s.cur.flow.residency == .running && o.remote.isNone

/-- A context's boundary causes after one more has come. -/
def dueMore (old new : List TrapReq) (cause : Cause) (aux : BitVec 8) (faddr : Word) : Prop :=
  ∃ r : TrapReq, new = old ++ [r] ∧ r.cause = cause ∧ r.aux = aux ∧ r.faddr = faddr

/-! ## The fabric -/

/-- The answer to a request (spec/23_fabric.md R342, R356): the request's tag, part, scope, context, address space and offset
return to its source. -/
def answer (p : Packet) (ty : BitVec 6) (aux : BitVec 8) (opa : Word) (bs : List Byte) (s : State) : Packet :=
  { dst := p.src, src := s.die.coord, type := ty, cls := 1, dl := false, tag := p.tag, core := p.core, ctx := p.ctx,
    part := p.part, scope := p.scope, asid := p.asid, offset := p.offset, len := bs.length, aux := aux, opa := opa, opb := 0,
    clk := [], payload := bs }

/-- The heap bytes that a request names (spec/11_storage.md R161). -/
def heapAddrs (p : Packet) (n : Nat) : List (Option Nat) :=
  (List.range n).map (fun i => some (Config.heapBase + p.offset.toNat + i))

/-- The clock that a packet names, with what this die kept of its source. -/
def clockWith (p : Packet) (s : State) : SMap (BitVec 64) := (takeClock p (arrived p s)).2

/-- The state in which a read is served: its flits are counted at the port by which it came, and the clock that came with it is
kept. -/
def atRead (p : Packet) (s : State) : State := (takeClock p (arrived p s)).1

/-- The state in which a write or a post is served: the clock is merged into the die's own too. -/
def atWrite (p : Packet) (s : State) : State := mergeOwn (clockWith p s) (atRead p s)

/-- A packet that the flits of spec/23_fabric.md R341 hold as it stands arrives at a die that takes it. -/
def reachesDie (p : Packet) (s : State) : Bool := onWire p == p && !s.deaf p.src

/-- A request of a type arrives that has to wait for nothing: its causal predecessors have been applied here (spec/15_ordering.md
R230), and no line of memory is locked by a commit (spec/19_trees_regions.md R298). -/
def inTime (k : BitVec 6) (p : Packet) (s : State) : Bool :=
  reachesDie p s && p.cls == 0 && p.type == k && !mustWait (clockWith p s) p (atRead p s)

/-- How a request ends whose heap bytes cannot be reached; one for bytes of absent memory is never answered (log entry 14). -/
def refuses (p : Packet) (x : Xlate) (s : State) : State :=
  match x with
  | .translation => sendPacket (answer p 34 1 0 [] s) s
  | .permission => sendPacket (answer p 34 2 0 [] s) s
  | .poisoned => sendPacket (answer p 34 3 0 [] s) s
  | _ => s.modRouter (fun r => { r with heldRequests := r.heldRequests ++ [{ req := p, clock := [], since := s.timeNs, stuck := true }] })

/-- The slot of a context that the tag of a packet names. -/
def slotIn (p : Packet) (s : State) : Option Slot :=
  (ctxAt { core := p.core, ctx := p.ctx } s).flow.slots[(bits 5 3 p.tag : BitVec 3).toNat]?

/-! ## Safe runs -/

/-- Every byte store of the machine is in its canonical form: the memories of the package, the scratchpads and the cope
stores. -/
def storesWf (s : State) : Bool :=
  Memory.wf s.pkg.hbm && Memory.wf s.pkg.tier2 && Memory.wf s.cluster.sp && Memory.wf s.core.cope &&
    s.clusters.all (fun p => Memory.wf p.2.sp) && s.cores.all (fun p => Memory.wf p.2.cope)

end Sys2Proof.Machine

namespace Sys2Proof

/-- A step that answers a next state. -/
def stepsOn (s : Machine.State) : Prop := ∃ t, Machine.step s = .next t

end Sys2Proof
end

