-- ==== Sys2Proof/Certificates/Slice0/Obligations.lean ====
section
/-! DEFINITION. The statements about the machine, for the provers.  Each says in its docstring which rules of spec/ it
formalises; `quiet`, `lone`, `gives` and the other words are those of Sys2Proof/Safety.lean. -/
open Sys2Proof Sys2Proof.Machine

/-! ## The integer instructions of the A and B slots -/

/-- R105: what the two-source instructions of a lone bundle compute from the values that their sources held before it, the
result poisoned when a source is; add to andn. R105: shifts, minima, maxima and the one-source instructions of a lone
bundle. -/
def Obligations.IntegerOperationResults : Prop :=
  (∀ (u : AB) (f : RR) (s : State), quiet s = true →
     let a := gReg f.src1 s
     let b := gReg f.src2 s
     let answers := fun (i : Instr) (v : Word) (bound : Nat) => lone i s = true →
       exec i s = .next (givesG i f.dst v (gTag f.src1 s || gTag f.src2 s) 0 bound s)
     answers (.add u f) (match f.modf.toNat with
       | 0 => a + b
       | 1 => sext 32 (a + b)
       | 2 => BitVec.ofInt 64 (max (-(2 ^ 63)) (min (2 ^ 63 - 1) (a.toInt + b.toInt)))
       | _ => BitVec.ofNat 64 (min (2 ^ 64 - 1) (a.toNat + b.toNat))) 1 ∧
     answers (.sub u f) (match f.modf.toNat with
       | 0 => a - b
       | 1 => sext 32 (a - b)
       | 2 => BitVec.ofInt 64 (max (-(2 ^ 63)) (min (2 ^ 63 - 1) (a.toInt - b.toInt)))
       | _ => BitVec.ofNat 64 (a.toNat - b.toNat)) 1 ∧
     answers (.mul u f) (if f.modf = 0 then a * b else sext 32 (a * b)) 3 ∧
     answers (.mulh u f) ((a.signExtend 128 * b.signExtend 128).extractLsb' 64 64) 3 ∧
     answers (.mulhn u f) ((a.setWidth 128 * b.setWidth 128).extractLsb' 64 64) 3 ∧
     answers (.and u f) (a &&& b) 1 ∧ answers (.or u f) (a ||| b) 1 ∧ answers (.xor u f) (a ^^^ b) 1 ∧
     answers (.andn u f) (a &&& ~~~b) 1) ∧
  (∀ (u : AB) (f : RR) (s : State), quiet s = true →
     let a := gReg f.src1 s
     let b := gReg f.src2 s
     let n := (bits 0 6 b : BitVec 6).toNat
     let m := (bits 0 5 b : BitVec 5).toNat
     let a32 : BitVec 32 := bits 0 32 a
     let answers := fun (i : Instr) (v : Word) (p : Bool) (bound : Nat) => lone i s = true →
       exec i s = .next (givesG i f.dst v p 0 bound s)
     let p2 := gTag f.src1 s || gTag f.src2 s
     answers (.shl u f) (if f.modf = 0 then a <<< n else (a32 <<< m).signExtend 64) p2 1 ∧
     answers (.shr u f) (if f.modf = 0 then a >>> n else (a32 >>> m).signExtend 64) p2 1 ∧
     answers (.sar u f) (if f.modf = 0 then a.sshiftRight n else (a32.sshiftRight m).signExtend 64) p2 1 ∧
     answers (.min u f) (if a.toInt ≤ b.toInt then a else b) p2 1 ∧
     answers (.max u f) (if a.toInt ≤ b.toInt then b else a) p2 1 ∧
     answers (.minn u f) (if a.toNat ≤ b.toNat then a else b) p2 1 ∧
     answers (.maxn u f) (if a.toNat ≤ b.toNat then b else a) p2 1 ∧
     answers (.clz u f) (if a = 0 then 64 else BitVec.ofNat 64 (63 - Nat.log2 a.toNat)) (gTag f.src1 s) 2 ∧
     answers (.popc u f) (BitVec.ofNat 64 ((List.range 64).filter (fun k => a.getLsbD k)).length) (gTag f.src1 s) 2 ∧
     ∃ v : Word, (∀ k, k < 64 → v.getLsbD (63 - k) = a.getLsbD k) ∧ answers (.brev u f) v (gTag f.src1 s) 2)

/-- R106: quotient and remainder of a lone bundle: truncated toward zero, −2^63 and 0 for −2^63 by −1, −1 or all ones and
the dividend for a divisor of 0; no case traps, the result lands after 20 cycles, and both stand in the A slot. -/
def Obligations.DivisionResults : Prop :=
  ∀ (f : RR) (s : State), quiet s = true →
    let a := gReg f.src1 s
    let b := gReg f.src2 s
    let answers := fun (i : Instr) (v : Word) => lone i s = true →
      exec i s = .next (givesG i f.dst v (gTag f.src1 s || gTag f.src2 s) 0 20 s)
    (b = 0 → answers (.div f) (if f.modf = 0 then -1 else BitVec.ofNat 64 (2 ^ 64 - 1)) ∧ answers (.rem f) a) ∧
    (b ≠ 0 → f.modf = 1 → answers (.div f) (BitVec.ofNat 64 (a.toNat / b.toNat)) ∧
      answers (.rem f) (BitVec.ofNat 64 (a.toNat - b.toNat * (a.toNat / b.toNat)))) ∧
    (f.modf = 0 → a.toInt = -(2 ^ 63) → b.toInt = -1 → answers (.div f) (BitVec.ofInt 64 (-(2 ^ 63))) ∧
      answers (.rem f) 0) ∧
    (b ≠ 0 → f.modf = 0 → ¬(a.toInt = -(2 ^ 63) ∧ b.toInt = -1) →
      ∃ q : Int, q.natAbs = a.toInt.natAbs / b.toInt.natAbs ∧ 0 ≤ q * (a.toInt * b.toInt) ∧
        answers (.div f) (BitVec.ofInt 64 q) ∧ answers (.rem f) (BitVec.ofInt 64 (a.toInt - b.toInt * q))) ∧
    slotOf (.div f) = some .a ∧ slotOf (.rem f) = some .a

/-- R107: the bit field that `bfx` extracts and `bfi` inserts, bit by bit: p = b[5:0], w = b[13:8] + 1. -/
def Obligations.BitFieldResults : Prop :=
  ∀ (u : AB) (f : RR) (s : State), quiet s = true →
    let a := gReg f.src1 s
    let b := gReg f.src2 s
    let c := gReg f.dst s
    let p := (bits 0 6 b : BitVec 6).toNat
    let w := (bits 8 6 b : BitVec 6).toNat + 1
    (∃ v : Word,
      (∀ k, k < 64 → v.getLsbD k = (if k < w then a.getLsbD (p + k)
        else f.modf == 1 && a.getLsbD (p + w - 1))) ∧
      (lone (.bfx u f) s = true → exec (.bfx u f) s =
        .next (givesG (.bfx u f) f.dst v (gTag f.src1 s || gTag f.src2 s) 0 2 s))) ∧
    (∃ v : Word,
      (∀ k, k < 64 → v.getLsbD k = (if p ≤ k ∧ k < p + w then a.getLsbD (k - p) else c.getLsbD k)) ∧
      (lone (.bfi u f) s = true → exec (.bfi u f) s =
        .next (givesG (.bfi u f) f.dst v (gTag f.src1 s || gTag f.src2 s || gTag f.dst s) 0 2 s)))

/-- R108 to R110: the immediate forms and moves, `lea` and `sel` of a lone bundle. R111 to R113: comparisons and predicate
logic of a lone bundle, and `chk`; a poisoned source of a comparison or of `chk` raises the poison trap, and `chk` has
no other effect. -/
def Obligations.ImmediateSelectAndPredicateResults : Prop :=
  (∀ (u : AB) (fi : RI) (fm : MI) (fr : RR) (s : State), quiet s = true →
     let a := gReg fi.src1 s
     let imm : Word := fi.imm.signExtend 64
     let answers := fun (i : Instr) (dst : BitVec 5) (v : Word) (p : Bool) => lone i s = true →
       exec i s = .next (givesG i dst v p 0 1 s)
     answers (.addi u fi) fi.dst (a + imm) (gTag fi.src1 s) ∧
     answers (.andi u fi) fi.dst (a &&& imm) (gTag fi.src1 s) ∧
     answers (.ori u fi) fi.dst (a ||| imm) (gTag fi.src1 s) ∧
     answers (.shli u fi) fi.dst (a <<< fi.imm.toNat) (gTag fi.src1 s) ∧
     answers (.movi u fm) fm.dst (fm.imm.signExtend 64) false ∧
     answers (.movhi u fm) fm.dst (fm.imm.setWidth 64 <<< 32) false ∧
     answers (.lea u fi) fi.dst ((s.pc &&& ~~~(63 : Word)) + 32 * imm + a) (gTag fi.src1 s) ∧
     (kReg (fr.modf.setWidth 4) s = true → answers (.sel u fr) fr.dst (gReg fr.src1 s) (gTag fr.src1 s)) ∧
     (kReg (fr.modf.setWidth 4) s = false → answers (.sel u fr) fr.dst (gReg fr.src2 s) (gTag fr.src2 s))) ∧
  (∀ (u : AB) (f : RR) (fc : RC) (s : State), quiet s = true →
     let a := gReg f.src1 s
     let b := gReg f.src2 s
     let x := kReg (f.src1.setWidth 4) s
     let y := kReg (f.src2.setWidth 4) s
     let test := fun (code : BitVec 3) (a b : Word) => match code.toNat with
       | 0 => decide (a = b)
       | 1 => decide (a ≠ b)
       | 2 => decide (a.toInt < b.toInt)
       | 3 => decide (b.toInt ≤ a.toInt)
       | 4 => decide (a.toNat < b.toNat)
       | 5 => decide (b.toNat ≤ a.toNat)
       | _ => decide (a &&& b ≠ 0)
     (lone (.cmp u f) s = true → exec (.cmp u f) s = .next (if gTag f.src1 s || gTag f.src2 s then traps (.cmp u f) .poison 0 0 s
       else givesK (.cmp u f) (f.dst.setWidth 4) (test f.modf a b) 0 1 s)) ∧
     (lone (.cmpi u fc) s = true → exec (.cmpi u fc) s = .next (if gTag fc.src1 s then traps (.cmpi u fc) .poison 0 0 s
       else givesK (.cmpi u fc) (fc.dst.setWidth 4) (test fc.cond (gReg fc.src1 s) (fc.imm.signExtend 64)) 0 1 s)) ∧
     (lone (.kop u f) s = true → exec (.kop u f) s = .next (givesK (.kop u f) (f.dst.setWidth 4) (match f.modf.toNat with
       | 0 => x && y
       | 1 => x || y
       | 2 => Bool.xor x y
       | 3 => x && !y
       | 4 => !(x && y)
       | 5 => !(x || y)
       | 6 => !(Bool.xor x y)
       | _ => x || !y) 0 1 s)) ∧
     (lone (.chk u f) s = true → exec (.chk u f) s = .next (if gTag f.src1 s then traps (.chk u f) .poison 0 0 s
       else passed [.chk u f] s)))


/-! ## System registers -/

/-- R37, R114, R131: what `rdsys` in a lone bundle returns for each register number, after 4 cycles; FPROG, PVEC and GROW
while no factorisation, MLPROG while no `mload` of the context is in progress. A read of TRAPINFO returns word SEL and
advances SEL modulo 10; its reserved bits read as zero (R2). R37, R114, R131, R146, R161, R261, R259: what `wrsys` in a lone bundle sets, the operand-value
trap of each register's check, and the poison trap; `v` is the source. R51, R77, R95: a lone `setfmt` or `wrsys` of
FMT with an accepted value keeps the FMT in force and starts the delay of four bundles, and any other value traps with
format value; while the four bundles after a write of FMT issue the old FMT governs, and from the fifth the new one; a
write within the delay of another takes effect four bundles after its own.
RANK rests on the die's place in its package (log entry 5). -/
def Obligations.SystemAndFormatRegisterAccess : Prop :=
  ((∀ (f : RI) (s : State), quiet s = true →
      let y := s.cur.sys
      let reads := fun (n : Nat) (v : Word) => f.imm.toNat = n → lone (.rdsys f) s = true →
        exec (.rdsys f) s = .next (givesG (.rdsys f) f.dst v false 0 4 s)
      reads 0x000 (y.fmt.setWidth 64) ∧ reads 0x001 (y.fstat.setWidth 64) ∧
      (s.factBusy = false → reads 0x002 ((bits 0 60 s.cur.arr.pvec : BitVec 60).setWidth 64) ∧
        reads 0x003 (if bits 0 63 s.cur.arr.amax = (0 : BitVec 63) then 0 else (fDiv fp64 0 s.cur.arr.umax s.cur.arr.amax).1) ∧
        reads 0x004 s.cur.arr.fprog) ∧
      (s.mloadBusy = false → reads 0x005 s.cur.arr.mlprog) ∧
      reads 0x006 ((rankOf s.curId).setWidth 64) ∧ reads 0x007 (s.cluster.pourskew.setWidth 64) ∧
      reads 0x008 (y.wdlim.setWidth 64) ∧ reads 0x009 y.tvec ∧ reads 0x00B s.pkg.regs.dutymode ∧
      reads 0x00C (y.fabstale.setWidth 64) ∧ reads 0x00D (s.core.cecount.setWidth 64) ∧
      reads 0x00E (s.die.lineage.losscount.setWidth 64) ∧ reads 0x00F (BitVec.ofNat 64 Config.infoVA) ∧
      (∀ k : Fin 8, reads (0x010 + k.val) (s.cur.n[k].setWidth 64)) ∧
      (s.acquireHeld = false → ∀ k : Fin 32, reads (0x020 + k.val) (s.core.f[k].setWidth 64)) ∧
      (lone (.rdsysTrapinfo f) s = true → exec (.rdsysTrapinfo f) s =
        .next ((givesG (.rdsysTrapinfo f) f.dst ((y.trapinfo >>> (64 * y.sel.toNat)).setWidth 64) false 0 4 s).modSys
          (fun z => { z with sel := if y.sel = 9 then 0 else y.sel + 1 })))) ∧
   (∀ (f : RI) (s : State), quiet s = true →
      let v := gReg f.src1 s
      let hi : BitVec 32 := bits 32 32 v
      let lo : BitVec 32 := bits 0 32 v
      let fields : Nat → Word := fun i => if i = 0 then 0xFFFFFF8000000000 else if i ≤ 2 then 0x00FFFFFFFFFFFFFF else -1
      let writes := fun (i : Instr) (ok : Bool) (e : State → State) => lone i s = true → exec i s = .next (
        if gTag f.src1 s then traps i .poison 0 0 s else if ok then does i e s else traps i .operandValue 0 0 s)
      writes (.wrsys f) (hi == 0) (fun t => match f.imm.toNat with
        | 0x00C => t.modSys (fun y => { y with fabstale := lo })
        | 0x00D => t.modCore (fun k => { k with cecount := lo })
        | _ => t.modLineage (fun l => { l with losscount := lo })) ∧
      writes (.wrsysFstat f) true (State.modSys (fun y => { y with fstat := bits 0 10 v })) ∧
      (s.factBusy = false → writes (.wrsysFprog f)
        ((bits 20 44 v : BitVec 44) == 0 && (bits 5 3 v : BitVec 3) == 0 && (bits 12 3 v : BitVec 3).toNat < 5)
        (State.modArr (fun a => { a with fprog := v }))) ∧
      (s.mloadBusy = false → writes (.wrsysMlprog f)
        ((bits 40 24 v : BitVec 24) == 0 && (bits 9 6 v : BitVec 6) == 0 && (bits 0 9 v : BitVec 9).toNat ≤ 256)
        (State.modArr (fun a => { a with mlprog := v }))) ∧
      writes (.wrsysPourskew f) (v.toNat ≤ 63) (State.modCluster (fun c => { c with pourskew := bits 0 6 v })) ∧
      writes (.wrsysWdlim f) (hi == 0) (State.modCtx (fun c => c.modSys (fun y =>
        { y with wdlim := lo, wdCount := s.cur.wdValue s.core.cycle, wdSince := s.core.cycle, wdArmed := s.core.cycle }))) ∧
      writes (.wrsysTvec f) ((bits 0 6 v : BitVec 6) == 0 && (bits 56 8 v : BitVec 8) == 0)
        (State.modSys (fun y => { y with tvec := v })) ∧
      writes (.wrsysTrapinfo f) true (State.modSys (fun y => { y with
        trapinfo := (y.trapinfo &&& ~~~((BitVec.allOnes 64).setWidth 640 <<< (64 * y.sel.toNat))) |||
          ((v &&& fields y.sel.toNat).setWidth 640 <<< (64 * y.sel.toNat))
        sel := if y.sel = 9 then 0 else y.sel + 1 })) ∧
      writes (.wrsysDutymode f) true (fun t =>
        if (bits 6 58 v : BitVec 58) ≠ 0 ∨ v = s.pkg.regs.dutymode then t
        else measureDuty (t.modRegs (fun r => { r with dutymode := v }))) ∧
      (∀ k : Fin 8, f.imm.toNat = 0x010 + k.val → writes (.wrsysPeer f)
        ((bits 16 48 v : BitVec 48) == 0 && (bits 14 2 v : BitVec 2) == 0 && (bits 9 5 v : BitVec 5).toNat < Config.torusX &&
          (bits 4 5 v : BitVec 5).toNat < Config.torusY && (bits 0 4 v : BitVec 4).toNat < Config.torusZ)
        (State.modCtx (fun c => { c with n := c.n.set k (bits 0 16 v) }))) ∧
      (s.acquireHeld = false → ∀ k : Fin 32, f.imm.toNat = 0x020 + k.val → writes (.wrsysFlag f) ((bits 16 48 v : BitVec 48) == 0)
        (State.modCore (fun c => { c with f := c.f.set k (bits 0 16 v) }))))) ∧
  ((∀ (c : BitVec 32) (r : GP) (f : RI) (s : State), quiet s = true →
      let accepted := fun (v : BitVec 32) =>
        bits 28 4 v = (0 : BitVec 4) ∧ bits 0 4 v = (0 : BitVec 4) ∧ (bits 8 4 v : BitVec 4) = bits 4 4 v ∧
        (((bits 8 4 v : BitVec 4) ∈ [12, 13] ∧ (bits 12 2 v : BitVec 2) = 2 ∧ (bits 14 3 v : BitVec 3).toNat ≤ 2) ∨
         ((bits 8 4 v : BitVec 4) ∈ [8, 9] ∧ (bits 12 2 v : BitVec 2) = 0 ∧ (bits 14 3 v : BitVec 3).toNat ≤ 2) ∨
         ((bits 8 4 v : BitVec 4) = 11 ∧ (bits 12 2 v : BitVec 2) = 1 ∧ (bits 14 3 v : BitVec 3) = 3))
      let fits := fun (v : Word) => (bits 32 32 v : BitVec 32) = 0 ∧ accepted (bits 0 32 v)
      let delayed := fun (i : Instr) (v : BitVec 32) =>
        does i (State.modSys (fun y => { y with fmtDelay := [{ value := v, left := 4 }] })) s
      let writes := fun (i : Instr) (v : Word) (poisoned : Bool) => lone i s = true →
        (poisoned = true → exec i s = .next (traps i .poison 0 0 s)) ∧
        (poisoned = false → fits v → exec i s = .next (delayed i (bits 0 32 v))) ∧
        (poisoned = false → ¬fits v → exec i s = .next (traps i .formatValue 0 0 s))
      writes (.setfmtImmediate c) (c.setWidth 64) false ∧
      writes (.setfmtRegister r) (gReg r.reg s) (gTag r.reg s) ∧
      writes (.wrsysFmt f) (gReg f.src1 s) (gTag f.src1 s)) ∧
   (∀ (y : SysCtx) (v : BitVec 32),
      (∀ k, k ≤ 3 → y.fmtDelay = [{ value := v, left := 4 }] → (SysCtx.stepDelay^[k] y).fmt = y.fmt) ∧
      (y.fmtDelay = [{ value := v, left := 4 }] → SysCtx.stepDelay^[4] y = { y with fmt := v, fmtDelay := [] }) ∧
      (∀ (w : BitVec 32) (k : Nat), 1 ≤ k → k ≤ 3 → y.fmtDelay = [{ value := v, left := k }, { value := w, left := 4 }] →
        SysCtx.stepDelay^[k] y = { y with fmt := v, fmtDelay := [{ value := w, left := 4 - k }] } ∧
        SysCtx.stepDelay^[4] y = { y with fmt := w, fmtDelay := [] }) ∧
      (y.fmtDelay = [{ value := v, left := 4 }] → y.endDelay = { y with fmt := v, fmtDelay := [] })))


/-! ## Scalar floating-point instructions -/

/-- R59, R66, R80, R115 to R117: the arithmetic instructions of a lone bundle.  A poisoned source poisons the result and raises
nothing; flags enabled in FMT bits 20 to 25 trap with all the flags in AUX, or poison the result of a speculative form; else the
result brings its flags. -/
def Obligations.FloatingArithmeticResults : Prop :=
  ∀ (f : RR) (s : State), quiet s = true →
    let F := if f.modf.getLsbD 2 then fp64 else fp32
    let m : RMode := bits 0 2 f.modf
    let dyn : RMode := if f.modf.getLsbD 0 then bits 17 2 s.cur.sys.fmt else 0
    let src := fun r => if f.modf.getLsbD 2 then gReg r s else zext 32 (gReg r s)
    let a := src f.src1
    let b := src f.src2
    let p1 := gTag f.src1 s
    let p2 := gTag f.src1 s || gTag f.src2 s
    let enabled := fun (fl : Flags) => (bits 0 6 fl : BitVec 6) &&& (bits 20 6 s.cur.sys.fmt : BitVec 6)
    let plain := fun (i : Instr) (r : FRes) (p : Bool) (bound : Nat) =>
      (p = true → exec i s = .next (givesG i f.dst r.1 true 0 bound s)) ∧
      (p = false → enabled r.2 = 0 → exec i s = .next (givesG i f.dst r.1 false r.2 bound s)) ∧
      (p = false → enabled r.2 ≠ 0 → exec i s = .next (traps i .fpException ((bits 0 6 r.2 : BitVec 6).setWidth 8) 0 s))
    let answers := fun (i : Instr) (r : FRes) (p : Bool) (bound : Nat) => lone i s = true → plain i r p bound
    let speculative := fun (i : Instr) (r : FRes) (p : Bool) => lone i s = true →
      (f.modf.getLsbD 1 = true → p = false → enabled r.2 ≠ 0 → ∃ v, exec i s = .next (givesG i f.dst v true 0 14 s)) ∧
      (f.modf.getLsbD 1 = false ∨ p = true ∨ enabled r.2 = 0 → plain i r p 14)
    answers (.fadd f) (fAdd F m a b) p2 4 ∧ answers (.fsub f) (fSub F m a b) p2 4 ∧ answers (.fmul f) (fMul F m a b) p2 4 ∧
    answers (.fma f) (fFma F m a b (src f.dst)) (p2 || gTag f.dst s) 4 ∧
    speculative (.fdiv f) (fDiv F dyn a b) p2 ∧ speculative (.fsqrt f) (fSqrt F dyn a) p1 ∧
    answers (.fmin f) (fMinMax F false a b) p2 2 ∧ answers (.fmax f) (fMinMax F true a b) p2 2

/-- R118, R120, R121: `fsgn` changes the sign bit alone, `fcvt` converts by its code, and `fclass` writes one bit by sign,
exponent and fraction. -/
def Obligations.FloatingConversionAndClassResults : Prop :=
  ∀ (f : RR) (s : State), quiet s = true →
    let wide := f.modf.getLsbD 2
    let F := if wide then fp64 else fp32
    let m : RMode := bits 0 2 f.modf
    let src := fun r => if wide then gReg r s else zext 32 (gReg r s)
    let a := src f.src1
    let b := src f.src2
    let v := gReg f.src1 s
    let top := if wide then 63 else 31
    let ex := if wide then (bits 52 11 a : BitVec 11).toNat else (bits 23 8 a : BitVec 8).toNat
    let exMax := if wide then 2047 else 255
    let frac := if wide then (bits 0 52 a : BitVec 52).toNat else (bits 0 23 a : BitVec 23).toNat
    let quietBit := a.getLsbD (if wide then 51 else 22)
    let neg := a.getLsbD top
    let kind := if ex = exMax then (if frac ≠ 0 then (if quietBit then 1 else 0) else if neg then 2 else 9)
      else if ex = 0 then (if frac = 0 then (if neg then 5 else 6) else if neg then 4 else 7)
      else if neg then 3 else 8
    let toInt := fun (isSigned : Bool) (w : Nat) =>
      let r := fToInt F m isSigned w a
      ((BitVec.ofInt 64 r.1, r.2) : FRes)
    let converted : FRes := match f.src2.toNat with
      | 0 => if wide then fToF fp64 fp32 m a else fToF fp32 fp64 m a
      | 1 => toInt true 32
      | 2 => toInt false 32
      | 3 => toInt true 64
      | 4 => toInt false 64
      | 5 => intToF F m (bits 0 32 v : BitVec 32).toInt
      | 6 => intToF F m (bits 0 32 v : BitVec 32).toNat
      | 7 => intToF F m v.toInt
      | 8 => intToF F m v.toNat
      | _ => fToIntegral F m a
    let enabled := fun (fl : Flags) => (bits 0 6 fl : BitVec 6) &&& (bits 20 6 s.cur.sys.fmt : BitVec 6)
    (∃ r : Word, (∀ k, k < 64 → k ≠ top → r.getLsbD k = a.getLsbD k) ∧
      r.getLsbD top = (match m.toNat with | 0 => b.getLsbD top | 1 => !b.getLsbD top | _ => Bool.xor neg (b.getLsbD top)) ∧
      (lone (.fsgn f) s = true →
        exec (.fsgn f) s = .next (givesG (.fsgn f) f.dst r (gTag f.src1 s || gTag f.src2 s) 0 2 s))) ∧
    (lone (.fcvt f) s = true →
      (gTag f.src1 s = true → exec (.fcvt f) s = .next (givesG (.fcvt f) f.dst converted.1 true 0 3 s)) ∧
      (gTag f.src1 s = false → enabled converted.2 = 0 →
        exec (.fcvt f) s = .next (givesG (.fcvt f) f.dst converted.1 false converted.2 3 s)) ∧
      (gTag f.src1 s = false → enabled converted.2 ≠ 0 → exec (.fcvt f) s =
        .next (traps (.fcvt f) .fpException ((bits 0 6 converted.2 : BitVec 6).setWidth 8) 0 s))) ∧
    (lone (.fclass f) s = true →
      exec (.fclass f) s = .next (givesG (.fclass f) f.dst (BitVec.ofNat 64 (2 ^ kind)) (gTag f.src1 s) 0 2 s))

/-- R119: `fcmp` of a lone bundle writes its predicate, with IV for the NaNs that the code names; a poisoned source is
caught. R61: a magnitude rounded to a multiple of 2^k: exact when it is one, else toward zero, up, down, or to the
nearest with ties to even. -/
def Obligations.FloatingComparisonsAndRounding : Prop :=
  (∀ (f : RR) (s : State), quiet s = true → lone (.fcmp f) s = true →
     let F := if f.modf.getLsbD 2 then fp64 else fp32
     let src := fun r => if f.modf.getLsbD 2 then gReg r s else zext 32 (gReg r s)
     let a := unpackF F (src f.src1)
     let b := unpackF F (src f.src2)
     let code := (bits 0 2 f.modf : BitVec 2).toNat
     let nan := a.isNan || b.isNan
     let signalling := a.isSnan || b.isSnan
     let fl : Flags := if (if code = 1 ∨ code = 2 then nan else signalling) then fIV else 0
     let holds := match code with
       | 0 => !nan && eqV a b
       | 1 => !nan && ltV a b
       | 2 => !nan && (ltV a b || eqV a b)
       | _ => nan
     exec (.fcmp f) s = .next (
       if gTag f.src1 s || gTag f.src2 s then traps (.fcmp f) .poison 0 0 s
       else if (bits 0 6 fl : BitVec 6) &&& (bits 20 6 s.cur.sys.fmt : BitVec 6) ≠ 0 then
         traps (.fcmp f) .fpException ((bits 0 6 fl : BitVec 6).setWidth 8) 0 s
       else givesK (.fcmp f) (f.dst.setWidth 4) holds fl 2 s)) ∧
  (∀ (mode : RMode) (neg : Bool) (m k : Nat),
     let r := roundAt mode neg m (k : Int)
     let down := m / 2 ^ k
     (r.2 = true ↔ ¬ 2 ^ k ∣ m) ∧ (2 ^ k ∣ m → r.1 * 2 ^ k = m) ∧
     (¬ 2 ^ k ∣ m →
       (mode = 1 → r.1 = down) ∧ (mode = 2 → r.1 = if neg then down else down + 1) ∧
       (mode = 3 → r.1 = if neg then down + 1 else down) ∧
       (mode = 0 → 2 * (r.1 * 2 ^ k) ≤ 2 * m + 2 ^ k ∧ 2 * m ≤ 2 * (r.1 * 2 ^ k) + 2 ^ k ∧
         (2 * m = 2 * (down * 2 ^ k) + 2 ^ k → r.1 % 2 = 0))))

/-! ## Sum trees -/

/-- R272, R280: changing one leaf changes that leaf alone, and the prefix sums of a tree in canonical form are the exact
sums of its leaves. R279, R280: the point updates of a lone bundle on a tree with no fill pending, once no earlier acquire
stands (R236): the leaf, the flags
TN and TS after 12 cycles, the operand-value trap of a bad index or raw value, and the poison trap. -/
def Obligations.SumTreeStructureAndPointUpdates : Prop :=
  (∀ (t : Leaves) (k : Nat) (v : BitVec 32), smWf 0 t = true →
     smWf 0 (setLeaf k v t) = true ∧ (∀ j, leafOf (setLeaf k v t) j = if j = k then v.toNat else leafOf t j) ∧
     ∀ n, prefixSum t n = ((List.range n).map (leafOf t)).sum) ∧
  (∀ (f : RR) (s : State), quiet s = true → s.treeHeld f.modf = false → s.acquireHeld = false →
     let idx := (gReg f.src1 s).toNat
     let v := gReg f.src2 s
     let t := s.tree f.modf
     let leaf := leafOf t idx
     let updates := fun (i : Instr) (poisoned bad : Bool) (r : BitVec 32 × Flags) => lone i s = true → exec i s = .next (
       if gTag f.src1 s then traps i .poison 0 0 s
       else if 1023 < idx then traps i .operandValue 0 0 s
       else if poisoned then traps i .poison 0 0 s
       else if bad then traps i .operandValue 0 0 s
       else flagsUnderWay r.2 (s.core.cycle + 12) (does i (fun u => u.setTree f.modf (setLeaf idx r.1 t)) s))
     let clamped := fun (x : Int) => if x < 0 then ((0 : BitVec 32), fTN)
       else if 0xFFFFFFFF < x then (0xFFFFFFFF, fTS) else (BitVec.ofInt 32 x, 0)
     updates (.wclr f) false false (0, 0) ∧
     (f.dst = 1 → updates (.wset f) (gTag f.src2 s) ((bits 32 32 v : BitVec 32) != 0) (bits 0 32 v, 0)) ∧
     (f.dst ≠ 1 → updates (.wset f) (gTag f.src2 s) false (massOf (bits 0 32 v))) ∧
     (f.dst = 1 → updates (.wadd f) (gTag f.src2 s) false (clamped ((leaf : Int) + v.toInt))) ∧
     (f.dst ≠ 1 → updates (.wadd f) (gTag f.src2 s) false (match unpackF fp32 (zext 32 v) with
       | .nan _ => (BitVec.ofNat 32 leaf, fTN)
       | .inf true => (0, fTN)
       | .inf false => (0xFFFFFFFF, fTS)
       | .num n m e => if m = 0 || isSubnormal fp32 (zext 32 v) then (BitVec.ofNat 32 leaf, 0)
         else
           let x := exactAdd leaf 0 (signed n m) (e + 24)
           clamped (toIntegral 0 (x.1 < 0) x.1.natAbs x.2).1)))

/-- R279, R281 to R284: reads, search, cut and copy of sum trees with no fill pending, by a lone bundle; cut and copy once no
earlier acquire stands (R236). R282: the leaf
that `wfind` names covers u: the prefix before it is at most u, and the prefix after it exceeds u; for a canonical
tree whose root exceeds a u that is not negative. -/
def Obligations.SumTreeReadsSearchesCutsAndCopies : Prop :=
  (∀ (f : RR) (s : State), quiet s = true → s.treeHeld f.modf = false →
     let a := gReg f.src1 s
     let poisoned := gTag f.src1 s
     let t := s.tree f.modf
     let out := fun (q : Nat) => if f.src2 = 1 then BitVec.ofNat 64 q else (massToF q).setWidth 64
     let reads := fun (i : Instr) (last bound : Nat) (val : Nat → Nat) => lone i s = true →
       (poisoned = true → ∃ v, exec i s = .next (givesG i f.dst v true 0 bound s)) ∧
       (poisoned = false → exec i s = .next (
         if last < a.toNat then traps i .operandValue 0 0 s else givesG i f.dst (out (val a.toNat)) false 0 bound s))
     let ivTraps := s.cur.sys.fmt.getLsbD 20 = true
     reads (.wget f) 1023 4 (leafOf t) ∧ reads (.wsum f) 1024 12 (prefixSum t) ∧
     (lone (.wtot f) s = true → exec (.wtot f) s = .next (givesG (.wtot f) f.dst (out (prefixSum t 1024)) false 0 2 s)) ∧
     (lone (.wfind f) s = true →
       (poisoned = true → ∃ v, exec (.wfind f) s = .next (givesG (.wfind f) f.dst v true 0 12 s)) ∧
       (poisoned = false → ∀ v e, massArg f.src2 a = .val v e → 0 ≤ v → massGt (prefixSum t 1024) v e = true →
         exec (.wfind f) s = .next (givesG (.wfind f) f.dst (BitVec.ofNat 64 (coverLeaf t v e)) false 0 12 s)) ∧
       (poisoned = false → (∀ v e, massArg f.src2 a = .val v e → v < 0 ∨ massGt (prefixSum t 1024) v e = false) →
         (¬ivTraps → exec (.wfind f) s = .next (givesG (.wfind f) f.dst 1024 false fIV 12 s)) ∧
         (ivTraps → exec (.wfind f) s = .next (traps (.wfind f) .fpException 1 0 s)))) ∧
     (s.acquireHeld = false → lone (.wcut f) s = true →
       let cuts := fun (t' : Leaves) (fl : Flags) => exec (.wcut f) s = .next
         ((givesG (.wcut f) f.dst (out (prefixSum t' 1024)) false fl 24 s).setTree f.modf t')
       (poisoned = true → exec (.wcut f) s = .next (traps (.wcut f) .poison 0 0 s)) ∧
       (poisoned = false → ∀ v e, massArg f.src2 a = .val v e →
         cuts (t.filter (fun p => !massGe (prefixSum t p.1) v e)) 0) ∧
       (poisoned = false → massArg f.src2 a = .low → cuts [] 0) ∧
       (poisoned = false → massArg f.src2 a = .high → cuts t 0) ∧
       (poisoned = false → massArg f.src2 a = .nan → ¬ivTraps → cuts t fIV) ∧
       (poisoned = false → massArg f.src2 a = .nan → ivTraps →
         exec (.wcut f) s = .next (traps (.wcut f) .fpException 1 0 s))) ∧
     (s.treeHeld (f.src1.setWidth 3) = false → s.acquireHeld = false → lone (.wmov f) s = true →
       exec (.wmov f) s = .next (does (.wmov f) (fun u => u.setTree f.modf (s.tree (f.src1.setWidth 3))) s))) ∧
  (∀ (t : Leaves) (v e : Int), smWf 0 t = true → (∀ p ∈ t, p.1 < 1024) → 0 ≤ v → massGt (rootOf t) v e = true →
     coverLeaf t v e < 1024 ∧ massGt (prefixSum t (coverLeaf t v e + 1)) v e = true ∧
     massGt (prefixSum t (coverLeaf t v e)) v e = false ∧ 0 < leafOf t (coverLeaf t v e))


/-! ## Vector instructions -/

/-- R194, R197, R68: one computed lane: class I wraps to its width or saturates to its type, class X gives NaV for a NaV
source and else clamps and raises OF, class F rounds by FMT.RMODE between the two applications of FMT.SUBZ. R192,
R194, R196 to R200, R210: the elementwise instructions of a lone bundle. Each active lane of the pushed entry is what
the instruction computes from the lanes of its sources, a lane masked off is zero, and the flags are those of the
active lanes; and a lone speculative `vdiv` never takes the floating-point trap: where the plain form would, it pushes
a poisoned entry and raises no flag; else it answers as the plain form.
The neighbour of R199 is the opaque choice of log entry 9. -/
def Obligations.VectorLanesAndElementwiseResults : Prop :=
  (∀ (fmt : BitVec 32) (ty : BitVec 4) (sat : Bool) (ex : List Int → Int) (fl : FFmt → RMode → List (BitVec 64) → FRes)
     (xs : List Nat),
     let w := tyWidth ty
     let r := computeLane fmt ty sat ex fl xs
     (ty.toNat < 8 → sat = false → r = ((ex (xs.map (codeOf ty)) % 2 ^ w).toNat, 0)) ∧
     (ty.toNat < 8 → sat = true →
       let lo : Int := if tySigned ty then -(2 ^ (w - 1)) else 0
       let hi : Int := if tySigned ty then 2 ^ (w - 1) - 1 else 2 ^ w - 1
       r = ((max lo (min hi (ex (xs.map (codeOf ty)))) % 2 ^ w).toNat, 0)) ∧
     (ty = 12 ∨ ty = 13 → (-(2 ^ (w - 1)) : Int) ∈ xs.map (codeOf ty) → r = (2 ^ (w - 1), 0)) ∧
     (ty = 12 ∨ ty = 13 → (-(2 ^ (w - 1)) : Int) ∉ xs.map (codeOf ty) →
       let top : Int := 2 ^ (w - 1) - 1
       let v := ex (xs.map (codeOf ty))
       r = ((max (-top) (min top v) % 2 ^ w).toNat, if -top ≤ v ∧ v ≤ top then 0 else fOF)) ∧
     (tyFloat ty = true →
       let F := floatFmt ty
       let q := flushOut F (fmt.getLsbD 19)
         (fl F (bits 17 2 fmt) (xs.map (fun x => flushIn F (fmt.getLsbD 19) (BitVec.ofNat 64 x))))
       r = (q.1.toNat, q.2))) ∧
  ((∀ (f : VF) (s : State), quiet s = true →
      let w := tyWidth f.ty
      let L := laneCount f.ty
      let fmt := s.cur.sys.fmt
      let sat := f.modf.getLsbD 0
      let answers := fun (i : Instr) (n bound : Nat) (lane : List Nat → LRes) => lone i s = true →
        let on := laneOn f.ty (mReg f.mask s)
        let res := fun k => lane ((heads (vSrc f n) s).map (laneOf w k))
        ∃ v : BitVec 1024, (∀ k, k < L → laneOf w k v = if on k then (res k).1 % 2 ^ w else 0) ∧
          exec i s = .next (vectorAnswers i (vSrc f n) f.dst v
            ((List.range L).foldl (fun fl k => if on k then fl ||| (res k).2 else fl) 0) bound s)
      let c := computeLane fmt f.ty sat
      let c0 := computeLane fmt f.ty false
      let float := fun (op : FFmt → RMode → List (BitVec 64) → FRes) => computeLane fmt f.ty false (fun _ => 0) op
      let logic := fun (op : Nat → BitVec 64 → BitVec 64 → BitVec 64) (x : List Nat) =>
        (((op w (BitVec.ofNat 64 (x.getD 0 0)) (BitVec.ofNat 64 (x.getD 1 0))).toNat % 2 ^ w, 0) : LRes)
      let sign := fun (g : Bool → Bool) (x : List Nat) =>
        let a := x.getD 0 0
        ((a % 2 ^ (w - 1) + (if g (a.testBit (w - 1)) then 2 ^ (w - 1) else 0), 0) : LRes)
      answers (.vadd f) 2 4 (c (fun x => nth x 0 + nth x 1) (fun F m x => fAdd F m (nthF x 0) (nthF x 1))) ∧
      answers (.vsub f) 2 4 (c (fun x => nth x 0 - nth x 1) (fun F m x => fSub F m (nthF x 0) (nthF x 1))) ∧
      answers (.vmul f) 2 5 (c (fun x => nth x 0 * nth x 1) (fun F m x => fMul F m (nthF x 0) (nthF x 1))) ∧
      answers (.vfma f) 3 5 (c (fun x => nth x 0 * nth x 1 + nth x 2)
        (fun F m x => fFma F m (nthF x 0) (nthF x 1) (nthF x 2))) ∧
      answers (.vfms f) 3 5 (c (fun x => nth x 0 * nth x 1 - nth x 2)
        (fun F m x => fFms F m (nthF x 0) (nthF x 1) (nthF x 2))) ∧
      answers (.vmin f) 2 3 (c0 (fun x => min (nth x 0) (nth x 1)) (fun F _ x => fMinMax F false (nthF x 0) (nthF x 1))) ∧
      answers (.vmax f) 2 3 (c0 (fun x => max (nth x 0) (nth x 1)) (fun F _ x => fMinMax F true (nthF x 0) (nthF x 1))) ∧
      answers (.vclamp f) 3 4 (c0 (fun x => min (max (nth x 0) (nth x 1)) (nth x 2)) (fun F _ x =>
        let y := fMinMax F true (nthF x 0) (nthF x 1)
        let z := fMinMax F false y.1 (nthF x 2)
        (z.1, y.2 ||| z.2))) ∧
      answers (.vabs f) 1 3 (if tyFloat f.ty then sign (fun _ => false)
        else c (fun x => ((nth x 0).natAbs : Int)) (fun _ _ _ => (0, 0))) ∧
      answers (.vneg f) 1 3 (if tyFloat f.ty then sign (fun b => !b) else c (fun x => -(nth x 0)) (fun _ _ _ => (0, 0))) ∧
      answers (.vsqrt f) 1 14 (float (fun F m x => fSqrt F m (nthF x 0))) ∧
      answers (.vrsqrt f) 1 8 (float (fun F m x => fRsqrt F m (nthF x 0))) ∧
      answers (.vrcp f) 1 8 (float (fun F m x => fRcp F m (nthF x 0))) ∧
      answers (.vexp2 f) 1 8 (float (fun F m x => fExp2 F m (nthF x 0))) ∧
      answers (.vlog2 f) 1 8 (float (fun F m x => fLog2 F m (nthF x 0))) ∧
      answers (.vand f) 2 3 (logic (fun _ a b => a &&& b)) ∧ answers (.vor f) 2 3 (logic (fun _ a b => a ||| b)) ∧
      answers (.vxor f) 2 3 (logic (fun _ a b => a ^^^ b)) ∧
      answers (.vnot f) 1 3 (fun x => (2 ^ w - 1 - x.getD 0 0, 0)) ∧
      answers (.vshl f) 2 3 (logic (fun w a b => a <<< (b.toNat % w))) ∧
      answers (.vshr f) 2 3 (logic (fun w a b => a >>> (b.toNat % w))) ∧
      answers (.vsar f) 2 3 (logic (fun w a b => (BitVec.ofInt 64 (signedOf w a.toNat)).sshiftRight (b.toNat % w))) ∧
      (f.modf.getLsbD 6 = false → answers (.vdiv f) 2 14 (float (fun F m x => fDiv F m (nthF x 0) (nthF x 1))))) ∧
   (∀ (f : VF) (s : State), quiet s = true → lone (.vdiv f) s = true → f.modf.getLsbD 6 = true →
      sourcesReady (vSrc f 2) s = true →
      let w := tyWidth f.ty
      let lanes := (List.range (laneCount f.ty)).map (fun k =>
        computeLane s.cur.sys.fmt f.ty false (fun _ => 0) (fun F m x => fDiv F m (nthF x 0) (nthF x 1))
          ((heads (vSrc f 2) s).map (laneOf w k)))
      let r := maskLanes f.ty (mReg f.mask s) lanes
      let trapping := headsTag (vSrc f 2) s = false ∧ enabledFlags r.2 s ≠ 0
      (trapping → roomIn f.dst (vSrc f 2) s = true →
        ∃ v, exec (.vdiv f) s = .next (pushes (.vdiv f) (vSrc f 2) f.dst v true 0 14 s)) ∧
      (¬trapping → exec (.vdiv f) s = .next (vectorAnswers (.vdiv f) (vSrc f 2) f.dst r.1 r.2 14 s))))

/-- R202 to R206, R208 to R211: selection, reductions, scans, movement, constants and conversion, by a lone bundle.
Floating-point sums take the opaque choice of log entry 8 within the bound of R81. -/
def Obligations.VectorSelectionReductionAndMovement : Prop :=
  ∀ (f : VF) (s : State), quiet s = true →
    let w := tyWidth f.ty
    let L := laneCount f.ty
    let m := mReg f.mask s
    let on := laneOn f.ty m
    let fmt := s.cur.sys.fmt
    let src := fun (n k : Nat) => laneOf w k ((heads (vSrc f n) s).getD 0 0)
    let entry := fun (i : Instr) (n bound : Nat) (g : Nat → Nat) (fl : Flags) => lone i s = true →
      ∃ v : BitVec 1024, (∀ k, k < L → laneOf w k v = g k % 2 ^ w) ∧
        exec i s = .next (vectorAnswers i (vSrc f n) f.dst v fl bound s)
    let moves := fun (i : Instr) (n bound : Nat) (g : Nat → Nat) => entry i n bound (fun k => if on k then g k else 0) 0
    let active := fun (n : Nat) => ((List.range n).filter on).map (src 1)
    let reduces := fun (i : Instr) (r : LRes) => entry i 1 6 (fun k => if k = 0 then r.1 else 0) r.2
    let amount := fun (j n : Nat) => if f.modf.getLsbD 5 then laneOf 64 0 ((heads (vSrc f n) s).getD j 0) % L
      else (bits 0 5 f.modf : BitVec 5).toNat
    let factor := 2 ^ (bits 0 2 f.modf : BitVec 2).toNat
    let part := (bits 2 3 f.modf : BitVec 3).toNat
    let second := fun (k : Nat) => laneOf w k ((heads (vSrc f 2) s).getD 1 0)
    let sums := fun (k : Nat) => sumLanes fmt f.ty (active (if f.modf.getLsbD 0 then k else k + 1))
    let imm : BitVec 16 := bits 0 4 f.src3 ++ BitVec.ofBool f.keep2 ++ f.src2 ++ BitVec.ofBool f.keep1 ++ f.src1
    entry (.vsel f) 2 3 (fun k => if on k then src 2 k else second k) 0 ∧
    reduces (.vredsum f) (sumLanes fmt f.ty (active L)) ∧
    reduces (.vredmax f) (extremeLanes fmt f.ty true (active L)) ∧
    reduces (.vredmin f) (extremeLanes fmt f.ty false (active L)) ∧
    entry (.vscan f) 1 8 (fun k => if on k then (sums k).1 else 0)
      ((List.range L).foldl (fun fl k => if on k then fl ||| (sums k).2 else fl) 0) ∧
    moves (.vperm f) 2 4 (fun k => if f.modf.getLsbD 0 ∧ L ≤ second k then 0 else src 2 (second k % L)) ∧
    moves (.vslide f) (if f.modf.getLsbD 5 then 3 else 2) 4 (fun k =>
      let n := if f.modf.getLsbD 5 then 3 else 2
      let j := k + amount 2 n
      if j < L then src n j else if j < 2 * L then laneOf w (j - L) ((heads (vSrc f n) s).getD 1 0) else 0) ∧
    moves (.vbcast f) (if f.modf.getLsbD 5 then 2 else 1) 4 (fun _ =>
      src (if f.modf.getLsbD 5 then 2 else 1) (amount 1 (if f.modf.getLsbD 5 then 2 else 1))) ∧
    moves (.vdup f) 1 3 (fun k => src 1 (part * (L / factor) + k / factor)) ∧
    moves (.vdrop f) 1 3 (fun k => if k < L / factor then src 1 (k * factor + part) else 0) ∧
    moves (.viota f) 0 3 (fun k => if tyFloat f.ty then (intToF (floatFmt f.ty) 0 (k : Int)).1.toNat else k) ∧
    moves (.vmovi f) 0 3 (fun _ => if f.ty = 10 ∨ f.ty = 11 then (intToF (floatFmt f.ty) 0 imm.toInt).1.toNat
      else (imm.toInt % 2 ^ w).toNat) ∧
    (lone (.vcvt f) s = true →
      let dst : BitVec 4 := bits 0 4 f.modf
      let p := (bits 4 2 f.modf : BitVec 2).toNat
      let lo := laneCount dst
      let conv := fun (k : Nat) => cvtLane fmt f.ty dst (src 1 k)
      let res := fun (k : Nat) => if w < tyWidth dst then conv (p * lo + k)
        else if p * L ≤ k ∧ k < p * L + L then conv (k - p * L) else (0, 0)
      let onDst := laneOn dst m
      ∃ v : BitVec 1024, (∀ k, k < lo → laneOf (tyWidth dst) k v = if onDst k then (res k).1 % 2 ^ tyWidth dst else 0) ∧
        exec (.vcvt f) s = .next (vectorAnswers (.vcvt f) (vSrc f 1) f.dst v
          ((List.range lo).foldl (fun fl k => if onDst k then fl ||| (res k).2 else fl) 0) 4 s))

/-- R201, R211, R212, R213 to R217: comparisons, lengths, mask logic and the X slot of a lone bundle. -/
def Obligations.MaskResultsAndXSlotTransfers : Prop :=
  ∀ (f : VF) (s : State), quiet s = true →
    let w := tyWidth f.ty
    let popped := fun (i : Instr) (n : Nat) => popSources (vSrc f n) (passed [i] s)
    let mask := fun (i : Instr) (v : BitVec 128) => lone i s = true → exec i s = .next (givesM i (bits 0 3 f.dst) v 0 3 s)
    let m1 := mReg (bits 0 3 f.src1) s
    let m2 := mReg (bits 0 3 f.src2) s
    mask (.mand f) (m1 &&& m2) ∧ mask (.mor f) (m1 ||| m2) ∧ mask (.mnot f) (~~~m1) ∧
    (lone (.vcmp f) s = true → sourcesReady (vSrc f 2) s = true →
      let on := laneOn f.ty (mReg f.mask s)
      let res := fun k => cmpLane s.cur.sys.fmt f.ty f.modf.toNat (laneOf w k ((heads (vSrc f 2) s).getD 0 0))
        (laneOf w k ((heads (vSrc f 2) s).getD 1 0))
      let fl : Flags := (List.range (laneCount f.ty)).foldl (fun fl k => if on k then fl ||| (res k).2 else fl) 0
      ∃ v : BitVec 128, (∀ k, k < 128 → v.getLsbD k = (decide (k < laneCount f.ty) && on k && (res k).1)) ∧
        exec (.vcmp f) s = .next (
          if headsTag (vSrc f 2) s then traps (.vcmp f) .poison 0 0 s
          else if enabledFlags fl s ≠ 0 then traps (.vcmp f) .fpException ((bits 0 6 fl : BitVec 6).setWidth 8) 0 s
          else underWay (.m (bits 0 3 f.dst)) v false fl (s.core.cycle + 3) (popped (.vcmp f) 2))) ∧
    (lone (.vlen f) s = true → sourcesReady (vSrc f 1) s = true →
      let n := min (laneOf 64 0 ((heads (vSrc f 1) s).getD 0 0)) (laneCount f.ty)
      ∃ v : BitVec 128, (∀ k, k < 128 → v.getLsbD k = decide ((if f.ty = 13 then 2 * k else k) < n)) ∧
        exec (.vlen f) s = .next (if headsTag (vSrc f 1) s then traps (.vlen f) .poison 0 0 s
          else underWay (.m (bits 0 3 f.dst)) v false 0 (s.core.cycle + 3) (popped (.vlen f) 1))) ∧
    (∀ x : XsvF, lone (.xsv x) s = true →
      let g := gReg x.pair s
      ∃ v : BitVec 1024, (x.sel = 0 → ∀ k, k < 16 → laneOf 64 k v = g.toNat) ∧
        (x.sel = 1 → ∀ k, k < 32 → laneOf 32 k v = g.toNat % 2 ^ 32) ∧ (x.sel = 2 → v = g.setWidth 1024) ∧
        exec (.xsv x) s = .next (if roomIn x.pair [] s then pushes (.xsv x) [] x.pair v (gTag x.pair s) 0 3 s
          else traps (.xsv x) .queueOverflow 0 0 s)) ∧
    (∀ x : XkmF, lone (.xkm x) s = true → exec (.xkm x) s =
      .next (givesM (.xkm x) x.mask (if kReg x.pred s then BitVec.allOnes 128 else 0) 0 3 s)) ∧
    (∀ x : XvsF, lone (.xvs x) s = true →
      let e := headBits x.pair s
      let lane : Word := match x.width.toNat with
        | 0 => BitVec.ofNat 64 (laneOf 32 x.lane.toNat e)
        | 1 => (BitVec.ofNat 32 (laneOf 32 x.lane.toNat e)).signExtend 64
        | _ => BitVec.ofNat 64 (laneOf 64 x.lane.toNat e)
      exec (.xvs x) s = .next (if s.cur.queue x.pair = [] then traps (.xvs x) .queueUnderflow 0 0 s
        else underWay (.g x.pair) (lane.setWidth 128) (headTag x.pair s) 0 (s.core.cycle + 3)
          (popSources [(x.pair, x.keep)] (passed [.xvs x] s)))) ∧
    (∀ x : XmkF, lone (.xmk x) s = true → exec (.xmk x) s = .next (givesK (.xmk x) x.pred
      (if x.all then (List.range 128).all (fun k => (mReg x.mask s).getLsbD k)
       else (List.range 128).any (fun k => (mReg x.mask s).getLsbD k)) 0 3 s))

/-! ## Control flow -/

/-- R30, R31: the leaf that each of the eight shapes takes, and the nodes on its path; `h k` tells that TEST k + 1 holds.  The
path starts at node 1, node n (the k-th testing node) has children 2k and 2k + 1, and the leaves take OFF0 upward in node order. -/
def Obligations.ConditionTreePathsAndTargets : Prop :=
  ∀ (t : TreeF) (pred : Nat → BitVec 4 → Bool),
    let test := fun (k : Nat) => match k with | 0 => t.test1 | 1 => t.test2 | 2 => t.test3 | _ => t.test4
    let h := fun (k : Nat) => xor (pred k (((test k).setWidth 3).setWidth 4)) ((test k).getLsbD 3)
    let takes := fun (p : List Nat) (off : BitVec 14) =>
      treePath t pred = p ∧ treeOff t (leafTaken t (treePath t pred)) = off
    match t.shape.toNat with
    | 0 => takes [1] t.off0
    | 1 => if h 0 then takes [1, 2] t.off0 else takes [1, 3] t.off1
    | 2 => if h 0 then (if h 1 then takes [1, 2, 4] t.off1 else takes [1, 2, 5] t.off2) else takes [1, 3] t.off0
    | 3 => if h 0 then takes [1, 2] t.off0 else (if h 1 then takes [1, 3, 4] t.off1 else takes [1, 3, 5] t.off2)
    | 4 => if h 0 then (if h 1 then takes [1, 2, 4] t.off0 else takes [1, 2, 5] t.off1)
           else (if h 2 then takes [1, 3, 6] t.off2 else takes [1, 3, 7] t.off3)
    | 5 => if h 0 then (if h 1 then (if h 2 then takes [1, 2, 4, 6] t.off2 else takes [1, 2, 4, 7] t.off3)
             else takes [1, 2, 5] t.off1) else takes [1, 3] t.off0
    | 6 => if h 0 then takes [1, 2] t.off0 else (if h 1 then takes [1, 3, 4] t.off1
             else (if h 2 then takes [1, 3, 5, 6] t.off2 else takes [1, 3, 5, 7] t.off3))
    | _ => if h 0 then (if h 1 then (if h 3 then takes [1, 2, 4, 8] t.off3 else takes [1, 2, 4, 9] t.off4)
             else takes [1, 2, 5] t.off0)
           else (if h 2 then takes [1, 3, 6] t.off1 else takes [1, 3, 7] t.off2)

/-- R86, R88, R89, R93: the transfers of a lone bundle.  A target outside 0 to 2^56 − 1 traps with fetch fault and FADDR the
target; else the context continues at the target and every loop level ends.  `jmpr` needs a line address, `ret` takes any. -/
def Obligations.ControlTransfers : Prop :=
  ∀ (s : State), quiet s = true →
    let line : Int := (s.pc.toNat / 64 * 64 : Nat)
    let goes := fun (i : Instr) (target : Int) (t : State) => lone i s = true → exec i s = .next (
      if 0 ≤ target ∧ target < 2 ^ 56 then t.modFlow (fun (w : FlowCtx) => { w with pc := BitVec.ofInt 64 target, levels := [] })
      else traps i .fetchFault 0 (BitVec.ofInt 64 target) s)
    (∀ off, goes (.jmp off) (line + 64 * off.toInt) (passed [.jmp off] s)) ∧
    (∀ off, goes (.call off) (line + 64 * off.toInt)
      (landed (.g 31) ((s.nextPc [.call off]).setWidth 128) false 0 (passed [.call off] s))) ∧
    (∀ r : GP, gTag r.reg s = false → (bits 0 6 (gReg r.reg s) : BitVec 6) = 0 →
      goes (.jmpr r) (gReg r.reg s).toNat (passed [.jmpr r] s)) ∧
    (∀ r : GP, lone (.jmpr r) s = true → gTag r.reg s = false → (bits 0 6 (gReg r.reg s) : BitVec 6) ≠ 0 →
      exec (.jmpr r) s = .next (traps (.jmpr r) .misalignedTarget 0 0 s)) ∧
    (∀ r : GP, gTag r.reg s = false → goes (.ret r) (gReg r.reg s).toNat (passed [.ret r] s)) ∧
    (∀ r : GP, gTag r.reg s = true → (lone (.jmpr r) s = true → exec (.jmpr r) s = .next (traps (.jmpr r) .poison 0 0 s)) ∧
      (lone (.ret r) s = true → exec (.ret r) s = .next (traps (.ret r) .poison 0 0 s))) ∧
    (∀ t : TreeF,
      let off := treeOff t (leafTaken t (treePath t (fun _ r => kReg r s)))
      (off = 0 → lone (.tree t) s = true → exec (.tree t) s = .next (passed [.tree t] s)) ∧
      (off ≠ 0 → goes (.tree t) (line + 64 * off.toInt) (passed [.tree t] s)))

/-- R90, R91, R92: a lone `loop` opens a level over the next bundles, with its last bundle where their lines can be fetched,
passes over the body where its count is 0 (one cycle for each line that holds part of it), or traps with loop nest. R91,
R92: what the commit of a bundle does to the open loop levels: before the last bundle of the innermost body, at it with
passes left, at its last pass, and where the enclosing body ends there too.
A commit opens and closes levels by the bundle at which it stands (log entry 31); a body of count 0 that holds a bad line, and
one that ends with the enclosing body, follow log entry 38. -/
def Obligations.LoopsOpenAndAdvance : Prop :=
  (∀ (len : BitVec 6) (s : State), quiet s = true →
     let n := if len = 0 then 64 else len.toNat
     let nested := match s.cur.flow.levels with
       | [] => True
       | [o] => ∀ k, (bodyAt s o.len o.first).1.findIdx? (fun a => a == s.pc.toNat) = some k → k + 1 + n ≤ o.len
       | _ => False
     let opens := fun (i : Instr) (count : Nat) => lone i s = true →
       (¬nested → exec i s = .next (traps i .loopNest 0 0 s)) ∧
       (nested → 0 < count → exec i s = .next (does i (State.modFlow (fun (w : FlowCtx) =>
         { w with levels := { first := s.nextPc [i], len := n, last := lastBundle s n (s.nextPc [i]), left := count } :: w.levels })) s)) ∧
       (nested → count = 0 → ∀ l a, bodyAt s n (s.nextPc [i]) = (l, .at_ a) →
         ∃ t, exec i s = .next t ∧ t.core.cycle = s.core.cycle + 1 + (l.map (fun x => x / 64)).dedup.length ∧
           (s.cur.flow.levels = [] → t.pc = BitVec.ofNat 64 a ∧ t.cur.flow.levels = [])) ∧
       (nested → count = 0 → ∀ l, (bodyAt s n (s.nextPc [i])).2 = .fault l →
         exec i s = .next (traps i .fetchFault 0 (BitVec.ofNat 64 l) s))
     (∀ c : BitVec 16, opens (.loopImmediate c len) c.toNat) ∧
     (∀ r : GP, gTag r.reg s = false → opens (.loopRegister r len) (bits 0 32 (gReg r.reg s) : BitVec 32).toNat) ∧
     (∀ r : GP, gTag r.reg s = true → lone (.loopRegister r len) s = true →
       exec (.loopRegister r len) s = .next (traps (.loopRegister r len) .poison 0 0 s))) ∧
  (∀ (next : Word) (w : FlowCtx) (o p : Level),
     let goes := fun (pc : Word) (ls : List Level) =>
       (advanceFlow next w).pc = pc ∧ (advanceFlow next w).levels = ls
     (w.levels = [] → goes next []) ∧
     (∀ r, w.levels = o :: r → o.last ≠ some w.pc → goes next (o :: r)) ∧
     (w.levels = [o] → o.last = some w.pc → 1 < o.left → goes o.first [{ o with left := o.left - 1 }]) ∧
     (w.levels = [o] → o.last = some w.pc → o.left ≤ 1 → goes next []) ∧
     (w.levels = [o, p] → o.last = some w.pc → 1 < o.left → p.last ≠ some w.pc →
       goes o.first [{ o with left := o.left - 1 }, p]) ∧
     (w.levels = [o, p] → o.last = some w.pc → 1 < o.left → p.last = some w.pc →
       goes o.first [{ o with left := o.left - 1 }, { p with left := p.left - 1 }]) ∧
     (w.levels = [o, p] → o.last = some w.pc → o.left ≤ 1 → p.last ≠ some w.pc → goes next [p]) ∧
     (w.levels = [o, p] → o.last = some w.pc → o.left ≤ 1 → p.last = some w.pc → 1 < p.left →
       goes p.first [{ p with left := p.left - 1 }]) ∧
     (w.levels = [o, p] → o.last = some w.pc → o.left ≤ 1 → p.last = some w.pc → p.left ≤ 1 → goes next []))

/-- R96, R97, R99, R102: `yield` zeroes the watchdog count and passes the issue path to the first ready context after its own;
`phint` without a request names the hint in force, and with one the context is saved, or traps at a faulty liveness entry (R141);
`sysc`, once no earlier acquire stands, enqueues a notice and waits for its service flag, keeping the issue path where the flag
holds its count already; `succ` marks its task's set, once, and a rebuild's has no effect (R334). -/
def Obligations.YieldHintServiceAndSuccessor : Prop :=
  ∀ (s : State), quiet s = true →
    let pick := fun (t : State) => let x := t.core.sel
      if readyCtx (x + 1) t then focusCtx (x + 1) t else if readyCtx (x + 2) t then focusCtx (x + 2) t
      else if readyCtx (x + 3) t then focusCtx (x + 3) t else t
    let waits := fun (t : State) => if t.core.flagMet t.core.sel (28 + t.core.sel.setWidth 5) 1 then t else pick t
    (lone .yield s = true → exec .yield s = .next (pick (does .yield (State.modSys (fun (y : SysCtx) =>
      { y with wdCount := 0, wdSince := s.core.cycle + 1 })) s))) ∧
    (∀ f : PhintF, lone (.phint f) s = true →
      (s.cur.flow.preempt = false ∨ s.cur.sys.handler = true → exec (.phint f) s = .next (does (.phint f)
        (State.modFlow (fun (w : FlowCtx) => { w with hint := some { f := f } })) s)) ∧
      (s.cur.flow.preempt = true → s.cur.sys.handler = false → liveRanges f.index s = none →
        exec (.phint f) s = .next (traps (.phint f) .livenessEntry 0 0 s)) ∧
      (s.cur.flow.preempt = true → s.cur.sys.handler = false → (liveRanges f.index s).isSome = true → settled s = true →
        ∃ t v, exec (.phint f) s = .next t ∧ t.cur.flow.residency = .saving ∧ t.cur.flow.preempt = false ∧
          v ∈ t.die.queues.saved ∧ v.home = s.curId ∧ v.saving = true ∧ v.index = s.die.queues.serial)) ∧
    (∀ code : BitVec 8, lone (.sysc code) s = true → s.acquireHeld = false →
      let tagged := gTag 1 s || gTag 2 s || gTag 3 s || gTag 4 s
      let who := match s.cur.flow.task with
        | some t => (if t.notice then (0 : BitVec 32) else pktSetid t.packet, t.x, t.y, t.z)
        | none => (0, 0, 0, 0)
      let n := mkNotice 2 code { a0 := s.nextPc [.sysc code], a1 := gReg 1 s, a2 := gReg 2 s, a3 := gReg 3 s, a4 := gReg 4 s }
        who.1 who.2.1 who.2.2.1 who.2.2.2 (rankOf s.curId) s.die.queues.noticeSeq (BitVec.ofNat 64 s.timeNs)
      (tagged = true → exec (.sysc code) s = .next (traps (.sysc code) .poison 0 0 s)) ∧
      (tagged = false → 4096 ≤ s.die.queues.notices.length → exec (.sysc code) s = .next (traps (.sysc code) .queueFull 0 0 s)) ∧
      (tagged = false → s.die.queues.notices.length < 4096 → exec (.sysc code) s = .next (waits (does (.sysc code) (fun t =>
        (((t.modQueues (fun (q : Queues) => { q with notices := q.notices ++ [n], noticeSeq := q.noticeSeq + 1 })).modFlow
          (fun (w : FlowCtx) => { w with serviceWait := some (s.nextPc [.sysc code]) })).modCore
            (Core.addWaiter s.core.sel (28 + s.core.sel.setWidth 5) 1))) s)))) ∧
    (∀ t : TaskRef, lone .succ s = true → s.cur.flow.task = some t → t.rebuild = none → t.notice = false →
      exec .succ s = .next (does .succ (fun u => if s.cur.flow.succDone then u else
        (u.modFlow (fun (w : FlowCtx) => { w with succDone := true })).modQueues (fun (q : Queues) =>
          { q with sets := q.sets.map (fun (e : SetEntry) => if e.inst = t.inst then { e with succ := true } else e) })) s)) ∧
    (lone .succ s = true → s.isRebuild = true → exec .succ s = .next (passed [.succ] s))

/-! ## Traps -/

/-- R122, R124, R127, R128, R131, R132: a trap of a lone bundle that goes to a handler: nothing commits, the record is
written, TRAPINFO holds the bundle's pc as the return point, the open levels are kept, and the context continues at
TVEC. R98, R100, R124: `trap` commits its bundle and enters the handler with its code in AUX and NEXT as the return
point; `eret` outside handler state traps, and in it continues at TRAPINFO.RET with the kept levels open.
NEXT as the return point of a software trap at a loop's end and the TIME of a record are the model's readings (log entries 26 and 32). -/
def Obligations.TrapEntryAndReturn : Prop :=
  (∀ (i : Instr) (c : Cause) (aux : BitVec 8) (faddr : Word) (s : State), quiet s = true → settled s = true →
     handled c s = true →
     let log := (bundleBytes [i]).take 47
     traps i c aux faddr s =
       cycled (entered (infoNat log (causeNat c s) (slotBit i) aux faddr s.pc s.pc) (recorded log (causeNat c s) s.pc s))) ∧
  (∀ (s : State), quiet s = true →
     (∀ code : BitVec 8, lone (.trap code) s = true → settled s = true → handled .softwareTrap s = true →
       let log := (bundleBytes [.trap code]).take 47
       exec (.trap code) s = .next (entered (infoNat log (causeNat .softwareTrap s) 0 code 0 s.pc (s.nextPc [.trap code]))
         (recorded log (causeNat .softwareTrap s) s.pc (passed [.trap code] s)))) ∧
     (lone .eret s = true → s.cur.sys.handler = false → exec .eret s = .next (traps .eret .noHandler 0 0 s)) ∧
     (lone .eret s = true → s.cur.sys.handler = true → exec .eret s = .next (does .eret (fun t =>
       (t.modSys (fun (y : SysCtx) => { y with handler := false })).modFlow (fun (w : FlowCtx) =>
         { w with levels := s.cur.flow.kept, kept := [], pc := BitVec.ofNat 64 (s.cur.sys.trapinfo.toNat / 2 ^ 128 % 2 ^ 56) })) s)))

/-- R128, R129: a trap that goes to no handler (class X, handler state, TVEC 0) retires the task faulted: its record is
written, a fault notice with the cause is enqueued, its publication stands as faulted, and the context, no slot of
which is held, becomes free. R101: `done` waits while array work of its context is in progress or has to be resumed; else the task retires
with status done, its publication stands, and the context, no slot of which is held, becomes free.
The TIME of a record is the model's reading (log entry 32). -/
def Obligations.TaskRetirement : Prop :=
  (∀ (i : Instr) (c : Cause) (aux : BitVec 8) (faddr : Word) (s : State) (k : TaskRef), quiet s = true → settled s = true →
     s.cur.flow.task = some k → k.notice = false → k.pour = false →
     (0x19 ≤ c.code.toNat ∨ s.cur.sys.handler = true ∨ s.cur.sys.tvec = 0) →
     s.cur.flow.region = none → (∀ r ∈ s.die.rings, ∀ x ∈ r.owners, x.2 ≠ k.serial) → s.core.prefetch = [] →
     s.cur.flow.slots.all (fun (x : Slot) => !x.held) = true → s.die.queues.notices.length < 4096 →
     let t := traps i c aux faddr s
     let log := (bundleBytes [i]).take 47
     t.cur.flow.residency = .free ∧ t.cur.flow.task = none ∧
     t.die.trapLog = (recorded log (causeNat c s) s.pc s).die.trapLog ∧
     t.die.trapCount = s.die.trapCount + 1 ∧ t.core.seq = s.core.seq + 1 ∧
     (∃ n, t.die.queues.notices = s.die.queues.notices ++ [n] ∧ noticeKind n = 1 ∧
       (bits 64 8 n : BitVec 8).toNat = causeNat c s ∧ (bits 192 64 n : BitVec 64).toNat = s.die.trapCount % 65536) ∧
     t.die.queues.publications = s.die.queues.publications ++ [{ key := k.serial, owner := s.curId, ref := k, faulted := true }]) ∧
  (∀ (s : State) (k : TaskRef), quiet s = true → lone .done s = true → s.cur.flow.task = some k → k.notice = false →
     k.pour = false →
     (s.doneHeld = true → exec .done s = .next (does .done (State.modFlow (fun (w : FlowCtx) => { w with doneWait := true })) s)) ∧
     (s.doneHeld = false → s.cur.flow.residency = .running → s.cur.flow.region = none →
       (∀ r ∈ s.die.rings, ∀ x ∈ r.owners, x.2 ≠ k.serial) → s.core.prefetch = [] →
       s.cur.flow.slots.all (fun (x : Slot) => !x.held) = true → (∀ p ∈ s.die.queues.publications, p.key ≠ k.serial) →
       ∃ t, exec .done s = .next t ∧ t.cur.flow.residency = .free ∧ t.cur.flow.task = none ∧
         t.die.queues.publications = s.die.queues.publications ++ [{ key := k.serial, owner := s.curId, ref := k, faulted := false }] ∧
         t.die.queues.notices = s.die.queues.notices ∧ t.die.trapCount = s.die.trapCount))

/-- R104: `wdog` in a lone bundle in supervisor mode: ACT in bits 63 and 62 of the operand acts on the watchdog of context CTX of
the issuing core; a reserved bit traps with operand value, a poisoned operand with poison.  An expiry during a save is
latched (R147). -/
def Obligations.WatchdogActions : Prop :=
  ∀ (r : GP) (s : State), quiet s = true →
    let v := gReg r.reg s
    let target : CtxId := { core := s.core.id, ctx := bits 0 2 v }
    let now := s.core.cycle
    let act := fun (x : Ctx) => match (bits 62 2 v : BitVec 2).toNat with
      | 0 => x.modSys (fun (y : SysCtx) => { y with wdArmed := now, wdCount := 0, wdSince := now })
      | 1 => x.modSys (fun (y : SysCtx) =>
        { y with wdArmed := now, wdCount := x.wdValue now, wdSince := now, wdSuspended := true })
      | 2 => x.modSys (fun (y : SysCtx) =>
        { y with wdArmed := now, wdCount := x.wdValue now, wdSince := now, wdSuspended := false })
      | _ => x.modSys (fun (y : SysCtx) => { y with wdArmed := now, wdForced := true })
    let x := ctxAt target s
    let out := (bits 62 2 v : BitVec 2) = 3 ∨ x.sys.wdForced = true ∨ (x.sys.wdlim ≠ 0 ∧ x.sys.wdlim.toNat ≤ x.wdValue now)
    let latch := fun (t : State) =>
      if out ∧ x.flow.residency = .saving then t.modQueues (fun (q : Queues) =>
        { q with saved := q.saved.map (fun (v : Saved) => if v.home = target ∧ v.saving then { v with expired := true } else v) })
      else if out ∧ x.flow.saveWait.isSome then
        modCtxAt target (Ctx.modSys (fun (y : SysCtx) => { y with wdForced := true })) t
      else t
    let acts := fun (i : Instr) => lone i s = true → exec i s = .next (
      if gTag r.reg s then traps i .poison 0 0 s else if (bits 2 60 v : BitVec 60) ≠ 0 then traps i .operandValue 0 0 s
      else does i (fun t => modCtxAt target act (latch t)) s)
    acts (.wdogSetZero r) ∧ acts (.wdogSuspend r) ∧ acts (.wdogResume r) ∧ acts (.wdogExpire r)

/-- R103, R305: `spawn` and `launch` in a lone bundle: a poisoned or misaligned address, a failed read and a failed check trap; a
packet that passes every check of R303 to R309 and finds room is taken: the set of a launched packet is known on a die that its
mask names, and a spawned task stands last in its bank.  In a rebuild neither has an effect (R334).
What other dies find in a packet is outside the model, and the cause of a failed read follows log entries 17 and 35. -/
def Obligations.SpawnAndLaunch : Prop :=
  ∀ (r : GP) (s : State), quiet s = true →
    let a := gReg r.reg s
    let read := readVirtual s.cur.sys.asid s.user a.toNat 64 s
    let early := fun (i : Instr) => lone i s = true →
      (s.isRebuild = true → exec i s = .next (passed [i] s)) ∧
      (s.isRebuild = false → gTag r.reg s = true → exec i s = .next (traps i .poison 0 0 s)) ∧
      (s.isRebuild = false → gTag r.reg s = false → (bits 0 6 a : BitVec 6) ≠ 0 →
        exec i s = .next (traps i .misalignedOperand 0 0 s)) ∧
      (s.isRebuild = false → gTag r.reg s = false → (bits 0 6 a : BitVec 6) = 0 → ∀ va,
        (read = .fail .translation va → exec i s = .next (traps i .translationFault 0 (BitVec.ofNat 64 va) s)) ∧
        (read = .fail .permission va → exec i s = .next (traps i .permissionFault 0 (BitVec.ofNat 64 va) s)))
    early (.spawn r) ∧ early (.launch r) ∧
    (∀ bs, s.isRebuild = false → gTag r.reg s = false → (bits 0 6 a : BitVec 6) = 0 → read = .ok bs →
      let p := BitVec.ofNat 512 (leNat bs)
      let full := bankFull (pktBank p) s
      (lone (.launch r) s = true →
        (∀ c, launchCheck p false s = .error c → exec (.launch r) s = .next (traps (.launch r) c.1 0 c.2 s)) ∧
        (∀ h, launchCheck p false s = .ok h →
          let mine := ownInMask (platDmask h) s
          let running := heldSet (pktSetid p) s
          (mine = true → running = true → exec (.launch r) s = .next (traps (.launch r) .operandValue 0 0 s)) ∧
          ((mine && running) = false → ((mine && s.setsFull) || full) = true →
            exec (.launch r) s = .next (traps (.launch r) .queueFull 0 0 s)) ∧
          (mine = true → running = false → (s.setsFull || full) = false → ∃ t, exec (.launch r) s = .next t ∧
            ∃ e ∈ t.die.queues.sets, e.packet = p ∧ e.here = true) ∧
          (mine = false → full = false → ∃ t, exec (.launch r) s = .next t ∧ t.die.queues = s.die.queues))) ∧
      (lone (.spawn r) s = true → ∀ h e, launchCheck p true s = .ok h →
        platEntry p h (pktGx p).toNat (pktGy p).toNat (pktGz p).toNat s = .ok e →
        (entryOk e (platDmask h) s = false ∨ entHome e ≠ s.die.coord →
          exec (.spawn r) s = .next (traps (.spawn r) .operandValue 0 0 s)) ∧
        (entryOk e (platDmask h) s = true → entHome e = s.die.coord → full = true →
          exec (.spawn r) s = .next (traps (.spawn r) .queueFull 0 0 s)) ∧
        (entryOk e (platDmask h) s = true → entHome e = s.die.coord → full = false →
          ((trackedSet (pktSetid p) s).isSome = true ∨ s.setsFull = false) → ∃ t, exec (.spawn r) s = .next t ∧
          (trackedSet (pktSetid p) s = none → pktPredid p = 0 → (∀ x ∈ s.die.queues.sets, x.inst ≤ s.die.queues.serial) →
            ∃ q, t.die.queues.tasks = s.die.queues.tasks ++ [q] ∧ q.ref.packet = p ∧ q.ref.x = pktGx p ∧ q.ref.y = pktGy p ∧
              q.ref.z = pktGz p ∧ q.bank = pktBank p ∧ q.pri = pktPri p))))

/-! ## Flags and barriers -/

/-- R182, R183: the S slot in a lone bundle, once no earlier acquire of its task stands (R236): a post adds and
saturates; a wait whose count the flag meets, with no earlier waiter, takes the count, and any other enters the flag's queue; the
arrival that completes a generation of the barrier releases it, an earlier one waits, one with another count traps; `rsync` posts
at once where no L-slot operation of its task is uncompleted, and else leaves an operation that will. -/
def Obligations.FlagAndBarrierInstructions : Prop :=
  ∀ (f : SF) (s : State), quiet s = true → s.acquireHeld = false →
    let c := if f.count = 0 then 8 else f.count.toNat
    let x := s.core.sel
    let value := s.core.f[f.flag.toNat]
    let post := fun (t : State) => t.modCore (fun (k : Core) =>
      { k with f := k.f.set f.flag.toNat (BitVec.ofNat 16 (min (value.toNat + c) 65535)) })
    (lone (.pflag f) s = true → exec (.pflag f) s = .next (does (.pflag f) post s)) ∧
    (lone (.wflag f) s = true → s.cur.flow.flagGrant = some s.pc →
      exec (.wflag f) s = .next (does (.wflag f) (State.modFlow (fun (w : FlowCtx) => { w with flagGrant := none })) s)) ∧
    (lone (.wflag f) s = true → s.cur.flow.flagGrant ≠ some s.pc → s.core.waiters.all (fun (w : Waiter) => w.flag != f.flag) = true →
      (c ≤ value.toNat → exec (.wflag f) s = .next (does (.wflag f) (State.modCore (fun (k : Core) =>
        { k with f := k.f.set f.flag.toNat (BitVec.ofNat 16 (value.toNat - c)) })) s)) ∧
      (value.toNat < c → exec (.wflag f) s = .next (waitEngine (s.modCore (fun (k : Core) =>
        { k with waiters := k.waiters ++ [{ ctx := x, flag := f.flag, count := BitVec.ofNat 16 c }] }))))) ∧
    (lone (.bar f) s = true → s.cur.flow.barGrant = some s.pc →
      exec (.bar f) s = .next (does (.bar f) (State.modFlow (fun (w : FlowCtx) => { w with barGrant := none })) s)) ∧
    (lone (.bar f) s = true → s.cur.flow.barGrant ≠ some s.pc → s.cur.flow.barWaiting ≠ some s.pc →
      let b : Barrier := match s.cluster.barrier with | some b => b | none => { count := c, arrived := [] }
      (b.count ≠ c → exec (.bar f) s = .next (traps (.bar f) .operandValue 0 0 s)) ∧
      (b.count = c → b.arrived.length + 1 < c → exec (.bar f) s = .next (waitEngine
        ((s.modCluster (fun (k : Cluster) => { k with barrier := some { b with arrived := b.arrived ++ [s.curId] } })).modFlow
          (fun (w : FlowCtx) => { w with barWaiting := some s.pc })))) ∧
      (b.count = c → c ≤ b.arrived.length + 1 → ∃ t, exec (.bar f) s = .next t ∧ t.cluster.barrier = none ∧
        ∀ y ∈ b.arrived, y ≠ s.curId → (ctxAt y s).flow.barWaiting.isSome = true →
          (ctxAt y t).flow.barGrant = (ctxAt y s).flow.barWaiting ∧ (ctxAt y t).flow.barWaiting = none)) ∧
    (lone (.rsync f) s = true →
      let ids := (s.taskOps.filter (fun (o : Op) => o.counted || o.isFence)).map (fun (o : Op) => o.id)
      (ids = [] → exec (.rsync f) s = .next (does (.rsync f) post s)) ∧
      (ids ≠ [] → exec (.rsync f) s = .next (begins (.rsync f)
        { mkOp (.rsync f.flag (BitVec.ofNat 16 c) ids) s with counted := false, post := some f.flag } s)))

/-! ## The matrix array -/

/-- R251, R252, R254: `mpush` into E or ES, with its checks, `mshift` by lanes, and `mzero`; no other work stands on the
array. -/
def Obligations.OperandPushShiftAndZero : Prop :=
  ∀ (f : MF) (s : State), quiet s = true → s.core.fact = none →
    let a := s.cur.arr
    let high := f.modf.getLsbD 0
    let keep := f.modf.getLsbD 1
    let scale := f.modf.getLsbD 2
    let v := headBits f.queue s
    let tag := headTag f.queue s
    let after := fun (e : ArrayCtx) => does (.mpush f) (fun t => (popUnless keep f.queue t).modArr (fun _ => e)) s
    (lone (.mpush f) s = true → high = true → (bits 8 4 s.cur.sys.fmt : BitVec 4) ≠ 11 →
      exec (.mpush f) s = .next (traps (.mpush f) .operandValue 0 0 s)) ∧
    (lone (.mpush f) s = true → (high = true → (bits 8 4 s.cur.sys.fmt : BitVec 4) = 11) →
      (s.cur.queue f.queue = [] → exec (.mpush f) s = .next (traps (.mpush f) .queueUnderflow 0 0 s)) ∧
      (s.cur.queue f.queue ≠ [] →
        (scale = true → tag = true → exec (.mpush f) s = .next (traps (.mpush f) .poison 0 0 s)) ∧
        (scale = true → tag = false → exec (.mpush f) s = .next (after { a with es := bits 0 32 v })) ∧
        (scale = false → high = true → exec (.mpush f) s = .next (after
          { a with e := BitVec.ofNat 2048 (v.toNat * 2 ^ 1024 + a.e.toNat % 2 ^ 1024), ePoison := a.ePoison || tag })) ∧
        (scale = false → high = false → exec (.mpush f) s = .next (after
          { a with e := BitVec.ofNat 2048 v.toNat, ePoison := tag })))) ∧
    (lone (.mshift f) s = true → ∃ e : BitVec 2048,
      exec (.mshift f) s = .next (does (.mshift f) (State.modArr (fun (x : ArrayCtx) => { x with e := e })) s) ∧
      ∀ i, i < eCount s.cur.sys.fmt →
        let n := (bits 1 7 f.modf : BitVec 7).toNat
        let w := eWidth s.cur.sys.fmt
        let lane := fun (k : Nat) (x : BitVec 2048) => x.toNat / 2 ^ (w * k) % 2 ^ w
        lane i e = if f.modf.getLsbD 0 then (if i + n < eCount s.cur.sys.fmt then lane (i + n) a.e else 0)
                   else (if i < n then 0 else lane (i - n) a.e)) ∧
    (lone (.mzero f) s = true → s.planeHeld f.plane = false →
      ∃ p : Plane, exec (.mzero f) s = .next (does (.mzero f) (State.modCore (fun (k : Core) =>
          { k with planes := k.planes.set f.plane.toNat p })) s) ∧ p.kind = accKind s.cur.sys.fmt ∧
        ∀ r j, (rowAt p r).poison = false ∧ (rowAt p r).pair = none ∧
          elemAt p r j = if p.kind = .residue then .res 0 0 0 false 0 else .fp 0 false false)

/-- R68, R70, R71, R250, R253: a single `macc` beat: its checks, the row it writes, the residue arithmetic element by
element (`term` is a product, 0 where a factor is NaV), the row's tag and scale pair. In floating modes an element is
that of `maccFloat` (R81, log entry 8). R72: the three residues of an integer from −8,257,920 to 8,257,919 give that
integer back. -/
def Obligations.MultiplyAccumulateBeats : Prop :=
  (∀ (f : MF) (s : State), quiet s = true → s.core.fact = none → lone (.macc f) s = true → s.planeHeld f.plane = false →
     let fmt := s.cur.sys.fmt
     let c := f.caddr.toNat
     s.copeAwaited c (tileUnits fmt) = false → s.copeHeld c (tileUnits fmt) = false →
     let p := s.core.planes[f.plane.toNat]
     let first := f.modf.getLsbD 0
     let neg := f.modf.getLsbD 1
     let r := f.row.toNat
     let w := eWidth fmt
     let nav : Int := -(2 ^ (w - 1) : Nat)
     let e := fun (k : Nat) => signedOf w (eElem fmt k s)
     let b := fun (k j : Nat) => signedOf w (tileElem fmt c k j s)
     let term := fun (j k : Nat) => if e k = nav ∨ b k j = nav then 0 else e k * b k j
     let sum := fun (j : Nat) => (if neg then -1 else 1) * ((List.range (eCount fmt)).map (term j)).sum
     let fits := r < rowCount fmt ∧ c + tileUnits fmt ≤ 131072
     (¬fits → exec (.macc f) s = .next (traps (.macc f) .operandValue 0 0 s)) ∧
     (fits → first = false → p.kind ≠ accKind fmt → exec (.macc f) s = .next (traps (.macc f) .operandValue 0 0 s)) ∧
     (fits → (first = true ∨ p.kind = accKind fmt) →
       ∃ q : Plane, exec (.macc f) s = .next (does (.macc f) (State.modCore (fun (k : Core) =>
           { k with planes := k.planes.set f.plane.toNat q })) s) ∧ q.kind = accKind fmt ∧
         (p.kind = accKind fmt → ∀ x, x ≠ r → rowAt q x = rowAt p x) ∧
         (rowAt q r).poison = (tilePoison fmt c s || s.cur.arr.ePoison || (!first && (rowAt p r).poison)) ∧
         (fmtRes fmt = true → p.kind = accKind fmt →
           ((rowAt q r).pair = if first = true ∨ (rowAt p r).pair = none then some (s.cur.arr.es, copeScaleAt (c / 128) s)
             else (rowAt p r).pair) ∧
           ∀ j, j < rowCount fmt → ∀ x y z n t, elemAt p r j = .res x y z n t →
             elemAt q r j = .res
               (BitVec.ofInt 8 (((if first then 0 else (x.toNat : Int)) + sum j) % 253))
               (BitVec.ofInt 8 (((if first then 0 else (y.toNat : Int)) + sum j) % 255))
               (BitVec.ofInt 8 (((if first then 0 else (z.toNat : Int)) + sum j) % 256))
               ((!first && n) || (List.range (eCount fmt)).any (fun k => e k = nav ∨ b k j = nav))
               (BitVec.ofNat 20 (min ((if first then 0 else t.toNat) + eCount fmt) 1048575))) ∧
         (fmtRes fmt = false → p.kind = accKind fmt →
           ∀ j, j < rowCount fmt → elemAt q r j = (maccFloat fmt first neg c j (elemAt p r j) (rowAt p r).sums[j]? s).1))) ∧
  (∀ x : Int, -8257920 ≤ x → x < 8257920 →
     reconstruct (BitVec.ofInt 8 (x % 253)) (BitVec.ofInt 8 (x % 255)) (BitVec.ofInt 8 (x % 256)) = x)

/-- R52, R247, R250, R255 to R257: single beats of `mdrain`, which pushes one interlocked entry and leaves the row, and of `mfill`,
which writes one part of a row, with their checks; and a `rpt` bundle with `macc`: beats out of range trap with repeat range before
any of them issues; else the first has issued in the bundle's cycle, the second follows in the next, and the repeat window is open over
the n − 1 bundles that follow. -/
def Obligations.DrainFillAndRepeatedBeats : Prop :=
  (∀ (f : MF) (s : State), quiet s = true → s.core.fact = none → s.planeHeld f.plane = false →
     let fmt := s.cur.sys.fmt
     let p := s.core.planes[f.plane.toNat]
     let r := f.row.toNat
     let part := (bits 0 2 f.modf : BitVec 2).toNat
     let keep := f.modf.getLsbD 2
     (lone (.mdrain f) s = true →
       let d := drainEntry fmt p r part
       (¬(r < rowCount fmt ∧ p.kind = accKind fmt ∧ part < drainParts fmt) →
         exec (.mdrain f) s = .next (traps (.mdrain f) .operandValue 0 0 s)) ∧
       (r < rowCount fmt → p.kind = accKind fmt → part < drainParts fmt →
         (d.2.1 = false → enabledFlags d.2.2 s ≠ 0 → exec (.mdrain f) s =
           .next (traps (.mdrain f) .fpException ((bits 0 6 d.2.2 : BitVec 6).setWidth 8) 0 s)) ∧
         ((d.2.1 = true ∨ enabledFlags d.2.2 s = 0) → roomIn f.queue [] s = false →
           exec (.mdrain f) s = .next (traps (.mdrain f) .queueOverflow 0 0 s)) ∧
         ((d.2.1 = true ∨ enabledFlags d.2.2 s = 0) → roomIn f.queue [] s = true →
           exec (.mdrain f) s = .next ((begins (.mdrain f)
             { mkOp (.push f.queue d.1 d.2.1 (if d.2.1 then 0 else d.2.2)) s with counted := false, lo := s.core.cycle } s).pushOwed f.queue
               s.die.nextId)))) ∧
     (lone (.mfill f) s = true →
       let v := headBits f.queue s
       (r < rowCount fmt → part < fillParts fmt → (part = 0 ∨ p.kind = accKind fmt) → s.cur.queue f.queue = [] →
         exec (.mfill f) s = .next (traps (.mfill f) .queueUnderflow 0 0 s)) ∧
       (¬(r < rowCount fmt ∧ part < fillParts fmt ∧ (part = 0 ∨ p.kind = accKind fmt)) →
         exec (.mfill f) s = .next (traps (.mfill f) .operandValue 0 0 s)) ∧
       (r < rowCount fmt → part < fillParts fmt → (part = 0 ∨ p.kind = accKind fmt) → s.cur.queue f.queue ≠ [] →
         ∃ q : Plane, exec (.mfill f) s = .next (does (.mfill f) (fun t => (popUnless keep f.queue t).modCore (fun (k : Core) =>
             { k with planes := k.planes.set f.plane.toNat q })) s) ∧ q.kind = accKind fmt ∧
           (p.kind = accKind fmt → ∀ x, x ≠ r → rowAt q x = rowAt p x) ∧
           (rowAt q r).poison = (headTag f.queue s || (decide (part ≠ 0) && (rowAt p r).poison)) ∧
           (part = 0 → (rowAt q r).pair = none) ∧ (part ≠ 0 → (rowAt q r).pair = (rowAt p r).pair) ∧
           ∀ i, i < fillLanes (accKind fmt) →
             (accKind fmt = .residue → elemAt q r (part * fillLanes (accKind fmt) + i) = .res
               (BitVec.ofInt 8 (signedOf 32 (laneOf 32 i v) % 253)) (BitVec.ofInt 8 (signedOf 32 (laneOf 32 i v) % 255))
               (BitVec.ofInt 8 (signedOf 32 (laneOf 32 i v) % 256)) false 0) ∧
             (accKind fmt ≠ .residue → part = 0 → ∃ n, elemAt q r i = .fp n false false ∧
               n.toNat = laneOf (if accKind fmt = .fp64 then 64 else 32) i v)))) ∧
  (∀ (f : RptF) (g : MF) (s : State), quiet s = true → s.core.fact = none → s.planeHeld g.plane = false →
     legal [.rpt f, .macc g] false = true → guardOf (.macc g) = 0 →
     let fmt := s.cur.sys.fmt
     let n := if f.count = 0 then 128 else f.count.toNat
     let row := fun (i : Nat) => (g.row.toNat : Int) + f.rowStride.toInt * i
     let addr := fun (i : Nat) => (g.caddr.toNat : Int) + f.stride.toInt * i
     (∀ i, i < n → s.copeAwaited (addr i).toNat (tileUnits fmt) = false ∧ s.copeHeld (addr i).toNat (tileUnits fmt) = false) →
     let fits := ∀ i, i < n → 0 ≤ row i ∧ row i < rowCount fmt ∧ 0 ≤ addr i ∧ addr i + tileUnits fmt ≤ 131072
     (¬fits → exec (.rpt f) { s with rest := [.macc g] } =
       .next (trapBundle [.rpt f, .macc g] .repeatRange 0 0 (slotBit (.macc g)) s)) ∧
     (fits → (g.modf.getLsbD 0 = true ∨ (s.plane g.plane).kind = accKind fmt) →
       ∃ t, exec (.rpt f) { s with rest := [.macc g] } = .next t ∧ t.cur.flow.rptLeft = n - 1 ∧
         t.cur.flow.beats.length = n - 2 ∧ t.core.cycle = s.core.cycle + 1 ∧ t.rest = []))

/-- R247, R248, R269, R270: `mrdp` and `mstat` push one interlocked entry each; `mwait` waits while work of its context is
on the array, or pending; a factorisation holds the three. R260, R261, R262: the issue of a factorisation: a plane that is not
FP64 traps with operand value, a poisoned row with poison; else the instruction is in progress, logged with its
bundle, and FPROG holds its operation, planes, variant and start column, which is COL where FPROG matches it. -/
def Obligations.ArrayReadsAndFactorisationStarts : Prop :=
  (∀ (f : MF) (s : State), quiet s = true →
     let a := s.cur.arr
     let pushesEntry := fun (i : Instr) (e : BitVec 1024) => lone i s = true →
       (s.factBusy = true → exec i s = .next (waitEngine s)) ∧
       (s.factBusy = false → roomIn f.queue [] s = false → exec i s = .next (traps i .queueOverflow 0 0 s)) ∧
       (s.factBusy = false → roomIn f.queue [] s = true → exec i s =
         .next ((begins i { mkOp (.push f.queue e false 0) s with counted := false, lo := s.core.cycle } s).pushOwed f.queue s.die.nextId))
     (∃ e : BitVec 1024, pushesEntry (.mrdp f) e ∧ ∀ i, i < 128 →
       laneOf 8 i e = if i < 32 then a.pvec.toNat / 2 ^ (5 * i) % 32 else 0) ∧
     (∃ e : BitVec 1024, pushesEntry (.mstat f) e ∧ ∀ i, i < 16 →
       laneOf 64 i e = match (bits 0 2 f.modf : BitVec 2).toNat with
         | 0 => [(growOf a).toNat, a.amax.toNat, a.umax.toNat, a.fprog.toNat, a.lastFlags.toNat].getD i 0
         | 1 => (a.tau.toList.getD i 0).toNat
         | _ => (a.tau.toList.getD (16 + i) 0).toNat) ∧
     (lone (.mwait f) s = true →
       let busy := s.arrayBusy = true ∨ s.cur.flow.pendingArray ≠ []
       (busy → exec (.mwait f) s = .next (waitEngine s)) ∧ (¬busy → exec (.mwait f) s = .next (passed [.mwait f] s)))) ∧
  (∀ (f : MF) (s : State), quiet s = true → s.core.fact = none →
     let starts := fun (i : Instr) (op plane2 var : Nat) (down : Bool) (planes : List (BitVec 2)) => lone i s = true →
       planes.all (fun (p : BitVec 2) => !s.planeHeld p) = true →
       let v := s.cur.arr.fprog
       let own := v.toNat / 2 ^ 12 % 8 = op ∧ v.toNat / 2 ^ 8 % 4 = f.plane.toNat ∧ v.toNat / 2 ^ 10 % 4 = plane2 ∧
         v.toNat / 2 ^ 16 % 16 = var
       let col := if own then v.toNat % 32 else if down then 31 else 0
       (planes.any (fun (p : BitVec 2) => (s.plane p).kind != .fp64) = true → exec i s = .next (traps i .operandValue 0 0 s)) ∧
       (planes.all (fun (p : BitVec 2) => (s.plane p).kind == .fp64) = true →
         (∃ p ∈ planes, ∃ r, r < 32 ∧ (rowAt (s.plane p) r).poison = true) → exec i s = .next (traps i .poison 0 0 s)) ∧
       (planes.all (fun (p : BitVec 2) => (s.plane p).kind == .fp64) = true →
         (∀ p ∈ planes, ∀ r, r < 32 → (rowAt (s.plane p) r).poison = false) →
         exec i s = .next (does i (fun t => (t.modArr (fun (a : ArrayCtx) => { a with
             fprog := BitVec.ofNat 64 (col + f.plane.toNat * 2 ^ 8 + plane2 * 2 ^ 10 + op * 2 ^ 12 + var * 2 ^ 16) })).modCore
           (fun (k : Core) => { k with fact := some { ctx := s.core.sel, instr := i, fmt := s.cur.sys.fmt, pc := s.pc,
                                                      logged := (bundleBytes [i]).take 47, flags := 0 } })) s))
     let upper := f.modf.getLsbD 0
     let right := f.modf.getLsbD 1
     let transposed := f.modf.getLsbD 2
     starts (.mfch f) 1 0 0 false [f.plane] ∧
     starts (.mflu f) 2 0 (f.modf.getLsbD 0).toNat false [f.plane] ∧
     starts (.mfqr f) 3 0 0 false [f.plane] ∧
     starts (.mtrs f) 4 (f.modf.toNat / 16 % 4) (f.modf.toNat % 16) ((upper == transposed) == right) [f.plane, bits 4 2 f.modf])

/-- R265, R266, R268: what one column of `mfch` and one column of `mflu` leave, entry by entry, in terms of the plane before
(arithmetic rounds each operation to nearest even and fuses each multiply-subtract, R83); and step k of `mtrs` on the right-hand side B:
the column or row k is divided by the diagonal unless it is a unit one, and the lines after k in the order of k lose their multiple of
it; every other entry stays. -/
def Obligations.FactorisationColumnsAndSolveSteps : Prop :=
  (∀ (j : Nat) (w : Fwork), j < 32 → w.p.size = 1024 →
     let m := fun (i c : Nat) => w.p.at i c
     let div := fun (x y : BitVec 64) => (fDiv fp64 0 x y).1
     let sub := fun (z x y : BitVec 64) => (fFma fp64 0 (x ^^^ 0x8000000000000000) y z).1
     let nan := fun (x : BitVec 64) => 0x7FF0000000000000 < x.toNat % 2 ^ 63
     let zero := fun (x : BitVec 64) => x.toNat % 2 ^ 63 = 0
     let negative := fun (x : BitVec 64) => x.getLsbD 63 = true
     ((nan (m j j) ∨ zero (m j j) ∨ negative (m j j)) → cholColumn j w = none) ∧
     (¬(nan (m j j) ∨ zero (m j j) ∨ negative (m j j)) → ∃ v, cholColumn j w = some v ∧ v.arr = w.arr ∧
       let l := (fSqrt fp64 0 (m j j)).1
       v.p.at j j = l ∧ (∀ i, j < i → i < 32 → v.p.at i j = div (m i j) l) ∧
       (∀ i c, j < c → c ≤ i → i < 32 → v.p.at i c = sub (m i c) (div (m i j) l) (div (m c j) l)) ∧
       (∀ i c, i < 32 → c < 32 → (c < j ∨ i < c ∨ i < j) → v.p.at i c = m i c)) ∧
     (∀ go trapped,
       let x := luColumn go trapped j w
       let rank := fun (i : Nat) => if nan (m i j) then 2 ^ 63 else (m i j).toNat % 2 ^ 63
       ∃ r, j ≤ r ∧ r < 32 ∧ (∀ i, j ≤ i → i < 32 → rank i ≤ rank r ∧ (i < r → rank i < rank r)) ∧
         (∀ k, k < 32 → x.1.arr.pvec.toNat / 2 ^ (5 * k) % 32 = if k = j then r else w.arr.pvec.toNat / 2 ^ (5 * k) % 32) ∧
         let n := fun (i c : Nat) => m (if i = j then r else if i = r then j else i) c
         (zero (n j j) → (x.2 = (!go || trapped)) ∧ ∀ i c, i < 32 → c < 32 → x.1.p.at i c = n i c) ∧
         (¬zero (n j j) → x.2 = false ∧
           (∀ i, j < i → i < 32 → x.1.p.at i j = div (n i j) (n j j)) ∧
           (∀ i c, j < i → i < 32 → j < c → c < 32 → x.1.p.at i c = sub (n i c) (div (n i j) (n j j)) (n j c)) ∧
           (∀ i c, i < 32 → c < 32 → (i ≤ j ∨ c < j) → x.1.p.at i c = n i c)))) ∧
  (∀ (f : MF) (k : Nat) (w : Fwork), k < 32 → w.p.size = 1024 →
     let b := fun (i c : Nat) => w.p.at i c
     let upper := f.modf.getLsbD 0
     let right := f.modf.getLsbD 1
     let transposed := f.modf.getLsbD 2
     let unit := f.modf.getLsbD 3
     let op := fun (x y : Nat) => if transposed then w.t.at y x else w.t.at x y
     let div := fun (x y : BitVec 64) => if unit then x else (fDiv fp64 0 x y).1
     let sub := fun (z x y : BitVec 64) => (fFma fp64 0 (x ^^^ 0x8000000000000000) y z).1
     let lower := upper == transposed
     let after := fun (m : Nat) => if lower != right then k < m else m < k
     let v := trsColumn f k w
     v.arr = w.arr ∧ v.t = w.t ∧
     (right = false →
       (∀ c, c < 32 → v.p.at k c = div (b k c) (op k k)) ∧
       (∀ m c, m < 32 → c < 32 → after m → v.p.at m c = sub (b m c) (op m k) (div (b k c) (op k k))) ∧
       (∀ m c, m < 32 → c < 32 → m ≠ k → ¬after m → v.p.at m c = b m c)) ∧
     (right = true →
       (∀ r, r < 32 → v.p.at r k = div (b r k) (op k k)) ∧
       (∀ m r, m < 32 → r < 32 → after m → v.p.at r m = sub (b r m) (div (b r k) (op k k)) (op k m)) ∧
       (∀ m r, m < 32 → r < 32 → m ≠ k → ¬after m → v.p.at r m = b r m)))

/-- R157, R158, R257 to R259: `mload` of a lone bundle with no earlier operation to wait for: its checks, and its issue from the
own die, which writes SCALE into the entries of the cope-scale table that the tile touches and begins an operation that skips the
units MLPROG names, or its requests to a peer; while a pre-empted task holds units of its tile, or bytes of its source in
scratchpad, it waits (R143). -/
def Obligations.TileLoadIntoCopeStore : Prop :=
  ∀ (f : MF) (s : State), quiet s = true → clear s = true → s.core.fact = none → s.mloadBusy = false →
    lone (.mload f) s = true →
    let reg : BitVec 5 := bits 0 5 f.row
    let r := s.cur.b[(bits 0 4 f.queue : BitVec 4).toNat]
    let n : BitVec 3 := bits 0 3 f.modf
    let o := gReg reg s
    let units := if recFmt r = 12 ∨ recFmt r = 13 then 256 else 128
    let taken := recFmt r = 12 ∨ recFmt r = 13 ∨ recFmt r = 9 ∨ recFmt r = 8 ∨ recFmt r = 11
    let c := f.caddr.toNat
    let places := tilePlaces r o.toInt 0
    let range := rangeOf (placeAddrs r places)
    let held := taken ∧ s.copeHeld c units = true
    let from_ := (placeAddrs r places).filterMap id
    let stops := fun (cause : Cause) (a : Word) => exec (.mload f) s = .next (trapsAsking (.mload f) (n != 0) cause a s)
    (held → exec (.mload f) s = .next (waitEngine s)) ∧
    (¬held → gTag reg s = true → stops .poison 0) ∧
    (¬held → gTag reg s = false → ¬(taken ∧ recordOk r (n != 0) = true ∧ c + units ≤ 131072) → stops .operandValue 0) ∧
    (¬held → gTag reg s = false → taken → recordOk r (n != 0) = true → c + units ≤ 131072 →
      (∀ a, firstOutside r places = some a → stops .bounds a) ∧
      (firstOutside r places = none → recSpace r = 2 → s.spHeld from_ = true → n = 0 → exec (.mload f) s = .next (waitEngine s)) ∧
      (firstOutside r places = none → (recSpace r = 2 → s.spHeld from_ = false) → n = 0 →
        let skip := if s.cur.arr.mlprog.toNat / 2 ^ 9 =
            (2 ^ 15 + (bits 0 4 f.queue : BitVec 4).toNat * 2 ^ 19 + c * 2 ^ 23) / 2 ^ 9 then s.cur.arr.mlprog.toNat % 512 else 0
        ∃ k : Core, (∀ g, g < 1024 → smGet (0 : BitVec 32) k.copeScale g =
            if c / 128 ≤ g ∧ 128 * g < c + units then recScale r else copeScaleAt g s) ∧
          exec (.mload f) s = .next ((ordered r (begins (.mload f) { mkOp (.mload f (recFmt r) skip) s with
            record := r, offset := o.toInt, space := (recSpace r).setWidth 3, lo := range.1, hi := range.2, isRead := true,
            counted := false } s)).modCore (fun (x : Core) => { x with copeScale := k.copeScale }))) ∧
      (firstOutside r places = none → n ≠ 0 → freeSlots s.cur = 0 → exec (.mload f) s = .next (waitEngine s)) ∧
      (firstOutside r places = none → n ≠ 0 → freeSlots s.cur ≠ 0 → asksPeer (.mload f) s))

/-! ## Storage -/

/-- R157, R158, R165, R173: where an offset of a record leads under each bounds mode, the checks of a record, and the faults of an
access of `n` bytes that are known at issue, in their order. -/
def Obligations.RecordChecksAndBounds : Prop :=
  ∀ (r : Record) (t : Int) (remote : Bool) (fe : BitVec 2) (n align : Nat), 0 < align →
    let base : Nat := r.toNat % 2 ^ 64
    let extent : Nat := r.toNat / 2 ^ 64 % 2 ^ 40
    let mode : Nat := r.toNat / 2 ^ 176 % 8
    let space : Nat := r.toNat / 2 ^ 184 % 4
    (0 ≤ t → t < extent → recPlace r t = .byte t.toNat) ∧
    (¬(0 ≤ t ∧ t < extent) → (mode = 0 → recPlace r t = .outside t) ∧ (mode = 1 → recPlace r t = .clamped) ∧
      (mode = 2 → 0 < extent → ∃ k, recPlace r t = .byte k ∧ k < extent ∧ ∃ q : Int, t = q * extent + k)) ∧
    (recordOk r remote = true ↔ r.toNat / 2 ^ 220 = 0 ∧ r.toNat / 2 ^ 186 % 4 ≠ 3 ∧ r.toNat / 2 ^ 179 % 8 < 6 ∧ mode < 3 ∧
      r.toNat / 2 ^ 168 % 256 < 14 ∧ base < 2 ^ 56 ∧ (space = 2 → base + extent ≤ 2 ^ 25) ∧ (space = 3 → base + extent ≤ 2 ^ 40) ∧
      (mode = 2 → extent ≠ 0) ∧ (remote = true → space = 3)) ∧
    (accessFault r remote fe t n align =
      if recordOk r remote = false then some (.operandValue, 0)
      else if t % align ≠ 0 then some (.misalignedOperand, 0)
      else if fe ≠ 0 ∧ space ≠ 2 then some (.operandValue, 0)
      else if mode = 0 ∧ ∃ i, i < n ∧ ¬(0 ≤ t + i ∧ t + i < extent) then
        some (.bounds, BitVec.ofInt 64 (base + (if space = 3 then (Config.heapBase : Int) else 0) +
          (if 0 ≤ t ∧ t < extent then (extent : Int) else t)))
      else none)

/-- R135, R154, R165, R173: `vld` and `sld` in a lone bundle with nothing to wait for: the traps at issue, the poisoned value of
a speculative load, the value read in scratchpad with FAULT as its poison, `.keep` and `.take`, the operation that a load from
memory begins, and the requests to a peer.  A memory access that lies beyond the installed memory ends the run.
That last clause is the model's choice (log entry 14). -/
def Obligations.LoadIssue : Prop :=
  ∀ (f : LF) (vec : Bool) (s : State), quiet s = true → clear s = true →
    let i : Instr := if vec then .vld f else .sld f
    lone i s = true → (vec = true → roomIn f.d [] s = true) →
    let r := s.cur.b[f.b.toNat]
    let t := (gReg f.o s).toInt + f.imm.toInt
    let n := if vec then 128 else 2 ^ (bits 0 2 f.modf : BitVec 2).toNat
    let spec := f.modf.getLsbD 7
    let addrs := placeAddrs r (recRun r t n)
    let kind := fun (v : Option (BitVec 1024 × Bool)) => if vec then OpKind.vecLoad f.d spec v
      else .elemLoad f.d n (f.modf.getLsbD 2) spec (v.map (fun b => (b.1.setWidth 64, b.2)))
    let poisoned := (begins i { mkOp (kind (some (Config.freeEntry s.die.nextId, true))) s with isRead := true } s).dropEnds
    let fault := accessFault r (f.n != 0) f.fe t n (if vec then 16 else n)
    let granules := granulesOf (named addrs)
    let bytes := readScratch addrs s
    let stops := fun (c : Cause) (a : Word) => exec i s = .next (trapsAsking i (f.n != 0) c a s)
    let value : BitVec 1024 := if vec then BitVec.ofNat 1024 (leNat bytes)
      else (if f.modf.getLsbD 2 then BitVec.ofInt 64 (signedOf (8 * n) (leNat bytes)) else BitVec.ofNat 64 (leNat bytes)).setWidth 1024
    (gTag f.o s = true → stops .poison 0) ∧
    (gTag f.o s = false →
      (∀ c a, fault = some (c, a) → (spec = true → exec i s = .next poisoned) ∧ (spec = false → stops c a)) ∧
      (fault = none → recSpace r = 2 → s.spHeld (named addrs) = false →
        (f.fe ≠ 0 → granules.any (fun g => !isFull g s) = true → exec i s = .next (waitEngine s)) ∧
        ((f.fe = 0 ∨ granules.all (fun g => isFull g s) = true) → exec i s = .next
          (let u := ordered r (begins i { mkOp (kind (some (value, scratchFault addrs s))) s with record := r, isRead := true } s)
           if f.fe = 2 then setFullAll granules false u else u))) ∧
      (fault = none → recSpace r ≠ 2 → f.n = 0 →
        (∀ x va, s.cells .read (kindSpace r) addrs = .fail x va →
          exec i s = if spec = true ∧ (x = .translation ∨ x = .permission) then .next poisoned else answersXlate i x va s) ∧
        (∀ cs, s.cells .read (kindSpace r) addrs = .ok cs → exec i s = .next
          (ordered r (begins i { recOp (kind none) f r t addrs s with isRead := true, cells := cs } s)))) ∧
      (fault = none → recSpace r ≠ 2 → f.n ≠ 0 →
        (freeSlots s.cur = 0 → exec i s = .next (waitEngine s)) ∧ (freeSlots s.cur ≠ 0 → asksPeer i s)))

/-- R137, R154, R173: `vst` and `sst` in a lone bundle with nothing to wait for: the traps at issue, the store to scratchpad with
`.set` and `.wait`, the operation that a store to memory begins, and the requests to a peer; `vst` pops its queue unless it
keeps it.  A poisoned value raises its trap once nothing else holds the store (R25).
An access that lies beyond the installed memory ends the run: the model's choice (log entry 14). -/
def Obligations.StoreIssue : Prop :=
  ∀ (f : LF) (vec : Bool) (s : State), quiet s = true → clear s = true →
    let i : Instr := if vec then .vst f else .sst f
    lone i s = true →
    let r := s.cur.b[f.b.toNat]
    let t := (gReg f.o s).toInt + f.imm.toInt
    let n := if vec then 128 else 2 ^ (bits 0 2 f.modf : BitVec 2).toNat
    let addrs := placeAddrs r (recRun r t n)
    let kind := if vec then OpKind.vecStore (headBits f.d s) else .elemStore n (gReg f.d s)
    let data := if vec then leBytes 128 (headBits f.d s).toNat else leBytes n (gReg f.d s).toNat
    let pop := fun (u : State) => if vec then popUnless (f.modf.getLsbD 0) f.d u else u
    let post := if f.modf.getLsbD 6 then some f.f else none
    let fault := accessFault r (f.n != 0) f.fe t n (if vec then 16 else n)
    let granules := granulesOf (named addrs)
    let tagged := if vec then headTag f.d s else gTag f.d s
    let stops := fun (c : Cause) (a : Word) => exec i s = .next (trapsAsking i (f.n != 0) c a s)
    (gTag f.o s = true → stops .poison 0) ∧
    (gTag f.o s = false → vec = true → s.cur.queue f.d = [] → stops .queueUnderflow 0) ∧
    (gTag f.o s = false → (vec = true → s.cur.queue f.d ≠ []) →
      let full := granules.any (fun g => isFull g s) = true
      (fault.isSome = true → tagged = true → stops .poison 0) ∧
      (tagged = false → ∀ c a, fault = some (c, a) → stops c a) ∧
      (fault = none → recSpace r = 2 → s.spHeld (named addrs) = false →
        (f.fe = 2 → full → exec i s = .next (holdCycle s)) ∧
        ((f.fe = 2 → ¬full) → tagged = true → stops .poison 0) ∧
        ((f.fe = 2 → ¬full) → tagged = false → exec i s = .next
          (let u := writeScratch addrs data (pop (ordered r
             (begins i { mkOp kind s with record := r, post := post, isWrite := true } s)))
           if f.fe ≠ 0 then setFullAll granules true u else u))) ∧
      (fault = none → recSpace r ≠ 2 → f.n = 0 →
        (∀ w asked va, s.cells .write (kindSpace r) addrs = .fail (.pending w asked) va →
          exec i s = .next (holdCycle (askOnce w asked s))) ∧
        ((∀ w asked va, s.cells .write (kindSpace r) addrs ≠ .fail (.pending w asked) va) → tagged = true → stops .poison 0) ∧
        (tagged = false →
          (∀ x va, s.cells .write (kindSpace r) addrs = .fail x va → exec i s = answersXlate i x va s) ∧
          (∀ cs, s.cells .write (kindSpace r) addrs = .ok cs → exec i s = .next
            (pop (ordered r (begins i { recOp kind f r t addrs s with isWrite := true, cells := cs } s)))))) ∧
      (fault = none → recSpace r ≠ 2 → f.n ≠ 0 →
        (freeSlots s.cur = 0 → exec i s = .next (waitEngine s)) ∧
        (freeSlots s.cur ≠ 0 → tagged = true → stops .poison 0) ∧
        (freeSlots s.cur ≠ 0 → tagged = false → asksPeer i s)))

/-- R165, R169 to R172: `tld`, `tst`, `tldn`, `tstn`, `tprf` and `bxf` of a lone bundle between scratchpad and the own die begin
one operation of an engine, which carries the record, the offset and the post; a poisoned operand or a failed check traps, and a
source line with FAULT traps a store or a block transfer with poison; a failed check of `tld.sp` begins an operation that faults;
`tprf` tags its line and empties its granules at issue.  To a peer, requests leave.
A corner of bxf is the model's reading (log entry 34). -/
def Obligations.TileRowAndBlockTransfers : Prop :=
  ∀ (f : LF) (s : State), quiet s = true → clear s = true →
    let r := s.cur.b[f.b.toNat]
    let t := (gReg f.o s).toInt
    let sp := gReg f.d s
    let peer := f.n != 0
    let post := if f.modf.getLsbD 6 then some f.f else none
    let stops := fun (i : Instr) (c : Cause) (a : Word) => lone i s = true → exec i s = .next (trapsAsking i peer c a s)
    let table : Bool := !s.spHeld (named (scratchRun (512 * f.imm.toNat) 64))
    let own := fun (i : Instr) (k : OpKind) (ps : List Place) (reads : Bool) =>
      ordered r (begins i { recOp k f r t (placeAddrs r ps) s with isRead := reads, isWrite := !reads } s)
    let free := fun (as : List Nat) (ps : List Place) =>
      s.spHeld (as ++ (if recSpace r = 2 then named (placeAddrs r ps) else [])) = false
    let answers := fun (i : Instr) (after : State) => lone i s = true → (peer = false → exec i s = .next after) ∧
      (peer = true → freeSlots s.cur = 0 → exec i s = .next (waitEngine s)) ∧
      (peer = true → freeSlots s.cur ≠ 0 → asksPeer i s)
    let d := readDesc f.imm s
    let src := s.cur.b[(bits 0 4 f.modf : BitVec 4).toNat]
    let len := src.toNat / 2 ^ 64 % 2 ^ 40
    ((gTag f.o s || gTag f.d s) = true → stops (.tld f) .poison 0 ∧ stops (.tst f) .poison 0 ∧
      (table = true → stops (.tldn f) .poison 0 ∧ stops (.tstn f) .poison 0) ∧ stops (.tprf f) .poison 0) ∧
    (gTag f.o s = true → stops (.bxf f) .poison 0) ∧
    (gTag f.o s = false → gTag f.d s = false →
      (tileShape r f.imm = none → stops (.tld f) .operandValue 0 ∧ stops (.tst f) .operandValue 0) ∧
      (∀ rows w, tileShape r f.imm = some (rows, w) →
        let ps := tilePlaces r t f.imm
        let pad := scratchRun sp.toNat (rows * w)
        let fits := sp.toNat % 16 = 0 ∧ sp.toNat + rows * w ≤ 2 ^ 25
        (¬fits → stops (.tld f) .operandValue 0) ∧
        (fits → f.modf.getLsbD 7 = true → (recordOk r peer = false ∨ (firstOutside r ps).isSome = true) → lone (.tld f) s = true →
          exec (.tld f) s = .next (begins (.tld f) { mkOp (.tileLoad true sp.toNat f.imm) s with
            record := r, offset := t, post := post, isRead := true, doomed := true } s)) ∧
        (fits → f.modf.getLsbD 7 = false → recordOk r peer = false → stops (.tld f) .operandValue 0) ∧
        (fits → f.modf.getLsbD 7 = false → recordOk r peer = true → ∀ a, firstOutside r ps = some a →
          stops (.tld f) .bounds a) ∧
        (fits → recordOk r peer = true → firstOutside r ps = none → free (named pad) ps →
          answers (.tld f) (own (.tld f) (.tileLoad (f.modf.getLsbD 7) sp.toNat f.imm) ps true)) ∧
        (¬(fits ∧ recordOk r peer = true) → stops (.tst f) .operandValue 0) ∧
        (fits → recordOk r peer = true → ∀ a, firstOutside r ps = some a → stops (.tst f) .bounds a) ∧
        (fits → recordOk r peer = true → firstOutside r ps = none → free (named pad) ps → scratchFault pad s = true → stops (.tst f) .poison 0) ∧
        (fits → recordOk r peer = true → firstOutside r ps = none → scratchFault pad s = false → free (named pad) ps →
          answers (.tst f) (own (.tst f) (.tileStore sp.toNat f.imm) ps false))) ∧
      (table = true → recordOk r peer = true → descOk d sp = true → firstOutside r (rowPlaces r t d) = none →
        free (named (rowScratch sp.toNat d)) (rowPlaces r t d) →
        answers (.tldn f) (own (.tldn f) (.rowsLoad sp.toNat d) (rowPlaces r t d) true) ∧
        (scratchFault (rowScratch sp.toNat d) s = false →
          answers (.tstn f) (own (.tstn f) (.rowsStore sp.toNat d) (rowPlaces r t d) false)) ∧
        (scratchFault (rowScratch sp.toNat d) s = true → stops (.tstn f) .poison 0)) ∧
      (table = false → (lone (.tldn f) s = true → exec (.tldn f) s = .next (waitEngine s)) ∧
        (lone (.tstn f) s = true → exec (.tstn f) s = .next (waitEngine s))) ∧
      (table = true → recordOk r peer = true → descOk d sp = true → ∀ a, firstOutside r (rowPlaces r t d) = some a →
        stops (.tldn f) .bounds a ∧ stops (.tstn f) .bounds a) ∧
      (table = true → (recordOk r peer = false ∨ descOk d sp = false) → stops (.tldn f) .operandValue 0 ∧ stops (.tstn f) .operandValue 0) ∧
      (let va := BitVec.ofInt 64 ((recBase r).toNat + t) &&& ~~~(0xFFF : Word)
       let line := sp.toNat
       (¬(recordOk r false = true ∧ recSpace r ≠ 2 ∧ ttagOk sp va s = true) → peer = false → stops (.tprf f) .operandValue 0) ∧
       (recordOk r false = true → recSpace r ≠ 2 → ttagOk sp va s = true → peer = false →
         (∀ a, firstOutside r (blockPlaces r va) = some a → stops (.tprf f) .bounds a) ∧
         (firstOutside r (blockPlaces r va) = none → free (named (scratchRun (line * 4096) 4096)) [] →
           answers (.tprf f) (setFullAll ((List.range 256).map (fun i => line * 256 + i)) false
             (setTag line (tagFor va s.cur.sys.asid) (own (.tprf f) (.lineFill line) (blockPlaces r va) true))))))) ∧
    (gTag f.o s = false →
      let remoteFlag := if f.modf.getLsbD 6 = true ∧ f.fr = true then some (f.imm.setWidth 6, f.f) else none
      let here := if f.modf.getLsbD 6 = true ∧ f.fr = false then some f.f else none
      let from_ := placeAddrs src ((List.range len).map Place.byte)
      let taken := recordOk r peer = true ∧ recordOk src false = true ∧ len ≠ 0 ∧ len % 16 = 0 ∧ len ≤ 2 ^ 32
      let start := recAddr src 0
      (¬taken → stops (.bxf f) .operandValue 0) ∧
      (taken → ∀ a, firstOutside r (recRun r t len) = some a → stops (.bxf f) .bounds a) ∧
      (taken → firstOutside r (recRun r t len) = none →
        (recSpace src = 2 → scratchFault from_ s = true → free (named from_) (recRun r t len) → stops (.bxf f) .poison 0) ∧
        ((recSpace src ≠ 2 ∨ scratchFault from_ s = false) → free (if recSpace src = 2 then named from_ else []) (recRun r t len) →
          (peer = true → (bxfBytes src s).toOption.isSome = true) →
          answers (.bxf f) (ordered r (ordered src (begins (.bxf f)
            { recOp (.blockCopy src remoteFlag) f r t (placeAddrs r (recRun r t len)) s with
              isWrite := true, post := here, alt := some ((recSpace src).setWidth 3, start, start + len) } s))))))

/-- R154, R155, R174, R175, R179 to R181: the tag table, the full-empty bits, and the fences of a lone bundle.  A fence holds
while an operation that it covers is uncompleted, and completes else; a release fence at domain scope or above bumps the clock;
a translation fence removes cached translations from every core, and for a heap address at domain or system scope asks the other
dies of the domain first.
A release fence at system scope counts in the same clock (log entry 50), and the request to the other dies is the model's (log
entry 67). -/
def Obligations.TagsGranulesAndFences : Prop :=
  (∀ (f : LF) (s : State), quiet s = true → clear s = true →
    let v := gReg f.o s
    let e := gReg f.d s
    let asid := s.cur.sys.asid
    let tagOk := e.toNat ≤ 8191 ∧ e.toNat / 16 = v.toNat / 2 ^ 12 % 512 ∧
      ∀ k, k < 16 → v.toNat / 2 ^ 12 % 512 * 16 + k ≠ e.toNat →
        tagMatches (tagOf (v.toNat / 2 ^ 12 % 512 * 16 + k) s) v asid = false
    (lone (.ttag f) s = true →
      (gTag f.o s = true ∨ gTag f.d s = true → exec (.ttag f) s = .next (traps (.ttag f) .poison 0 0 s)) ∧
      (gTag f.o s = false → gTag f.d s = false →
        (¬tagOk → exec (.ttag f) s = .next (traps (.ttag f) .operandValue 0 0 s)) ∧
        (tagOk → exec (.ttag f) s = .next (does (.ttag f) (State.modCluster (fun (c : Cluster) => { c with
          tags := smSet 0 c.tags e.toNat (BitVec.ofNat 64 (1 + v.toNat / 2 ^ 12 % 2 ^ 44 * 4 + asid.toNat * 2 ^ 46)) })) s)))) ∧
    (lone (.tinv f) s = true →
      (gTag f.o s = true → exec (.tinv f) s = .next (traps (.tinv f) .poison 0 0 s)) ∧
      (gTag f.o s = false → 8191 < v.toNat → exec (.tinv f) s = .next (traps (.tinv f) .operandValue 0 0 s)) ∧
      (gTag f.o s = false → v.toNat ≤ 8191 → exec (.tinv f) s = .next (does (.tinv f) (State.modCluster (fun (c : Cluster) => { c with
        tags := smSet 0 c.tags v.toNat (tagOf v.toNat s &&& ~~~(3 : BitVec 64)) })) s))) ∧
    (lone (.tlook f) s = true →
      (gTag f.o s = true → exec (.tlook f) s = .next (traps (.tlook f) .poison 0 0 s)) ∧
      (gTag f.o s = false →
        ∃ x : Word, exec (.tlook f) s = .next (begins (.tlook f) { mkOp (.elemLoad f.d 8 false false (some (x, false))) s with
            isRead := true } s) ∧
          ((∀ k, k < 16 → tagMatches (tagOf (v.toNat / 2 ^ 12 % 512 * 16 + k) s) v asid = false) → x = BitVec.allOnes 64) ∧
          (∀ k, k < 16 → tagMatches (tagOf (v.toNat / 2 ^ 12 % 512 * 16 + k) s) v asid = true →
            (∀ j, j < k → tagMatches (tagOf (v.toNat / 2 ^ 12 % 512 * 16 + j) s) v asid = false) →
            x.toNat = v.toNat / 2 ^ 12 % 512 * 16 + k +
              (if (tagOf (v.toNat / 2 ^ 12 % 512 * 16 + k) s).getLsbD 1 then 2 ^ 62 else 0)))) ∧
    (let r := s.cur.b[f.b.toNat]
     let t := v.toInt
     let n := if f.imm = 0 then 65536 else f.imm.toNat
     let places := (List.range n).map (fun (k : Nat) => feGranule r (t + 16 * k))
     let gs := (named (placeAddrs r places)).map (fun (a : Nat) => a / 16)
     let sets := fun (i : Instr) (b : Bool) => lone i s = true →
       (gTag f.o s = true → exec i s = .next (traps i .poison 0 0 s)) ∧
       (gTag f.o s = false → ¬(recordOk r false = true ∧ recSpace r = 2) → exec i s = .next (traps i .operandValue 0 0 s)) ∧
       (gTag f.o s = false → recordOk r false = true → recSpace r = 2 → (t % 16 ≠ 0 ∨ ((recBase r).toNat + t) % 16 ≠ 0) →
         exec i s = .next (traps i .misalignedOperand 0 0 s)) ∧
       (gTag f.o s = false → recordOk r false = true → recSpace r = 2 → t % 16 = 0 → ((recBase r).toNat + t) % 16 = 0 →
         (∀ a, firstOutside r places = some a → exec i s = .next (traps i .bounds 0 a s)) ∧
         (firstOutside r places = none → s.spHeld (named (placeAddrs r places)) = false →
           exec i s = .next (ordered r (does i (setFullAll gs b) s)) ∧
           ∀ g, isFull g (setFullAll gs b s) = if g ∈ gs then b else isFull g s))
     sets (.feset f) true ∧ sets (.feclr f) false) ∧
    (lone (.fenceAcq f) s = true → exec (.fenceAcq f) s = .next (passed [.fenceAcq f] s)) ∧
    (lone (.fenceRel f) s = true → exec (.fenceRel f) s = .next (does (.fenceRel f) (bumpAt (f.imm.setWidth 3)) s)) ∧
    (lone (.fenceAr f) s = true → exec (.fenceAr f) s = .next (does (.fenceAr f) (bumpAt (f.imm.setWidth 3)) s)) ∧
    (lone (.tfence f) s = true → exec (.tfence f) s = .next (passed [.tfence f] s)) ∧
    (s.translatedHeld = false → s.cur.flow.homeAnswer = none →
      let inPage := fun (x : TlbEntry) => x.asid == asid && x.page ≤ v.toNat && v.toNat < x.page + x.size
      let ofSpace := fun (x : TlbEntry) => x.asid == asid && !x.pte.getLsbD 8
      let far := 4 ≤ (f.imm.setWidth 3 : BitVec 3).toNat ∧ ∃ d ∈ s.die.domain, d ≠ s.die.coord ∧ d ≠ 0xFFFF
      let asks := fun (i : Instr) =>
        (freeSlots s.cur = 0 → exec i s = .next (waitEngine s)) ∧
        (freeSlots s.cur ≠ 0 → ∃ t, exec i s = .next t ∧ t.cur.flow.homeAnswer = some (.asked s.die.nextId) ∧ t.pc = s.pc ∧
          (∃ o ∈ t.die.ops, o.id = s.die.nextId ∧ o.owner = s.curId) ∧ t.core.tlb = s.core.tlb)
      (lone (.tfenceInv f) s = true → gTag f.o s = false →
        (¬(far ∧ Config.heapBase ≤ v.toNat) → exec (.tfenceInv f) s = .next (does (.tfenceInv f) (dropTlb inPage) s)) ∧
        (far → Config.heapBase ≤ v.toNat → asks (.tfenceInv f))) ∧
      (lone (.tfenceInv f) s = true → gTag f.o s = true → ¬(far ∧ Config.heapBase ≤ v.toNat) →
        exec (.tfenceInv f) s = .next (traps (.tfenceInv f) .poison 0 0 s)) ∧
      (lone (.tfenceAll f) s = true →
        (¬far → exec (.tfenceAll f) s = .next (does (.tfenceAll f) (dropTlb ofSpace) s)) ∧
        (far → asks (.tfenceAll f))) ∧
      ∀ p k, (coreAt k (dropTlb p s)).tlb = (coreAt k s).tlb.filter (fun x => !p x))) ∧
  (∀ (f : LF) (s : State), quiet s = true →
    let reads := s.taskOps.any (fun (o : Op) => o.isRead)
    let writes := s.taskOps.any (fun (o : Op) => o.isWrite) || s.cur.flow.region.any (fun (m : Member) => m.voted)
    let holds := fun (i : Instr) => lone i s = true → exec i s = .next (holdCycle s)
    let inPage := fun (x : TlbEntry) => x.asid == s.cur.sys.asid && x.page ≤ (gReg f.o s).toNat && (gReg f.o s).toNat < x.page + x.size
    let ofSpace := fun (x : TlbEntry) => x.asid == s.cur.sys.asid && !x.pte.getLsbD 8
    let answered := fun (p : TlbEntry → Bool) (i : Instr) => lone i s = true → ∀ id, s.cur.flow.homeAnswer = some (.asked id) →
      (s.acquireHeld = false → (findOp id s).isSome = true → exec i s = .next (holdCycle s)) ∧
      (s.acquireHeld = false → findOp id s = none → exec i s = .next (does i (fun u =>
        (dropTlb p u).modFlow (fun (w : FlowCtx) => { w with homeAnswer := none })) s))
    (reads = true → holds (.fenceAcq f)) ∧ (writes = true → holds (.fenceRel f) ∧ holds (.tfence f)) ∧
    (reads = true ∨ writes = true → holds (.fenceAr f)) ∧
    (s.cur.flow.homeAnswer = none → writes = true → holds (.tfenceAll f) ∧ (gTag f.o s = false → holds (.tfenceInv f))) ∧
    answered ofSpace (.tfenceAll f) ∧ (gTag f.o s = false → answered inPage (.tfenceInv f)))

/-- R176, R178: `recld` and `recst` begin an operation on the 32 bytes at their address, with the traps of its alignment and
translation; `recmk` writes a copy with one field replaced; `swait` and `wvis` post at once or arm a watch.
When the writes of a predecessor set count as visible to wvis is the model's reading (log entry 34), recst and the source of recmk are not checked by R157 (log entry 63), the eight watches are those of words (log entry 66), and an absent address ends the run (log entry 14). -/
def Obligations.RecordsAndWatches : Prop :=
  ∀ (f : LF) (s : State), quiet s = true → clear s = true → gTag f.o s = false →
    let v := gReg f.o s
    let a := v + f.imm.signExtend 64
    let at32 := (List.range 32).map (fun i => some (a.toNat + i))
    let post := if f.modf.getLsbD 6 then some f.f else none
    let op := fun (k : OpKind) (cs : List (Option PByte)) (reads : Bool) => { mkOp k s with
      cells := cs, post := post, space := 0, lo := a.toNat, hi := a.toNat + 32, isRead := reads, isWrite := !reads }
    let record := fun (i : Instr) (acc : Access) (k : OpKind) (reads : Bool) => lone i s = true →
      (a.toNat % 32 ≠ 0 → exec i s = .next (traps i .misalignedOperand 0 0 s)) ∧
      (a.toNat % 32 = 0 →
        (∀ x va, s.cells acc none at32 = .fail x va → exec i s = answersXlate i x va s) ∧
        (∀ cs, s.cells acc none at32 = .ok cs → (reads = true → cellsPoison cs s = false) →
          exec i s = .next (begins i (op k cs reads) s)) ∧
        (reads = true → ∀ cs, s.cells acc none at32 = .ok cs → cellsPoison cs s = true →
          exec i s = .next (traps i .uncorrectable 0 a s)))
    let r := s.cur.b[f.b.toNat]
    let src := s.cur.b[(f.imm.setWidth 4 : BitVec 4).toNat]
    let put := fun (lo w n : Nat) (x : Record) => BitVec.ofNat 256 (x.toNat - x.toNat / 2 ^ lo % 2 ^ w * 2 ^ lo + n % 2 ^ w * 2 ^ lo)
    let fits := fun (w : Nat) => (sext w v) = v
    let made := fun (ok : Prop) (x : Record) =>
      (ok → exec (.recmk f) s = .next (does (.recmk f) (State.modCtx (fun (c : Ctx) => { c with b := c.b.set f.b.toNat x })) s)) ∧
      (¬ok → exec (.recmk f) s = .next (traps (.recmk f) .operandValue 0 0 s))
    let extent := src.toNat / 2 ^ 64 % 2 ^ 40
    let counted : BitVec 16 := BitVec.ofNat 16 (min (s.core.f[f.f.toNat].toNat + 1) 65535)
    let watches := fun (k : WatchKind) (met : Bool) (i : Instr) => (does i (fun t =>
      if met then t.modCore (fun (c : Core) => { c with f := c.f.set f.f.toNat counted })
      else t.modFlow (fun (w : FlowCtx) => { w with watches := w.watches ++ [{ kind := k, flag := f.f }] })) s)
    record (.recld f) .read (.recLoad f.b) true ∧ record (.recst f) .write (.recStore r) false ∧
    (lone (.recmk f) s = true →
      match (bits 0 3 f.modf : BitVec 3).toNat with
      | 0 => made (v.toNat ≤ extent) (put 64 40 (extent - v.toNat) (put 0 64 (src.toNat % 2 ^ 64 + v.toNat) src))
      | 1 => made (v.toNat < 2 ^ 40) (put 64 40 v.toNat src)
      | 2 => made (fits 32) (put 104 32 v.toNat src)
      | 3 => made (fits 32) (put 136 32 v.toNat src)
      | 4 => made (v.toNat < 2 ^ 32) (put 188 32 v.toNat src)
      | _ => made (v.toNat < 2 ^ 20) (put 168 20 v.toNat src)) ∧
    (lone (.swait f) s = true → gTag f.d s = false →
      let t := v.toInt + f.imm.toInt
      let addrs := placeAddrs r (recRun r t 8)
      let limit := gReg f.d s
      (∀ c x, accessFault r false 0 t 8 8 = some (c, x) → exec (.swait f) s = .next (traps (.swait f) c 0 x s)) ∧
      (accessFault r false 0 t 8 8 = none →
        (8 ≤ s.cur.flow.watches.countP Watch.isWord → exec (.swait f) s = .next (traps (.swait f) .operandValue 0 0 s)) ∧
        (s.cur.flow.watches.countP Watch.isWord < 8 →
          (recSpace r = 2 → s.spHeld (named addrs) = false →
            exec (.swait f) s = .next (ordered r
              (watches (.scratch addrs limit) (decide (limit.toNat ≤ leNat (readScratch addrs s))) (.swait f)))) ∧
          (recSpace r ≠ 2 →
            (∀ x va, s.cells .read (kindSpace r) addrs = .fail x va →
              exec (.swait f) s = answersXlate (.swait f) x va s) ∧
            (∀ cs, s.cells .read (kindSpace r) addrs = .ok cs → exec (.swait f) s = .next (ordered r
              (watches (.memory cs limit) (!cellsPoison cs s && decide (limit.toNat ≤ leNat (readCells cs s))) (.swait f)))))))) ∧
    (lone (.wvis f) s = true →
      (recordOk r false = false → exec (.wvis f) s = .next (traps (.wvis f) .operandValue 0 0 s)) ∧
      (recordOk r false = true → exec (.wvis f) s = .next (watches (.set (recScope r))
        (match s.cur.flow.task with | some t => t.notice || predDone t.inst s | none => true) (.wvis f))))

/-- R177, R178, R223, R334: `amo`, `amoc` and `ssig` of a lone bundle: performed at issue on scratchpad, else an operation on
memory or requests to a peer; what each leaves in its word of `w` bits, given the old value.
An atomic of which a part is clamped away is out of range as a whole (log entry 34), ssig, .add too, needs W alone (log entry 47), and an absent address ends the run (log entry 14). -/
def Obligations.AtomicsAndSignals : Prop :=
  (∀ (f : LF) (s : State) (amo : Bool), quiet s = true → clear s = true → gTag f.o s = false → gTag f.d s = false →
    (amo = false → gTag (f.imm.setWidth 5) s = false) →
    let i : Instr := if amo then .amo f else .amoc f
    lone i s = true →
    let r := s.cur.b[f.b.toNat]
    let t := (gReg f.o s).toInt + (if amo then f.imm.toInt else 0)
    let wide := f.modf.getLsbD 4
    let n := if wide then 8 else 4
    let silent := amo && f.modf.getLsbD 5
    let kind := if amo then OpKind.amo f.d (bits 0 3 f.modf) (f.modf.getLsbD 3) wide silent (gReg f.d s)
      else .amoc f.d wide (gReg f.d s) (gReg (f.imm.setWidth 5) s)
    let addrs := placeAddrs r (recRun r t n)
    let old := leNat (readScratch addrs s)
    let landing := if silent then OpKind.posted else .elemLoad f.d 8 false false (some (BitVec.ofNat 64 old, false))
    let post := if f.modf.getLsbD 6 then some f.f else none
    let fault := accessFault r (f.n != 0) 0 t n n
    let clamped := addrs.any Option.isNone
    let nothing := if silent then OpKind.posted else .elemLoad f.d 8 false false (some (0, false))
    (∀ c a, fault = some (c, a) → exec i s = .next (trapsAsking i (f.n != 0) c a s)) ∧
    (fault = none → clamped = true → exec i s = .next (bumpFor (isRelease r) r (f.n != 0)
      (begins i { mkOp nothing s with record := r, post := post, isRead := true, isWrite := true } s))) ∧
    (fault = none → clamped = false → recSpace r = 2 → s.spHeld (named addrs) = false → exec i s = .next
      (let u := ordered r (begins i { mkOp landing s with record := r, post := post, isRead := true, isWrite := true } s)
       match atomicBytes kind old with | some bs => writeScratch addrs bs u | none => u)) ∧
    (fault = none → clamped = false → recSpace r ≠ 2 → f.n = 0 →
      (∀ x va, s.cells .atomic (kindSpace r) addrs = .fail x va → exec i s = answersXlate i x va s) ∧
      (∀ cs, s.cells .atomic (kindSpace r) addrs = .ok cs → exec i s = .next
        (ordered r (begins i { recOp kind f r t addrs s with isRead := true, isWrite := true, cells := cs } s)))) ∧
    (fault = none → clamped = false → f.n ≠ 0 →
      (freeSlots s.cur = 0 → exec i s = .next (waitEngine s)) ∧ (freeSlots s.cur ≠ 0 → asksPeer i s))) ∧
  (∀ (f : LF) (s : State), quiet s = true → clear s = true → gTag f.o s = false → gTag f.d s = false → lone (.ssig f) s = true →
    let r := s.cur.b[f.b.toNat]
    let t := (gReg f.o s).toInt + f.imm.toInt
    let addrs := placeAddrs r (recRun r t 8)
    let add := f.modf.getLsbD 0
    let post := if f.modf.getLsbD 6 then some f.f else none
    let fault := accessFault r (f.n != 0) 0 t 8 8
    (s.isRebuild = false → ∀ c a, fault = some (c, a) → exec (.ssig f) s = .next (trapsAsking (.ssig f) (f.n != 0) c a s)) ∧
    (s.isRebuild = true → exec (.ssig f) s =
      .next (begins (.ssig f) { mkOp .posted s with post := post, isWrite := true } s)) ∧
    (fault = none → s.isRebuild = false → recSpace r = 2 → s.spHeld (named addrs) = false → exec (.ssig f) s = .next
      (writeScratch addrs (leBytes 8 (if add then (leNat (readScratch addrs s) + (gReg f.d s).toNat) % 2 ^ 64
          else (gReg f.d s).toNat))
        (bumpFor true r false (begins (.ssig f) { mkOp .posted s with record := r, post := post, isRead := true, isWrite := true } s)))) ∧
    (fault = none → s.isRebuild = false → recSpace r ≠ 2 → f.n = 0 →
      (∀ x va, s.cells .write (kindSpace r) addrs = .fail x va →
        exec (.ssig f) s = answersXlate (.ssig f) x va s) ∧
      ∀ cs, s.cells .write (kindSpace r) addrs = .ok cs → exec (.ssig f) s = .next
        (bumpFor true r false (begins (.ssig f) { recOp (.signal add (gReg f.d s)) f r t addrs s with isWrite := true, cells := cs } s))) ∧
    (fault = none → s.isRebuild = false → f.n ≠ 0 →
      (freeSlots s.cur = 0 → exec (.ssig f) s = .next (waitEngine s)) ∧ (freeSlots s.cur ≠ 0 → asksPeer (.ssig f) s))) ∧
  (∀ (g : BitVec 5) (op : BitVec 3) (un wide nr : Bool) (arg cmp new : Word) (old : Nat),
    let w := if wide then 64 else 32
    let a := arg.toNat % 2 ^ w
    let less := fun (x y : Nat) => if un then decide (x < y) else (BitVec.ofNat w x).slt (BitVec.ofNat w y)
    old < 2 ^ w → (op.toNat < 6) →
    atomicBytes (.amo g op un wide nr arg) old = some (leBytes (if wide then 8 else 4) (match op.toNat with
      | 0 => (old + a) % 2 ^ w
      | 1 => if less old a then old else a
      | 2 => if less old a then a else old
      | 3 => a
      | 4 => (BitVec.ofNat w old &&& BitVec.ofNat w a).toNat
      | _ => (BitVec.ofNat w old ||| BitVec.ofNat w a).toNat)) ∧
    atomicBytes (.amoc g wide cmp new) old =
      if old = cmp.toNat % 2 ^ w then some (leBytes (if wide then 8 else 4) (new.toNat % 2 ^ w)) else none)

/-- R285 to R287, R323 to R326, R334: `wfill` and `wdump` of a lone bundle begin their operation; `rput`, `rput.reg` and `reos`
update the ring and begin an operation that posts; `rget` enters the ring's list of readers; with the traps of each, and what a
rebuild leaves out.
An absent address ends the run (log entry 14). -/
def Obligations.TreeTransfersAndRings : Prop :=
  ∀ (f : LF) (s : State), quiet s = true → clear s = true → gTag f.o s = false →
    let r := s.cur.b[f.b.toNat]
    let t := (gReg f.o s).toInt
    let td := t + f.imm.toInt
    let tree : BitVec 3 := bits 0 3 f.modf
    let fp := f.modf.getLsbD 3
    let post := if f.modf.getLsbD 6 then some f.f else none
    let pad := placeAddrs r (recRun r td 4096)
    let outside := firstOutside r (recRun r td 4096)
    let bulkOk := recordOk r false = true ∧ recSpace r = 2 ∧ td % 16 = 0
    let stops := fun (i : Instr) (c : Cause) (a : Word) => lone i s = true → exec i s = .next (traps i c 0 a s)
    let both := fun (c : Cause) (a : Word) => stops (.wfill f) c a ∧ stops (.wdump f) c a
    let lane : BitVec 4 := f.imm.setWidth 4
    let at64 := placeAddrs r (recRun r t 64)
    let pop := popUnless (f.modf.getLsbD 0) f.d
    let posted := fun (i : Instr) (x : Record) =>
      ordered x (begins i { mkOp .posted s with record := x, post := post, isWrite := true } s)
    let ringed := recordOk r false = true ∧ recSpace r = 0 ∧ t % 64 = 0
    let names := fun (acc : Access) (p : PByte) => ringed ∧
      firstOutside r (recRun r t 64) = none ∧ p.2 % 64 = 0 ∧
      s.cells acc (some 0) at64 = .ok ((List.range 64).map (fun i => some (p.1, p.2 + i))) ∧
      cellsPoison ((List.range 64).map (fun i => some (p.1, p.2 + i))) s = false
    (s.treeHeld tree = true → (lone (.wfill f) s = true → exec (.wfill f) s = .next (waitEngine s)) ∧
      (lone (.wdump f) s = true → exec (.wdump f) s = .next (waitEngine s))) ∧
    (s.treeHeld tree = false →
      (¬(recordOk r false = true ∧ recSpace r = 2) → both .operandValue 0) ∧
      (recordOk r false = true → recSpace r = 2 → td % 16 ≠ 0 → both .misalignedOperand 0) ∧
      (bulkOk → ∀ a, outside = some a → both .bounds a) ∧
      (bulkOk → outside = none → s.spHeld (named pad) = false →
        (scratchFault pad s = true → stops (.wfill f) .poison 0) ∧
        (lone (.wfill f) s = true → scratchFault pad s = false →
          exec (.wfill f) s = .next (ordered r (begins (.wfill f) { mkOp (.treeFill tree fp f.fe) s with
            record := r, offset := td, post := post, isRead := true } s))) ∧
        (lone (.wdump f) s = true →
          exec (.wdump f) s = .next (ordered r (begins (.wdump f) { mkOp (.treeDump (s.tree tree) fp f.fe) s with
            record := r, offset := td, post := post, isWrite := true } s))))) ∧
    (s.cur.queue f.d = [] → stops (.rput f) .queueUnderflow 0) ∧
    (s.cur.queue f.d ≠ [] → headTag f.d s = true → s.isRebuild = true → stops (.rput f) .poison 0) ∧
    (s.isRebuild = false → ¬ringed →
      stops (.rputReg f) .operandValue 0 ∧ stops (.reos f) .operandValue 0 ∧
      (s.cur.queue f.d ≠ [] → stops (.rput f) (if headTag f.d s then .poison else .operandValue) 0)) ∧
    (s.isRebuild = false → ringed → ∀ a, firstOutside r (recRun r t 64) = some a →
      stops (.rputReg f) .bounds a ∧ stops (.reos f) .bounds a) ∧
    (s.isRebuild = false → ringed → firstOutside r (recRun r t 64) = none → ∀ x va, s.cells .write (some 0) at64 = .fail x va →
      (mappedAway s.cur.sys.asid s.user .write (some 0) va s = true →
        stops (.rputReg f) .operandValue 0 ∧ stops (.reos f) .operandValue 0) ∧
      (mappedAway s.cur.sys.asid s.user .write (some 0) va s = false →
        (lone (.rputReg f) s = true → exec (.rputReg f) s = answersXlate (.rputReg f) x va s) ∧
        (lone (.reos f) s = true → exec (.reos f) s = answersXlate (.reos f) x va s))) ∧
    (∀ p, names .write p → s.isRebuild = false →
      let g := ringAt p s.cur.sys.asid s
      let holds := lane.toNat ≤ g.nprod.toNat ∧ g.reg.getLsbD lane.toNat = true ∧ g.closed.getLsbD lane.toNat = false ∧
        g.owners.any (fun x => x.1 == lane && x.2 == s.cur.serial) = true
      (lone (.rput f) s = true → s.cur.queue f.d ≠ [] → headTag f.d s = true → (holds → g.hasRoom = true) →
        exec (.rput f) s = .next (traps (.rput f) .poison 0 0 s)) ∧
      (lone (.rput f) s = true → s.cur.queue f.d ≠ [] → holds → g.hasRoom = false → exec (.rput f) s = .next (waitEngine s)) ∧
      (lone (.rput f) s = true → s.cur.queue f.d ≠ [] → headTag f.d s = false →
        (¬holds → exec (.rput f) s = .next (traps (.rput f) .operandValue 0 0 s)) ∧
        (holds → g.hasRoom = true → exec (.rput f) s = .next (updateRing
          { g with items := g.items ++ [.entry lane (headBits f.d s) false none] } (pop (posted (.rput f) r))))) ∧
      (lone (.rputReg f) s = true →
        let e : Ring := if g.ended then { g with reg := 0, closed := 0, ended := false, items := [], owners := [], spilled := 0 }
          else g
        let taken := g.nprod.toNat < lane.toNat ∨ e.reg.getLsbD lane.toNat = true
        let full := e.reg = 0 ∧ 64 ≤ s.die.rings.countP Ring.active
        (taken → exec (.rputReg f) s = .next (traps (.rputReg f) .operandValue 0 0 s)) ∧
        (¬taken → full → exec (.rputReg f) s = .next (traps (.rputReg f) .queueFull 0 0 s)) ∧
        (¬taken → ¬full → exec (.rputReg f) s = .next (updateRing
          { e with reg := setBit e.reg lane.toNat true, owners := e.owners ++ [(lane, s.cur.serial)] }
          (posted (.rputReg f) r)))) ∧
      (lone (.reos f) s = true →
        (¬holds → exec (.reos f) s = .next (traps (.reos f) .operandValue 0 0 s)) ∧
        (holds → exec (.reos f) s = .next (updateRing (g.closeLane lane) (posted (.reos f) r))))) ∧
    (∀ p, names .read p → lone (.rget f) s = true → roomIn f.d [] s = true →
      let g := ringAt p s.cur.sys.asid s
      let name := BitVec.ofNat 64 p.2 ||| (if p.1 = .hbm then 0 else 0x8000000000000000)
      exec (.rget f) s = .next (putRing { g with gets := g.gets ++ [s.die.nextId] } (ordered r (begins (.rget f)
        { mkOp (.ringGet name f.d (f.imm.setWidth 5)) s with record := r, isRead := true } s)))) ∧
    (s.isRebuild = true →
      (lone (.rput f) s = true → s.cur.queue f.d ≠ [] → headTag f.d s = false →
        exec (.rput f) s = .next (pop (posted (.rput f) 0))) ∧
      (lone (.rputReg f) s = true → exec (.rputReg f) s = .next (posted (.rputReg f) 0)) ∧
      (lone (.reos f) s = true → exec (.reos f) s = .next (posted (.reos f) 0)))

/-- R290 to R295, R298 to R300, R334: the region instructions of a lone bundle: what completes, the region's home on the own die
or the home's answer at hand, and their traps; a rebuild performs none of them.
The address space of the region comes with the home's answer, and a vote carries the dies to whose shards the member has stored (log entry 21); an absent address ends the run (log entry 14). -/
def Obligations.RegionInstructions : Prop :=
  (∀ (f : LF) (s : State), quiet s = true → clear s = true → s.isRebuild = false → gTag f.o s = false → freeSlots s.cur ≠ 0 →
    let r := s.cur.b[f.b.toNat]
    let t := (gReg f.o s).toInt
    let h := gReg f.d s
    let n := nameOf h s.cur.sys.asid
    let user := s.user
    let here := s.die.coord
    let post := if f.modf.getLsbD 6 then some f.f else none
    let stops := fun (i : Instr) (c : Cause) (a : Word) => lone i s = true → exec i s = .next (traps i c 0 a s)
    let enters := fun (x : RegionName) (u : State) => u.modFlow (fun (w : FlowCtx) =>
      { w with region := some { region := x, voted := false, flag := none, shards := 0 }, homeAnswer := none })
    let heard := fun (i : Instr) =>
      (∀ c a, s.cur.flow.homeAnswer = some (.refused c a) → stops i c a) ∧
      (∀ o, s.cur.flow.homeAnswer = some (.asked o) → lone i s = true → exec i s = .next (waitEngine s))
    let opened : Bool := recordOk r (f.n != 0) && recSpace r == 3 && (bits 6 10 f.imm : BitVec 10) != 0
    (opened = false → stops (.arOpen f) .operandValue 0) ∧
    (opened = true → ∀ a, firstOutside r (recRun r t 64) = some a → stops (.arOpen f) .bounds a) ∧
    (opened = true → firstOutside r (recRun r t 64) = none →
      ((∀ off, openOffset r t = some off → off % 64 ≠ 0) → stops (.arOpen f) .operandValue 0) ∧
      (∀ off, openOffset r t = some off → off % 64 = 0 → lone (.arOpen f) s = true →
        let obj := BitVec.ofNat 34 (off / 64)
        (f.n ≠ 0 → heard (.arOpen f) ∧ (∀ v a, s.cur.flow.homeAnswer = some (.done v a) → ∃ u, exec (.arOpen f) s = .next u ∧
          u.cur.flow.homeAnswer = none ∧ (f.d ≠ 0 → gReg f.d u = v ∧ gTag f.d u = false))) ∧
        (f.n = 0 → ∀ x, seek s.cur.sys.asid user .atomic none (Config.heapBase + off) s = x →
          ((∀ k pa, x ≠ .ok k pa) →
            exec (.arOpen f) s = answersXlate (.arOpen f) x (Config.heapBase + off) s) ∧
          (∀ k pa, x = .ok k pa →
            let made := (homeOpen (k, pa) obj s.cur.sys.asid (bits 0 6 f.imm) (bits 6 10 f.imm) s).2
            (made = none → exec (.arOpen f) s = .next (traps (.arOpen f) .operandValue 0 0 s)) ∧
            (∀ gen, made = some gen → ∃ u, exec (.arOpen f) s = .next u ∧
              (f.d ≠ 0 → gReg f.d u = handleOf here gen obj ∧ gTag f.d u = false)))))) ∧
    (gTag f.d s = true → stops (.arJoin f) .poison 0) ∧
    (gTag f.d s = false → heard (.arJoin f) ∧ (∀ v a, s.cur.flow.homeAnswer = some (.done v a) → lone (.arJoin f) s = true →
      (s.die.ended.contains { n with asid := a } = false →
        exec (.arJoin f) s = .next (does (.arJoin f) (enters { n with asid := a }) s)) ∧
      (s.die.ended.contains { n with asid := a } = true → ∃ u, exec (.arJoin f) s = .next u ∧ u.cur.flow.region = none))) ∧
    (gTag f.d s = false → s.cur.flow.homeAnswer = none →
      let barred := s.cur.flow.region.isSome || (bits 14 2 n.home : BitVec 2) != 0 || !inDomain n.home s
      (barred = true → stops (.arJoin f) .operandValue 0) ∧
      (barred = false → n.home = here → lone (.arJoin f) s = true →
        let x := (homeJoin n (memberRef none s) s).2
        (∀ c, x = some c → exec (.arJoin f) s = .next (traps (.arJoin f) c 0 0 s)) ∧
        (x = none → ∃ u name, exec (.arJoin f) s = .next u ∧ name.gen = n.gen ∧
          u.cur.flow.region = some { region := name, voted := false, flag := none, shards := 0 }))) ∧
    heard (.arCommit f) ∧ heard (.arAbort f) ∧ heard (.arLeave f) ∧
    (∀ v a, s.cur.flow.homeAnswer = some (.done v a) →
      (lone (.arCommit f) s = true → exec (.arCommit f) s = .next (does (.arCommit f) (State.modFlow (fun (w : FlowCtx) =>
        { w with region := w.region.map (fun (m : Member) => { m with voted := true }), homeAnswer := none })) s)) ∧
      (lone (.arAbort f) s = true → exec (.arAbort f) s = .next (does (.arAbort f) (State.modFlow (fun (w : FlowCtx) =>
        { w with homeAnswer := none })) s)) ∧
      (lone (.arLeave f) s = true → ∃ u, exec (.arLeave f) s = .next u ∧ u.cur.flow.homeAnswer = none ∧
        u.cur.flow.region = none)) ∧
    (s.cur.flow.homeAnswer = none → s.cur.flow.region = none →
      stops (.arCommit f) .operandValue 0 ∧ stops (.arAbort f) .operandValue 0 ∧ stops (.arLeave f) .operandValue 0) ∧
    (s.cur.flow.region = none → stops (.arLd f) .operandValue 0 ∧ (gTag f.d s = false → stops (.arSt f) .operandValue 0)) ∧
    (∀ m, s.cur.flow.region = some m → s.cur.flow.homeAnswer = none → m.region.home = here →
      let vote := homeCommit m.region m.shards (s.modFlow (fun (w : FlowCtx) =>
        { w with region := some { m with voted := true, flag := post } }))
      (lone (.arCommit f) s = true →
        (∀ c, vote.2 = some c → exec (.arCommit f) s = .next (traps (.arCommit f) c 0 0 s)) ∧
        (vote.2 = none → ∃ u, exec (.arCommit f) s = .next u ∧ u.cur.flow.region.all (fun (x : Member) => x.voted) = true)) ∧
      (lone (.arAbort f) s = true → ∃ u, exec (.arAbort f) s = .next u ∧
        (∀ g, findRegion m.region s = some g → objState (readObj g.place s) = 1 → objGen (readObj g.place s) = m.region.gen →
          u.cur.flow.region = none)) ∧
      (lone (.arLeave f) s = true →
        (∀ c, (homeLeave m.region s).2 = some c → exec (.arLeave f) s = .next (traps (.arLeave f) c 0 0 s)) ∧
        ((homeLeave m.region s).2 = none → ∃ u, exec (.arLeave f) s = .next u))) ∧
    (∀ m, s.cur.flow.region = some m →
      let td := t + f.imm.toInt
      let size := 2 ^ (bits 0 2 f.modf : BitVec 2).toNat
      let addrs := placeAddrs r (recRun r td size)
      let peer := if f.n = 0 then here else s.cur.n[f.n.toNat]
      let known := (recSpace r == 0 || recSpace r == 3) && inDomain peer s && inDomain m.region.home s
      let access := fun (i : Instr) (acc : Access) (k : OpKind) (reads : Bool) (also : State → State) => lone i s = true →
        (known = false → exec i s = .next (traps i .operandValue 0 0 s)) ∧
        (known = true →
          (∀ c a, accessFault r (f.n != 0) 0 td size size = some (c, a) → exec i s = .next (traps i c 0 a s)) ∧
          (accessFault r (f.n != 0) 0 td size size = none → (f.n ≠ 0 → asksPeer i s) ∧
            (f.n = 0 → (∀ x va, s.cells acc (kindSpace r) addrs = .fail x va →
                exec i s = answersXlate i x va s) ∧
              (∀ cs, s.cells acc (kindSpace r) addrs = .ok cs → exec i s = .next (also (ordered r
                (begins i { recOp k f r td addrs s with isRead := reads, isWrite := !reads, cells := cs } s)))))))
      let noted := fun (u : State) => u.modFlow (fun (w : FlowCtx) => { w with region := w.region.map (fun (x : Member) =>
        match domainIndex peer s with | some j => { x with shards := x.shards ||| BitVec.ofNat 64 (2 ^ j) } | none => x) })
      access (.arLd f) .read (.regionLoad f.d size (f.modf.getLsbD 2) m.region) true id ∧
      (gTag f.d s = false → access (.arSt f) .write (.regionStore size h m.region) false noted))) ∧
  (∀ (f : LF) (s : State), quiet s = true → s.acquireHeld = false → s.coreOps < 256 →
    let stops := fun (i : Instr) => lone i s = true → exec i s = .next (traps i .operandValue 0 0 s)
    (s.isRebuild = true → stops (.arOpen f) ∧ stops (.arJoin f) ∧ stops (.arCommit f) ∧ stops (.arAbort f) ∧ stops (.arLeave f) ∧
      (s.releaseHeld = false → (f.n = 0 ∨ freeSlots s.cur ≠ 0) → stops (.arLd f) ∧ stops (.arSt f))) ∧
    (s.isRebuild = false → s.cur.flow.homeAnswer = none →
      s.cur.flow.region.any (fun (m : Member) => m.voted) = true → stops (.arCommit f) ∧ stops (.arLeave f)))

/-! ## Events of the units -/

/-- R163, R183, R178: a flag's first waiter is served once the flag meets its count; a watch posts its flag and ends once what it
waits for has come; a completed walk whose page the access may use enters the TLB of its core.  Else nothing changes.
One TLB of a core stands for all levels (log entry 20). -/
def Obligations.FlagWatchAndWalkEvents : Prop :=
  (∀ (core : BitVec 6) (flag : BitVec 5) (s : State),
    let k := coreAt core s
    (∀ w, k.waiters.find? (fun x => x.flag == flag) = some w →
      let c : CtxId := { core := core, ctx := w.ctx }
      (w.count.toNat ≤ k.f[flag.toNat].toNat → ∃ t, exec (.flagWaitRelease core flag) s = .next t ∧
        (coreAt core t).f = k.f.set flag.toNat (k.f[flag.toNat] - w.count) ∧
        (coreAt core t).waiters = k.waiters.filter (fun x => !(x.ctx == w.ctx && x.flag == flag)) ∧
        (ctxAt c t).flow = { (ctxAt c s).flow with flagGrant := some (ctxAt c s).flow.pc } ∧ t.die = s.die ∧ t.pkg = s.pkg) ∧
      (k.f[flag.toNat].toNat < w.count.toNat → exec (.flagWaitRelease core flag) s = .next s)) ∧
    (k.waiters.find? (fun x => x.flag == flag) = none → exec (.flagWaitRelease core flag) s = .next s)) ∧
  (∀ (c : CtxId) (n : Nat) (w : Watch) (s : State), (ctxAt c s).flow.watches[n]? = some w →
    let met := match w.kind with
      | .scratch as v => v.toNat ≤ leNat (readScratch as { s with cluster := clusterAt (clusterOf c.core) s })
      | .memory cs v => cellsPoison cs s = false ∧ v.toNat ≤ leNat (readCells cs s)
      | .never => False
      | .set _ => predDone (match (ctxAt c s).flow.task with | some t => t.inst | none => 0) s = true
    (met → ∃ t, exec (.swaitPost c n) s = .next t ∧ (ctxAt c t).flow.watches = (ctxAt c s).flow.watches.eraseIdx n ∧
      (coreAt c.core t).f = (coreAt c.core s).f.set w.flag.toNat
        (BitVec.ofNat 16 (min ((coreAt c.core s).f[w.flag.toNat].toNat + 1) 65535)) ∧ t.die = s.die ∧ t.pkg = s.pkg) ∧
    (¬met → exec (.swaitPost c n) s = .next s)) ∧
  (∀ (core : BitVec 6) (w : WalkArg) (root : Nat) (s : State), s.die.asTable.lookup w.asid.toNat = some root →
    let kept := fun (core : BitVec 6) (w : WalkArg) (page size : Nat) (e : BitVec 64) (s : State) =>
      ({ asid := w.asid, page := page, size := size, pte := e } : TlbEntry) ::
        (coreAt core s).tlb.filter (fun x => !(x.asid == w.asid && x.page == page))
    (∀ e size, walkFrom w.va.toNat s walkLevels true root = .leaf e size →
      let page := w.va.toNat / size * size
      (w.va.toNat < 2 ^ 56 → pteAllows e w.access w.user w.space = true →
        ∃ t, exec (.translationWalkComplete core w) s = .next t ∧ t.cur = s.cur ∧ t.die = s.die ∧ t.pkg = s.pkg ∧
          coreAt core t = { coreAt core s with tlb := kept core w page size e s }) ∧
      (pteAllows e w.access w.user w.space = false → exec (.translationWalkComplete core w) s = .next s)) ∧
    (walkFrom w.va.toNat s walkLevels true root = .translation → exec (.translationWalkComplete core w) s = .next s))

/-- R154, R165, R167, R169, R247: an operation of the running task completes: a load delivers its value to the register or the
queue entry that waits for it; a store's bytes are written; an atomic reads and writes its word; a tile load fills its scratchpad
bytes and granules; an access of scratchpad that followed an `mload` of its bundle reads or writes there (R220); its post is made, and it is no longer in flight.  An operation that the engine stops raises engine fault for
its task and posts nothing.
What a stopped operation owes is a free value (log entry 4), and an operation is performed at one moment (log entry 30). -/
def Obligations.OperationCompletionEvents : Prop :=
  ∀ (id : Nat) (o : Op) (s : State), s.die.ops.find? (fun x => x.id == id) = some o → ours o s = true → noRsync s = true →
    (o.inCore = true → s.core.frozenLeft = 0) → o.follows s = false → o.atLock s = false →
    let ends := fun (u : State) => exec (.operationComplete id) s = .next (ended o u)
    let value := leNat (readCells o.cells s)
    let clean := cellsPoison o.cells s = false
    let gives := fun (g : BitVec 5) (v : Word) (p : Bool) => g ≠ 0 → s.cur.owed.contains (.g g, id) = true →
      let owed := s.cur.owed.filter (fun x => x != (.g g, id))
      ends (s.modCtx (fun (c : Ctx) => { c with g := c.g.set g.toNat v, gPoison := setBit c.gPoison g.toNat p, owed := owed }))
    let enters := fun (q : BitVec 5) (i : Instr) (v : BitVec 1024) (p : Bool) (fl : Flags) (post : State → State) =>
      ∀ e, s.cur.queue q = [e] → e.landed = false → e.interlocked = true → e.op = id →
        let e' : QEntry := { e with bits := v, poison := p, landed := true, interlocked := false, due := s.core.cycle }
        let sys : SysCtx := { s.cur.sys with fstat := s.cur.sys.fstat ||| fl }
        exec i s = .next (post (s.modCtx (fun (c : Ctx) => { c with q := c.q.set q.toNat [e'], sys := sys })))
    let stores := fun (bs : List Byte) => ends (storeCells (pairCells o.cells bs) s)
    let run := fun (n : Nat) => placeAddrs o.record (recRun o.record o.offset n)
    (o.space = 2 → o.fe = 0 →
      match o.kind with
      | .elemLoad g size sg _ _ => gives g (loadValue size sg (readScratch (run size) s)) (scratchFault (run size) s)
      | .vecLoad q _ _ => enters q (.operationComplete id) (BitVec.ofNat 1024 (leNat (readScratch (run 128) s)))
          (scratchFault (run 128) s) 0 (ended o)
      | .vecStore d => ends (writeScratch (run 128) (leBytes 128 d.toNat) s)
      | .elemStore size v => ends (writeScratch (run size) (leBytes size v.toNat) s)
      | _ => True) ∧
    (o.inScratch = false →
      match o.kind with
      | .elemLoad g _ _ _ (some (v, p)) => gives g v p
      | .elemLoad g size sg _ none => clean → gives g (loadValue size sg (readCells o.cells s)) false
      | .vecLoad q _ (some (v, p)) => enters q (.operationComplete id) v p 0 (ended o)
      | .vecLoad q _ none => clean →
          enters q (.operationComplete id) (BitVec.ofNat 1024 value) false 0 (ended o)
      | .vecStore d => stores (leBytes 128 d.toNat)
      | .elemStore size v => (∀ off, o.cells.head? ≠ some (some (Tier.hbm, Config.devicePage + off))) →
          stores (leBytes size v.toNat)
      | .recStore r => stores (leBytes 32 r.toNat)
      | .signal false v => stores (leBytes 8 v.toNat)
      | .posted => ends s
      | .amo g op un wide nr arg => clean → (nr = true → ∀ bs, atomicBytes o.kind value = some bs → stores bs) ∧
          (nr = false → g ≠ 0 → ∀ bs, atomicBytes o.kind value = some bs → ∃ t, exec (.operationComplete id) s = .next t ∧
            (s.cur.owed.contains (.g g, id) = true → s.die.shard = [] → t.cur.g[g.toNat] = BitVec.ofNat 64 value))
      | .push q v p fl =>
          s.die.ops.find? (fun x => x.owner == s.curId && (match x.kind with | .push r _ _ _ => r == q | _ => false)) = some o →
          o.lo ≤ s.core.cycle →
          enters q (.arrayPushLanding s.curId q) v p fl
            (fun u => u.modDie (fun (d : Die) => { d with ops := d.ops.filter (fun x => x.id != id) }))
      | .tileLoad spec sp shape => o.doomed = false → ∀ rows w bs, tileShape o.record shape = some (rows, w) →
          engineRead o o.record (tilePlaces o.record o.offset shape) s = (bs, .done) → bs.length = rows * w →
          ∃ t, exec (.operationComplete id) s = .next t ∧ findOp id t = none ∧
            (∀ i, i < rows * w → scratchRead (sp + i) t = bs.getD i 0) ∧
            (∀ a, a < sp ∨ sp + rows * w ≤ a → scratchRead a t = scratchRead a s) ∧
            (∀ i, i < rows * w → isFull ((sp + i) / 16) t = true)
      | .tileStore sp shape => ∀ rows w va x, tileShape o.record shape = some (rows, w) → recSpace o.record ≠ 2 →
          s.die.shard = [] →
          (scanCells o .write (kindSpace o.record) s (placeAddrs o.record (tilePlaces o.record o.offset shape))).2 = .fail x va →
          x ≠ .absent → (∀ w asked, x ≠ .pending w asked) → ∃ t, exec (.engineFault id) s = .next t ∧ findOp id t = none ∧ t.core.f = s.core.f ∧
            dueMore s.cur.flow.due t.cur.flow.due .engineFault 0 (BitVec.ofNat 64 va)
      | .treeFill w fp fe =>
          let addrs := placeAddrs o.record (recRun o.record o.offset 4096)
          let code := fun (i : Nat) => BitVec.ofNat 32 (leNat (((readScratch addrs s).drop (4 * i)).take 4))
          (fe ≠ 0 → (granulesOf (named addrs)).any (fun g => !isFull g s) = true → exec (.wfillApply id) s = .next s) ∧
          (fe = 0 ∨ (granulesOf (named addrs)).all (fun g => isFull g s) = true → ∃ t, exec (.wfillApply id) s = .next t ∧
            findOp id t = none ∧
            ∀ i, i < 1024 → leafOf (t.tree w) i = (if fp then (massOf (code i)).1 else code i).toNat)
      | .mload f _ done => s.beatsLeft = false → recSpace o.record = 2 → done = 0 →
          s.die.ops.find? (fun x => x.isMload && x.owner == s.curId) = some o → o.doomed = false →
          let addrs := placeAddrs o.record (tilePlaces o.record o.offset 0)
          addrs.length % 64 = 0 → ∃ t, exec (.mloadComplete s.curId) s = .next t ∧ findOp id t = none ∧ t.cur.arr.mlprog = 0 ∧
            ∀ n, n < addrs.length → memGet t.core.cope (64 * f.caddr.toNat + n) = (readScratch addrs s).getD n 0
      | _ => True)

/-- R50, R138, R260 to R263, R322: a fixed-latency result lands before its bound, and older ones for
its destination never do; a factorisation that runs to its end frees the
array, zeroes FPROG and raises its flags, one that meets its pivot condition sets STOP and traps or raises NPD or ZP, and one with
a boundary cause due stops after the column in progress and is pending; a ring entry beyond the window moves to the memory
ring. -/
def Obligations.ResultFactorisationAndSpillEvents : Prop :=
  (∀ (i : Nat) (p : Pending) (s : State), s.core.frozenLeft = 0 → s.cur.pend[i]? = some p → p.landed = false →
    exec (.fixedLatencyResultLanding s.curId i) s = .next (s.modCtx (fun (c : Ctx) =>
      { (c.writeDest p.dest p.value p.poison).orFlags p.flags with
        pend := (c.pend.take i).map (fun x => if x.dest = p.dest then { x with dest := .fstat } else x) ++ c.pend.drop (i + 1) }))) ∧
  (∀ (i : Nat) (p : Pending) (s : State), s.cur.pend[i]? = some p → (0 < s.core.frozenLeft ∨ p.landed = true) →
    exec (.fixedLatencyResultLanding s.curId i) s = .next s) ∧
  (∀ (f : Fact) (s : State), s.core.fact = some f → f.ctx = s.core.sel → s.cur.flow.residency = .running → s.core.frozenLeft = 0 →
    let r := runColumns 32 s
    let pivot : BitVec 8 := if factOp f.instr = 1 then 0x40 else 0x80
    let trapping := f.fmt.getLsbD (if factOp f.instr = 1 then 26 else 27) = true
    (r.2 = 1 → ∃ t, exec (.factorisationComplete s.curId) s = .next t ∧ t.core.fact = none ∧ t.cur.arr.fprog = 0 ∧
      t.cur.arr.lastFlags.setWidth 10 &&& f.seen = f.seen ∧
      (f.seen = 0 → t.cur.sys.fstat = s.cur.sys.fstat ||| t.cur.arr.lastFlags.setWidth 10)) ∧
    (r.2 = 2 → ∃ t, exec (.factorisationPivotStop s.curId) s = .next t ∧ t.core.fact = none ∧
      t.cur.arr.fprog.getLsbD 15 = true ∧
      (trapping → dueMore s.cur.flow.due t.cur.flow.due .pivot pivot 0) ∧
      (¬trapping → t.cur.flow.due = s.cur.flow.due ∧ t.cur.sys.fstat &&& pivot.setWidth 10 = pivot.setWidth 10)) ∧
    (s.cur.flow.preempt = false → s.cur.flow.due ≠ [] → (runColumn s).2 = 0 →
      ∃ t, exec (.factorisationInterruptionPoint s.curId) s = .next t ∧ t.core.fact = none ∧
        t.cur.arr.fprog = (runColumn s).1.cur.arr.fprog ∧ (t.cur.flow.pendingArray.map (fun x => x.instr)) =
          s.cur.flow.pendingArray.map (fun x => x.instr) ++ [f.instr])) ∧
  (∀ (pa : BitVec 64) (r : Ring) (s : State), s.die.rings.find? (fun x => x.place == (Tier.hbm, pa.toNat)) = some r →
    (r.spillable = false → exec (.ringSpill pa) s = .next s) ∧
    (r.spillable = true → r.active = true → s.die.shard = [] → ∀ p cs,
      cellsFor r.asid true .write (some 0) s ((List.range 128).map (fun i =>
        some (r.spill.toNat + 128 * (r.spilled % max r.quota.toNat 1) + i))) = .ok (some p :: cs) →
      ∃ t x, exec (.ringSpill pa) s = .next t ∧ x ∈ t.die.rings ∧ x.place = r.place ∧ x.spilled = r.spilled + 1 ∧
        x.entries = r.entries ∧ x.items = (spillItems p 128 r.items).1))

/-! ## Events of traps, errors and saves -/

/-- R128, R139, R146, R148, R149: a trap whose context has drained is delivered; an expired watchdog retires its task with class X;
neither happens on a frozen core; a correctable error freezes its cores for 24 cycles of the arithmetic clock and counts once; an uncorrectable error makes a class X trap due for every
running task whose state it hits; a request for a running context becomes pending. -/
def Obligations.TrapAndErrorEvents : Prop :=
  (∀ (r : TrapReq) (s : State), s.cur.flow.taking = some r → quiet s = true → settled s = true →
    handled r.cause s = true → s.core.frozenLeft = 0 → r.logged ≠ [] → r.logged.length ≤ 47 →
    ∃ t, exec (.trapDelivery s.curId) s = .next t ∧ t.cur.flow.taking = none ∧ t.cur.flow.pc = s.cur.sys.tvec ∧
      t.cur.sys.handler = true ∧ t.cur.flow.kept = s.cur.flow.levels ∧ t.cur.flow.levels = [] ∧ t.cur.sys.sel = 0 ∧
      t.cur.sys.trapinfo = BitVec.ofNat 640 (infoNat r.logged (causeNat r.cause s) r.slot.toNat r.aux r.faddr r.pc
        (r.ret.getD s.pc)) ∧
      t.die.trapCount = s.die.trapCount + 1 ∧ t.core.seq = s.core.seq + 1 ∧ t.cur.g = s.cur.g) ∧
  (∀ (k : TaskRef) (s : State), s.cur.flow.task = some k → k.notice = false → k.pour = false → quiet s = true →
    settled s = true → s.cur.flow.due = [] → s.cur.flow.region = none →
    (∀ r ∈ s.die.rings, ∀ x ∈ r.owners, x.2 ≠ k.serial) → s.core.prefetch = [] →
    s.cur.flow.slots.all (fun (x : Slot) => !x.held) = true → s.die.queues.notices.length < 4096 →
    let expired := s.cur.sys.wdForced = true ∨ (s.cur.sys.wdlim ≠ 0 ∧ s.cur.sys.wdlim.toNat ≤ s.cur.wdValue s.core.cycle)
    (expired → s.core.frozenLeft = 0 → s.cur.flow.taking = none → s.cur.flow.saveWait = none → ∃ t n, exec (.watchdogExpiry s.curId) s = .next t ∧ t.cur.flow.residency = .free ∧
      t.die.trapCount = s.die.trapCount + 1 ∧ t.die.queues.notices = s.die.queues.notices ++ [n] ∧ noticeKind n = 1 ∧
      (bits 64 8 n : BitVec 8) = (if s.cur.sys.handler then 0x99 else 0x19) ∧ t.die.queues.publications =
        s.die.queues.publications ++ [{ key := k.serial, owner := s.curId, ref := k, faulted := true }]) ∧
    (¬expired ∨ 0 < s.core.frozenLeft ∨ s.cur.flow.taking.isSome = true ∨ s.cur.flow.saveWait.isSome = true →
      exec (.watchdogExpiry s.curId) s = .next s)) ∧
  (∀ s : State, 0 < s.core.frozenLeft → exec (.trapDelivery s.curId) s = .next s) ∧
  (∀ (p : ErrorPlace) (s : State), ∃ t, exec (.correctableError p) s = .next t ∧
    let x := errorCores p s
    t.die = s.die ∧ t.pkg = s.pkg ∧
    (∀ c, (coreAt c t).frozenLeft = if c ∈ x.1 then max (coreAt c s).frozenLeft 24 else (coreAt c s).frozenLeft) ∧
    (∀ c, (coreAt c t).cecount = if c = x.2 ∧ (coreAt c s).cecount ≠ BitVec.allOnes 32 then (coreAt c s).cecount + 1
      else (coreAt c s).cecount) ∧
    (∀ c, (coreAt c t).cycle = (coreAt c s).cycle) ∧
    (∀ c, runsPour c.core s = false → errorCores (.registers c) s = ([c.core], c.core)) ∧
    (∀ k, errorCores (.scratchpad k) s = ((List.range 8).map (fun (r : Nat) => k ++ BitVec.ofNat 3 r), k ++ (0 : BitVec 3)))) ∧
  (∀ (core : BitVec 6) (s : State), ∃ t, exec (.freezeEnd core) s = .next t ∧ (coreAt core t).frozenLeft = 0 ∧
    (let n := (coreAt core s).frozenLeft
     let now := (coreAt core t).now
     (now = (coreAt core s).now + n ∨ now = s.pkg.clocks + n) ∧
     (core = s.core.id → s.cur.flow.residency = .running → now = s.core.now + n) ∧
     t.pkg.clocks = s.pkg.clocks + (now - max (now - n) s.pkg.clocks)) ∧ t.cur = s.cur ∧ t.die = s.die ∧
    (coreAt core t).cycle = (coreAt core s).cycle) ∧
  (∀ (p : ErrorPlace) (s : State), ∃ t, exec (.uncorrectableError p) s = .next t ∧
    ∀ c : CtxId,
      let hit := match p with
        | .registers x => c = x
        | .array k => c.core = k
        | .scratchpad k => clusterOf c.core = k
      (hit → (ctxAt c s).flow.residency = .running →
        dueMore (ctxAt c s).flow.due (ctxAt c t).flow.due .uncorrectable 0 0) ∧
      (¬hit → ctxAt c t = ctxAt c s)) ∧
  (∀ (c : CtxId) (s : State), ∃ t, exec (.preemptionRequest c) s = .next t ∧
    ((ctxAt c s).flow.residency = .running → (ctxAt c t).flow = { (ctxAt c s).flow with preempt := true }) ∧
    ((ctxAt c s).flow.residency ≠ .running → ctxAt c t = ctxAt c s))

/-- R142 to R145, R298, R299: a save that completes frees the context and queues its task for a restore ahead of its priority, with the
watchdog's count (R146), or retires it where the watchdog has expired (R147); one
that overruns its bound, or whose held regions cannot be written out, loses the context; a held region is written out to its owner's
save block once the operations of its task have ended; a queued task comes back to the free
context it left; a region aborts when its deadline has come, and an abort that reaches a member ends its membership and makes a
region trap due.
Registers outside the live set are free values (log entries 4 and 43), the place of a save block is PRESUMED (log entry 6), a pre-empted task goes to the head of its priority (log entry 35) and resumes on the very context that it left (log entry 51). -/
def Obligations.SaveRestoreAndAbortEvents : Prop :=
  (∀ (v : Saved) (k : TaskRef) (s : State), s.die.queues.saved.find? (fun x => x.home == s.curId) = some v →
    s.cur.flow.residency = .saving → v.saving = true → s.core.prefetch = [] → v.ctx.flow.task = some k →
    let late := saveOver v s = true ∨ s.core.held.any (fun h => h.owner == v.ctx.serial) = true
    let y := s.cur.sys
    let counts := fun (c : Ctx) => { c with sys := { c.sys with
      wdCount := s.cur.wdValue s.core.cycle, wdSuspended := y.wdSuspended, wdForced := y.wdForced, wdArmed := y.wdArmed } }
    let expired := v.expired = true ∨ y.wdForced = true ∨ (y.wdlim ≠ 0 ∧ y.wdlim.toNat ≤ s.cur.wdValue s.core.cycle)
    (expired → saveOver v s = false → v.ctx.flow.region = none → k.notice = true → s.cur.flow.task = some k →
      ∃ t, exec (.saveComplete s.curId) s = .next t ∧ (t.cur.flow.residency = .retiring ∨ t.cur.flow.residency = .free) ∧
        t.die.queues.saved = s.die.queues.saved.filter (fun x => x.index != v.index) ∧ t.die.trapCount = s.die.trapCount + 1) ∧
    (¬expired → saveOver v s = false → heldRanges s ≤ 64 →
      ∃ t q, exec (.saveComplete s.curId) s = .next t ∧
        t.cur.flow.residency = .free ∧ t.die.queues.tasks = q :: s.die.queues.tasks ∧ q.ref = k ∧ q.saved = some v.index ∧
        t.die.queues.saved = s.die.queues.saved.map (fun x =>
          if x.index = v.index then { x with saving := false, ctx := counts x.ctx } else x)) ∧
    (¬late → exec (.saveOverrun s.curId) s = .next s) ∧
    (late → s.die.queues.notices.length < 4096 → v.ctx.flow.region = none → k.notice = true → s.cur.flow.task = some k →
      ∃ t n, exec (.saveOverrun s.curId) s = .next t ∧ (t.cur.flow.residency = .retiring ∨ t.cur.flow.residency = .free) ∧
        t.die.queues.saved = s.die.queues.saved.filter (fun x => x.index != v.index) ∧ n ∈ t.die.queues.notices ∧
        noticeKind n = 7 ∧ (bits 64 8 n : BitVec 8) = 0x1B ∧ bits 192 64 n = saveBlock v.index ∧
        t.die.trapCount = s.die.trapCount + 1)) ∧
  (∀ (i : Nat) (h : Held) (s : State), s.core.held[i]? = some h →
    (heldBusy s.core.id h s = true → exec (.heldRegionWriteout s.core.id i) s = .next s) ∧
    (heldBusy s.core.id h s = false → ∃ t, exec (.heldRegionWriteout s.core.id i) s = .next t ∧ t.core.held = s.core.held.erase h ∧ t.cur = s.cur ∧
      t.die.queues.saved = s.die.queues.saved.map (fun v => if v.ctx.serial = h.owner ∧ v.home.core = s.core.id then
        { v with store := v.store ++ [takeRegion h.kind s] } else v))) ∧
  (∀ (v : Saved) (q : QTask) (s : State), s.cur.flow.residency = .free → v.store = [] → v.home = s.curId →
    s.die.queues.saved.find? (fun x => x.index == v.index) = some v → (∀ e ∈ s.die.queues.sets, e.cursor = none) →
    s.die.queues.tasks.find? (fun t => match t.saved with
      | some i => s.die.queues.saved.any (fun x => x.index == i && x.home == s.curId)
      | none => false) = some q → q.saved = some v.index →
    ∃ t, exec (.contextRestore s.curId) s = .next t ∧ t.cur.flow.residency = .running ∧ t.cur.flow.pc = v.ctx.flow.pc ∧
      t.cur.g = v.ctx.g ∧ t.cur.k = v.ctx.k ∧ t.cur.q = v.ctx.q ∧ t.cur.flow.levels = v.ctx.flow.levels ∧
      t.cur.flow.task = v.ctx.flow.task ∧ t.core.held = s.core.held.filter (fun h => h.owner != v.ctx.serial) ∧
      t.die.queues.saved = s.die.queues.saved.filter (fun x => x.index != v.index) ∧ q ∉ t.die.queues.tasks) ∧
  (∀ (obj : BitVec 40) (r : RegionHome) (s : State),
    s.die.regions.find? (fun x => x.name.obj == (bits 6 34 obj : BitVec 34)) = some r →
    let o := readObj r.place s
    ((bits 448 64 o : BitVec 64).toNat ≤ s.timeNs → (bits 0 3 o : BitVec 3) = 1 → (bits 26 14 o : BitVec 14) = r.name.gen →
      devicePa r.place.1 r.place.2 = false → r.place.2 % 64 = 0 →
      ∃ t, exec (.regionDeadline obj) s = .next t ∧ (bits 0 3 (readObj r.place t) : BitVec 3) = 4 ∧
        (bits 72 8 (readObj r.place t) : BitVec 8) = 3 ∧ findRegion r.name t = none ∧
        ∀ l ∈ t.die.shard, l.region ≠ r.name) ∧
    (s.timeNs < (bits 448 64 o : BitVec 64).toNat → exec (.regionDeadline obj) s = .next s)) ∧
  (∀ (c : CtxId) (m : Member) (s : State), (ctxAt c s).flow.region = some m → (ctxAt c s).flow.residency = .running →
    ¬(m.region.home = s.die.coord ∧ (findRegion m.region s).isSome = true) →
    ∃ t, exec (.regionAbortDelivery c) s = .next t ∧ (ctxAt c t).flow.region = none ∧
      dueMore (ctxAt c s).flow.due (ctxAt c t).flow.due .regionAborted 0 0)

/-! ## Events of tasks, sets and lineage -/

/-- R310 to R320, R384, R409: a launch packet makes its set known here and queues the tasks placed here, asks the host for them
where DUTYMODE says so (R396, R397), or fails the set; dispatch
starts a notice or the next task on a free context with the registers of R317; a task that has waited AGELIM cycles rises by one
priority; a watched task whose words qualify is dispatchable again; the two supervisor words act; a retired task's version enters
the cadastre; marks of sets are recorded; firmware's two limits are written.
The places of packet copies and notices are PRESUMED (log entry 6), a notice without code waits (log entry 25), a notice task runs in address space 0 (log entry 27), which instance a message about a set speaks of is the model's reading (log entry 55), and an AGELIM out of range is ignored (log entry 62). -/
def Obligations.TaskAndSetEvents : Prop :=
  (∀ (p : BitVec 512) (s : State), (∀ e ∈ s.die.queues.sets, e.inst ≤ s.die.queues.serial) →
    (∀ e ∈ s.die.queues.sets, e.cursor = none ∧ (e.packet = p → e.here = true)) →
    let i := s.die.queues.serial + 1
    let fails := fun (reason : Nat) => s.die.queues.notices.length < 4096 →
      ∃ t e n, exec (.launchPacket p) s = .next t ∧ e ∈ t.die.queues.sets ∧ e.inst = i ∧ e.packet = p ∧ e.failed = true ∧
        n ∈ t.die.queues.notices ∧ noticeKind n = 10 ∧ (bits 192 64 n : BitVec 64) = (pktSetid p).setWidth 64 ∧
        (bits 320 64 n : BitVec 64).toNat = reason
    (heldSet (pktSetid p) s = true → fails 1) ∧
    (heldSet (pktSetid p) s = false → s.setsFull = true → fails 2) ∧
    (heldSet (pktSetid p) s = false → s.setsFull = false → (∀ c, platHeader p s = .error c → fails 5) ∧
      (∀ h, platHeader p s = .ok h → ownInMask (platDmask h) s = false → exec (.launchPacket p) s = .next s) ∧
      (∀ h x, platHeader p s = .ok h →
        let slot := freeCopy (arriveSet p (platDmask h) s).1
        platHeader p (keepCopy slot p s) = .ok h → platEntry p h 0 0 0 (keepCopy slot p s) = .ok x →
        ownInMask (platDmask h) s = true → entryOk x (platDmask h) s = true → entHome x = s.die.coord →
        bankFull (pktBank p) s = false → pktPredid p = 0 → gridSize p = 1 → s.pkg.regs.dutymode.getLsbD 0 = false →
        ∃ t q e, exec (.launchPacket p) s = .next t ∧ t.die.queues.tasks = s.die.queues.tasks ++ [q] ∧ q.ref.packet = p ∧
          q.ref.packetAddr = copyAddr slot ∧ q.ref.x = 0 ∧ q.ref.y = 0 ∧ q.ref.z = 0 ∧ q.bank = pktBank p ∧ q.pri = pktPri p ∧ q.saved = none ∧
          e ∈ t.die.queues.sets ∧ e.inst = i ∧ e.packet = p ∧ e.here = true ∧ e.live = 1 ∧ e.cursor = none) ∧
      (∀ h, platHeader p s = .ok h → ownInMask (platDmask h) s = true → pktPredid p = 0 → s.pkg.regs.dutymode.getLsbD 0 = true →
        s.pkg.regs.assistbase ≠ 0 → s.pkg.fw.assists.length < 4096 →
        ∃ t e a, exec (.launchPacket p) s = .next t ∧ t.die.queues.tasks = s.die.queues.tasks ∧ e ∈ t.die.queues.sets ∧ e.inst = i ∧
          e.packet = p ∧ e.here = true ∧ e.order = .asked ∧ t.pkg.fw.assists = s.pkg.fw.assists ++ [a] ∧ a.work = .dist i))) ∧
  (∀ (s : State),
    (s.dispatchStopped = true → exec .taskDispatch s = .next s) ∧
    (s.dispatchStopped = false → (∀ k, (coreAt k s).prefetch = []) →
      (s.die.queues.notices.find? (fun n => (s.noticeCode n).isSome) = none →
        (nextTask s = none → exec .taskDispatch s = .next s) ∧
        (∀ q₀ q x, nextTask s = some q₀ → q₀.saved = none →
          let u := if q₀.ref.sel.isSome then s else selectAt q₀ s
          nextTask u = some q → q.saved = none → q.ref.sel.isSome = true → waitState q.ref u = .ready → q.ref.pour = false →
          q.ref.notice = false → chooseCore u = some s.core.id → freeCtx s.core.id s = some x →
          (∀ k, (coreAt k s).held = []) → (∀ e ∈ s.die.queues.sets, e.cursor = none) → startFault q.ref u = none →
          ∃ t, exec .taskDispatch s = .next t ∧ (ctxAt x t).flow.residency = .running ∧
            (ctxAt x t).flow.task = some q.ref ∧ (ctxAt x t).flow.pc = pktCode q.ref.packet ∧
            (ctxAt x t).g[1] = q.ref.x.setWidth 64 ∧ (ctxAt x t).g[2] = q.ref.y.setWidth 64 ∧
            (ctxAt x t).g[3] = q.ref.z.setWidth 64 ∧ (ctxAt x t).g[4] = BitVec.ofNat 64 q.ref.packetAddr ∧
            (∀ r : Fin 32, 4 < r.val → (ctxAt x t).g[r] = 0) ∧ (ctxAt x t).gPoison = 0 ∧ (ctxAt x t).k = 0 ∧
            (ctxAt x t).sys.mode = .user ∧ (ctxAt x t).sys.asid = pktAsid q.ref.packet ∧
            (ctxAt x t).sys.fmt = 0x00004990 ∧ (ctxAt x t).sys.wdlim = s.die.defwdlim ∧ (ctxAt x t).sys.tvec = 0 ∧
            (ctxAt x t).flow.levels = [] ∧ q ∉ t.die.queues.tasks)) ∧
      (∀ n x a, s.die.queues.notices.find? (fun n => (s.noticeCode n).isSome) = some n → s.noticeCode n = some a →
        chooseCore s = some s.core.id → freeCtx s.core.id s = some x →
        ∃ t, exec .taskDispatch s = .next t ∧ (ctxAt x t).flow.residency = .running ∧
          (ctxAt x t).flow.pc = a ∧ (ctxAt x t).sys.mode = .supervisor ∧
          t.die.queues.notices = s.die.queues.notices.erase n))) ∧
  (∀ (key : Nat) (s : State),
    let limit := s.die.queues.agelim.toNat
    let due := fun (q : QTask) => q.ref.serial = key ∧ limit ≠ 0 ∧ q.pri.toNat < 7 ∧ limit ≤ s.pkg.clocks - q.since
    (∀ (i : Nat) (q : QTask), s.die.queues.tasks[i]? = some q → due q → (∀ x ∈ s.die.queues.tasks.take i, ¬due x) →
      let older := s.die.queues.tasks.eraseIdx i ++ [{ q with pri := q.pri + 1, since := s.pkg.clocks }]
      exec (.taskAging key) s = .next (s.modQueues (fun (x : Queues) => { x with tasks := older }))) ∧
    ((∀ x ∈ s.die.queues.tasks, ¬due x) → exec (.taskAging key) s = .next s)) ∧
  (∀ (key : Nat) (q : QTask) (s : State), s.die.queues.tasks.find? (fun x => x.ref.serial == key) = some q →
    let awake := s.die.queues.tasks.map (fun x => if x.ref.serial = key then { x with watching := false } else x)
    (q.watching = true → waitState q.ref s ≠ .below →
      exec (.waitWordQualify key) s = .next (s.modQueues (fun (x : Queues) => { x with tasks := awake }))) ∧
    (q.watching = false ∨ waitState q.ref s = .below → exec (.waitWordQualify key) s = .next s)) ∧
  (∀ (v : BitVec 64) (s : State),
    let page : Word := BitVec.ofNat 64 (v.toNat / 2 ^ 16 % 2 ^ 40 * 2 ^ 16)
    let hit := fun (q : QTask) => pktAsid q.ref.packet == v.setWidth 16 &&
      (match q.parked with | some va => va &&& ~~~(0xFFFF : Word) == page | none => false)
    (s.die.queues.notices.length < 4096 → ∃ t n, exec (.unparkWordStore v) s = .next t ∧
      t.die.queues.notices = s.die.queues.notices ++ [n] ∧ noticeKind n = 3 ∧ bits 192 64 n = page ∧
      (bits 256 64 n : BitVec 64).toNat = v.toNat % 65536 ∧
      t.die.queues.tasks = (s.die.queues.tasks.filter hit).map (fun (q : QTask) => { q with parked := none }) ++
        s.die.queues.tasks.filter (fun q => !hit q)) ∧
    (16 ≤ v.toNat → v.toNat ≤ 2047 → exec (.interruptWordStore v) s =
      .next (s.modPkg (fun (p : Package) => { p with out := p.out ++ [.vector v.toNat] }))) ∧
    (v.toNat < 16 ∨ 2047 < v.toNat → exec (.interruptWordStore v) s = .next s) ∧
    exec (.defwdlimWrite v) s = .next (s.modDie (fun (d : Die) => { d with defwdlim := bits 0 32 v })) ∧
    (v = 0 ∨ (2 ^ 10 ≤ v.toNat ∧ v.toNat ≤ 2 ^ 32) →
      exec (.agelimWrite v) s = .next (s.modQueues (fun (q : Queues) => { q with agelim := v }))) ∧
    (v ≠ 0 → v.toNat < 2 ^ 10 ∨ 2 ^ 32 < v.toNat → exec (.agelimWrite v) s = .next s)) ∧
  (∀ (key : Nat) (p : Publication) (s : State), s.die.queues.publications.find? (fun x => x.key == key) = some p →
    let left := s.die.ops.any (fun (o : Op) => o.serial == key && o.isWrite)
    (left = true → exec (.taskPublication key) s = .next s) ∧
    (left = false → p.ref.rebuild = none →
      (p.faulted = true → ∃ t, exec (.taskPublication key) s = .next t ∧ t.die.lineage = s.die.lineage ∧
        t.die.queues.publications = s.die.queues.publications.filter (fun x => x.key != key)) ∧
      (p.faulted = false → ∀ x cs, selOf p.ref s = x → x.fault = none → x.tmpl.ins.length ≤ 6 →
        outputCells p.ref x.tmpl x.record s = .ok cs → s.die.lineage.entries.length < 983040 → ∃ t e, exec (.taskPublication key) s = .next t ∧
          t.die.queues.publications = s.die.queues.publications.filter (fun x => x.key != key) ∧
          t.die.lineage.published = s.die.lineage.published + 1 ∧ e ∈ t.die.lineage.entries ∧
          cadId e = evalTerm x.tmpl.out p.ref.x p.ref.y p.ref.z ∧ cadState e = 1 ∧ cadMirror e = false ∧
          cadHome e = s.die.coord ∧ cadDigest e = crc64 (cs.map (fun c => physRead c.1 c.2 s))))) ∧
  (∀ (src : BitVec 16) (p : BitVec 512) (reason : Nat) (s : State),
    (∀ e, spokenOf src p s = some e →
      let heard := fun (x : SetEntry) => if x.doneAt.contains src then x.doneAt else x.doneAt ++ [src]
      let marked := s.die.queues.sets.map (fun x => if x.inst = e.inst then { x with doneAt := heard x } else x)
      exec (.setCompletion src p) s = .next (s.modQueues (fun (q : Queues) => { q with sets := marked }))) ∧
    (spokenOf src p s = none → ∃ t e,
      exec (.setCompletion src p) s = .next t ∧ e ∈ t.die.queues.sets ∧ e.inst = s.die.queues.serial + 1 ∧ e.packet = p ∧
        e.setid = pktSetid p ∧ e.here = false ∧ e.doneAt = [src]) ∧
    (∀ e, (if src = s.die.coord then s.die.queues.sets.reverse.find? (fun x => x.packet == p && !x.failed)
        else failedOf src p s) = some e → e.failed = false →
      findSet e.inst s = some e →
      ∃ t e', exec (.setFailure src p reason) s = .next t ∧ findSet e.inst t = some e' ∧ e'.failed = true ∧ e'.cursor = none ∧
        (∀ q ∈ t.die.queues.tasks, q.ref.inst = e.inst → q.ref.rebuild ≠ none ∨ q.saved ≠ none) ∧
        (src = s.die.coord → s.die.queues.notices.length < 4096 → ∃ n ∈ t.die.queues.notices, noticeKind n = 10 ∧
          (bits 320 64 n : BitVec 64) = BitVec.ofNat 64 reason)))

/-- R327 to R337: the events of a die's cadastre: acknowledged copies make a version replicated and trim its lineage; the bound of
depth at the end of a window; an error in memory marks its blocks and loses the version there; losses told by other dies; a need,
the end of a rebuild and of a restore; mirrors; the failure of an engine that writes a version back.
The messages to other dies are the model's (log entry 16), how replicas, needs and restores travel is (log entries 18 and 57), and a mirror that finds the cadastre full is dropped (log entry 59). -/
def Obligations.LineageEvents : Prop :=
  (∀ (v : VersionId) (die : BitVec 16) (r : Replica) (e : BitVec 1024) (s : State),
    s.die.lineage.replicas.find? (fun x => x.version == v) = some r → findCad v s = some e →
    let d := repDies e s
    let acks := if r.acks.contains die then r.acks else r.acks ++ [die]
    let whole := d.1 ∈ acks ∧ d.2 ∈ acks ∧ (cadState e = 1 ∨ cadState e = 5)
    (die ≠ d.1 → die ≠ d.2 → exec (.replicaAcknowledge v die) s = .next s) ∧
    (die = d.1 ∨ die = d.2 → whole → ∃ t,
      exec (.replicaAcknowledge v die) s = .next t ∧ (∀ x ∈ t.die.lineage.replicas, x.version ≠ v) ∧
        ∀ e', findCad v t = some e' → cadState e' = 4 ∧ cadNops e' = 0) ∧
    (die = d.1 ∨ die = d.2 → ¬whole → ∃ t e', exec (.replicaAcknowledge v die) s = .next t ∧
      t.die.lineage.replicas = s.die.lineage.replicas.map (fun x => if x.version = v then { x with acks := acks } else x) ∧
      findCad v t = some e' ∧ (if die = d.1 then cadRep1 e' else cadRep2 e') = die ∧ cadState e' = cadState e ∧
      cadNops e' = cadNops e)) ∧
  (∀ (s : State), s.pkg.regs.dutymode.getLsbD 4 = false →
    let l := s.die.lineage
    let lost := (l.losscount - l.lossBase).toNat
    let rho := (7 * l.rho.1 * l.published + lost * l.rho.2, 8 * l.rho.2 * l.published)
    let cost := (bits 16 16 l.control : BitVec 16).toNat
    (l.published = 0 → exec .dmaxUpdate s = .next (s.modLineage (fun (l : Lineage) => { l with lossBase := l.losscount }))) ∧
    (l.published ≠ 0 → ∃ t d, exec .dmaxUpdate s = .next t ∧ t.die.lineage.rho = rho ∧ t.die.lineage.published = 0 ∧
      t.die.lineage.lossBase = l.losscount ∧
      (bits 0 8 t.die.lineage.control : BitVec 8).toNat = d ∧ 2 ≤ d ∧ d ≤ 64 ∧
      (bits 8 56 t.die.lineage.control : BitVec 56) = bits 8 56 l.control ∧
      (rho.1 ≠ 0 → (2 < d → d * d * (128 * rho.1) ≤ cost * rho.2) ∧ (d < 64 → cost * rho.2 < (d + 1) * (d + 1) * (128 * rho.1))) ∧
      (rho.1 = 0 → d = 64))) ∧
  (∀ (s : State), s.pkg.regs.dutymode.getLsbD 4 = true → ∃ t, exec .dmaxUpdate s = .next t ∧ t.die.lineage.published = 0 ∧
    t.die.lineage.lossBase = t.die.lineage.losscount ∧ t.die.lineage.entries = s.die.lineage.entries) ∧
  (∀ (tier2 : Bool) (addr len : Nat) (s : State),
    let size := if tier2 then Config.tier2Bytes else Config.hbmBytes
    let k := if tier2 then Tier.second else Tier.hbm
    (len = 0 ∨ size < addr + len → exec (.hbmUncorrectableError tier2 addr len) s = .next s) ∧
    (len ≠ 0 → addr + len ≤ size → ∃ t, exec (.hbmUncorrectableError tier2 addr len) s = .next t ∧
      (s.die.lineage.entries = [] → ∀ a, physPoison k a t = true ↔
        (physPoison k a s = true ∨ (a / 64 * 64 < addr + len ∧ addr < a / 64 * 64 + 64))) ∧
      (∀ e, s.die.lineage.entries = [e] → cadMirror e = false → cadState e = 1 → s.die.lineage.replicas = [] →
        (tier2 = true ∨ hits addr len Config.cadBase 128 = false) →
        (placeOf (producer e s) s).any (fun c => c.1 == k && addr ≤ c.2 && c.2 < addr + len) = true →
        ∃ e', t.die.lineage.entries = [e'] ∧ cadId e' = cadId e ∧ (cadNops e = 0 → cadState e' = 6) ∧
          (cadNops e ≠ 0 → cadState e' = 3 ∧ (cadId e, s.die.coord) ∈ t.die.queues.unavailable)))) ∧
  (∀ (src : Coord) (v : VersionId) (lost : Bool) (s : State), ∃ t, exec (.lossBroadcast { src := src, version := v } lost) s = .next t ∧
    t.die.queues.unavailable =
      s.die.queues.unavailable.filter (fun x => x.1 != v) ++ (if lost then [(v, src)] else []) ∧
    t.die.lineage = s.die.lineage) ∧
  (∀ (v : VersionId) (pri : BitVec 3) (e : BitVec 1024) (s : State), s.die.lineage.entries = [e] → cadId e = v →
    cadMirror e = false → ∃ t, exec (.need v pri) s = .next t ∧ ∃ e', t.die.lineage.entries = [e'] ∧ cadId e' = v ∧
      (cadState e = 2 → intactReps e s ≠ [] → e' = e) ∧
      (cadState e = 3 → cadState e' = 3 ∧ (cadPri e').toNat = max (cadPri e).toNat pri.toNat) ∧
      (cadState e = 2 → intactReps e s = [] → cadNops e ≠ 0 → cadState e' = 3 ∧ cadTries e' = 0 ∧
        (cadPri e').toNat = max (cadPri e).toNat pri.toNat) ∧
      ((cadState e = 2 ∧ intactReps e s = [] ∧ cadNops e = 0) ∨ cadState e = 5 →
        cadState e' = 6 ∧ t.die.queues.lost v = false) ∧
      (cadState e = 1 ∨ cadState e = 4 ∨ cadState e = 6 → e' = e)) ∧
  (∀ (v : VersionId) (faulted : Bool) (e : BitVec 1024) (s : State), findCad v s = some e →
    let same := crc64 ((placeOf (producer e s) s).map (fun c => physRead c.1 c.2 s)) = cadDigest e
    ∃ t, exec (.rebuildRetire v faulted) s = .next t ∧ ∀ e', findCad v t = some e' →
      (faulted = false → (cadNodig e = true ∨ same) → cadState e' = 1 ∧ cadNodig e' = false ∧
        t.die.queues.lost v = false) ∧
      (faulted = true ∨ (cadNodig e = false ∧ ¬same) → cadTries e = 0 →
        cadTries e' = 1 ∧ (bankFull (pktBank (producer e s).packet) s = false →
          ∃ q ∈ t.die.queues.tasks, q.ref.rebuild = some v ∧ q.pri = cadPri e)) ∧
      (faulted = true ∨ (cadNodig e = false ∧ ¬same) → cadTries e = 1 ∨ cadTries e = 2 →
        cadState e' = 6 ∧ t.die.queues.lost v = false)) ∧
  (∀ (v : VersionId) (bs : List (BitVec 8)) (e : BitVec 1024) (s : State), findCad v s = some e →
    let cs := placeOf (producer e s) s
    let matches_ := crc64 bs = cadDigest e ∧ bs.length = cs.length
    (restoring e s = false → exec (.restoreComplete v bs) s = .next s) ∧
    (restoring e s = true → matches_ → ∃ t, exec (.restoreComplete v bs) s = .next t ∧
      t.die.queues.lost v = false ∧ t.pkg.hbm = (storeCells (cs.zip bs) s).pkg.hbm ∧
      t.pkg.tier2 = (storeCells (cs.zip bs) s).pkg.tier2 ∧
      ∀ e', findCad v t = some e' → cadState e' = (if cadState e = 2 then 1 else 4)) ∧
    (restoring e s = true → ¬matches_ →
      (cadState e = 4 → cadRep1 e ≠ 0 → cadRep2 e ≠ 0 → cadRep1 e ≠ cadRep2 e → ∃ t, exec (.restoreComplete v bs) s = .next t ∧
        t.die.queues.lost v = true ∧ ∀ e', findCad v t = some e' → cadRep1 e' = 0 ∧ cadRep2 e' = cadRep2 e ∧ cadState e' = 4) ∧
      ((intactReps e s).length = 1 → cadNops e = 0 → ∃ t, exec (.restoreComplete v bs) s = .next t ∧
        t.die.queues.lost v = false ∧ ∀ e', findCad v t = some e' → cadState e' = 6))) ∧
  (∀ (e : BitVec 1024) (s : State),
    let same := fun (x : BitVec 1024) => cadMirror x && cadId x == cadId e && cadHome x == cadHome e
    let old := s.die.lineage.entries
    let kept := if cadState e = 0 then old.filter (fun x => !same x)
      else if old.any same then old.map (fun x => if same x then setBit e 896 true else x)
      else old ++ [setBit e 896 true]
    let room := cadState e = 0 ∨ old.any same = true ∨ old.length < 983040
    (room → exec (.mirrorUpdate e) s = .next (s.modLineage (fun (l : Lineage) => { l with entries := kept }))) ∧
    (¬room → exec (.mirrorUpdate e) s = .next s)) ∧
  (∀ (op : Nat) (o : Op) (e : BitVec 1024) (s : State), findOp op s = some o → s.die.lineage.entries = [e] →
    cadMirror e = false → cadState e = 4 →
    ∃ t, exec (.copyEngineFailure op) s = .next t ∧ findOp op t = some o ∧ t.die.lineage.entries = [e] ∧
      ((placeOf (producer e s) s).any (fun c => (writtenBytes o s).contains c) = true →
        t.die.queues.lost (cadId e) = true) ∧
      ((placeOf (producer e s) s).any (fun c => (writtenBytes o s).contains c) = false → t = s))

/-! ## Events of the fabric -/

/-- R177, R178, R182, R219, R230, R297, R356: a request for heap bytes that arrives at its die is translated under its ASID,
performed and answered: a read with its bytes, a write or a signal with an acknowledgement, an atomic with the old value, a post
with an acknowledgement; a fault or poisoned bytes with an error; a request for absent memory stays unanswered (log entry 14).  A
request that runs ahead of its causal predecessors, or names memory while a commit has locked lines of it, is held, or answered with
a retry where 4,096 are held (R351).
The bytes that an atomic or a signal names apart are the model's (log entry 46), and so are the rights of a request (log entry 48).
What a request to an absent heap byte does is the model's choice (log entry 14), as are the readings of log entries 47 and 49. -/
def Obligations.FabricRequestEvents : Prop :=
  (∀ (p : Packet) (s : State),
    let r := atRead p s
    let w := atWrite p s
    let sends := fun (i : Instr) (q : Packet) (u : State) => exec i s = .next (sendPacket q u)
    (inTime 1 p s = true →
      (∀ cs, cellsFor p.asid true .read none r (heapAddrs p p.len) = .ok cs →
        (cellsPoison cs r = false → sends (.readRequest p) (answer p 32 0 0 (readCells cs r) r) r) ∧
        (cellsPoison cs r = true → sends (.readRequest p) (answer p 34 3 0 [] r) r)) ∧
      (∀ x va, cellsFor p.asid true .read none r (heapAddrs p p.len) = .fail x va →
        exec (.readRequest p) s = .next (refuses p x r))) ∧
    (inTime 2 p s = true →
      (∀ cs, cellsFor p.asid true .write none w (heapAddrs p p.len) = .ok cs →
        let u := storeCells (pairCells cs p.payload) w
        sends (.writeRequest p) (answer p 33 0 0 [] u) u) ∧
      (∀ x va, cellsFor p.asid true .write none w (heapAddrs p p.len) = .fail x va →
        exec (.writeRequest p) s = .next (refuses p x w))) ∧
    (inTime 3 p s = true →
      let n := if p.aux.getLsbD 5 then 8 else 4
      ∀ cs, cellsFor p.asid true .atomic none w (requestBytes p n) = .ok cs →
        (cellsPoison cs w = true → sends (.atomicRequest p) (answer p 34 3 0 [] w) w) ∧
        (cellsPoison cs w = false → ∀ bs, atomicBytes (.amo 0 (bits 0 3 p.aux) (p.aux.getLsbD 6) (p.aux.getLsbD 5)
            (p.aux.getLsbD 7) p.opa) (leNat (readCells cs w)) = some bs →
          let u := storeCells (pairCells cs bs) w
          (p.aux.getLsbD 7 = false → sends (.atomicRequest p) (answer p 32 0 0 (leBytes n (leNat (readCells cs w))) u) u) ∧
          (p.aux.getLsbD 7 = true → sends (.atomicRequest p) (answer p 33 0 0 [] u) u))) ∧
    (inTime 4 p s = true →
      let n := if p.aux.getLsbD 5 then 8 else 4
      ∀ cs, cellsFor p.asid true .atomic none w (requestBytes p n) = .ok cs → cellsPoison cs w = false →
        let old := leNat (readCells cs w)
        let u := if old = p.opa.toNat % 2 ^ (8 * n) then storeCells (pairCells cs (leBytes n (p.opb.toNat % 2 ^ (8 * n)))) w else w
        sends (.compareSwapRequest p) (answer p 32 0 0 (leBytes n old) u) u) ∧
    (inTime 5 p s = true → ∀ cs, cellsFor p.asid true .write none w (requestBytes p 8) = .ok cs →
        let u := storeCells (pairCells cs (leBytes 8 p.opa.toNat)) w
        sends (.signalSetRequest p) (answer p 33 0 0 [] u) u) ∧
    (inTime 6 p s = true → ∀ cs, cellsFor p.asid true .write none w (requestBytes p 8) = .ok cs →
        let u := storeCells (pairCells cs (leBytes 8 ((leNat (readCells cs w) + p.opa.toNat) % 2 ^ 64))) w
        sends (.signalAddRequest p) (answer p 33 0 0 [] u) u) ∧
    (let n := if p.aux.getLsbD 5 then 8 else 4
      ∀ y ∈ [(Instr.atomicRequest p, (3 : BitVec 6), Access.atomic, n), (.compareSwapRequest p, 4, .atomic, n),
          (.signalSetRequest p, 5, .write, 8), (.signalAddRequest p, 6, .write, 8)],
        inTime y.2.1 p s = true → ∀ x va, cellsFor p.asid true y.2.2.1 none w (requestBytes p y.2.2.2) = .fail x va →
          exec y.1 s = .next (refuses p x w)) ∧
    (inTime 7 p s = true →
        let f : BitVec 5 := p.aux.setWidth 5
        let sum := fun (c : Core) => BitVec.ofNat 16 (min (c.f[f.toNat].toNat + p.opa.toNat) 65535)
        let u := modCoreAt (p.offset.setWidth 6) (fun (c : Core) => { c with f := c.f.set f.toNat (sum c) }) w
        sends (.flagPostRequest p) (answer p 33 0 0 [] u) u)) ∧
  (∀ (p : Packet) (s : State),
    let all := [(Instr.readRequest p, (1 : BitVec 6)), (.writeRequest p, 2), (.atomicRequest p, 3), (.compareSwapRequest p, 4),
      (.signalSetRequest p, 5), (.signalAddRequest p, 6), (.flagPostRequest p, 7), (.tentativeReadRequest p, 8),
      (.tentativeWriteRequest p, 9)]
    ∀ x ∈ all,
      (onWire p = p → p.cls ≠ 0 ∨ p.type ≠ x.2 ∨ s.deaf p.src = true → exec x.1 s = .next s) ∧
      (reachesDie p s = true → p.cls = 0 → p.type = x.2 → p.part ≠ ownPart →
        clockAhead (clockWith p s) (atRead p s) = true ∨ (p.type ≠ 7 ∧ s.linesLocked = true) →
        (s.die.router.heldRequests.length < 4096 → exec x.1 s = .next ((atRead p s).modRouter (fun (r : Router) =>
          { r with heldRequests := r.heldRequests ++ [{ req := p, clock := clockWith p s, since := s.timeNs, stuck := false }] }))) ∧
        (4096 ≤ s.die.router.heldRequests.length →
          exec x.1 s = .next (sendPacket (answer p 35 0 0 [] (atRead p s)) (atRead p s))))) ∧
  (∀ (p : Packet) (s : State), (domainIndex p.src s).isSome = true → p.type = 15 → p.cls.toNat < 2 → reachesDie p s = true →
    ∃ t, exec (.clockPacket p) s = .next t ∧ t.die.clocks.own = s.die.clocks.own ∧ ∀ i, i < 64 →
      smGet 0 (storedClock t.die.clocks.received (p.src, p.cls)) i =
        if i / 32 = (if p.aux.getLsbD 0 then 1 else 0) then BitVec.ofNat 64 (leNat ((p.payload.drop (8 * (i % 32))).take 8))
        else smGet 0 (storedClock s.die.clocks.received (p.src, p.cls)) i)

/-- R292, R293, R295, R296, R298, R300: what a region's home and shard do with a request of another die: open writes the object and
answers with its handle; join counts a member, up to EXPECT; a vote counts, and the last one commits, once every shard on another
die has locked its lines; an abort and a leave end the region, and so does its DEADLINE; a tentative read returns the region's own
bytes or memory's, a tentative write is recorded, and one of a region that has ended here brings free bytes and records nothing.
The messages that carry a region's end are the model's (log entry 21). -/
def Obligations.RegionRequestEvents : Prop :=
  (∀ (p : Packet) (s : State), inTime 10 p s = true →
    let w := atWrite p s
    let obj : BitVec 34 := bits 6 34 p.offset
    let n : RegionName := { home := bits 48 16 p.opa, gen := bits 34 14 p.opa, obj := obj, asid := p.asid }
    let refused := fun (i : Instr) (q : Packet) (code : Word) => exec i s = .next (sendPacket (answer q 34 5 code [] w) w)
    let acked := fun (i : Instr) (q : Packet) (u : State) => exec i s = .next (sendPacket (answer q 33 0 0 [] u) u)
    let told := fun (i : Instr) (u : State) => exec i s = .next (sendPacket (answer p 33 0 p.opa [] u) u)
    (p.aux = 1 → ∀ c cs, cellsFor p.asid true .atomic none w (heapAddrs p 64) = .ok (some c :: cs) →
      let o := readObj c w
      let state : BitVec 3 := bits 0 3 o
      (state ≠ 0 → state ≠ 3 → state ≠ 4 → refused (.regionOpenRequest p) p 0x0B) ∧
      (state = 0 ∨ state = 3 ∨ state = 4 → devicePa c.1 c.2 = false → c.2 % 64 = 0 → ∃ u,
        let g : BitVec 14 := bits 26 14 o + 1
        let x := readObj c u
        let count : BitVec 6 := bits 0 6 p.opa
        exec (.regionOpenRequest p) s = .next (sendPacket (answer p 33 0 (s.die.coord ++ g ++ obj) [] u) u) ∧
        (bits 0 3 x : BitVec 3) = 1 ∧ bits 26 14 x = g ∧ bits 40 8 x = (if count = 0 then (64 : BitVec 8) else count.setWidth 8) ∧
        (bits 48 8 x : BitVec 8) = 0 ∧ (bits 56 8 x : BitVec 8) = 0 ∧
        (bits 448 64 x : BitVec 64) = BitVec.ofNat 64 (s.timeNs + 1000000 * (bits 6 10 p.opa : BitVec 10).toNat) ∧
        ∃ r, findRegion { home := s.die.coord, gen := g, obj := obj, asid := p.asid } u = some r ∧ r.place = c ∧
          r.members = [])) ∧
    (p.aux = 2 → regionAt n w = none → refused (.regionJoinRequest p) p 0x17) ∧
    (p.aux = 2 → ∀ r, regionAt n w = some r → findRegion r.name w = some r → devicePa r.place.1 r.place.2 = false →
      r.place.2 % 64 = 0 →
      let o := readObj r.place w
      let q := { p with asid := r.name.asid }
      (bits 0 3 o : BitVec 3) = 1 → bits 26 14 o = n.gen → s.timeNs < (bits 448 64 o : BitVec 64).toNat →
        ((bits 48 8 o : BitVec 8) = bits 40 8 o → refused (.regionJoinRequest p) q 0x0B) ∧
        ((bits 48 8 o : BitVec 8) ≠ bits 40 8 o → ∃ u r', acked (.regionJoinRequest p) q u ∧
          (bits 48 8 (readObj r.place u) : BitVec 8) = bits 48 8 o + 1 ∧ findRegion r.name u = some r' ∧ r'.place = r.place ∧
          r'.members.length = r.members.length + 1)) ∧
    (∀ r, findRegion n w = some r → devicePa r.place.1 r.place.2 = false → r.place.2 % 64 = 0 →
      let o := readObj r.place w
      let late := (bits 448 64 o : BitVec 64).toNat ≤ s.timeNs
      let aborted := fun (u : State) (cause : BitVec 8) => (bits 0 3 (readObj r.place u) : BitVec 3) = 4 ∧
        (bits 72 8 (readObj r.place u) : BitVec 8) = cause ∧ findRegion n u = none ∧ ∀ l ∈ u.die.shard, l.region ≠ n
      (bits 0 3 o : BitVec 3) = 1 → bits 26 14 o = n.gen →
      (∀ x ∈ [((3 : BitVec 8), Instr.regionCommitRequest p), (5, .regionLeaveRequest p)], p.aux = x.1 → n.home = s.die.coord → late →
        ∃ u, exec x.2 s = .next (sendPacket (answer p 34 5 0x17 [] u) u) ∧ aborted u 3) ∧
      (p.aux = 3 → n.home = s.die.coord → ¬late →
        let v : BitVec 8 := bits 56 8 o + 1
        let mask := r.shards ||| p.opb
        (¬(v = bits 48 8 o ∧ (bits 48 8 o : BitVec 8) = bits 40 8 o) → ∃ u, acked (.regionCommitRequest p) p u ∧
          bits 56 8 (readObj r.place u) = v ∧ (bits 0 3 (readObj r.place u) : BitVec 3) = 1 ∧
          findRegion n u = some { r with shards := mask }) ∧
        (v = bits 48 8 o → (bits 48 8 o : BitVec 8) = bits 40 8 o → ∃ u, acked (.regionCommitRequest p) p u ∧
          (diesOf mask s = [] → (bits 0 3 (readObj r.place u) : BitVec 3) = 3 ∧ findRegion n u = none ∧
            ∀ l ∈ u.die.shard, l.region ≠ n) ∧
          (diesOf mask s ≠ [] → (bits 0 3 (readObj r.place u) : BitVec 3) = 2 ∧
            findRegion n u = some { r with shards := mask, commit := some (diesOf mask s) } ∧
            ∀ l ∈ u.die.shard, l.region = n → l.locked = true))) ∧
      (p.aux = 4 →
        (p.opb = 0 → ∃ u, acked (.regionAbortRequest p) p u ∧ aborted u 1) ∧
        (p.opb ≠ 0 → p.opb ≠ 0x100 → ∃ u, told (.regionAbortRequest p) u ∧ aborted u (p.opb.setWidth 8)) ∧
        (p.opb = 0x100 →
          let lines := (bits 80 16 o : BitVec 16).toNat
          ∃ u, told (.regionAbortRequest p) u ∧
            (4096 ≤ lines → aborted u 4) ∧
            (lines < 4096 → (bits 80 16 (readObj r.place u) : BitVec 16).toNat = lines + 1 ∧ findRegion n u = some r))) ∧
      (p.aux = 5 → ¬late → ∃ u, acked (.regionLeaveRequest p) p u ∧ aborted u 2)) ∧
    (findRegion n w = none → (p.aux = 3 → n.home = s.die.coord → refused (.regionCommitRequest p) p 0x17) ∧
      (p.aux = 5 → refused (.regionLeaveRequest p) p 0x17) ∧
      (p.aux = 4 → p.opb = 0 → acked (.regionAbortRequest p) p w)) ∧
    (p.aux = 3 → n.home ≠ s.die.coord →
      (p.opb = 1 → ∃ u, told (.regionCommitRequest p) u ∧ ∀ l ∈ u.die.shard, l.region = n → l.locked = true) ∧
      (p.opb = 2 → ∃ u, told (.regionCommitRequest p) u ∧ (∀ l ∈ u.die.shard, l.region ≠ n) ∧
        ∀ l off b, s.die.shard = [l] → l.region = n → l.bytes = [(off, b)] → l.late = [] →
          devicePa (lineByte l.line off).1 (lineByte l.line off).2 = false →
          physRead (lineByte l.line off).1 (lineByte l.line off).2 u = b))) ∧
  (∀ (p : Packet) (r : RegionHome) (sl : Slot) (s : State), reachesDie p s = true → p.cls = 1 → p.type = 33 → p.part = ownPart →
    slotIn p s = some sl → sl.held = false → findRegion (nameOf p.opa p.asid) s = some r →
    devicePa r.place.1 r.place.2 = false → r.place.2 % 64 = 0 → r.commit = some [p.src] →
    ∃ t, exec (.acknowledgement p) s = .next t ∧ (bits 0 3 (readObj r.place t) : BitVec 3) = 3 ∧
      findRegion r.name t = none ∧ ∀ l ∈ t.die.shard, l.region ≠ r.name) ∧
  (∀ (p : Packet) (s : State),
    let r := atRead p s
    let w := atWrite p s
    let n : RegionName := { home := bits 48 16 p.opa, gen := bits 34 14 p.opa, obj := bits 0 34 p.opa, asid := bits 0 16 p.opb }
    let brings := fun (bs : List Byte) => exec (.tentativeReadRequest p) s = .next (sendPacket (answer p 32 0 0 bs r) r)
    (inTime 8 p s = true →
      (∀ x va, cellsFor p.asid true .read none r (heapAddrs p p.len) = .fail x va →
        exec (.tentativeReadRequest p) s = .next (refuses p x r)) ∧
      (∀ cs, cellsFor p.asid true .read none r (heapAddrs p p.len) = .ok cs →
        (regionLive n r = false → ∃ bs, brings bs ∧ bs.length = p.len) ∧
        (regionLive n r = true → cellsPoison cs r = true →
          exec (.tentativeReadRequest p) s = .next (sendPacket (answer p 34 3 0 [] r) r)) ∧
        (regionLive n r = true → cellsPoison cs r = false → ∃ bs, brings bs ∧ bs.length = cs.length ∧
          (linesOf n s = [] → bs = readCells cs r) ∧
          (∀ (i : Nat) (c : PByte) (l : ShardLine) (b : Byte), cs[i]? = some (some c) → linesOf n s = [l] → l.line = lineKey c → l.bytes.lookup (c.2 % 64) = some b →
            bs[i]? = some b)))) ∧
    (inTime 9 p s = true →
      (∀ x va, cellsFor p.asid true .write none w (heapAddrs p p.len) = .fail x va →
        exec (.tentativeWriteRequest p) s = .next (refuses p x w)) ∧
      (∀ cs, cellsFor p.asid true .write none w (heapAddrs p p.len) = .ok cs →
        (regionLive n w = false → exec (.tentativeWriteRequest p) s = .next (sendPacket (answer p 33 0 0 [] w) w)) ∧
        (∀ c b, regionLive n w = true → p.payload = [b] → cs = [some c] → s.die.shard = [] → linesKnown n w < 4096 →
          ∃ u, exec (.tentativeWriteRequest p) s = .next (sendPacket (answer p 33 0 0 [] u) u) ∧
            u.die.shard = [{ region := n, line := lineKey c, bytes := [(c.2 % 64, b)], late := [], locked := false }] ∧
            (n.home ≠ s.die.coord → u.pkg = s.pkg)))))

/-- R349 to R353, R356: a response that names no held slot under its generation is dropped and counted; data and acknowledgements
complete an operation whose parts have all been answered, free its slot and make its post; an error stops it with an engine fault
and no post; status unreachable and a timeout end it by the record's bounds mode; a retry sends the request again 1 µs later. -/
def Obligations.FabricResponseEvents : Prop :=
  (∀ (p : Packet) (sl : Slot) (s : State), reachesDie p s = true → p.cls = 1 → p.part ≠ ownPart → slotIn p s = some sl →
    (sl.held = true → s.timeNs ≤ sl.since + 1000 * (bits 20 20 s.die.router.control : BitVec 20).toNat) →
    let c : CtxId := { core := p.core, ctx := p.ctx }
    (sl.held = false ∨ sl.gen ≠ bits 0 5 p.tag →
      ∀ x ∈ [(Instr.dataResponse p, (32 : BitVec 6)), (.acknowledgement p, 33), (.errorResponse p, 34), (.retryResponse p, 35)],
        p.type = x.2 → ∃ t, exec x.1 s = .next t ∧ t.die.router.stale = s.die.router.stale + 1 ∧ t.die.ops = s.die.ops ∧
          (ctxAt c t).sys.fabstale = (if (ctxAt c s).sys.fabstale = BitVec.allOnes 32 then BitVec.allOnes 32
            else (ctxAt c s).sys.fabstale + 1)) ∧
    (∀ (o : Op) (r : Remote) (a : Part), sl.held = true → sl.gen = bits 0 5 p.tag → findOp sl.op s = some o → o.owner = c →
      o.remote = some r → r.slot = bits 5 3 p.tag → r.parts = [a] → p.part = 0 → a.answered = false → a.poisoned = false →
      a.unreachable = false → a.pos = 0 → r.failed = false → r.data = [] → noRsync s = true →
      let freed := fun (t : State) => findOp o.id t = none ∧ slotIn p t = some { sl with held := false, since := s.timeNs }
      let flags := fun (t : State) => (coreAt c.core t).f = (match o.post with
        | some f => (coreAt c.core s).f.set f.toNat (BitVec.ofNat 16 (min ((coreAt c.core s).f[f.toNat].toNat + 1) 65535))
        | none => (coreAt c.core s).f)
      let silent := fun (t : State) => (coreAt c.core t).f = (coreAt c.core s).f
      let here := (ctxAt c s).serial = o.serial ∧ (ctxAt c s).flow.residency = .running
      (∀ g size sg v, p.type = 32 → o.kind = .elemLoad g size sg false v → p.payload.length = size → g ≠ 0 →
        (ctxAt c s).owed.contains (.g g, o.id) = true → ∃ t, exec (.dataResponse p) s = .next t ∧ freed t ∧ flags t ∧
          (ctxAt c t).g[g.toNat] = loadValue size sg p.payload ∧ (ctxAt c t).gPoison.getLsbD g.toNat = false) ∧
      (∀ size v, o.kind = .elemStore size v →
        (p.type = 33 → ∃ t, exec (.acknowledgement p) s = .next t ∧ freed t ∧ flags t) ∧
        (p.type = 34 → p.aux = 1 ∨ p.aux = 2 → here → ∃ t, exec (.errorResponse p) s = .next t ∧ freed t ∧ silent t ∧
          dueMore (ctxAt c s).flow.due (ctxAt c t).flow.due .engineFault 0
            (BitVec.ofNat 64 (Config.heapBase + a.req.offset.toNat)))) ∧
      (∀ g size sg v, o.kind = .elemLoad g size sg false v → p.type = 34 → g ≠ 0 →
        (ctxAt c s).owed.contains (.g g, o.id) = true →
        (p.aux = 3 → ∃ t, exec (.errorResponse p) s = .next t ∧ freed t ∧ flags t ∧
          (ctxAt c t).gPoison.getLsbD g.toNat = true ∧ (ctxAt c t).flow.due = (ctxAt c s).flow.due) ∧
        (p.aux = 4 → recBounds o.record = 0 → here → ∃ t, exec (.errorResponse p) s = .next t ∧ freed t ∧ silent t ∧
          (ctxAt c t).gPoison.getLsbD g.toNat = true ∧ dueMore (ctxAt c s).flow.due (ctxAt c t).flow.due .fabricTimeout 0
            (BitVec.ofNat 64 (Config.heapBase + a.req.offset.toNat)))) ∧
      (p.type = 35 → ∃ t, exec (.retryResponse p) s = .next t ∧ t.die.ops = s.die.ops ∧ ctxAt c t = ctxAt c s ∧
        t.die.router.retries = s.die.router.retries ++ [(s.timeNs + 1000, a.req)]))) ∧
  (∀ (i time : Nat) (q : Packet) (s : State), s.die.router.retries[i]? = some (time, q) →
    let u := s.modRouter (fun (r : Router) => { r with retries := r.retries.eraseIdx i })
    (s.timeNs < time → exec (.retryResend i) s = .next s) ∧
    (time ≤ s.timeNs → ∀ sl, slotIn q s = some sl →
      (sl.held = true → sl.gen = bits 0 5 q.tag → (findOp sl.op s).isSome = true →
        exec (.retryResend i) s = .next (sendPacket q u)) ∧
      (sl.held = false ∨ sl.gen ≠ bits 0 5 q.tag → exec (.retryResend i) s = .next u))) ∧
  (∀ (c : CtxId) (i : BitVec 3) (sl : Slot) (s : State), (ctxAt c s).flow.slots[i.toNat]? = some sl →
    let late := sl.held = true ∧ sl.since + 1000 * (bits 20 20 s.die.router.control : BitVec 20).toNat ≤ s.timeNs
    (¬late → exec (.slotTimeout c i) s = .next s) ∧
    (∀ (o : Op) (r : Remote) (a : Part), late → findOp sl.op s = some o → o.owner = c → o.remote = some r → r.slot = i →
      noRsync s = true →
      let freed := fun (t : State) => findOp o.id t = none ∧ t.die.router.timeout = s.die.router.timeout + 1 ∧
        (ctxAt c t).flow.slots[i.toNat]? = some { sl with held := false, gen := sl.gen + 1 }
      (r.failed = true → ∃ t, exec (.slotTimeout c i) s = .next t ∧ freed t ∧
        (ctxAt c t).flow.due = (ctxAt c s).flow.due ∧ (coreAt c.core t).f = (coreAt c.core s).f ∧ (ctxAt c t).g = (ctxAt c s).g) ∧
      (∀ size v, r.failed = false → r.parts = [a] → a.answered = false → o.kind = .elemStore size v →
        (recBounds o.record = 0 → (ctxAt c s).serial = o.serial → (ctxAt c s).flow.residency = .running →
          ∃ t, exec (.slotTimeout c i) s = .next t ∧ freed t ∧ (coreAt c.core t).f = (coreAt c.core s).f ∧
            dueMore (ctxAt c s).flow.due (ctxAt c t).flow.due .fabricTimeout 0
              (BitVec.ofNat 64 (Config.heapBase + a.req.offset.toNat))) ∧
        (recBounds o.record ≠ 0 → ∃ t, exec (.slotTimeout c i) s = .next t ∧ freed t ∧
          (ctxAt c t).flow.due = (ctxAt c s).flow.due ∧ ∀ f, o.post = some f → (coreAt c.core t).f =
            (coreAt c.core s).f.set f.toNat (BitVec.ofNat 16 (min ((coreAt c.core s).f[f.toNat].toNat + 1) 65535))))))

/-- R340, R341, R345 to R348, R358 to R361: a packet comes back from its flits; a router sends a packet on by the first dimension whose coordinate differs, counts its flits,
keeps DL by the dateline, holds what is to leave by a link that retrains, drops what is unknown or unreachable, answers a request of
its own die that has no way, and gives the die what is meant for it; a packet held for over 100 µs is dropped and counted, and so is a
request that has waited 1 ms; the management sink keeps its ring; tables, the fabric control word and the states of links change as
firmware and the link layer ask, a retrain only after RETRYLIM failed resends of one flit.  A domain table has 64 entries, and a
change of it is measured (R394).
A launch packet that a link going down discards fails its set (R311).
Two ports of a dimension of extent 2 share a link (log entry 28), and the numbering of flits at a replay is the model's (log entry 69). -/
def Obligations.RouterAndLinkEvents : Prop :=
  (∀ (p : Packet), p.len ≤ 256 → (p.payload = [] ∨ p.payload.length = p.len) → p.clk.length ≤ 6 → onWire p = p) ∧
  (∀ (port : BitVec 3) (p : Packet) (s : State), s.die.resetting = false → packetKnown p = true → onWire p = p →
    let own := s.die.coord
    let r := s.die.router
    let way : Option (Nat × BitVec 2 × Nat × Nat) :=
      if coordX own ≠ coordX p.dst then some (0, r.routeX.getD (coordX p.dst) 3, Config.torusX, coordX own)
      else if coordY own ≠ coordY p.dst then some (2, r.routeY.getD (coordY p.dst) 3, Config.torusY, coordY own)
      else if coordZ own ≠ coordZ p.dst then some (4, r.routeZ.getD (coordZ p.dst) 3, Config.torusZ, coordZ own)
      else none
    let flits := BitVec.ofNat 64 (1 + (p.payload.length + 63) / 64)
    (∀ base e extent at_, way = some (base, e, extent, at_) →
      let n := if e = 1 then base else base + 1
      ((e = 1 ∨ e = 2) → portUp r n = true → linkHeld n s = true → ∃ t, exec (.packetForward port p) s = .next t ∧
        t.die.router.outbox = r.outbox ∧ t.die.router.waiting = r.waiting ++
          [{ from_ := if port.toNat < 6 then some port.toNat else none, port := n, since := s.timeNs, pkt := p }]) ∧
      ((e = 1 ∨ e = 2) → portUp r n = true → linkHeld n s = false → ∃ t d, exec (.packetForward port p) s = .next t ∧
        t.die.router.outbox = r.outbox ++ [{ p with dl := d }] ∧ t.die.router.unreach = r.unreach ∧
        (t.die.router.ports[n]?).map (fun (c : PortCounters) => c.flittx) =
          (r.ports[n]?).map (fun (c : PortCounters) => c.flittx + flits) ∧
        (port.toNat < 6 → (t.die.router.ports[port.toNat]?).map (fun (c : PortCounters) => c.flitrx) =
          (r.ports[port.toNat]?).map (fun (c : PortCounters) => c.flitrx + flits)) ∧
        (d = true ↔ ((3 ≤ extent ∧ ((e = 1 ∧ at_ + 1 = extent) ∨ (e = 2 ∧ at_ = 0))) ∨
          (port.toNat < 6 ∧ port.toNat / 2 = base / 2 ∧ p.dl = true)))) ∧
      ((e = 0 ∨ e = 3 ∨ portUp r n = false) → ∃ t, exec (.packetForward port p) s = .next t ∧
        (port.toNat < 6 ∨ p.cls ≠ 0 → t.die.router.unreach = r.unreach + 1 ∧ t.die.router.outbox = r.outbox) ∧
        (6 ≤ port.toNat → p.cls = 0 → t.die.router.unreach = r.unreach ∧ t.die.router.outbox = r.outbox ++
          [{ p with dst := p.src, src := p.dst, type := 34, cls := 1, aux := 4, payload := [], len := 0, clk := [] }]))) ∧
    (way = none → s.deaf p.src = false → arrivalPort p.src own = (if port.toNat < 6 then some port.toNat else none) →
      (∀ x ∈ [((0 : BitVec 2), (1 : BitVec 6), Instr.readRequest p), (0, 2, .writeRequest p), (0, 3, .atomicRequest p),
          (0, 4, .compareSwapRequest p), (0, 5, .signalSetRequest p), (0, 6, .signalAddRequest p), (0, 7, .flagPostRequest p),
          (0, 8, .tentativeReadRequest p), (0, 9, .tentativeWriteRequest p), (0, 15, .clockPacket p), (1, 15, .clockPacket p),
          (1, 32, .dataResponse p), (1, 33, .acknowledgement p), (1, 34, .errorResponse p), (1, 35, .retryResponse p),
          (2, 48, .managementArrival p), (2, 49, .managementArrival p), (2, 50, .managementArrival p),
          (2, 51, .managementArrival p), (2, 52, .managementArrival p), (2, 53, .managementArrival p)],
        p.cls = x.1 → p.type = x.2.1 → exec (.packetForward port p) s = exec x.2.2 s) ∧
      (∀ x ∈ [((1 : BitVec 8), Instr.regionOpenRequest p), (2, .regionJoinRequest p), (3, .regionCommitRequest p),
          (4, .regionAbortRequest p), (5, .regionLeaveRequest p)],
        p.cls = 0 → p.type = 10 → p.aux = x.1 → exec (.packetForward port p) s = exec x.2 s))) ∧
  (∀ (port : BitVec 3) (p : Packet) (s : State), s.die.resetting = false → onWire p = p → p.cls = 3 →
    ∃ t, exec (.packetForward port p) s = .next t ∧ t.die.router.badpkt = s.die.router.badpkt + 1 ∧
      t.die.router.outbox = s.die.router.outbox) ∧
  (∀ (p : Packet) (i : Nat) (s : State),
    let r := s.die.router
    let aged := fun (f : Router → Router) => s.modRouter (fun (x : Router) => { f x with agedrop := x.agedrop + 1 })
    let late := fun (w : WaitingPacket) => w.pkt == p && decide (w.since + 100000 < s.timeNs)
    (∀ k, r.waiting.findIdx? late = some k → exec (.packetAgeDrop p) s =
      .next (aged (fun (x : Router) => { x with waiting := x.waiting.eraseIdx k }))) ∧
    (r.waiting.findIdx? late = none → exec (.packetAgeDrop p) s = .next s) ∧
    (∀ q, r.heldRequests[i]? = some q →
      (q.since + 1000000 ≤ s.timeNs → exec (.requestAgeDrop i) s =
        .next (aged (fun (x : Router) => { x with heldRequests := x.heldRequests.eraseIdx i }))) ∧
      (s.timeNs < q.since + 1000000 → exec (.requestAgeDrop i) s = .next s)) ∧
    (r.heldRequests.length ≤ i → exec (.requestAgeDrop i) s = .next s)) ∧
  (∀ (p : Packet) (s : State), p.cls = 2 → 48 ≤ p.type.toNat → p.type.toNat ≤ 53 → reachesDie p s = true →
    let r := s.die.router
    ∃ t, exec (.managementArrival p) s = .next t ∧ t.die.router.control = r.control ∧
      (r.mgmtRing.length < 65536 → t.die.router.mgmtRing = r.mgmtRing ++ [p] ∧ t.die.router.mgmtdrop = r.mgmtdrop) ∧
      (65536 ≤ r.mgmtRing.length → t.die.router.mgmtRing = r.mgmtRing ∧
        (p.type = 48 ∨ p.type = 49 → t.die.router.mgmtHeld = r.mgmtHeld ++ [p] ∧ t.die.router.mgmtdrop = r.mgmtdrop) ∧
        (p.type ≠ 48 → p.type ≠ 49 → t.die.router.mgmtHeld = r.mgmtHeld ∧ t.die.router.mgmtdrop = r.mgmtdrop + 1))) ∧
  (∀ (table : List (BitVec 16)) (x y z : List (BitVec 2)) (s : State),
    (let full := (table ++ List.replicate 64 0xFFFF).take 64
      let st : BitVec 3 := bits 0 3 s.pkg.regs.fwstate
      ∃ t, exec (.domainTable table) s = .next t ∧ t.die = { s.die with domain := full } ∧ t.cur = s.cur ∧ t.pkg.hbm = s.pkg.hbm ∧
        (st = 1 → (bits 0 3 t.pkg.regs.fwstate : BitVec 3) = 3 ∧ t.pkg.fw.phase = .rewriting ∧ t.pkg.out = s.pkg.out ++ [.vector 4]) ∧
        (st ≠ 1 → t.pkg.regs = s.pkg.regs ∧ t.pkg.out = s.pkg.out) ∧
        t.pkg.timeHeld = (s.pkg.timeHeld && !joins full s) ∧
        ∀ i : Fin 16, t.pkg.fw.mr[i] = if i.val = 3 ∧ s.die.domain ≠ full then
          sha3 (bytes512 s.pkg.fw.mr[3] ++ leBytes 8 s.pkg.regs.dutymode.toNat ++ domainBytes full) else s.pkg.fw.mr[i]) ∧
    (x.length = 32 → y.length = 32 → z.length = 16 → exec (.graticuleInstall x y z) s =
      .next (s.modRouter (fun (r : Router) => { r with routeX := x, routeY := y, routeZ := z }))) ∧
    (x.length ≠ 32 ∨ y.length ≠ 32 ∨ z.length ≠ 16 → exec (.graticuleInstall x y z) s = .next s)) ∧
  (∀ (port : BitVec 3) (resent : Nat) (ok : Bool) (s : State), port.toNat < 6 → s.die.queues.notices.length < 4096 →
    let n := port.toNat
    let r := s.die.router
    let link := fun (t : State) => t.die.router.links[n]?
    let count := fun (f : PortCounters → BitVec 64) (t : State) => (t.die.router.ports[n]?).map f
    let plus := fun (f : PortCounters → BitVec 64) (k : BitVec 64) => (r.ports[n]?).map (fun c => f c + k)
    let notice := fun (down : BitVec 64) (t : State) => ∃ x, t.die.queues.notices = s.die.queues.notices ++ [x] ∧
      noticeKind x = 4 ∧ (bits 192 64 x : BitVec 64) = BitVec.ofNat 64 n ∧ bits 256 64 x = down
    let number := (match r.ports[n]? with | some c => c.flittx.toNat | none => 0) - resent
    let spent := ∃ k c, r.fails[n]? = some (some (k, c)) ∧ (bits 16 4 r.control : BitVec 4).toNat ≤ c
    (∃ t, exec (.linkReplay port resent) s = .next t ∧ t.die.router.outbox = r.outbox ∧ t.die.router.links = r.links ∧
      (count (fun c => c.chkerr) t = plus (fun c => c.chkerr) 0 ∨ count (fun c => c.chkerr) t = plus (fun c => c.chkerr) 1) ∧
      count (fun c => c.retry) t = plus (fun c => c.retry) (BitVec.ofNat 64 resent) ∧
      (∀ c, r.fails[n]? = some (some (number, c)) → t.die.router.fails[n]? = some (some (number, c + 1))) ∧
      ((∀ c, r.fails[n]? ≠ some (some (number, c))) → t.die.router.fails[n]? = some (some (number, 0)))) ∧
    (link s = some .up → spent → ∃ t, exec (.linkRetrain port) s = .next t ∧ link t = some (.retraining 0) ∧
      count (fun c => c.retrain) t = plus (fun c => c.retrain) 1 ∧ t.die.router.outbox = r.outbox) ∧
    (link s ≠ some .up ∨ ¬spent → exec (.linkRetrain port) s = .next s) ∧
    (∀ k, link s = some (.retraining k) → ∃ t, exec (.retrainEnd port ok) s = .next t ∧
      (ok = true → link t = some .up ∧ notice 0 t ∧ t.die.router.fails[n]? = some none ∧
        (r.waiting = [] → t.die.router.outbox = r.outbox) ∧
        (∀ w, r.waiting = [w] → w.port = n → routeOf s.die.coord w.pkt.dst r = .port n → t.die.router.waiting = [] ∧
          t.die.router.outbox = r.outbox ++ [{ w.pkt with dl := hopDl s.die.coord w.from_ n w.pkt.dl }])) ∧
      (ok = false → k < 2 → link t = some (.retraining (k + 1)) ∧ count (fun c => c.retrain) t = plus (fun c => c.retrain) 1 ∧
        t.die.router.outbox = r.outbox) ∧
      (ok = false → 2 ≤ k → r.waiting = [] → ∀ l, r.replay[n]? = some l →
        ((∀ p ∈ l, p.type ≠ 48) → link t = some .down ∧ count (fun c => c.down) t = plus (fun c => c.down) 1 ∧ notice 1 t ∧
          t.die.router.outbox = l.foldl (fun o p => o.erase p) r.outbox ∧
          t.die.router.mgmtdrop = r.mgmtdrop + BitVec.ofNat 64 (l.countP (fun p => p.cls == 2))) ∧
        (∀ p, l = [p] → p.type = 48 → s.die.queues.sets = [] → ∃ e ∈ t.die.queues.sets,
          e.packet = BitVec.ofNat 512 (leNat (p.payload.take 64)) ∧ e.failed = true))) ∧
    (link s = some .down → ∃ t, exec (.firmwareLinkRetrain port ok) s = .next t ∧
      count (fun c => c.retrain) t = plus (fun c => c.retrain) 1 ∧ (ok = true → link t = some .up ∧ notice 0 t) ∧
      (ok = false → link t = some .down ∧ t.die.queues.notices = s.die.queues.notices)) ∧
    (link s ≠ some .down → exec (.firmwareLinkRetrain port ok) s = .next s)) ∧
  (∀ (v : BitVec 64) (s : State),
    let time := (bits 20 20 v : BitVec 20).toNat
    let inRange := (bits 40 24 v : BitVec 24) = 0 ∧ (bits 6 10 v : BitVec 10) = 0 ∧ 300 ≤ time ∧ time ≤ 1000000 ∧
      (bits 16 4 v : BitVec 4) ≠ 0
    (inRange → exec (.fabricControlWrite v) s = .next (s.modRouter (fun (r : Router) => { r with control := v }))) ∧
    (¬inRange → exec (.fabricControlWrite v) s = .next s))

/-! ## Events of the host and of firmware -/

/-- R362, R382, R383, R385, R386, R388, R396: a submission enters the log or is counted; firmware sends or refuses the next one and
commits it; the memory window reaches installed memory untranslated; BAR0 shows the control registers and the router counters and
keeps the MSI-X table, and BAR2 reads as ones; the control registers take the host's writes; DUTYMODE keeps its value against a
reserved bit, and a change is measured; an event goes to an idle firmware core under its key.
The window's numbering is PRESUMED (log entry 6), what other dies hold is free (log entry 17), a write that R383 does not describe is ignored (log entry 33), and the MSI-X table is plain storage (log entry 71). -/
def Obligations.HostRegisterAndSubmissionEvents : Prop :=
  (∀ (w : HostWrite) (s : State),
    let p := BitVec.ofNat 512 (leNat w.bytes)
    let whole := w.bytes.length = 64 ∧ w.offset % 64 = 0 ∧ w.offset + 64 ≤ 262144
    let st : BitVec 3 := bits 0 3 s.pkg.regs.fwstate
    let taken := (s.pkg.regs.subtail - s.pkg.regs.subdone).toNat < 4096 ∧ st ≠ 3 ∧ st ≠ 4 ∧ st ≠ 5
    (¬whole → exec (.submission w) s = .next (s.modRegs (fun (r : HostRegs) => { r with subbad := r.subbad + 1 }))) ∧
    (whole → taken → s.pkg.fw.events.length < 65536 → ∃ t, exec (.submission w) s = .next t ∧
      t.pkg.fw.log = s.pkg.fw.log ++ [p] ∧ t.pkg.regs.subtail = s.pkg.regs.subtail + 1 ∧
      t.pkg.fw.events = s.pkg.fw.events ++ [{ key := 0, work := .submission p }] ∧ t.pkg.out = s.pkg.out ∧ t.die = s.die) ∧
    (whole → ¬taken → ∃ t, exec (.submission w) s = .next t ∧ t.pkg.regs.subdrop = s.pkg.regs.subdrop + 1 ∧
      t.pkg.fw.log = s.pkg.fw.log ∧ t.pkg.out = s.pkg.out ++ [.vector 0] ∧ t.die = s.die)) ∧
  (∀ (p : BitVec 512) (rest : List (BitVec 512)) (s : State), s.pkg.fw.log = p :: rest →
    let st : BitVec 3 := bits 0 3 s.pkg.regs.fwstate
    (st ≠ 1 → exec .submissionProcess s = .next s) ∧
    (st = 1 → ∀ c, launchCheck p false s = .error c → ∃ t, exec .submissionProcess s = .next t ∧ t.pkg.fw.log = rest ∧
      t.pkg.regs.subdone = s.pkg.regs.subdone + 1 ∧ t.pkg.regs.subrej = s.pkg.regs.subrej + 1 ∧
      t.pkg.regs.rejlast = ((s.pkg.regs.subdone + 1) <<< 8) ||| c.1.code.setWidth 64 ∧ t.die = s.die ∧
      HostOut.vector 1 ∈ t.pkg.out ∧ (s.pkg.regs.subtail - s.pkg.regs.subdone = 4096 → HostOut.vector 0 ∈ t.pkg.out)) ∧
    (st = 1 → ∀ h, launchCheck p false s = .ok h → maskDies (platDmask h) s = [s.die.coord] →
      ownInMask (platDmask h) s = true → heldSet (pktSetid p) s = false → s.setsFull = false → ∃ t q,
      exec .submissionProcess s = .next t ∧ t.pkg.fw.log = rest ∧ t.pkg.regs.subdone = s.pkg.regs.subdone + 1 ∧
        t.pkg.regs.subrej = s.pkg.regs.subrej ∧ q ∈ t.die.router.outbox ∧ q.dst = s.die.coord ∧ q.cls = 2 ∧ q.type = 48 ∧
        q.payload = bytes512 p)) ∧
  (∀ (s : State), s.pkg.fw.log = [] → exec .submissionProcess s = .next s) ∧
  (∀ (off n : Nat) (bs : List Byte) (s : State),
    let at_ := s.pkg.regs.winbase.toNat + off
    let place := fun (a : Nat) => if a < Config.hbmBytes then some (Tier.hbm, a)
      else if a < Config.hbmBytes + Config.tier2Bytes then some (Tier.second, a - Config.hbmBytes) else none
    let reads : Instr := .memoryWindowAccess { bar := .memory, offset := off, write := none, len := n }
    let writes : Instr := .memoryWindowAccess { bar := .memory, offset := off, write := some bs, len := bs.length }
    (off + n ≤ 2 ^ 36 → ∃ got bad, exec reads s = .next (s.modPkg (fun (p : Package) =>
        { p with out := p.out ++ [.completion got bad] })) ∧ got.length = n ∧
      (∀ i, i < n → got.getD i 0 = match place (at_ + i) with | some c => physRead c.1 c.2 s | none => 0xFF) ∧
      (bad = true ↔ ∃ i, i < n ∧ ∃ c, place (at_ + i) = some c ∧ physPoison c.1 c.2 s = true)) ∧
    (2 ^ 36 < off + n → exec reads s = .next s) ∧
    (off + bs.length ≤ 2 ^ 36 → s.die.shard = [] → ∃ t, exec writes s = .next t ∧
      (∀ i, i < bs.length → ∀ c, place (at_ + i) = some c → devicePa c.1 c.2 = false → physRead c.1 c.2 t = bs.getD i 0) ∧
      (∀ c : Tier × Nat, (∀ i, i < bs.length → place (at_ + i) ≠ some c) → physRead c.1 c.2 t = physRead c.1 c.2 s) ∧
      t.die = s.die ∧ t.pkg.out = s.pkg.out) ∧
    (2 ^ 36 < off + bs.length → exec writes s = .next s)) ∧
  (∀ (off n : Nat) (bs : List Byte) (s : State),
    let r := s.pkg.regs
    let shows := fun (at_ : Nat) (v : BitVec 64) => exec (.memoryWindowAccess { bar := .registers, offset := at_, write := none, len := 8 }) s =
      .next { s with pkg := { s.pkg with out := s.pkg.out ++ [.completion (leBytes 8 v.toNat) false] }, freeCount := s.freeCount + 1 }
    (∀ x ∈ [(0x00, r.subtail), (0x08, r.subdone), (0x10, BitVec.ofNat 64 (4096 - (r.subtail - r.subdone).toNat)), (0x18, r.subdrop),
        (0x20, r.subbad), (0x28, r.subrej), (0x30, r.rejlast), (0x38, 0), (0x40, r.fwstate), (0x48, r.dutymode), (0x50, r.winbase),
        (0x58, r.assistbase), (0x70, r.shakestat), (0x78, r.reportaddr), (0x80, r.infoaddr), (0x88, 0)], shows x.1 x.2) ∧
    (∀ k, k < 42 → shows (0x90000 + 4096 * dieIndex s.die.coord + 8 * k) ((routerCounters s.die.router).getD k 0)) ∧
    (off + n ≤ 2 ^ 18 → exec (.memoryWindowAccess { bar := .submission, offset := off, write := none, len := n }) s =
      .next (s.modPkg (fun (p : Package) => { p with out := p.out ++ [.completion (List.replicate n 0xFF) false] }))) ∧
    (off + bs.length ≤ 2 ^ 18 → exec (.memoryWindowAccess { bar := .submission, offset := off, write := some bs, len := bs.length }) s =
      exec (.submission { offset := off, bytes := bs }) s) ∧
    (off % 8 = 0 → bs.length = 8 → off < 0x80000 →
      exec (.memoryWindowAccess { bar := .registers, offset := off, write := some bs, len := 8 }) s =
        exec (.controlRegisterWrite off (BitVec.ofNat 64 (leNat bs))) s) ∧
    (0x80000 ≤ off → off + bs.length ≤ 0x88000 → ∃ t,
      exec (.memoryWindowAccess { bar := .registers, offset := off, write := some bs, len := bs.length }) s = .next t ∧
      (∀ i, i < bs.length → barByte t (off + i) = bs.getD i 0) ∧ t.die = s.die ∧ t.pkg.out = s.pkg.out ∧
      ∀ a, a < off ∨ off + bs.length ≤ a → barByte t a = barByte s a)) ∧
  (∀ (v : BitVec 64) (off : Nat) (s : State),
    let regs := fun (f : HostRegs → HostRegs) => s.modRegs f
    exec (.controlRegisterWrite 0x18 0) s = .next (regs (fun r => { r with subdrop := 0 })) ∧
    exec (.controlRegisterWrite 0x20 0) s = .next (regs (fun r => { r with subbad := 0 })) ∧
    exec (.controlRegisterWrite 0x28 0) s = .next (regs (fun r => { r with subrej := 0 })) ∧
    exec (.controlRegisterWrite 0x48 v) s = exec (.dutymodeWrite v) s ∧
    exec (.controlRegisterWrite 0x68 v) s = exec (.shakecmd v) s ∧
    exec (.controlRegisterWrite 0x50 v) s = .next (regs (fun r => { r with winbase := bits 36 28 v ++ (0 : BitVec 36) })) ∧
    exec (.controlRegisterWrite 0x58 v) s = .next (regs (fun r => { r with assistbase := bits 12 52 v ++ (0 : BitVec 12) })) ∧
    exec (.controlRegisterWrite 0x78 v) s = .next (regs (fun r => { r with reportaddr := bits 12 52 v ++ (0 : BitVec 12) })) ∧
    (off ∉ [0x18, 0x20, 0x28, 0x48, 0x50, 0x58, 0x68, 0x78] → exec (.controlRegisterWrite off v) s = .next s) ∧
    ((bits 6 58 v : BitVec 58) ≠ 0 → exec (.dutymodeWrite v) s = .next s) ∧
    ((bits 6 58 v : BitVec 58) = 0 → ∃ t, exec (.dutymodeWrite v) s = .next t ∧ t.pkg.regs = { s.pkg.regs with dutymode := v } ∧
      t.die = s.die ∧ t.cur = s.cur ∧ t.pkg.fw.mr[3] = if v = s.pkg.regs.dutymode then s.pkg.fw.mr[3] else
        sha3 (bytes512 s.pkg.fw.mr[3] ++ leBytes 8 v.toNat ++ domainBytes s.die.domain))) ∧
  (∀ (s : State),
    let w := s.pkg.fw
    let open_ := fun (e : FwEvent) => w.phase != .booting && w.busy.length < 12 && !w.busy.any (fun b => b.key == e.key)
    (∀ e, w.events.find? open_ = some e →
      let u := s.modFw (fun (x : Firmware) => { x with events := x.events.erase e })
      (∀ p, e.work = .submission p → exec .firmwareEventDelivery s = .next (u.modFw (fun (x : Firmware) => { x with busy := x.busy ++ [e] }))) ∧
      ((∀ p, e.work ≠ .submission p) → exec .firmwareEventDelivery s = .next (e.work.perform u))) ∧
    (w.events.find? open_ = none → exec .firmwareEventDelivery s = .next s))

/-- R388 to R395: a restart takes the newest acceptable image and delivers again what its cores held; a boot measures, and ends
running or, without an acceptable image, failed; an image waits in the store; the fuse counter rises only by a signed message, up to
the running SVN; measurements extend their registers and no other, and the SPDM answers carry what R395 says.  A message of the
mailbox is taken at once where a core can take it, and waits in the event queue otherwise.
Keys, signatures and stores are the opaque constants and choices of log entry 7, the answers' bytes follow log entry 16, and the notice table that running firmware writes is the model's (log entry 53). -/
def Obligations.FirmwareAndAttestationEvents : Prop :=
  (∀ (s : State),
    let st : BitVec 3 := bits 0 3 s.pkg.regs.fwstate
    let n := (bits 16 16 s.pkg.regs.fwstate : BitVec 16).toNat
    let w := s.pkg.fw
    let newest := fun (im : List Byte) => imageOk im w.fuse = true ∧
      ((w.loaded = im ∧ im ≠ []) ∨ ((w.loaded = [] ∨ imageOk w.loaded w.fuse = false) ∧ w.store = im))
    let table := (List.range 10).map (fun k => (k + 1, Config.noticeEntry (k + 1)))
    let ext := fun (k : Fin 16) (bs : List Byte) => sha3 (bytes512 w.mr[k] ++ bs)
    let kept := fun (t : State) => t.cur = s.cur ∧
      t.die = { s.die with queues := { s.die.queues with noticeTable := t.die.queues.noticeTable } } ∧ t.pkg.fw.log = w.log ∧
      t.pkg.fw.fuse = w.fuse ∧ t.pkg.fw.loaded = []
    let runs := fun (t : State) (im : List Byte) =>
      let svn := BitVec.ofNat 8 (leNat ((im.drop 23).take 1))
      t.die.queues.noticeTable = table ∧ t.pkg.fw.running = im ∧ t.pkg.fw.store = im ∧ (bits 32 8 t.pkg.regs.fwstate : BitVec 8) = svn ∧
        t.pkg.fw.mr[1] = ext 1 ((im.drop 64).take 64 ++ [svn])
    (st ≠ 0 → st ≠ 1 → w.phase ≠ .booting → exec .firmwareRestart s = .next s) ∧
    (st = 1 → w.phase ≠ .booting → ∃ t, exec .firmwareRestart s = .next t ∧ (bits 0 3 t.pkg.regs.fwstate : BitVec 3) = 1 ∧
      (bits 16 16 t.pkg.regs.fwstate : BitVec 16) = BitVec.ofNat 16 (min (n + 1) 65535) ∧
      t.pkg.fw.events = w.busy ++ w.events ∧ t.pkg.fw.busy = [] ∧ kept t ∧ t.pkg.out = s.pkg.out ++ [.vector 4, .vector 4] ∧
      ∀ im, newest im → runs t im) ∧
    (st = 0 ∨ w.phase = .booting → ∃ t, exec .firmwareRestart s = .next t ∧ kept t ∧ t.pkg.fw.phase = .usual ∧
      t.pkg.fw.mr[0] = ext 0 (bytes512 Config.bootRomHash) ∧ t.pkg.fw.mr[2] = ext 2 [w.fuse] ∧
      t.pkg.fw.mr[3] = ext 3 (leBytes 8 s.pkg.regs.dutymode.toNat ++ domainBytes s.die.domain) ∧
      (∀ im, newest im → runs t im ∧ (bits 0 3 t.pkg.regs.fwstate : BitVec 3) = (if st = 5 then 5 else 1)) ∧
      ((∀ im, ¬newest im) → (bits 0 3 t.pkg.regs.fwstate : BitVec 3) = 5))) ∧
  (∀ (image : List Byte) (v : BitVec 8) (sig : List Byte) (reg : BitVec 4) (m : BitVec 512) (s : State),
    let svn : BitVec 8 := bits 32 8 s.pkg.regs.fwstate
    let allowed := Config.mldsaVerify Config.vendorKeyId [v] sig = true ∧ v ≤ svn ∧ s.pkg.fw.fuse < v
    let ext := fun (k : BitVec 4) (bs : List Byte) => s.pkg.fw.mr.set k.toNat (sha3 (bytes512 s.pkg.fw.mr[k.toNat] ++ bs))
    let taken := s.pkg.fw.events.length < 65536 ∧ coreFor 5 s = true ∧ ∀ e ∈ s.pkg.fw.events, e.key ≠ 5
    (taken → exec (.imageLoad image) s = .next (s.modFw (fun (w : Firmware) => { w with loaded := image }))) ∧
    (taken → allowed → exec (.fuseCommit v sig) s = .next (s.modFw (fun (w : Firmware) => { w with fuse := v, mr := ext 2 [v] }))) ∧
    (taken → ¬allowed → exec (.fuseCommit v sig) s = .next s) ∧
    (taken → 5 ≤ reg.toNat → exec (.measurementExtend reg m) s =
      .next (s.modFw (fun (w : Firmware) => { w with mr := ext reg (bytes512 m) }))) ∧
    (taken → reg.toNat < 5 → exec (.measurementExtend reg m) s = .next s)) ∧
  (∀ (off len : Nat) (nonce : BitVec 256) (s : State),
    let replies := fun (i : Instr) (bs : List Byte) => exec i s = .next (s.modPkg (fun (p : Package) =>
      { p with out := p.out ++ [.doe bs] }))
    let all := (s.pkg.fw.mr.toList.flatMap (fun (x : BitVec 512) => leBytes 64 x.toNat)) ++ [s.pkg.fw.fuse]
    s.pkg.fw.events.length < 65536 → coreFor 5 s = true → (∀ e ∈ s.pkg.fw.events, e.key ≠ 5) →
    replies .getDigests (bytes512 (sha3 Config.certificateChain)) ∧
    replies (.getCertificate off len) ((Config.certificateChain.drop off).take len) ∧
    replies (.challenge nonce) (Config.identitySign (leBytes 32 nonce.toNat ++ bytes512 (sha3 Config.certificateChain))) ∧
    replies (.getMeasurements nonce) (all ++ Config.identitySign (all ++ leBytes 32 nonce.toNat))) ∧
  (∀ (image sig : List Byte) (v : BitVec 8) (reg : BitVec 4) (m : BitVec 512) (off len : Nat) (nonce : BitVec 256) (s : State),
    65536 ≤ s.pkg.fw.events.length ∨ coreFor 5 s = false ∨ (∃ e ∈ s.pkg.fw.events, e.key = 5) →
    ∀ x ∈ [(Instr.imageLoad image, FwWork.load image), (.fuseCommit v sig, .fuse v sig), (.measurementExtend reg m, .extend reg m),
        (.getDigests, .digests), (.getCertificate off len, .certificate off len), (.challenge nonce, .challenge nonce),
        (.getMeasurements nonce, .measurements nonce)],
      (s.pkg.fw.events.length < 65536 → exec x.1 s =
        .next (s.modFw (fun (w : Firmware) => { w with events := w.events ++ [{ key := 5, work := x.2 }] }))) ∧
      (65536 ≤ s.pkg.fw.events.length → exec x.1 s =
        .next (s.modFw (fun (w : Firmware) => { w with eventDrop := w.eventDrop + 1 }))))

/-- R396, R397, R399, R400: a function in host-assisted mode asks the host through the ring and vector 2; its reply, or 100 ms without
one, ends the request; a shakeout quiesces, zeroes and reboots, and ends with its word, its report measured into MR4, the links up
and vector 3.
The bodies of requests and replies and the layout of the report are the model's (log entries 15 and 22), as is part of what a shakeout keeps (log entry 19). -/
def Obligations.AssistAndShakeoutEvents : Prop :=
  (∀ (fn : BitVec 3) (req : BitVec 512) (s : State),
    let asked := fn.toNat < 5 ∧ s.pkg.regs.dutymode.getLsbD fn.toNat = true
    (¬asked → exec (.assistRequest fn req) s = .next s) ∧
    let work := workOf fn req s
    let performed : AssistWork → State := fun w =>
      performAssist w (s.modFw (fun (f : Firmware) => { f with assistFallback := f.assistFallback + 1 }))
    (asked → s.pkg.regs.assistbase ≠ 0 → s.pkg.fw.assists.length < 4096 →
      let n := s.pkg.fw.assistSeq + 1
      let to_ := s.pkg.regs.assistbase + BitVec.ofNat 64 (64 * (s.pkg.fw.assistSeq % 4096))
      ∃ t, exec (.assistRequest fn req) s = .next t ∧ t.pkg.fw.assistSeq = n ∧
        t.pkg.fw.assists = s.pkg.fw.assists ++ [{ seq := n, fn := fn, work := work }] ∧
        t.pkg.out = s.pkg.out ++ [.memory to_ (bytes512 req), .vector 2] ∧ (fn ≠ 0 → t.die = s.die) ∧
        (∀ i, work = .dist i → ∀ e, findSet i t = some e → e.order = .asked)) ∧
    (asked → s.pkg.regs.assistbase = 0 ∨ 4096 ≤ s.pkg.fw.assists.length →
      exec (.assistRequest fn req) s = .next (performed work) ∧
      (fn = 3 → ∀ d, d < 32 → (performed work).die.router.routeX.getD d 3 =
        let k := (d + Config.torusX - coordX s.die.coord) % Config.torusX
        if Config.torusX ≤ d then 3 else if k = 0 then 0 else if 2 * k ≤ Config.torusX then 1 else 2))) ∧
  (∀ (seq : Nat) (reply : BitVec 512) (s : State),
    let taken := s.pkg.fw.events.length < 65536 ∧ coreFor 6 s = true ∧ ∀ e ∈ s.pkg.fw.events, e.key ≠ 6
    let found := s.pkg.fw.assists.find? (fun a => a.seq == seq)
    (s.pkg.fw.events.length < 65536 → ¬taken → exec (.assistreply seq reply) s =
      .next (s.modFw (fun (w : Firmware) => { w with events := w.events ++ [{ key := 6, work := .reply seq reply }] }))) ∧
    (found = none → (taken → exec (.assistreply seq reply) s = .next s) ∧ exec (.assistTimeout seq) s = .next s) ∧
    (∀ a, found = some a → (∀ k, a.work ≠ .shake k) →
      let u := s.modFw (fun (w : Firmware) => { w with assists := w.assists.filter (fun a => a.seq != seq) })
      let f := u.modFw (fun (w : Firmware) => { w with assistFallback := w.assistFallback + 1 })
      (taken → exec (.assistreply seq reply) s = .next (takeReply a.work reply u)) ∧
      exec (.assistTimeout seq) s = .next (performAssist a.work f) ∧
      (∀ l p, a.work = .retain l p →
        (takeReply a.work reply u).pkg = u.pkg ∧ (performAssist a.work f).pkg = f.pkg ∧
        (bits 0 8 (takeReply a.work reply u).die.lineage.control : BitVec 8) =
          BitVec.ofNat 8 (min 64 (max 2 (bits 0 64 reply : BitVec 64).toNat)) ∧
        (bits 8 56 (takeReply a.work reply u).die.lineage.control : BitVec 56) = bits 8 56 s.die.lineage.control) ∧
      (∀ w, a.work = .fill w → Config.replyLeaf reply = none →
        takeReply a.work reply u = u.fillEnded w (.fault (Config.replyPermission reply)) ∧
        performAssist a.work f = f.fillEnded w .walk) ∧
      (a.work = .routes → (performAssist a.work f).pkg = f.pkg ∧ ∀ d, d < 32 →
        (performAssist a.work f).die.router.routeX.getD d 3 =
          let k := (d + Config.torusX - coordX s.die.coord) % Config.torusX
          if Config.torusX ≤ d then 3 else if k = 0 then 0 else if 2 * k ≤ Config.torusX then 1 else 2))) ∧
  (∀ (nonce : BitVec 64) (s : State),
    let st : BitVec 3 := bits 0 3 s.pkg.regs.fwstate
    (nonce = 0 ∨ st = 4 ∨ s.shakeAsked = true → exec (.shakecmd nonce) s = .next s) ∧
    (nonce ≠ 0 → st ≠ 4 → s.shakeAsked = false → s.pkg.regs.dutymode.getLsbD 5 = true → s.pkg.regs.assistbase ≠ 0 →
      s.pkg.fw.assists.length < 4096 → ∃ t, exec (.shakecmd nonce) s = .next t ∧ t.pkg.regs = s.pkg.regs ∧ t.die = s.die ∧
        t.cur = s.cur ∧ t.pkg.fw.nonce = nonce ∧ t.shakeAsked = true ∧ HostOut.vector 2 ∈ t.pkg.out) ∧
    (nonce ≠ 0 → st ≠ 4 → s.shakeAsked = false → s.pkg.regs.dutymode.getLsbD 5 = false →
      ∃ t, exec (.shakecmd nonce) s = .next t ∧ (bits 0 3 t.pkg.regs.fwstate : BitVec 3) = 4 ∧ t.pkg.fw.nonce = nonce ∧
        t.pkg.hbm = [] ∧ t.pkg.tier2 = [] ∧ (∀ c, (ctxAt c t).flow.residency = .free ∧ (ctxAt c t).g = Ctx.reset.g) ∧
        t.die.queues.tasks = [] ∧ t.die.trapCount = 0 ∧ t.die.router.links = Vector.replicate 6 .down ∧
        t.pkg.regs.subtail = 0 ∧ t.pkg.regs.subdone = 0 ∧ (bits 16 16 t.pkg.regs.fwstate : BitVec 16) = 0 ∧
        t.pkg.power.freq = 1100 ∧ t.pkg.timePs = s.pkg.timePs ∧ t.pkg.fw.fuse = s.pkg.fw.fuse ∧
        t.pkg.out = s.pkg.out ++ .vector 4 :: (if 4096 ≤ (s.pkg.regs.subtail - s.pkg.regs.subdone).toNat then [.vector 0] else []))) ∧
  (∀ (r : ShakeResult) (s : State),
    ((bits 0 3 s.pkg.regs.fwstate : BitVec 3) ≠ 4 ∨ s.shakeAsked = true → exec (.shakeoutComplete r) s = .next s) ∧
    ((bits 0 3 s.pkg.regs.fwstate : BitVec 3) = 4 → s.shakeAsked = false → ∃ t report,
      exec (.shakeoutComplete r) s = .next t ∧
      let w := t.pkg.regs.shakestat
      let bad := r.zeroFailed || r.measFailed || s.pkg.regs.shakestat.getLsbD 1 || r.selfFailed || r.marchFailed || r.berFailed
      (bits 32 32 w : BitVec 32) = r.timeMs ∧ w.getLsbD 7 = true ∧ w.getLsbD 0 = r.zeroFailed ∧
      w.getLsbD 1 = (r.measFailed || s.pkg.regs.shakestat.getLsbD 1) ∧ w.getLsbD 2 = r.selfFailed ∧
      w.getLsbD 3 = r.marchFailed ∧ w.getLsbD 4 = r.berFailed ∧ (bits 8 24 w : BitVec 24) = 0 ∧
      (bits 0 3 t.pkg.regs.fwstate : BitVec 3) = (if bad then 5 else 1) ∧
      t.die.router.links = Vector.replicate 6 .up ∧ t.pkg.regs.dutymode = 0 ∧ t.pkg.regs.winbase = 0 ∧
      t.pkg.regs.assistbase = 0 ∧ t.pkg.regs.reportaddr = 0 ∧ report.length = 4096 ∧
      report.take 16 = leBytes 8 w.toNat ++ leBytes 8 s.pkg.fw.nonce.toNat ∧
      t.pkg.fw.mr[4] = sha3 (bytes512 s.pkg.fw.mr[4] ++ report) ∧
      t.pkg.out = s.pkg.out ++ [.memory s.pkg.regs.reportaddr report, .vector 4, .vector 3]))

/-! ## Events of the package -/

/-- R230, R362, R401 to R408: every power sample trips, steps the clock by 25 MHz between 600 and 1,100, or holds; the time base slews by at
most 100 ppm towards its reference and never goes back, and a package that joins a domain first adopts its time; the sensor word;
power-on, package and die resets leave what R405 and R406 say; a reset of the domain clears the clocks.
The count of calm samples and what each reset keeps beyond the rules are the model's (log entries 19 and 23), as is the notice table that running firmware writes (log entry 53). -/
def Obligations.PowerAndResetEvents : Prop :=
  (∀ (p : PowerReading) (s : State),
    let w := s.pkg.power
    let trip := 110 ≤ p.junction ∨ 45 < p.inlet
    let hot := 1900 < p.package ∨ 2200 < p.module ∨ 100 ≤ p.junction
    let calm := p.package ≤ 1800 ∧ p.junction ≤ 95
    let floor := if w.freq = 600 then w.floorns + 10000 else w.floorns
    ∃ t, exec (.powerSample p) s = .next t ∧ t.pkg.power.floorns = floor ∧
      (trip → t.pkg.power.trips = w.trips + 1 ∧ ((bits 0 3 s.pkg.regs.fwstate : BitVec 3) ≠ 4 →
        t.pkg.hbm = [] ∧ (∀ c, (ctxAt c t).flow.residency = .free))) ∧
      (¬trip → hot → t.pkg.power.freq = (if 600 < w.freq then w.freq - 25 else w.freq) ∧
        t.pkg.power.stepdn = (if 600 < w.freq then w.stepdn + 1 else w.stepdn) ∧ t.die = s.die ∧ t.cur = s.cur) ∧
      (¬trip → ¬hot → calm → 99 ≤ w.calm → t.pkg.power.freq = (if w.freq < 1100 then w.freq + 25 else w.freq) ∧
        t.pkg.power.calm = 0) ∧
      (¬trip → ¬hot → (¬calm ∨ w.calm < 99) → t.pkg.power.freq = w.freq ∧
        t.pkg.power.calm = if calm then w.calm + 1 else 0) ∧
      (¬trip → t.pkg.power.trips = w.trips ∧ t.pkg.hbm = s.pkg.hbm ∧ t.pkg.timePs = s.pkg.timePs)) ∧
  (∀ (reference : Nat) (p : PowerReading) (s : State),
    let off : Int := 1000 * reference - s.pkg.timePs
    (s.pkg.timeHeld = true → exec (.timeSync reference) s = .next (s.modPkg (fun (x : Package) => { x with slew := off }))) ∧
    (s.pkg.timeHeld = false → exec (.timeSync reference) s = .next ((s.modRouter (fun (r : Router) =>
      { r with links := Vector.replicate 6 .up })).modPkg (fun (x : Package) =>
        { x with timePs := max s.pkg.timePs (1000 * reference), slew := min 0 off, timeHeld := true }))) ∧
    ∃ t, exec (.sensorSample p) s = .next t ∧ t.pkg = s.pkg ∧ t.cur = s.cur ∧
      (bits 0 8 t.die.sensor : BitVec 8) = BitVec.ofNat 8 p.inlet ∧ (bits 8 8 t.die.sensor : BitVec 8) = BitVec.ofNat 8 p.hbm ∧
      (bits 16 8 t.die.sensor : BitVec 8) = BitVec.ofNat 8 p.junction ∧
      (bits 24 12 t.die.sensor : BitVec 12) = BitVec.ofNat 12 p.module ∧
      (bits 36 12 t.die.sensor : BitVec 12) = BitVec.ofNat 12 p.package ∧
      (bits 48 16 t.die.sensor : BitVec 16) = BitVec.ofNat 16 s.pkg.power.freq) ∧
  (∀ (n : Nat) (p : Package), p.slewAcc < 10000 →
    let ps := n * (1000000 / p.power.freq)
    let q := p.pass n
    q.clocks = p.clocks + n ∧ q.slewAcc < 10000 ∧ p.timePs ≤ q.timePs ∧ q.power = p.power ∧
    ∃ d : Int, (q.timePs : Int) = p.timePs + ps + d ∧ q.slew = p.slew - d ∧ 10000 * d.natAbs ≤ p.slewAcc + ps ∧
      d.natAbs ≤ p.slew.natAbs ∧ 0 ≤ d * p.slew) ∧
  (∀ (s : State),
    let st := fun (t : State) => (bits 0 3 t.pkg.regs.fwstate : BitVec 3)
    let counted := fun (r : Router) => (r.ports, r.agedrop, r.unreach, r.badpkt, r.mgmtdrop, r.timeout, r.stale)
    (∃ t, exec .powerOnReset s = .next t ∧ t.cur = Ctx.reset ∧ t.cores = [] ∧ t.pkg.hbm = [] ∧ t.pkg.tier2 = [] ∧
      t.pkg.timePs = State.reset.pkg.timePs ∧ t.pkg.power = State.reset.pkg.power ∧ t.pkg.fw.fuse = s.pkg.fw.fuse ∧
      (st t = 1 ∨ st t = 5) ∧
      t.die = { State.reset.die with queues := { State.reset.die.queues with noticeTable := t.die.queues.noticeTable } } ∧
      (st t = 5 → t.die.queues.noticeTable = []) ∧
      (st t = 1 → t.die.queues.noticeTable = (List.range 10).map (fun k => (k + 1, Config.noticeEntry (k + 1))))) ∧
    (st s = 4 → exec .packageReset s = .next s) ∧
    (st s ≠ 4 → ∃ t, exec .packageReset s = .next t ∧ (∀ c, (ctxAt c t).flow.residency = .free) ∧ t.pkg.hbm = [] ∧
      t.pkg.tier2 = s.pkg.tier2 ∧ t.pkg.power = s.pkg.power ∧ t.pkg.timePs = s.pkg.timePs ∧ t.pkg.fw.fuse = s.pkg.fw.fuse ∧
      t.die.queues.tasks = [] ∧ t.die.router.links = Vector.replicate 6 .down ∧ t.pkg.fw.phase = .booting ∧
      t.pkg.timeHeld = false ∧ counted t.die.router = counted s.die.router ∧ st t = (if st s = 5 then 5 else 3) ∧
      (bits 16 16 t.pkg.regs.fwstate : BitVec 16) = bits 16 16 s.pkg.regs.fwstate) ∧
    exec .domainReset s = .next (s.modDie (fun (d : Die) => { d with clocks := { own := [], sent := [], received := [] } })) ∧
    exec (.dieReturn s.die.coord) s = .next (s.modDie (fun (d : Die) => { d with resetting := false })) ∧
    (∀ c, c ≠ s.die.coord → exec (.dieReturn c) s = .next s) ∧
    (∀ c, st s = 4 → exec (.dieReset c) s = .next s) ∧
    let keptBeside := fun (i : Nat) => s.pkg.hbm.filter (fun c =>
      decide (c.1 < i * Config.dieHbmBytes) || decide ((i + 1) * Config.dieHbmBytes ≤ c.1))
    (st s ≠ 4 → ∃ t, exec (.dieReset s.die.coord) s = .next t ∧ (∀ c, (ctxAt c t).flow.residency = .free) ∧
      t.die.resetting = true ∧ t.die.queues.tasks = [] ∧ t.die.lineage.entries = [] ∧ t.die.ops = [] ∧
      t.die.queues.noticeTable = s.die.queues.noticeTable ∧
      (s.die.queues.saved = [] → t.pkg.hbm = keptBeside (dieIndex s.die.coord) ∧ t.pkg.tier2 = s.pkg.tier2 ∧
        counted t.die.router = counted s.die.router)) ∧
    (∀ c, st s ≠ 4 → c ≠ s.die.coord → s.die.queues.notices.length < 4096 → s.die.regions = [] → s.die.lineage.entries = [] →
      ∃ t, exec (.dieReset c) s = .next t ∧ (∃ n, t.die.queues.notices = s.die.queues.notices ++ [n] ∧ noticeKind n = 5 ∧
          bits 192 64 n = c.setWidth 64) ∧
        (∀ l ∈ t.die.shard, l.region.home ≠ c) ∧ (∀ x ∈ t.die.clocks.sent, x.1.1 ≠ c) ∧ (∀ x ∈ t.die.clocks.received, x.1.1 ≠ c) ∧
        t.pkg.hbm = match packageIndex c s with | some i => keptBeside i | none => s.pkg.hbm))

/-! ## The machine as a whole -/

/-- R15, R26, R56, R86, R337: where nothing is due for the running context in focus, one step is `exec` of the first instruction of the
bundle at the pc, the others of the bundle beside it; a line-end mark moves the pc to the next line; bytes that decode to no
bundle trap with illegal instruction, a code line that cannot be fetched with fetch fault, and one that an error has destroyed with
uncorrectable error (R337).
The TIME of a record is the model's reading (log entry 32), and planes and trees outside a live set take free values at their first use (log entry 43). -/
def Obligations.StepRunsDecodedBundle : Prop :=
  ∀ (s : State), s.inputs = [] → s.turns = [] → s.core.cycle % 16 ≠ 15 → s.core.frozenLeft = 0 →
    s.cur.flow.residency = .running → s.cur.flow.taking = none → s.cur.flow.due = [] → s.cur.sys.wdForced = false →
    (s.cur.sys.wdlim = 0 ∨ s.cur.wdValue s.core.cycle < s.cur.sys.wdlim.toNat) → s.cur.flow.doneWait = false →
    s.cur.flow.serviceWait = none → (s.cur.flow.pendingArray = [] ∨ s.cur.sys.handler = true) →
    s.cur.flow.saveWait = none → s.cur.flow.factPoint = false → s.pour = none →
    let line := s.pc &&& ~~~(63 : Word)
    (∀ bs i is n, fetchAt s.pc.toNat s = .line bs → bs.headD 0 ≠ 0 → decodeBundle bs = .ok (i :: is, n) →
      let u := fillOthers (i :: is) (unblank (i :: is) s)
      step s = exec i { u with rest := is } ∧ u.cur.g = s.cur.g ∧ u.cur.k = s.cur.k ∧ u.cur.m = s.cur.m ∧ u.cur.q = s.cur.q ∧
        u.cur.sys = s.cur.sys ∧ u.die = s.die ∧ u.pkg = s.pkg ∧
        (s.cur.flow.blankPlanes = 0 → s.cur.flow.blankTrees = 0 →
          (∀ x ∈ s.core.parked, x.2.flow.blankPlanes = 0 ∧ x.2.flow.blankTrees = 0) → u = s)) ∧
    (∀ bs, fetchAt s.pc.toNat s = .line bs → bs.headD 0 = 0 →
      step s = .next (s.modFlow (fun (w : FlowCtx) => { w with pc := line + 64 }))) ∧
    (∀ bs e, fetchAt s.pc.toNat s = .line bs → bs.headD 0 ≠ 0 → decodeBundle bs = .error e → quiet s = true → settled s = true →
      handled .illegal s = true → ∃ log, log.length ≤ 47 ∧ log = bs.take log.length ∧ 0 < log.length ∧
        step s = .next (cycled (entered (infoNat log (causeNat .illegal s) 0 0 0 s.pc s.pc)
          (recorded log (causeNat .illegal s) s.pc s)))) ∧
    (fetchAt s.pc.toNat s = .fault → quiet s = true → settled s = true → handled .fetchFault s = true →
      step s = .next (entered (infoNat [] (causeNat .fetchFault s) 0 0 line s.pc s.pc)
        (recorded [] (causeNat .fetchFault s) s.pc s))) ∧
    (fetchAt s.pc.toNat s = .poisoned → quiet s = true → settled s = true → handled .uncorrectable s = true →
      step s = .next (entered (infoNat [] (causeNat .uncorrectable s) 0 0 0 s.pc s.pc)
        (recorded [] (causeNat .uncorrectable s) s.pc s)))

/-- R24 to R43: words that the spec writes out byte by byte, or that follow from its encoding tables, decode to the instructions
that they stand for: a scalar pair, a bundle of three slots, a repeat with an accumulate, a hint with a factorisation, a vector
instruction, a watch, a bulk fill, a flag wait, a tree lookup and a tree update, a move and two control words; and reserved
encodings are refused. -/
def Obligations.EncodedWordsDecode : Prop :=
  let five : MI := { guard := 0, dst := 1, imm := 5 }
  let find : RR := { guard := 0, dst := 4, src1 := 5, port1 := 0, src2 := 0, port2 := 0, modf := 3 }
  let put : RR := { guard := 0, dst := 1, src1 := 0, port1 := 0, src2 := 6, port2 := 1, modf := 2 }
  let pair : RR := { guard := 0, dst := 3, src1 := 1, port1 := 0, src2 := 2, port2 := 1, modf := 0 }
  let up : RI := { guard := 0, dst := 4, src1 := 4, port1 := 0, imm := 1 }
  let v : VF := { guard := 0, dst := 2, src1 := 1, keep1 := false, src2 := 4, keep2 := false, src3 := 0, keep3 := false, mask := 0, ty := 2, modf := 0 }
  let l : LF := { guard := 0, b := 1, n := 0, o := 0, oport := 0, d := 0, dport := 0, imm := 0, f := 4, fr := false, fe := 0, modf := 0x40 }
  let m : MF := { guard := 0, queue := 0, plane := 0, caddr := 0, row := 0, modf := 1 }
  decodeBundle [0x06, 0x30, 0x8C, 0x80, 0x08, 0x10, 0x90, 0x80, 0x08] = .ok ([.mul .a pair, .add .b { pair with dst := 4 }], 9) ∧
  decodeBundle [0x8A, 0xA0, 0x11, 0x42, 0x00, 0x10, 0x10, 0x01, 0x01, 0x40, 0x00, 0x20, 0x45] =
    .ok ([.addi .a up, .vadd v, .pflag { guard := 0, flag := 5, count := 2 }], 13) ∧
  decodeBundle [0x11, 0x1C, 0x42, 0x00, 0x02, 0x30, 0x00, 0x00, 0x00, 0x00, 0x01] =
    .ok ([.rpt { stride := 128, rowStride := 1, count := 4 }, .macc m], 11) ∧
  decodeBundle [0x11, 0x2A, 0x00, 0x00, 0x00, 0x00, 0x00, 0x00, 0x00, 0x00, 0x00, 0xFA, 0x7F, 0x90, 0x80, 0x00, 0x00, 0x00, 0x00] =
    .ok ([.phint { index := 0xFFF, planes := 4, trees := 0, queues := 0, regs := 0 }, .mfch { m with plane := 2, modf := 0 }], 19) ∧
  decodeBundle [0x08, 0x40, 0x10, 0x41, 0x69, 0x22, 0x01] =
    .ok ([.vfma { v with src2 := 5, keep2 := true, src3 := 6, keep3 := true, ty := 9 }], 7) ∧
  decodeBundle [0x20, 0x90, 0x09, 0x00, 0x00, 0x00, 0x00, 0x04, 0x40] = .ok ([.wvis l], 9) ∧
  decodeBundle [0x20, 0x10, 0x1A, 0x00, 0x00, 0x00, 0x40, 0x42, 0x4A] =
    .ok ([.wfill { l with b := 3, imm := 0x4000, f := 2, fe := 1, modf := 0x4A }], 9) ∧
  decodeBundle [0x80, 0x10, 0x24] = .ok ([.wflag { guard := 0, flag := 4, count := 1 }], 3) ∧
  decodeBundle [0x04, 0x90, 0x93, 0x02, 0x60] = .ok ([.wfind find], 5) ∧
  decodeBundle [0x04, 0x60, 0x07, 0x80, 0x49] = .ok ([.wadd put], 5) ∧
  decodeBundle [0x02, 0xE0, 0x85, 0x02, 0x00] = .ok ([.movi .a five], 5) ∧
  decodeBundle [0x01, 0x34, 0x00, 0x00, 0x00] = .ok ([.eret], 5) ∧
  decodeBundle [0x01, 0x38, 0x00, 0x00, 0x00] = .ok ([.done], 5) ∧
  (decodeBundle [0x01, 0xB4, 0x00, 0x00, 0x00]).toOption = none ∧ (decodeBundle [0x01, 0x4C, 0x00, 0x00, 0x00]).toOption = none ∧
  (decodeBundle [0x01, 0x03, 0x00, 0x00, 0x00]).toOption = none ∧ (decodeBundle [0x40, 0x00, 0x00, 0x00, 0x00]).toOption = none

/-- R23, R24, R28 to R43: every well-formed instruction of a slot comes back from its word, and from the bundle that holds it alone,
with every operand at every value; the four actions of `wdog` are one encoding (R104), which decodes to the first of them. -/
def Obligations.EncodingRoundTrip : Prop :=
  ∀ (i : Instr) (k : SlotKind) (w : BitVec 96) (tail : List Byte), wellFormed i = true → encode i = some (k, w) →
    let back := match i with | .wdogSuspend r | .wdogResume r | .wdogExpire r => Instr.wdogSetZero r | j => j
    slotOf i = some k ∧ decodeSlot k w = .ok back ∧
      decodeBundle (encodeAlone i ++ tail) = .ok ([back], (encodeAlone i).length)

/-- R28, R46, R47, R53 to R55: the slots of a bundle read before any of them writes; a slot off the taken path has no effect; an
illegal bundle traps before any slot issues, then privilege is checked, and of the causes that arise in execution the slot with
the lowest header bit names the trap, a software trap giving way to every other. -/
def Obligations.BundleIsOneAct : Prop :=
  ∀ (s : State), quiet s = true →
    let with_ := fun (is : List Instr) => ({ s with rest := is } : State)
    (∀ f h : RR, legal [.add .a f, .sub .b h] false = true → f.guard = 0 → h.guard = 0 → f.modf = 0 → h.modf = 0 →
      exec (.add .a f) (with_ [.sub .b h]) = .next (
        landed (.g h.dst) ((gReg h.src1 s - gReg h.src2 s).setWidth 128) (gTag h.src1 s || gTag h.src2 s) 0
          (landed (.g f.dst) ((gReg f.src1 s + gReg f.src2 s).setWidth 128) (gTag f.src1 s || gTag f.src2 s) 0
            (passed [.add .a f, .sub .b h] s)))) ∧
    (∀ (t : TreeF) (f : RR), legal [.tree t, .add .a f] false = true → f.modf = 0 →
      let path := treePath t (fun _ r => kReg r s)
      treeOff t (leafTaken t path) = 0 →
      (f.guard ≠ 0 → f.guard.toNat ∉ path → exec (.tree t) (with_ [.add .a f]) = .next (passed [.tree t, .add .a f] s)) ∧
      (f.guard = 0 ∨ f.guard.toNat ∈ path → exec (.tree t) (with_ [.add .a f]) = .next (
        landed (.g f.dst) ((gReg f.src1 s + gReg f.src2 s).setWidth 128) (gTag f.src1 s || gTag f.src2 s) 0
          (passed [.tree t, .add .a f] s)))) ∧
    (∀ i is, (slotOf i).isSome = true → legal (i :: is) false = false →
      exec i (with_ is) = .next (trapBundle (i :: is) .illegal 0 0 0 s)) ∧
    (∀ i is j, (slotOf i).isSome = true → legal (i :: is) false = true → treeOf (i :: is) = none →
      (i :: is).find? (fun x => privileged x s) = some j →
      exec i (with_ is) = .next (trapBundle (i :: is) .privilege 0 0 (slotBit j) s)) ∧
    (∀ f h : RR, legal [.chk .a f, .chk .b h] false = true → f.guard = 0 → h.guard = 0 → gTag f.src1 s = true →
      exec (.chk .a f) (with_ [.chk .b h]) = .next (trapBundle [.chk .a f, .chk .b h] .poison 0 0 1 s)) ∧
    (∀ (code : BitVec 8) (f : RR), legal [.trap code, .chk .a f] false = true → f.guard = 0 → gTag f.src1 s = true →
      exec (.trap code) (with_ [.chk .a f]) = .next (trapBundle [.trap code, .chk .a f] .poison 0 0 1 s))

/-- R18, R48, R50, R185: what a lone bundle with a result leaves unchanged: every register but its destination, which for g0, k0 and
m0 is none; every flag but those it raises; every special register, accumulator, trap register and queue; and every byte of memory,
scratchpad and cope store.  A bundle that pushes an entry changes its queues alone. -/
def Obligations.ResultFrames : Prop :=
  (∀ (i : Instr) (d : Dest) (v : BitVec 128) (p : Bool) (fl : Flags) (bound : Nat) (s : State),
    let t := gives i d v p fl bound s
    (∀ r : Fin 32, d ≠ .g (BitVec.ofNat 5 r.val) ∨ r.val = 0 → t.cur.g[r] = s.cur.g[r] ∧
      t.cur.gPoison.getLsbD r.val = s.cur.gPoison.getLsbD r.val) ∧
    (∀ r : Fin 16, d ≠ .k (BitVec.ofNat 4 r.val) ∨ r.val = 0 → t.cur.k.getLsbD r.val = s.cur.k.getLsbD r.val) ∧
    (∀ r : Fin 8, d ≠ .m (BitVec.ofNat 3 r.val) ∨ r.val = 0 → t.cur.m[r] = s.cur.m[r]) ∧
    t.cur.b = s.cur.b ∧ t.cur.n = s.cur.n ∧ t.cur.q = s.cur.q ∧ t.cur.arr = s.cur.arr ∧
    t.cur.sys = { s.cur.sys with fstat := if bound = 1 then s.cur.sys.fstat ||| fl else s.cur.sys.fstat } ∧
    t.core.f = s.core.f ∧ t.core.trees = s.core.trees ∧ t.core.cope = s.core.cope ∧ t.cluster = s.cluster ∧ t.die = s.die ∧
    t.cores = s.cores ∧ t.clusters = s.clusters ∧ t.pkg.regs = s.pkg.regs ∧
    ∀ k a, physRead k a { t with pkg := { t.pkg with timePs := s.pkg.timePs, clocks := s.pkg.clocks } } = physRead k a s) ∧
  (∀ (i : Instr) (src : List (BitVec 5 × Bool)) (dst : BitVec 5) (v : BitVec 1024) (p : Bool) (fl : Flags) (bound : Nat)
      (s : State),
    let t := pushes i src dst v p fl bound s
    (∀ r : BitVec 5, r ≠ dst → (r, false) ∉ src → t.cur.queue r = s.cur.queue r) ∧
    t.cur.g = s.cur.g ∧ t.cur.gPoison = s.cur.gPoison ∧ t.cur.k = s.cur.k ∧ t.cur.m = s.cur.m ∧ t.cur.b = s.cur.b ∧
    t.cur.n = s.cur.n ∧ t.cur.arr = s.cur.arr ∧ t.cur.sys = s.cur.sys ∧ t.core.f = s.core.f ∧ t.core.trees = s.core.trees ∧
    t.cluster = s.cluster ∧ t.die = s.die ∧ t.pkg.hbm = s.pkg.hbm ∧ t.pkg.tier2 = s.pkg.tier2)

/-- R24, R297, R337: a write to memory or scratchpad leaves its bytes where it put them and every other byte as it was, and what an
error marked is clean again once all 64 bytes of its block are written. -/
def Obligations.MemoryWritesAreLocal : Prop :=
  (∀ (cells : List ((Tier × Nat) × Byte)) (s : State), s.die.shard = [] →
    let t := storeCells cells s
    (∀ c : Tier × Nat, (∀ x ∈ cells, x.1 ≠ c) → physRead c.1 c.2 t = physRead c.1 c.2 s) ∧
    ((cells.map Prod.fst).Nodup → ∀ x ∈ cells, devicePa x.1.1 x.1.2 = false → physRead x.1.1 x.1.2 t = x.2) ∧
    (∀ c : Tier × Nat, physPoison c.1 c.2 t = true → physPoison c.1 c.2 s = true) ∧
    (∀ c : Tier × Nat, physPoison c.1 c.2 s = true → (∃ i, i < 64 ∧ ∀ x ∈ cells, x.1 ≠ (c.1, c.2 / 64 * 64 + i)) →
      physPoison c.1 c.2 t = true) ∧
    (∀ c : Tier × Nat, (∀ i, i < 64 → ∃ x ∈ cells, x.1 = (c.1, c.2 / 64 * 64 + i)) → physPoison c.1 c.2 t = false) ∧
    t.cur = s.cur ∧ t.core = s.core ∧ t.cluster = s.cluster ∧ t.die = s.die) ∧
  (∀ (places : List (Option Nat)) (bs : List Byte) (s : State),
    let t := writeScratch places bs s
    (∀ a, some a ∉ places → scratchRead a t = scratchRead a s) ∧
    (∀ i a, i < bs.length → places[i]? = some (some a) → (∀ j, j ≠ i → places[j]? ≠ some (some a)) →
      scratchRead a t = bs.getD i 0) ∧
    t.cur = s.cur ∧ t.core = s.core ∧ t.die = s.die ∧ t.pkg = s.pkg)

/-- R76, R78, R131, R155, R182, R242, R273, R349, R361, R401, R405, R409: the machine right after reset: no task is resident,
memory lists nothing, every counting flag is 0, every tag entry is 0, FMT, FSTAT, TRAPINFO and the fabric control word hold their
reset values, the clock runs at 1,100 MHz, and every byte store is in canonical form.
That memory and scratchpad hold zeros (log entry 13) and that every granule is empty (log entry 3) already before a shakeout are the
model's choices. -/
def Obligations.ResetState : Prop :=
  (∀ c, (ctxAt c State.reset).flow.residency = .free ∧ (ctxAt c State.reset).sys.fmt = 0x00004990 ∧
    (ctxAt c State.reset).sys.fstat = 0 ∧ (ctxAt c State.reset).sys.trapinfo = 0 ∧ freeSlots (ctxAt c State.reset) = 8) ∧
  (∀ k, (coreAt k State.reset).f = Vector.replicate 32 0 ∧ (coreAt k State.reset).cope = [] ∧
    ∀ t : Fin 8, ∀ i, leafOf ((coreAt k State.reset).trees[t]) i = 0) ∧
  (∀ k, (clusterAt k State.reset).sp = [] ∧ (clusterAt k State.reset).full = [] ∧ (clusterAt k State.reset).tags = []) ∧
  State.reset.pkg.hbm = [] ∧ State.reset.pkg.tier2 = [] ∧ State.reset.die.queues.tasks = [] ∧ State.reset.die.ops = [] ∧
  State.reset.die.defwdlim = 0x40000000 ∧ State.reset.die.router.control = 0x7D08003F ∧ State.reset.pkg.power.freq = 1100 ∧
  (bits 0 3 State.reset.pkg.regs.fwstate : BitVec 3) = 0 ∧ storesWf State.reset = true

/-- Every step keeps every byte store of the machine, the memories of the package, the scratchpads and the cope stores, in its
canonical form: addresses rise strictly, and no listed byte equals what an unlisted address reads as, so that equal memories are
equal data. -/
def Obligations.StoresStayCanonical : Prop :=
  ∀ (s t : State), storesWf s = true → step s = .next t → storesWf t = true
end

