-- ==== Sys2Proof/Laws/State.lean ====
section
/-! SUPPORT. The fields of a state after each named update, one lemma each. -/
namespace Sys2Proof.Machine

/-! ## `modCtx` -/

@[simp] theorem State.modCtx_cur (f : Ctx → Ctx) (s : State) : (s.modCtx f).cur = f s.cur := rfl
@[simp] theorem State.modCtx_core (f : Ctx → Ctx) (s : State) : (s.modCtx f).core = s.core := rfl
@[simp] theorem State.modCtx_cluster (f : Ctx → Ctx) (s : State) : (s.modCtx f).cluster = s.cluster := rfl
@[simp] theorem State.modCtx_cores (f : Ctx → Ctx) (s : State) : (s.modCtx f).cores = s.cores := rfl
@[simp] theorem State.modCtx_clusters (f : Ctx → Ctx) (s : State) : (s.modCtx f).clusters = s.clusters := rfl
@[simp] theorem State.modCtx_die (f : Ctx → Ctx) (s : State) : (s.modCtx f).die = s.die := rfl
@[simp] theorem State.modCtx_pkg (f : Ctx → Ctx) (s : State) : (s.modCtx f).pkg = s.pkg := rfl
@[simp] theorem State.modCtx_inputs (f : Ctx → Ctx) (s : State) : (s.modCtx f).inputs = s.inputs := rfl
@[simp] theorem State.modCtx_turns (f : Ctx → Ctx) (s : State) : (s.modCtx f).turns = s.turns := rfl
@[simp] theorem State.modCtx_rest (f : Ctx → Ctx) (s : State) : (s.modCtx f).rest = s.rest := rfl
@[simp] theorem State.modCtx_freeCount (f : Ctx → Ctx) (s : State) : (s.modCtx f).freeCount = s.freeCount := rfl

/-! ## `modCore` -/

@[simp] theorem State.modCore_cur (f : Core → Core) (s : State) : (s.modCore f).cur = s.cur := rfl
@[simp] theorem State.modCore_core (f : Core → Core) (s : State) : (s.modCore f).core = f s.core := rfl
@[simp] theorem State.modCore_cluster (f : Core → Core) (s : State) : (s.modCore f).cluster = s.cluster := rfl
@[simp] theorem State.modCore_cores (f : Core → Core) (s : State) : (s.modCore f).cores = s.cores := rfl
@[simp] theorem State.modCore_clusters (f : Core → Core) (s : State) : (s.modCore f).clusters = s.clusters := rfl
@[simp] theorem State.modCore_die (f : Core → Core) (s : State) : (s.modCore f).die = s.die := rfl
@[simp] theorem State.modCore_pkg (f : Core → Core) (s : State) : (s.modCore f).pkg = s.pkg := rfl
@[simp] theorem State.modCore_inputs (f : Core → Core) (s : State) : (s.modCore f).inputs = s.inputs := rfl
@[simp] theorem State.modCore_turns (f : Core → Core) (s : State) : (s.modCore f).turns = s.turns := rfl
@[simp] theorem State.modCore_rest (f : Core → Core) (s : State) : (s.modCore f).rest = s.rest := rfl
@[simp] theorem State.modCore_freeCount (f : Core → Core) (s : State) : (s.modCore f).freeCount = s.freeCount := rfl

/-! ## `modCluster` -/

@[simp] theorem State.modCluster_cur (f : Cluster → Cluster) (s : State) : (s.modCluster f).cur = s.cur := rfl
@[simp] theorem State.modCluster_core (f : Cluster → Cluster) (s : State) : (s.modCluster f).core = s.core := rfl
@[simp] theorem State.modCluster_cluster (f : Cluster → Cluster) (s : State) : (s.modCluster f).cluster = f s.cluster := rfl
@[simp] theorem State.modCluster_cores (f : Cluster → Cluster) (s : State) : (s.modCluster f).cores = s.cores := rfl
@[simp] theorem State.modCluster_clusters (f : Cluster → Cluster) (s : State) : (s.modCluster f).clusters = s.clusters := rfl
@[simp] theorem State.modCluster_die (f : Cluster → Cluster) (s : State) : (s.modCluster f).die = s.die := rfl
@[simp] theorem State.modCluster_pkg (f : Cluster → Cluster) (s : State) : (s.modCluster f).pkg = s.pkg := rfl
@[simp] theorem State.modCluster_inputs (f : Cluster → Cluster) (s : State) : (s.modCluster f).inputs = s.inputs := rfl
@[simp] theorem State.modCluster_turns (f : Cluster → Cluster) (s : State) : (s.modCluster f).turns = s.turns := rfl
@[simp] theorem State.modCluster_rest (f : Cluster → Cluster) (s : State) : (s.modCluster f).rest = s.rest := rfl
@[simp] theorem State.modCluster_freeCount (f : Cluster → Cluster) (s : State) : (s.modCluster f).freeCount = s.freeCount := rfl

/-! ## `modDie` -/

@[simp] theorem State.modDie_cur (f : Die → Die) (s : State) : (s.modDie f).cur = s.cur := rfl
@[simp] theorem State.modDie_core (f : Die → Die) (s : State) : (s.modDie f).core = s.core := rfl
@[simp] theorem State.modDie_cluster (f : Die → Die) (s : State) : (s.modDie f).cluster = s.cluster := rfl
@[simp] theorem State.modDie_cores (f : Die → Die) (s : State) : (s.modDie f).cores = s.cores := rfl
@[simp] theorem State.modDie_clusters (f : Die → Die) (s : State) : (s.modDie f).clusters = s.clusters := rfl
@[simp] theorem State.modDie_die (f : Die → Die) (s : State) : (s.modDie f).die = f s.die := rfl
@[simp] theorem State.modDie_pkg (f : Die → Die) (s : State) : (s.modDie f).pkg = s.pkg := rfl
@[simp] theorem State.modDie_inputs (f : Die → Die) (s : State) : (s.modDie f).inputs = s.inputs := rfl
@[simp] theorem State.modDie_turns (f : Die → Die) (s : State) : (s.modDie f).turns = s.turns := rfl
@[simp] theorem State.modDie_rest (f : Die → Die) (s : State) : (s.modDie f).rest = s.rest := rfl
@[simp] theorem State.modDie_freeCount (f : Die → Die) (s : State) : (s.modDie f).freeCount = s.freeCount := rfl

/-! ## `modPkg` -/

@[simp] theorem State.modPkg_cur (f : Package → Package) (s : State) : (s.modPkg f).cur = s.cur := rfl
@[simp] theorem State.modPkg_core (f : Package → Package) (s : State) : (s.modPkg f).core = s.core := rfl
@[simp] theorem State.modPkg_cluster (f : Package → Package) (s : State) : (s.modPkg f).cluster = s.cluster := rfl
@[simp] theorem State.modPkg_cores (f : Package → Package) (s : State) : (s.modPkg f).cores = s.cores := rfl
@[simp] theorem State.modPkg_clusters (f : Package → Package) (s : State) : (s.modPkg f).clusters = s.clusters := rfl
@[simp] theorem State.modPkg_die (f : Package → Package) (s : State) : (s.modPkg f).die = s.die := rfl
@[simp] theorem State.modPkg_pkg (f : Package → Package) (s : State) : (s.modPkg f).pkg = f s.pkg := rfl
@[simp] theorem State.modPkg_inputs (f : Package → Package) (s : State) : (s.modPkg f).inputs = s.inputs := rfl
@[simp] theorem State.modPkg_turns (f : Package → Package) (s : State) : (s.modPkg f).turns = s.turns := rfl
@[simp] theorem State.modPkg_rest (f : Package → Package) (s : State) : (s.modPkg f).rest = s.rest := rfl
@[simp] theorem State.modPkg_freeCount (f : Package → Package) (s : State) : (s.modPkg f).freeCount = s.freeCount := rfl

/-! ## `modSys` -/

@[simp] theorem State.modSys_cur (f : SysCtx → SysCtx) (s : State) : (s.modSys f).cur = s.cur.modSys f := rfl
@[simp] theorem State.modSys_core (f : SysCtx → SysCtx) (s : State) : (s.modSys f).core = s.core := rfl
@[simp] theorem State.modSys_cluster (f : SysCtx → SysCtx) (s : State) : (s.modSys f).cluster = s.cluster := rfl
@[simp] theorem State.modSys_cores (f : SysCtx → SysCtx) (s : State) : (s.modSys f).cores = s.cores := rfl
@[simp] theorem State.modSys_clusters (f : SysCtx → SysCtx) (s : State) : (s.modSys f).clusters = s.clusters := rfl
@[simp] theorem State.modSys_die (f : SysCtx → SysCtx) (s : State) : (s.modSys f).die = s.die := rfl
@[simp] theorem State.modSys_pkg (f : SysCtx → SysCtx) (s : State) : (s.modSys f).pkg = s.pkg := rfl
@[simp] theorem State.modSys_inputs (f : SysCtx → SysCtx) (s : State) : (s.modSys f).inputs = s.inputs := rfl
@[simp] theorem State.modSys_turns (f : SysCtx → SysCtx) (s : State) : (s.modSys f).turns = s.turns := rfl
@[simp] theorem State.modSys_rest (f : SysCtx → SysCtx) (s : State) : (s.modSys f).rest = s.rest := rfl
@[simp] theorem State.modSys_freeCount (f : SysCtx → SysCtx) (s : State) : (s.modSys f).freeCount = s.freeCount := rfl

/-! ## `modFlow` -/

@[simp] theorem State.modFlow_cur (f : FlowCtx → FlowCtx) (s : State) : (s.modFlow f).cur = s.cur.modFlow f := rfl
@[simp] theorem State.modFlow_core (f : FlowCtx → FlowCtx) (s : State) : (s.modFlow f).core = s.core := rfl
@[simp] theorem State.modFlow_cluster (f : FlowCtx → FlowCtx) (s : State) : (s.modFlow f).cluster = s.cluster := rfl
@[simp] theorem State.modFlow_cores (f : FlowCtx → FlowCtx) (s : State) : (s.modFlow f).cores = s.cores := rfl
@[simp] theorem State.modFlow_clusters (f : FlowCtx → FlowCtx) (s : State) : (s.modFlow f).clusters = s.clusters := rfl
@[simp] theorem State.modFlow_die (f : FlowCtx → FlowCtx) (s : State) : (s.modFlow f).die = s.die := rfl
@[simp] theorem State.modFlow_pkg (f : FlowCtx → FlowCtx) (s : State) : (s.modFlow f).pkg = s.pkg := rfl
@[simp] theorem State.modFlow_inputs (f : FlowCtx → FlowCtx) (s : State) : (s.modFlow f).inputs = s.inputs := rfl
@[simp] theorem State.modFlow_turns (f : FlowCtx → FlowCtx) (s : State) : (s.modFlow f).turns = s.turns := rfl
@[simp] theorem State.modFlow_rest (f : FlowCtx → FlowCtx) (s : State) : (s.modFlow f).rest = s.rest := rfl
@[simp] theorem State.modFlow_freeCount (f : FlowCtx → FlowCtx) (s : State) : (s.modFlow f).freeCount = s.freeCount := rfl

/-! ## `modArr` -/

@[simp] theorem State.modArr_cur (f : ArrayCtx → ArrayCtx) (s : State) : (s.modArr f).cur = s.cur.modArr f := rfl
@[simp] theorem State.modArr_core (f : ArrayCtx → ArrayCtx) (s : State) : (s.modArr f).core = s.core := rfl
@[simp] theorem State.modArr_cluster (f : ArrayCtx → ArrayCtx) (s : State) : (s.modArr f).cluster = s.cluster := rfl
@[simp] theorem State.modArr_cores (f : ArrayCtx → ArrayCtx) (s : State) : (s.modArr f).cores = s.cores := rfl
@[simp] theorem State.modArr_clusters (f : ArrayCtx → ArrayCtx) (s : State) : (s.modArr f).clusters = s.clusters := rfl
@[simp] theorem State.modArr_die (f : ArrayCtx → ArrayCtx) (s : State) : (s.modArr f).die = s.die := rfl
@[simp] theorem State.modArr_pkg (f : ArrayCtx → ArrayCtx) (s : State) : (s.modArr f).pkg = s.pkg := rfl
@[simp] theorem State.modArr_inputs (f : ArrayCtx → ArrayCtx) (s : State) : (s.modArr f).inputs = s.inputs := rfl
@[simp] theorem State.modArr_turns (f : ArrayCtx → ArrayCtx) (s : State) : (s.modArr f).turns = s.turns := rfl
@[simp] theorem State.modArr_rest (f : ArrayCtx → ArrayCtx) (s : State) : (s.modArr f).rest = s.rest := rfl
@[simp] theorem State.modArr_freeCount (f : ArrayCtx → ArrayCtx) (s : State) : (s.modArr f).freeCount = s.freeCount := rfl

/-! ## `modQueues` -/

@[simp] theorem State.modQueues_cur (f : Queues → Queues) (s : State) : (s.modQueues f).cur = s.cur := rfl
@[simp] theorem State.modQueues_core (f : Queues → Queues) (s : State) : (s.modQueues f).core = s.core := rfl
@[simp] theorem State.modQueues_cluster (f : Queues → Queues) (s : State) : (s.modQueues f).cluster = s.cluster := rfl
@[simp] theorem State.modQueues_cores (f : Queues → Queues) (s : State) : (s.modQueues f).cores = s.cores := rfl
@[simp] theorem State.modQueues_clusters (f : Queues → Queues) (s : State) : (s.modQueues f).clusters = s.clusters := rfl
@[simp] theorem State.modQueues_die (f : Queues → Queues) (s : State) : (s.modQueues f).die = { s.die with queues := f s.die.queues } := rfl
@[simp] theorem State.modQueues_pkg (f : Queues → Queues) (s : State) : (s.modQueues f).pkg = s.pkg := rfl
@[simp] theorem State.modQueues_inputs (f : Queues → Queues) (s : State) : (s.modQueues f).inputs = s.inputs := rfl
@[simp] theorem State.modQueues_turns (f : Queues → Queues) (s : State) : (s.modQueues f).turns = s.turns := rfl
@[simp] theorem State.modQueues_rest (f : Queues → Queues) (s : State) : (s.modQueues f).rest = s.rest := rfl
@[simp] theorem State.modQueues_freeCount (f : Queues → Queues) (s : State) : (s.modQueues f).freeCount = s.freeCount := rfl

/-! ## `modLineage` -/

@[simp] theorem State.modLineage_cur (f : Lineage → Lineage) (s : State) : (s.modLineage f).cur = s.cur := rfl
@[simp] theorem State.modLineage_core (f : Lineage → Lineage) (s : State) : (s.modLineage f).core = s.core := rfl
@[simp] theorem State.modLineage_cluster (f : Lineage → Lineage) (s : State) : (s.modLineage f).cluster = s.cluster := rfl
@[simp] theorem State.modLineage_cores (f : Lineage → Lineage) (s : State) : (s.modLineage f).cores = s.cores := rfl
@[simp] theorem State.modLineage_clusters (f : Lineage → Lineage) (s : State) : (s.modLineage f).clusters = s.clusters := rfl
@[simp] theorem State.modLineage_die (f : Lineage → Lineage) (s : State) : (s.modLineage f).die = { s.die with lineage := f s.die.lineage } := rfl
@[simp] theorem State.modLineage_pkg (f : Lineage → Lineage) (s : State) : (s.modLineage f).pkg = s.pkg := rfl
@[simp] theorem State.modLineage_inputs (f : Lineage → Lineage) (s : State) : (s.modLineage f).inputs = s.inputs := rfl
@[simp] theorem State.modLineage_turns (f : Lineage → Lineage) (s : State) : (s.modLineage f).turns = s.turns := rfl
@[simp] theorem State.modLineage_rest (f : Lineage → Lineage) (s : State) : (s.modLineage f).rest = s.rest := rfl
@[simp] theorem State.modLineage_freeCount (f : Lineage → Lineage) (s : State) : (s.modLineage f).freeCount = s.freeCount := rfl

/-! ## `modRouter` -/

@[simp] theorem State.modRouter_cur (f : Router → Router) (s : State) : (s.modRouter f).cur = s.cur := rfl
@[simp] theorem State.modRouter_core (f : Router → Router) (s : State) : (s.modRouter f).core = s.core := rfl
@[simp] theorem State.modRouter_cluster (f : Router → Router) (s : State) : (s.modRouter f).cluster = s.cluster := rfl
@[simp] theorem State.modRouter_cores (f : Router → Router) (s : State) : (s.modRouter f).cores = s.cores := rfl
@[simp] theorem State.modRouter_clusters (f : Router → Router) (s : State) : (s.modRouter f).clusters = s.clusters := rfl
@[simp] theorem State.modRouter_die (f : Router → Router) (s : State) : (s.modRouter f).die = { s.die with router := f s.die.router } := rfl
@[simp] theorem State.modRouter_pkg (f : Router → Router) (s : State) : (s.modRouter f).pkg = s.pkg := rfl
@[simp] theorem State.modRouter_inputs (f : Router → Router) (s : State) : (s.modRouter f).inputs = s.inputs := rfl
@[simp] theorem State.modRouter_turns (f : Router → Router) (s : State) : (s.modRouter f).turns = s.turns := rfl
@[simp] theorem State.modRouter_rest (f : Router → Router) (s : State) : (s.modRouter f).rest = s.rest := rfl
@[simp] theorem State.modRouter_freeCount (f : Router → Router) (s : State) : (s.modRouter f).freeCount = s.freeCount := rfl

/-! ## `modFw` -/

@[simp] theorem State.modFw_cur (f : Firmware → Firmware) (s : State) : (s.modFw f).cur = s.cur := rfl
@[simp] theorem State.modFw_core (f : Firmware → Firmware) (s : State) : (s.modFw f).core = s.core := rfl
@[simp] theorem State.modFw_cluster (f : Firmware → Firmware) (s : State) : (s.modFw f).cluster = s.cluster := rfl
@[simp] theorem State.modFw_cores (f : Firmware → Firmware) (s : State) : (s.modFw f).cores = s.cores := rfl
@[simp] theorem State.modFw_clusters (f : Firmware → Firmware) (s : State) : (s.modFw f).clusters = s.clusters := rfl
@[simp] theorem State.modFw_die (f : Firmware → Firmware) (s : State) : (s.modFw f).die = s.die := rfl
@[simp] theorem State.modFw_pkg (f : Firmware → Firmware) (s : State) : (s.modFw f).pkg = { s.pkg with fw := f s.pkg.fw } := rfl
@[simp] theorem State.modFw_inputs (f : Firmware → Firmware) (s : State) : (s.modFw f).inputs = s.inputs := rfl
@[simp] theorem State.modFw_turns (f : Firmware → Firmware) (s : State) : (s.modFw f).turns = s.turns := rfl
@[simp] theorem State.modFw_rest (f : Firmware → Firmware) (s : State) : (s.modFw f).rest = s.rest := rfl
@[simp] theorem State.modFw_freeCount (f : Firmware → Firmware) (s : State) : (s.modFw f).freeCount = s.freeCount := rfl

/-! ## `modRegs` -/

@[simp] theorem State.modRegs_cur (f : HostRegs → HostRegs) (s : State) : (s.modRegs f).cur = s.cur := rfl
@[simp] theorem State.modRegs_core (f : HostRegs → HostRegs) (s : State) : (s.modRegs f).core = s.core := rfl
@[simp] theorem State.modRegs_cluster (f : HostRegs → HostRegs) (s : State) : (s.modRegs f).cluster = s.cluster := rfl
@[simp] theorem State.modRegs_cores (f : HostRegs → HostRegs) (s : State) : (s.modRegs f).cores = s.cores := rfl
@[simp] theorem State.modRegs_clusters (f : HostRegs → HostRegs) (s : State) : (s.modRegs f).clusters = s.clusters := rfl
@[simp] theorem State.modRegs_die (f : HostRegs → HostRegs) (s : State) : (s.modRegs f).die = s.die := rfl
@[simp] theorem State.modRegs_pkg (f : HostRegs → HostRegs) (s : State) : (s.modRegs f).pkg = { s.pkg with regs := f s.pkg.regs } := rfl
@[simp] theorem State.modRegs_inputs (f : HostRegs → HostRegs) (s : State) : (s.modRegs f).inputs = s.inputs := rfl
@[simp] theorem State.modRegs_turns (f : HostRegs → HostRegs) (s : State) : (s.modRegs f).turns = s.turns := rfl
@[simp] theorem State.modRegs_rest (f : HostRegs → HostRegs) (s : State) : (s.modRegs f).rest = s.rest := rfl
@[simp] theorem State.modRegs_freeCount (f : HostRegs → HostRegs) (s : State) : (s.modRegs f).freeCount = s.freeCount := rfl

/-! ## `Ctx.modSys` -/

@[simp] theorem Ctx.modSys_g (f : SysCtx → SysCtx) (c : Ctx) : (c.modSys f).g = c.g := rfl
@[simp] theorem Ctx.modSys_gPoison (f : SysCtx → SysCtx) (c : Ctx) : (c.modSys f).gPoison = c.gPoison := rfl
@[simp] theorem Ctx.modSys_k (f : SysCtx → SysCtx) (c : Ctx) : (c.modSys f).k = c.k := rfl
@[simp] theorem Ctx.modSys_m (f : SysCtx → SysCtx) (c : Ctx) : (c.modSys f).m = c.m := rfl
@[simp] theorem Ctx.modSys_b (f : SysCtx → SysCtx) (c : Ctx) : (c.modSys f).b = c.b := rfl
@[simp] theorem Ctx.modSys_n (f : SysCtx → SysCtx) (c : Ctx) : (c.modSys f).n = c.n := rfl
@[simp] theorem Ctx.modSys_q (f : SysCtx → SysCtx) (c : Ctx) : (c.modSys f).q = c.q := rfl
@[simp] theorem Ctx.modSys_pend (f : SysCtx → SysCtx) (c : Ctx) : (c.modSys f).pend = c.pend := rfl
@[simp] theorem Ctx.modSys_owed (f : SysCtx → SysCtx) (c : Ctx) : (c.modSys f).owed = c.owed := rfl
@[simp] theorem Ctx.modSys_arr (f : SysCtx → SysCtx) (c : Ctx) : (c.modSys f).arr = c.arr := rfl
@[simp] theorem Ctx.modSys_sys (f : SysCtx → SysCtx) (c : Ctx) : (c.modSys f).sys = f c.sys := rfl
@[simp] theorem Ctx.modSys_flow (f : SysCtx → SysCtx) (c : Ctx) : (c.modSys f).flow = c.flow := rfl

/-! ## `Ctx.modFlow` -/

@[simp] theorem Ctx.modFlow_g (f : FlowCtx → FlowCtx) (c : Ctx) : (c.modFlow f).g = c.g := rfl
@[simp] theorem Ctx.modFlow_gPoison (f : FlowCtx → FlowCtx) (c : Ctx) : (c.modFlow f).gPoison = c.gPoison := rfl
@[simp] theorem Ctx.modFlow_k (f : FlowCtx → FlowCtx) (c : Ctx) : (c.modFlow f).k = c.k := rfl
@[simp] theorem Ctx.modFlow_m (f : FlowCtx → FlowCtx) (c : Ctx) : (c.modFlow f).m = c.m := rfl
@[simp] theorem Ctx.modFlow_b (f : FlowCtx → FlowCtx) (c : Ctx) : (c.modFlow f).b = c.b := rfl
@[simp] theorem Ctx.modFlow_n (f : FlowCtx → FlowCtx) (c : Ctx) : (c.modFlow f).n = c.n := rfl
@[simp] theorem Ctx.modFlow_q (f : FlowCtx → FlowCtx) (c : Ctx) : (c.modFlow f).q = c.q := rfl
@[simp] theorem Ctx.modFlow_pend (f : FlowCtx → FlowCtx) (c : Ctx) : (c.modFlow f).pend = c.pend := rfl
@[simp] theorem Ctx.modFlow_owed (f : FlowCtx → FlowCtx) (c : Ctx) : (c.modFlow f).owed = c.owed := rfl
@[simp] theorem Ctx.modFlow_arr (f : FlowCtx → FlowCtx) (c : Ctx) : (c.modFlow f).arr = c.arr := rfl
@[simp] theorem Ctx.modFlow_sys (f : FlowCtx → FlowCtx) (c : Ctx) : (c.modFlow f).sys = c.sys := rfl
@[simp] theorem Ctx.modFlow_flow (f : FlowCtx → FlowCtx) (c : Ctx) : (c.modFlow f).flow = f c.flow := rfl

/-! ## `Ctx.modArr` -/

@[simp] theorem Ctx.modArr_g (f : ArrayCtx → ArrayCtx) (c : Ctx) : (c.modArr f).g = c.g := rfl
@[simp] theorem Ctx.modArr_gPoison (f : ArrayCtx → ArrayCtx) (c : Ctx) : (c.modArr f).gPoison = c.gPoison := rfl
@[simp] theorem Ctx.modArr_k (f : ArrayCtx → ArrayCtx) (c : Ctx) : (c.modArr f).k = c.k := rfl
@[simp] theorem Ctx.modArr_m (f : ArrayCtx → ArrayCtx) (c : Ctx) : (c.modArr f).m = c.m := rfl
@[simp] theorem Ctx.modArr_b (f : ArrayCtx → ArrayCtx) (c : Ctx) : (c.modArr f).b = c.b := rfl
@[simp] theorem Ctx.modArr_n (f : ArrayCtx → ArrayCtx) (c : Ctx) : (c.modArr f).n = c.n := rfl
@[simp] theorem Ctx.modArr_q (f : ArrayCtx → ArrayCtx) (c : Ctx) : (c.modArr f).q = c.q := rfl
@[simp] theorem Ctx.modArr_pend (f : ArrayCtx → ArrayCtx) (c : Ctx) : (c.modArr f).pend = c.pend := rfl
@[simp] theorem Ctx.modArr_owed (f : ArrayCtx → ArrayCtx) (c : Ctx) : (c.modArr f).owed = c.owed := rfl
@[simp] theorem Ctx.modArr_arr (f : ArrayCtx → ArrayCtx) (c : Ctx) : (c.modArr f).arr = f c.arr := rfl
@[simp] theorem Ctx.modArr_sys (f : ArrayCtx → ArrayCtx) (c : Ctx) : (c.modArr f).sys = c.sys := rfl
@[simp] theorem Ctx.modArr_flow (f : ArrayCtx → ArrayCtx) (c : Ctx) : (c.modArr f).flow = c.flow := rfl

/-! ## Cycles of the package -/

@[simp] theorem Package.pass_hbm (n : Nat) (p : Package) : (p.pass n).hbm = p.hbm := rfl
@[simp] theorem Package.pass_tier2 (n : Nat) (p : Package) : (p.pass n).tier2 = p.tier2 := rfl
@[simp] theorem Package.pass_hbmPoison (n : Nat) (p : Package) : (p.pass n).hbmPoison = p.hbmPoison := rfl
@[simp] theorem Package.pass_tier2Poison (n : Nat) (p : Package) : (p.pass n).tier2Poison = p.tier2Poison := rfl
@[simp] theorem Package.pass_power (n : Nat) (p : Package) : (p.pass n).power = p.power := rfl
@[simp] theorem Package.pass_regs (n : Nat) (p : Package) : (p.pass n).regs = p.regs := rfl
@[simp] theorem Package.pass_fw (n : Nat) (p : Package) : (p.pass n).fw = p.fw := rfl
@[simp] theorem Package.pass_out (n : Nat) (p : Package) : (p.pass n).out = p.out := rfl
@[simp] theorem Package.pass_clocks (n : Nat) (p : Package) : (p.pass n).clocks = p.clocks + n := rfl

/-! ## Clock cycles of a core -/

@[simp] theorem State.passClocks_cur (n : Nat) (s : State) : (s.passClocks n).cur = s.cur := rfl
@[simp] theorem State.passClocks_cluster (n : Nat) (s : State) : (s.passClocks n).cluster = s.cluster := rfl
@[simp] theorem State.passClocks_cores (n : Nat) (s : State) : (s.passClocks n).cores = s.cores := rfl
@[simp] theorem State.passClocks_clusters (n : Nat) (s : State) : (s.passClocks n).clusters = s.clusters := rfl
@[simp] theorem State.passClocks_die (n : Nat) (s : State) : (s.passClocks n).die = s.die := rfl
@[simp] theorem State.passClocks_inputs (n : Nat) (s : State) : (s.passClocks n).inputs = s.inputs := rfl
@[simp] theorem State.passClocks_turns (n : Nat) (s : State) : (s.passClocks n).turns = s.turns := rfl
@[simp] theorem State.passClocks_rest (n : Nat) (s : State) : (s.passClocks n).rest = s.rest := rfl
@[simp] theorem State.passClocks_freeCount (n : Nat) (s : State) : (s.passClocks n).freeCount = s.freeCount := rfl
@[simp] theorem State.passClocks_core (n : Nat) (s : State) : (s.passClocks n).core = { s.core with now := s.clockHere + n } := rfl
@[simp] theorem State.passClocks_pkg (n : Nat) (s : State) :
    (s.passClocks n).pkg = s.pkg.pass (s.clockHere + n - max s.clockHere s.pkg.clocks) := rfl

/-! ## The cycle and the bundle that passes -/

@[simp] theorem State.tick_cur (s : State) : s.tick.cur = s.cur.land (s.core.cycle + 1) := rfl
@[simp] theorem State.tick_core (s : State) : s.tick.core = { s.core with cycle := s.core.cycle + 1, now := s.clockHere + 1 } := rfl
@[simp] theorem State.tick_cluster (s : State) : s.tick.cluster = s.cluster := rfl
@[simp] theorem State.tick_cores (s : State) : s.tick.cores = s.cores := rfl
@[simp] theorem State.tick_clusters (s : State) : s.tick.clusters = s.clusters := rfl
@[simp] theorem State.tick_die (s : State) : s.tick.die = s.die := rfl
@[simp] theorem State.tick_pkg (s : State) : s.tick.pkg = s.pkg.pass (s.clockHere + 1 - max s.clockHere s.pkg.clocks) := rfl
@[simp] theorem State.tick_inputs (s : State) : s.tick.inputs = s.inputs := rfl
@[simp] theorem State.tick_turns (s : State) : s.tick.turns = s.turns := rfl
@[simp] theorem State.tick_rest (s : State) : s.tick.rest = s.rest := rfl
@[simp] theorem State.tick_freeCount (s : State) : s.tick.freeCount = s.freeCount + 1 := rfl
@[simp] theorem passed_cur (is : List Instr) (s : State) : (passed is s).cur =
    s.cur.modFlow (fun w => { advanceFlow (s.nextPc is) { w with levels := s.foundLevels } with firstOp := s.die.nextId }) := rfl
@[simp] theorem passed_core (is : List Instr) (s : State) : (passed is s).core =
    { s.core with cycle := s.core.cycle + 1, now := s.clockHere + 1 } := rfl
@[simp] theorem passed_cluster (is : List Instr) (s : State) : (passed is s).cluster = s.cluster := rfl
@[simp] theorem passed_cores (is : List Instr) (s : State) : (passed is s).cores = s.cores := rfl
@[simp] theorem passed_clusters (is : List Instr) (s : State) : (passed is s).clusters = s.clusters := rfl
@[simp] theorem passed_die (is : List Instr) (s : State) : (passed is s).die = s.die := rfl
@[simp] theorem passed_pkg (is : List Instr) (s : State) : (passed is s).pkg = s.pkg.pass (s.clockHere + 1 - max s.clockHere s.pkg.clocks) := rfl
@[simp] theorem passed_inputs (is : List Instr) (s : State) : (passed is s).inputs = s.inputs := rfl
@[simp] theorem passed_turns (is : List Instr) (s : State) : (passed is s).turns = s.turns := rfl
@[simp] theorem passed_rest (is : List Instr) (s : State) : (passed is s).rest = s.rest := rfl
@[simp] theorem passed_freeCount (is : List Instr) (s : State) : (passed is s).freeCount = s.freeCount + 1 := rfl

end Sys2Proof.Machine
end

