-- ==== Sys2Proof/Laws/Table.lean ====
section
/-! SUPPORT. The arms of the slot table, one lemma each, so that no proof unfolds the table. -/
namespace Sys2Proof.Machine

theorem slot_tree (n : Word) (p : Option RptF) (f : TreeF) (s : State) :
    slotRes n p (.tree f) s = slotTree f s := rfl
theorem slot_jmp (n : Word) (p : Option RptF) (o : BitVec 25) (s : State) :
    slotRes n p (.jmp o) s = slotJmp o s := rfl
theorem slot_jmpr (n : Word) (p : Option RptF) (r : GP) (s : State) :
    slotRes n p (.jmpr r) s = slotJmpr r s := rfl
theorem slot_call (n : Word) (p : Option RptF) (o : BitVec 25) (s : State) :
    slotRes n p (.call o) s = slotCall o n s := rfl
theorem slot_ret (n : Word) (p : Option RptF) (r : GP) (s : State) :
    slotRes n p (.ret r) s = slotRet r s := rfl
theorem slot_loopImmediate (n : Word) (p : Option RptF) (c : BitVec 16) (l : BitVec 6) (s : State) :
    slotRes n p (.loopImmediate c l) s = slotLoopImm c l n s := rfl
theorem slot_loopRegister (n : Word) (p : Option RptF) (r : GP) (l : BitVec 6) (s : State) :
    slotRes n p (.loopRegister r l) s = slotLoopReg r l n s := rfl
theorem slot_rpt (n : Word) (p : Option RptF) (f : RptF) (s : State) :
    slotRes n p (.rpt f) s = slotRpt f s := rfl
theorem slot_setfmtImmediate (n : Word) (p : Option RptF) (v : BitVec 32) (s : State) :
    slotRes n p (.setfmtImmediate v) s = slotSetfmtImm v s := rfl
theorem slot_setfmtRegister (n : Word) (p : Option RptF) (r : GP) (s : State) :
    slotRes n p (.setfmtRegister r) s = slotSetfmtReg r s := rfl
theorem slot_yield (n : Word) (p : Option RptF) (s : State) : slotRes n p .yield s = .nothing := rfl
theorem slot_phint (n : Word) (p : Option RptF) (x : PhintF) (s : State) :
    slotRes n p (.phint x) s = .nothing := rfl
theorem slot_trap (n : Word) (p : Option RptF) (c : BitVec 8) (s : State) :
    slotRes n p (.trap c) s = slotTrap c s := rfl
theorem slot_sysc (n : Word) (p : Option RptF) (c : BitVec 8) (s : State) :
    slotRes n p (.sysc c) s = slotSysc c n s := rfl
theorem slot_eret (n : Word) (p : Option RptF) (s : State) : slotRes n p .eret s = slotEret s := rfl
theorem slot_done (n : Word) (p : Option RptF) (s : State) : slotRes n p .done s = slotDone s := rfl
theorem slot_succ (n : Word) (p : Option RptF) (s : State) : slotRes n p .succ s = slotSucc s := rfl
theorem slot_spawn (n : Word) (p : Option RptF) (r : GP) (s : State) :
    slotRes n p (.spawn r) s = slotSpawn r s := rfl
theorem slot_launch (n : Word) (p : Option RptF) (r : GP) (s : State) :
    slotRes n p (.launch r) s = slotLaunch r s := rfl
theorem slot_wdogSetZero (n : Word) (p : Option RptF) (r : GP) (s : State) :
    slotRes n p (.wdogSetZero r) s = slotWdog r s := rfl
theorem slot_wdogSuspend (n : Word) (p : Option RptF) (r : GP) (s : State) :
    slotRes n p (.wdogSuspend r) s = slotWdog r s := rfl
theorem slot_wdogResume (n : Word) (p : Option RptF) (r : GP) (s : State) :
    slotRes n p (.wdogResume r) s = slotWdog r s := rfl
theorem slot_wdogExpire (n : Word) (p : Option RptF) (r : GP) (s : State) :
    slotRes n p (.wdogExpire r) s = slotWdog r s := rfl
theorem slot_add (n : Word) (p : Option RptF) (u : AB) (f : RR) (s : State) :
    slotRes n p (.add u f) s = slotAdd u f s := rfl
theorem slot_sub (n : Word) (p : Option RptF) (u : AB) (f : RR) (s : State) :
    slotRes n p (.sub u f) s = slotSub u f s := rfl
theorem slot_mul (n : Word) (p : Option RptF) (u : AB) (f : RR) (s : State) :
    slotRes n p (.mul u f) s = slotMul u f s := rfl
theorem slot_mulh (n : Word) (p : Option RptF) (u : AB) (f : RR) (s : State) :
    slotRes n p (.mulh u f) s = slotMulh u f s := rfl
theorem slot_mulhn (n : Word) (p : Option RptF) (u : AB) (f : RR) (s : State) :
    slotRes n p (.mulhn u f) s = slotMulhn u f s := rfl
theorem slot_div (n : Word) (p : Option RptF) (f : RR) (s : State) :
    slotRes n p (.div f) s = slotDiv f s := rfl
theorem slot_rem (n : Word) (p : Option RptF) (f : RR) (s : State) :
    slotRes n p (.rem f) s = slotRem f s := rfl
theorem slot_and (n : Word) (p : Option RptF) (u : AB) (f : RR) (s : State) :
    slotRes n p (.and u f) s = slotAnd u f s := rfl
theorem slot_or (n : Word) (p : Option RptF) (u : AB) (f : RR) (s : State) :
    slotRes n p (.or u f) s = slotOr u f s := rfl
theorem slot_xor (n : Word) (p : Option RptF) (u : AB) (f : RR) (s : State) :
    slotRes n p (.xor u f) s = slotXor u f s := rfl
theorem slot_andn (n : Word) (p : Option RptF) (u : AB) (f : RR) (s : State) :
    slotRes n p (.andn u f) s = slotAndn u f s := rfl
theorem slot_shl (n : Word) (p : Option RptF) (u : AB) (f : RR) (s : State) :
    slotRes n p (.shl u f) s = slotShl u f s := rfl
theorem slot_shr (n : Word) (p : Option RptF) (u : AB) (f : RR) (s : State) :
    slotRes n p (.shr u f) s = slotShr u f s := rfl
theorem slot_sar (n : Word) (p : Option RptF) (u : AB) (f : RR) (s : State) :
    slotRes n p (.sar u f) s = slotSar u f s := rfl
theorem slot_min (n : Word) (p : Option RptF) (u : AB) (f : RR) (s : State) :
    slotRes n p (.min u f) s = slotMin u f s := rfl
theorem slot_max (n : Word) (p : Option RptF) (u : AB) (f : RR) (s : State) :
    slotRes n p (.max u f) s = slotMax u f s := rfl
theorem slot_minn (n : Word) (p : Option RptF) (u : AB) (f : RR) (s : State) :
    slotRes n p (.minn u f) s = slotMinn u f s := rfl
theorem slot_maxn (n : Word) (p : Option RptF) (u : AB) (f : RR) (s : State) :
    slotRes n p (.maxn u f) s = slotMaxn u f s := rfl
theorem slot_clz (n : Word) (p : Option RptF) (u : AB) (f : RR) (s : State) :
    slotRes n p (.clz u f) s = slotClz u f s := rfl
theorem slot_popc (n : Word) (p : Option RptF) (u : AB) (f : RR) (s : State) :
    slotRes n p (.popc u f) s = slotPopc u f s := rfl
theorem slot_brev (n : Word) (p : Option RptF) (u : AB) (f : RR) (s : State) :
    slotRes n p (.brev u f) s = slotBrev u f s := rfl
theorem slot_bfx (n : Word) (p : Option RptF) (u : AB) (f : RR) (s : State) :
    slotRes n p (.bfx u f) s = slotBfx u f s := rfl
theorem slot_bfi (n : Word) (p : Option RptF) (u : AB) (f : RR) (s : State) :
    slotRes n p (.bfi u f) s = slotBfi u f s := rfl
theorem slot_lea (n : Word) (p : Option RptF) (u : AB) (f : RI) (s : State) :
    slotRes n p (.lea u f) s = slotLea u f s := rfl
theorem slot_sel (n : Word) (p : Option RptF) (u : AB) (f : RR) (s : State) :
    slotRes n p (.sel u f) s = slotSel u f s := rfl
theorem slot_addi (n : Word) (p : Option RptF) (u : AB) (f : RI) (s : State) :
    slotRes n p (.addi u f) s = slotAddi u f s := rfl
theorem slot_andi (n : Word) (p : Option RptF) (u : AB) (f : RI) (s : State) :
    slotRes n p (.andi u f) s = slotAndi u f s := rfl
theorem slot_ori (n : Word) (p : Option RptF) (u : AB) (f : RI) (s : State) :
    slotRes n p (.ori u f) s = slotOri u f s := rfl
theorem slot_shli (n : Word) (p : Option RptF) (u : AB) (f : RI) (s : State) :
    slotRes n p (.shli u f) s = slotShli u f s := rfl
theorem slot_movi (n : Word) (p : Option RptF) (u : AB) (f : MI) (s : State) :
    slotRes n p (.movi u f) s = slotMovi u f s := rfl
theorem slot_movhi (n : Word) (p : Option RptF) (u : AB) (f : MI) (s : State) :
    slotRes n p (.movhi u f) s = slotMovhi u f s := rfl
theorem slot_cmp (n : Word) (p : Option RptF) (u : AB) (f : RR) (s : State) :
    slotRes n p (.cmp u f) s = slotCmp u f s := rfl
theorem slot_cmpi (n : Word) (p : Option RptF) (u : AB) (f : RC) (s : State) :
    slotRes n p (.cmpi u f) s = slotCmpi u f s := rfl
theorem slot_kop (n : Word) (p : Option RptF) (u : AB) (f : RR) (s : State) :
    slotRes n p (.kop u f) s = slotKop u f s := rfl
theorem slot_chk (n : Word) (p : Option RptF) (u : AB) (f : RR) (s : State) :
    slotRes n p (.chk u f) s = slotChk u f s := rfl
theorem slot_rdsys (n : Word) (p : Option RptF) (f : RI) (s : State) :
    slotRes n p (.rdsys f) s = slotRdsys f s := rfl
theorem slot_rdsysTrapinfo (n : Word) (p : Option RptF) (f : RI) (s : State) :
    slotRes n p (.rdsysTrapinfo f) s = slotRdsysTrapinfo f s := rfl
theorem slot_wrsys (n : Word) (p : Option RptF) (f : RI) (s : State) :
    slotRes n p (.wrsys f) s = slotWrsys f s := rfl
theorem slot_wrsysFmt (n : Word) (p : Option RptF) (f : RI) (s : State) :
    slotRes n p (.wrsysFmt f) s = slotWrsysFmt f s := rfl
theorem slot_wrsysFstat (n : Word) (p : Option RptF) (f : RI) (s : State) :
    slotRes n p (.wrsysFstat f) s = slotWrsysFstat f s := rfl
theorem slot_wrsysFprog (n : Word) (p : Option RptF) (f : RI) (s : State) :
    slotRes n p (.wrsysFprog f) s = slotWrsysFprog f s := rfl
theorem slot_wrsysMlprog (n : Word) (p : Option RptF) (f : RI) (s : State) :
    slotRes n p (.wrsysMlprog f) s = slotWrsysMlprog f s := rfl
theorem slot_wrsysPourskew (n : Word) (p : Option RptF) (f : RI) (s : State) :
    slotRes n p (.wrsysPourskew f) s = slotWrsysPourskew f s := rfl
theorem slot_wrsysWdlim (n : Word) (p : Option RptF) (f : RI) (s : State) :
    slotRes n p (.wrsysWdlim f) s = slotWrsysWdlim f s := rfl
theorem slot_wrsysTvec (n : Word) (p : Option RptF) (f : RI) (s : State) :
    slotRes n p (.wrsysTvec f) s = slotWrsysTvec f s := rfl
theorem slot_wrsysTrapinfo (n : Word) (p : Option RptF) (f : RI) (s : State) :
    slotRes n p (.wrsysTrapinfo f) s = slotWrsysTrapinfo f s := rfl
theorem slot_wrsysDutymode (n : Word) (p : Option RptF) (f : RI) (s : State) :
    slotRes n p (.wrsysDutymode f) s = slotWrsysDutymode f s := rfl
theorem slot_wrsysPeer (n : Word) (p : Option RptF) (f : RI) (s : State) :
    slotRes n p (.wrsysPeer f) s = slotWrsysPeer f s := rfl
theorem slot_wrsysFlag (n : Word) (p : Option RptF) (f : RI) (s : State) :
    slotRes n p (.wrsysFlag f) s = slotWrsysFlag f s := rfl
theorem slot_fadd (n : Word) (p : Option RptF) (f : RR) (s : State) :
    slotRes n p (.fadd f) s = slotFadd f s := rfl
theorem slot_fsub (n : Word) (p : Option RptF) (f : RR) (s : State) :
    slotRes n p (.fsub f) s = slotFsub f s := rfl
theorem slot_fmul (n : Word) (p : Option RptF) (f : RR) (s : State) :
    slotRes n p (.fmul f) s = slotFmul f s := rfl
theorem slot_fma (n : Word) (p : Option RptF) (f : RR) (s : State) :
    slotRes n p (.fma f) s = slotFma f s := rfl
theorem slot_fdiv (n : Word) (p : Option RptF) (f : RR) (s : State) :
    slotRes n p (.fdiv f) s = slotFdiv f s := rfl
theorem slot_fsqrt (n : Word) (p : Option RptF) (f : RR) (s : State) :
    slotRes n p (.fsqrt f) s = slotFsqrt f s := rfl
theorem slot_fmin (n : Word) (p : Option RptF) (f : RR) (s : State) :
    slotRes n p (.fmin f) s = slotFmin f s := rfl
theorem slot_fmax (n : Word) (p : Option RptF) (f : RR) (s : State) :
    slotRes n p (.fmax f) s = slotFmax f s := rfl
theorem slot_fsgn (n : Word) (p : Option RptF) (f : RR) (s : State) :
    slotRes n p (.fsgn f) s = slotFsgn f s := rfl
theorem slot_fcmp (n : Word) (p : Option RptF) (f : RR) (s : State) :
    slotRes n p (.fcmp f) s = slotFcmp f s := rfl
theorem slot_fcvt (n : Word) (p : Option RptF) (f : RR) (s : State) :
    slotRes n p (.fcvt f) s = slotFcvt f s := rfl
theorem slot_fclass (n : Word) (p : Option RptF) (f : RR) (s : State) :
    slotRes n p (.fclass f) s = slotFclass f s := rfl
theorem slot_wclr (n : Word) (p : Option RptF) (f : RR) (s : State) :
    slotRes n p (.wclr f) s = slotWclr f s := rfl
theorem slot_wset (n : Word) (p : Option RptF) (f : RR) (s : State) :
    slotRes n p (.wset f) s = slotWset f s := rfl
theorem slot_wadd (n : Word) (p : Option RptF) (f : RR) (s : State) :
    slotRes n p (.wadd f) s = slotWadd f s := rfl
theorem slot_wget (n : Word) (p : Option RptF) (f : RR) (s : State) :
    slotRes n p (.wget f) s = slotWget f s := rfl
theorem slot_wsum (n : Word) (p : Option RptF) (f : RR) (s : State) :
    slotRes n p (.wsum f) s = slotWsum f s := rfl
theorem slot_wfind (n : Word) (p : Option RptF) (f : RR) (s : State) :
    slotRes n p (.wfind f) s = slotWfind f s := rfl
theorem slot_wcut (n : Word) (p : Option RptF) (f : RR) (s : State) :
    slotRes n p (.wcut f) s = slotWcut f s := rfl
theorem slot_wtot (n : Word) (p : Option RptF) (f : RR) (s : State) :
    slotRes n p (.wtot f) s = slotWtot f s := rfl
theorem slot_wmov (n : Word) (p : Option RptF) (f : RR) (s : State) :
    slotRes n p (.wmov f) s = slotWmov f s := rfl
theorem slot_vadd (n : Word) (p : Option RptF) (f : VF) (s : State) :
    slotRes n p (.vadd f) s = slotVadd f s := rfl
theorem slot_vsub (n : Word) (p : Option RptF) (f : VF) (s : State) :
    slotRes n p (.vsub f) s = slotVsub f s := rfl
theorem slot_vmul (n : Word) (p : Option RptF) (f : VF) (s : State) :
    slotRes n p (.vmul f) s = slotVmul f s := rfl
theorem slot_vfma (n : Word) (p : Option RptF) (f : VF) (s : State) :
    slotRes n p (.vfma f) s = slotVfma f s := rfl
theorem slot_vfms (n : Word) (p : Option RptF) (f : VF) (s : State) :
    slotRes n p (.vfms f) s = slotVfms f s := rfl
theorem slot_vmin (n : Word) (p : Option RptF) (f : VF) (s : State) :
    slotRes n p (.vmin f) s = slotVmin f s := rfl
theorem slot_vmax (n : Word) (p : Option RptF) (f : VF) (s : State) :
    slotRes n p (.vmax f) s = slotVmax f s := rfl
theorem slot_vabs (n : Word) (p : Option RptF) (f : VF) (s : State) :
    slotRes n p (.vabs f) s = slotVabs f s := rfl
theorem slot_vneg (n : Word) (p : Option RptF) (f : VF) (s : State) :
    slotRes n p (.vneg f) s = slotVneg f s := rfl
theorem slot_vdiv (n : Word) (p : Option RptF) (f : VF) (s : State) :
    slotRes n p (.vdiv f) s = slotVdiv f s := rfl
theorem slot_vsqrt (n : Word) (p : Option RptF) (f : VF) (s : State) :
    slotRes n p (.vsqrt f) s = slotVsqrt f s := rfl
theorem slot_vrsqrt (n : Word) (p : Option RptF) (f : VF) (s : State) :
    slotRes n p (.vrsqrt f) s = slotVrsqrt f s := rfl
theorem slot_vrcp (n : Word) (p : Option RptF) (f : VF) (s : State) :
    slotRes n p (.vrcp f) s = slotVrcp f s := rfl
theorem slot_vexp2 (n : Word) (p : Option RptF) (f : VF) (s : State) :
    slotRes n p (.vexp2 f) s = slotVexp2 f s := rfl
theorem slot_vlog2 (n : Word) (p : Option RptF) (f : VF) (s : State) :
    slotRes n p (.vlog2 f) s = slotVlog2 f s := rfl
theorem slot_vcvt (n : Word) (p : Option RptF) (f : VF) (s : State) :
    slotRes n p (.vcvt f) s = slotVcvt f s := rfl
theorem slot_vcmp (n : Word) (p : Option RptF) (f : VF) (s : State) :
    slotRes n p (.vcmp f) s = slotVcmp f s := rfl
theorem slot_vsel (n : Word) (p : Option RptF) (f : VF) (s : State) :
    slotRes n p (.vsel f) s = slotVsel f s := rfl
theorem slot_vand (n : Word) (p : Option RptF) (f : VF) (s : State) :
    slotRes n p (.vand f) s = slotVand f s := rfl
theorem slot_vor (n : Word) (p : Option RptF) (f : VF) (s : State) :
    slotRes n p (.vor f) s = slotVor f s := rfl
theorem slot_vxor (n : Word) (p : Option RptF) (f : VF) (s : State) :
    slotRes n p (.vxor f) s = slotVxor f s := rfl
theorem slot_vnot (n : Word) (p : Option RptF) (f : VF) (s : State) :
    slotRes n p (.vnot f) s = slotVnot f s := rfl
theorem slot_vshl (n : Word) (p : Option RptF) (f : VF) (s : State) :
    slotRes n p (.vshl f) s = slotVshl f s := rfl
theorem slot_vshr (n : Word) (p : Option RptF) (f : VF) (s : State) :
    slotRes n p (.vshr f) s = slotVshr f s := rfl
theorem slot_vsar (n : Word) (p : Option RptF) (f : VF) (s : State) :
    slotRes n p (.vsar f) s = slotVsar f s := rfl
theorem slot_vredsum (n : Word) (p : Option RptF) (f : VF) (s : State) :
    slotRes n p (.vredsum f) s = slotVredsum f s := rfl
theorem slot_vredmax (n : Word) (p : Option RptF) (f : VF) (s : State) :
    slotRes n p (.vredmax f) s = slotVredmax f s := rfl
theorem slot_vredmin (n : Word) (p : Option RptF) (f : VF) (s : State) :
    slotRes n p (.vredmin f) s = slotVredmin f s := rfl
theorem slot_vscan (n : Word) (p : Option RptF) (f : VF) (s : State) :
    slotRes n p (.vscan f) s = slotVscan f s := rfl
theorem slot_vperm (n : Word) (p : Option RptF) (f : VF) (s : State) :
    slotRes n p (.vperm f) s = slotVperm f s := rfl
theorem slot_vslide (n : Word) (p : Option RptF) (f : VF) (s : State) :
    slotRes n p (.vslide f) s = slotVslide f s := rfl
theorem slot_vbcast (n : Word) (p : Option RptF) (f : VF) (s : State) :
    slotRes n p (.vbcast f) s = slotVbcast f s := rfl
theorem slot_vdup (n : Word) (p : Option RptF) (f : VF) (s : State) :
    slotRes n p (.vdup f) s = slotVdup f s := rfl
theorem slot_vdrop (n : Word) (p : Option RptF) (f : VF) (s : State) :
    slotRes n p (.vdrop f) s = slotVdrop f s := rfl
theorem slot_viota (n : Word) (p : Option RptF) (f : VF) (s : State) :
    slotRes n p (.viota f) s = slotViota f s := rfl
theorem slot_vclamp (n : Word) (p : Option RptF) (f : VF) (s : State) :
    slotRes n p (.vclamp f) s = slotVclamp f s := rfl
theorem slot_vlen (n : Word) (p : Option RptF) (f : VF) (s : State) :
    slotRes n p (.vlen f) s = slotVlen f s := rfl
theorem slot_mand (n : Word) (p : Option RptF) (f : VF) (s : State) :
    slotRes n p (.mand f) s = slotMand f s := rfl
theorem slot_mor (n : Word) (p : Option RptF) (f : VF) (s : State) :
    slotRes n p (.mor f) s = slotMor f s := rfl
theorem slot_mnot (n : Word) (p : Option RptF) (f : VF) (s : State) :
    slotRes n p (.mnot f) s = slotMnot f s := rfl
theorem slot_vmovi (n : Word) (p : Option RptF) (f : VF) (s : State) :
    slotRes n p (.vmovi f) s = slotVmovi f s := rfl
theorem slot_xsv (n : Word) (p : Option RptF) (f : XsvF) (s : State) :
    slotRes n p (.xsv f) s = slotXsv f s := rfl
theorem slot_xkm (n : Word) (p : Option RptF) (f : XkmF) (s : State) :
    slotRes n p (.xkm f) s = slotXkm f s := rfl
theorem slot_xvs (n : Word) (p : Option RptF) (f : XvsF) (s : State) :
    slotRes n p (.xvs f) s = slotXvs f s := rfl
theorem slot_xmk (n : Word) (p : Option RptF) (f : XmkF) (s : State) :
    slotRes n p (.xmk f) s = slotXmk f s := rfl
theorem slot_wflag (n : Word) (p : Option RptF) (f : SF) (s : State) :
    slotRes n p (.wflag f) s = slotWflag f s := rfl
theorem slot_pflag (n : Word) (p : Option RptF) (f : SF) (s : State) :
    slotRes n p (.pflag f) s = slotPflag f s := rfl
theorem slot_bar (n : Word) (p : Option RptF) (f : SF) (s : State) :
    slotRes n p (.bar f) s = slotBar f s := rfl
theorem slot_rsync (n : Word) (p : Option RptF) (f : SF) (s : State) :
    slotRes n p (.rsync f) s = slotRsync f s := rfl
theorem slot_mpush (n : Word) (p : Option RptF) (f : MF) (s : State) :
    slotRes n p (.mpush f) s = slotMpush f s := rfl
theorem slot_mshift (n : Word) (p : Option RptF) (f : MF) (s : State) :
    slotRes n p (.mshift f) s = slotMshift f s := rfl
theorem slot_macc (n : Word) (p : Option RptF) (f : MF) (s : State) :
    slotRes n p (.macc f) s = slotMacc f p s := rfl
theorem slot_mdrain (n : Word) (p : Option RptF) (f : MF) (s : State) :
    slotRes n p (.mdrain f) s = slotMdrain f p s := rfl
theorem slot_mzero (n : Word) (p : Option RptF) (f : MF) (s : State) :
    slotRes n p (.mzero f) s = slotMzero f s := rfl
theorem slot_mfill (n : Word) (p : Option RptF) (f : MF) (s : State) :
    slotRes n p (.mfill f) s = slotMfill f p s := rfl
theorem slot_mload (n : Word) (p : Option RptF) (f : MF) (s : State) :
    slotRes n p (.mload f) s = slotMload f s := rfl
theorem slot_mflu (n : Word) (p : Option RptF) (f : MF) (s : State) :
    slotRes n p (.mflu f) s = slotMflu f s := rfl
theorem slot_mfch (n : Word) (p : Option RptF) (f : MF) (s : State) :
    slotRes n p (.mfch f) s = slotMfch f s := rfl
theorem slot_mfqr (n : Word) (p : Option RptF) (f : MF) (s : State) :
    slotRes n p (.mfqr f) s = slotMfqr f s := rfl
theorem slot_mtrs (n : Word) (p : Option RptF) (f : MF) (s : State) :
    slotRes n p (.mtrs f) s = slotMtrs f s := rfl
theorem slot_mrdp (n : Word) (p : Option RptF) (f : MF) (s : State) :
    slotRes n p (.mrdp f) s = slotMrdp f s := rfl
theorem slot_mstat (n : Word) (p : Option RptF) (f : MF) (s : State) :
    slotRes n p (.mstat f) s = slotMstat f s := rfl
theorem slot_mwait (n : Word) (p : Option RptF) (f : MF) (s : State) :
    slotRes n p (.mwait f) s = slotMwait f s := rfl
theorem slot_tld (n : Word) (p : Option RptF) (f : LF) (s : State) :
    slotRes n p (.tld f) s = slotTld f s := rfl
theorem slot_tst (n : Word) (p : Option RptF) (f : LF) (s : State) :
    slotRes n p (.tst f) s = slotTst f s := rfl
theorem slot_tldn (n : Word) (p : Option RptF) (f : LF) (s : State) :
    slotRes n p (.tldn f) s = slotTldn f s := rfl
theorem slot_tstn (n : Word) (p : Option RptF) (f : LF) (s : State) :
    slotRes n p (.tstn f) s = slotTstn f s := rfl
theorem slot_tprf (n : Word) (p : Option RptF) (f : LF) (s : State) :
    slotRes n p (.tprf f) s = slotTprf f s := rfl
theorem slot_bxf (n : Word) (p : Option RptF) (f : LF) (s : State) :
    slotRes n p (.bxf f) s = slotBxf f s := rfl
theorem slot_vld (n : Word) (p : Option RptF) (f : LF) (s : State) :
    slotRes n p (.vld f) s = slotVld f s := rfl
theorem slot_vst (n : Word) (p : Option RptF) (f : LF) (s : State) :
    slotRes n p (.vst f) s = slotVst f s := rfl
theorem slot_sld (n : Word) (p : Option RptF) (f : LF) (s : State) :
    slotRes n p (.sld f) s = slotSld f s := rfl
theorem slot_sst (n : Word) (p : Option RptF) (f : LF) (s : State) :
    slotRes n p (.sst f) s = slotSst f s := rfl
theorem slot_tlook (n : Word) (p : Option RptF) (f : LF) (s : State) :
    slotRes n p (.tlook f) s = slotTlook f s := rfl
theorem slot_ttag (n : Word) (p : Option RptF) (f : LF) (s : State) :
    slotRes n p (.ttag f) s = slotTtag f s := rfl
theorem slot_tinv (n : Word) (p : Option RptF) (f : LF) (s : State) :
    slotRes n p (.tinv f) s = slotTinv f s := rfl
theorem slot_feset (n : Word) (p : Option RptF) (f : LF) (s : State) :
    slotRes n p (.feset f) s = slotFeset f s := rfl
theorem slot_feclr (n : Word) (p : Option RptF) (f : LF) (s : State) :
    slotRes n p (.feclr f) s = slotFeclr f s := rfl
theorem slot_amo (n : Word) (p : Option RptF) (f : LF) (s : State) :
    slotRes n p (.amo f) s = slotAmo f s := rfl
theorem slot_amoc (n : Word) (p : Option RptF) (f : LF) (s : State) :
    slotRes n p (.amoc f) s = slotAmoc f s := rfl
theorem slot_fenceAcq (n : Word) (p : Option RptF) (f : LF) (s : State) :
    slotRes n p (.fenceAcq f) s = slotFenceAcq f s := rfl
theorem slot_fenceRel (n : Word) (p : Option RptF) (f : LF) (s : State) :
    slotRes n p (.fenceRel f) s = slotFenceRel f s := rfl
theorem slot_fenceAr (n : Word) (p : Option RptF) (f : LF) (s : State) :
    slotRes n p (.fenceAr f) s = slotFenceAr f s := rfl
theorem slot_tfence (n : Word) (p : Option RptF) (f : LF) (s : State) :
    slotRes n p (.tfence f) s = slotTfence f s := rfl
theorem slot_tfenceInv (n : Word) (p : Option RptF) (f : LF) (s : State) :
    slotRes n p (.tfenceInv f) s = slotTfenceInv f s := rfl
theorem slot_tfenceAll (n : Word) (p : Option RptF) (f : LF) (s : State) :
    slotRes n p (.tfenceAll f) s = slotTfenceAll f s := rfl
theorem slot_recld (n : Word) (p : Option RptF) (f : LF) (s : State) :
    slotRes n p (.recld f) s = slotRecld f s := rfl
theorem slot_recst (n : Word) (p : Option RptF) (f : LF) (s : State) :
    slotRes n p (.recst f) s = slotRecst f s := rfl
theorem slot_recmk (n : Word) (p : Option RptF) (f : LF) (s : State) :
    slotRes n p (.recmk f) s = slotRecmk f s := rfl
theorem slot_swait (n : Word) (p : Option RptF) (f : LF) (s : State) :
    slotRes n p (.swait f) s = slotSwait f s := rfl
theorem slot_ssig (n : Word) (p : Option RptF) (f : LF) (s : State) :
    slotRes n p (.ssig f) s = slotSsig f s := rfl
theorem slot_wvis (n : Word) (p : Option RptF) (f : LF) (s : State) :
    slotRes n p (.wvis f) s = slotWvis f s := rfl
theorem slot_arOpen (n : Word) (p : Option RptF) (f : LF) (s : State) :
    slotRes n p (.arOpen f) s = arGuard s (slotArOpen f s) := rfl
theorem slot_arJoin (n : Word) (p : Option RptF) (f : LF) (s : State) :
    slotRes n p (.arJoin f) s = arGuard s (slotArJoin f s) := rfl
theorem slot_arLd (n : Word) (p : Option RptF) (f : LF) (s : State) :
    slotRes n p (.arLd f) s = arGuard s (slotArLd f s) := rfl
theorem slot_arSt (n : Word) (p : Option RptF) (f : LF) (s : State) :
    slotRes n p (.arSt f) s = arGuard s (slotArSt f s) := rfl
theorem slot_arCommit (n : Word) (p : Option RptF) (f : LF) (s : State) :
    slotRes n p (.arCommit f) s = arGuard s (slotArCommit f s) := rfl
theorem slot_arAbort (n : Word) (p : Option RptF) (f : LF) (s : State) :
    slotRes n p (.arAbort f) s = arGuard s (slotArAbort f s) := rfl
theorem slot_arLeave (n : Word) (p : Option RptF) (f : LF) (s : State) :
    slotRes n p (.arLeave f) s = arGuard s (slotArLeave f s) := rfl
theorem slot_wfill (n : Word) (p : Option RptF) (f : LF) (s : State) :
    slotRes n p (.wfill f) s = slotWfill f s := rfl
theorem slot_wdump (n : Word) (p : Option RptF) (f : LF) (s : State) :
    slotRes n p (.wdump f) s = slotWdump f s := rfl
theorem slot_rput (n : Word) (p : Option RptF) (f : LF) (s : State) :
    slotRes n p (.rput f) s = slotRput f s := rfl
theorem slot_rputReg (n : Word) (p : Option RptF) (f : LF) (s : State) :
    slotRes n p (.rputReg f) s = slotRputReg f s := rfl
theorem slot_rget (n : Word) (p : Option RptF) (f : LF) (s : State) :
    slotRes n p (.rget f) s = slotRget f s := rfl
theorem slot_reos (n : Word) (p : Option RptF) (f : LF) (s : State) :
    slotRes n p (.reos f) s = slotReos f s := rfl

end Sys2Proof.Machine
end

