-- ==== Sys2Proof/Laws/Issue.lean ====
section
/-! SUPPORT. The issue of a lone instruction from a state with nothing under way: what `exec` answers once its slot's outcome
is known. -/
namespace Sys2Proof.Machine

/-! ## What `quiet` says -/

theorem quiet_rest {s : State} (h : quiet s = true) : s.rest = [] := by simp [quiet] at h; tauto
theorem quiet_window {s : State} (h : quiet s = true) : s.cur.flow.rptLeft = 0 := by simp [quiet] at h; tauto
theorem quiet_beats {s : State} (h : quiet s = true) : s.cur.flow.beats = [] := by simp [quiet] at h; tauto
theorem quiet_parked {s : State} (h : quiet s = true) : parkedBeats s = none := by simp [quiet] at h; tauto
theorem quiet_pend {s : State} (h : quiet s = true) : s.cur.pend = [] := by
  simp [quiet] at h; tauto
theorem quiet_owed {s : State} (h : quiet s = true) : s.cur.owed = [] := by
  simp [quiet] at h; tauto
theorem quiet_delay {s : State} (h : quiet s = true) : s.cur.sys.fmtDelay = [] := by simp [quiet] at h; tauto
theorem quiet_queue {s : State} (h : quiet s = true) (r : BitVec 5) : ∀ e ∈ s.cur.queue r, e.landed = true := by
  have hq : s.cur.q.toList.all (fun l => l.all (·.landed)) = true := by
    simp only [quiet, Bool.and_eq_true] at h; tauto
  intro e he
  rw [List.all_eq_true] at hq
  have := hq (s.cur.queue r) (by simp [Ctx.queue])
  rw [List.all_eq_true] at this
  exact this e he

theorem quiet_owes {s : State} (h : quiet s = true) (r : OwedReg) : s.cur.isOwed r = false := by
  simp [Ctx.isOwed, quiet_owed h]

theorem quiet_inFlight {s : State} (h : quiet s = true) (d : Dest) : s.cur.inFlight d = false := by
  simp [Ctx.inFlight, quiet_pend h]

@[simp] theorem rest_nil {s : State} (h : s.rest = []) : { s with rest := [] } = s := by cases s; simp_all

/-! ## Reading registers -/

theorem readG_quiet {s : State} (h : quiet s = true) (key : Nat) (r : BitVec 5) : s.readG key r = (gReg r s, gTag r s) := by
  unfold State.readG gReg gTag
  split <;> simp [quiet_inFlight h]

theorem readK_quiet {s : State} (h : quiet s = true) (key : Nat) (r : BitVec 4) : s.readK key r = kReg r s := by
  unfold State.readK kReg
  split <;> simp [quiet_inFlight h]

theorem readM_quiet {s : State} (h : quiet s = true) (key : Nat) (r : BitVec 3) : s.readM key r = mReg r s := by
  unfold State.readM mReg
  split <;> simp [quiet_inFlight h]

theorem needG_quiet {s : State} (h : quiet s = true) (key : Nat) (r : BitVec 5) (k : Word → Bool → SlotRes) :
    needG key r s k = k (gReg r s) (gTag r s) := by simp [needG, quiet_owes h, readG_quiet h]

theorem cleanG_quiet {s : State} (h : quiet s = true) (key : Nat) (r : BitVec 5) (k : Word → SlotRes) :
    cleanG key r s k = if gTag r s then .trapOf .poison else k (gReg r s) := by simp [cleanG, needG_quiet h]

theorem destG_quiet {s : State} (h : quiet s = true) (r : BitVec 5) (k : SlotRes) : destG r s k = k := by
  simp [destG, quiet_owes h]

theorem needB_quiet {s : State} (h : quiet s = true) (r : BitVec 4) (k : Record → SlotRes) :
    needB r s k = k s.cur.b[r.toNat] := by simp [needB, quiet_owes h, State.readB]

/-! ## The issue of a lone instruction -/

theorem treeOf_lone (i : Instr) : (∃ f, i = .tree f) ∨ treeOf [i] = none := by
  cases i <;> first | exact .inl ⟨_, rfl⟩ | exact .inr rfl

/-- A lone instruction with a legal guard executes. -/
theorem lone_taken {i : Instr} {s : State} (h : lone i s = true) : taken (bundlePath [i] s) i = true := by
  have hg : (guardOf i).toNat ≤ bundleNodes [i] := by
    simp only [lone, legal, Bool.and_eq_true, List.all_cons, List.all_nil, decide_eq_true_eq] at h; tauto
  rcases treeOf_lone i with ⟨f, rfl⟩ | ht
  · simp [taken, guardOf, encode]
  · simp only [bundleNodes, ht] at hg
    simp only [taken, bundlePath, ht]
    by_cases h0 : guardOf i = 0
    · simp [h0]
    · have h1 : (guardOf i).toNat = 1 := by
        have : (guardOf i).toNat ≠ 0 := fun h => h0 (BitVec.eq_of_toNat_eq (by simpa using h))
        omega
      simp [h1]

theorem lone_rpt {i : Instr} {s : State} (h : lone i s = true) : rptOf [i] = none := by
  cases i <;> first
    | rfl
    | (exfalso; simp [lone, legal, rptOk, rptOf] at h)

theorem lone_legal {i : Instr} {s : State} (h : lone i s = true) : legal [i] false = true := by
  simp only [lone, Bool.and_eq_true] at h; exact h.1

theorem lone_unprivileged {i : Instr} {s : State} (h : lone i s = true) : privileged i s = false := by
  simp only [lone, Bool.and_eq_true] at h; simpa using h.2

/-- An instruction outside the kinds of spec/15_ordering.md R222, or with no acquire before it, is not held for one. -/
theorem slotInOrder_free {i : Instr} {s : State} (h : (inOrder i && s.acquireHeld) = false) (r : SlotRes) :
    slotInOrder i s r = r := by simp [slotInOrder, h]

theorem deferTrap_free {i : Instr} {s : State} (h : (engineHeld i s || interlockHeld i s) = false) (r : SlotRes) :
    deferTrap i s r = r := by
  simp only [Bool.or_eq_false_iff] at h
  cases r <;> simp [deferTrap, h.1, h.2]

theorem recordsOf_none {i : Instr} (hr : recordUse i = none) (hl : inLSlot i = false) : recordsOf i = [] := by
  cases i <;> first
    | rfl
    | exact absurd (show true = false from hl) (by decide)
    | simp [recordUse] at hr

/-- A lone instruction that works through no record and no operation has nothing to wait for. -/
theorem held_quiet {i : Instr} {s : State} (hq : quiet s = true) (hr : recordUse i = none := by rfl)
    (hl : inLSlot i = false := by rfl) (ht : treeUses i = [] := by rfl) : (engineHeld i s || interlockHeld i s) = false := by
  have he : engineHeld i s = false := by
    unfold engineHeld
    rw [Bool.or_eq_false_iff]
    refine ⟨?_, by simp [remoteSlot, hr]⟩
    rw [show treeWaits i s = false by simp [treeWaits, ht], Bool.false_or, List.any_eq_false]
    intro q _
    have := quiet_queue hq q
    split
    · rename_i e r hc
      simp [this e (by simp [hc])]
    · simp
  simp [he, interlockHeld, orderWaits, recordsOf_none hr hl, hr, hl, quiet_owes hq]

/-- The issue of a lone instruction, by what its slot does. -/
theorem issue_lone {i : Instr} {s : State} (hq : quiet s = true) (hl : lone i s = true) :
    issueOne i s =
      (match slotInOrder i s (deferTrap i s (slotRes (s.nextPc [i]) none i s)) with
        | .arrive f => .next (waitEngine (f s))
        | .begins f => .next (holdCycle (f s))
        | .wait true => .next (waitEngine s)
        | .wait false => .next (holdCycle s)
        | r =>
          if livenessFault [i] s then .next (trapBundle [i] .livenessEntry 0 0 0 s)
          else
            match slotEnd [i] s (i, r) with
            | .stop f => .fault f
            | .trap c aux a k => .next (trapBundle [i] c aux a k s)
            | .clean => .next (commitBundle [i] [(i, r)] s)) := by
  have hw : decide (0 < s.cur.flow.rptLeft) = false := by simp [quiet_window hq]
  have hfil : [i].filter (taken (bundlePath [i] s)) = [i] := by simp [lone_taken hl]
  have hshort : ∀ r, slotsShort [(i, r)] s = false := by
    intro r; simp only [slotsShort, List.countP_cons, List.countP_nil]
    cases mayTakeSlot i <;> simp
  unfold issueOne issueBundle
  rw [quiet_rest hq, rest_nil (quiet_rest hq)]
  simp only [hw, lone_legal hl, hfil, runSlots, List.find?, lone_unprivileged hl, lone_rpt hl, List.map, List.any,
    Bool.not_true, Bool.false_eq_true, if_false, Bool.or_false, firstEnd, hshort, runOf]
  cases slotInOrder i s (deferTrap i s (slotRes (s.nextPc [i]) none i s)) with
  | ok f => simp [SlotRes.waits]; cases slotEnd [i] s (i, SlotRes.ok f) <;> rfl
  | wait e => cases e <;> simp [SlotRes.waits, SlotRes.engineWait, applyWaits, waitBegins, SlotRes.begin?]
  | arrive f => simp [SlotRes.waits, SlotRes.engineWait, applyWaits, waitBegins, SlotRes.begin?]
  | begins f => simp [SlotRes.waits, SlotRes.engineWait, applyWaits, waitBegins, SlotRes.begin?]
  | trap c a w => simp [SlotRes.waits]; cases slotEnd [i] s (i, SlotRes.trap c a w) <;> rfl
  | stop f => simp [SlotRes.waits]; cases slotEnd [i] s (i, SlotRes.stop f) <;> rfl

/-! ## The commit of a lone instruction -/

/-- The state in which the slots of a bundle commit: the pc and the loop levels have moved on. -/
abbrev moved (i : Instr) (s : State) : State := s.modFlow (fun w =>
  { advanceFlow (s.nextPc [i]) { w with levels := s.foundLevels } with firstOp := s.die.nextId })

/-- What the commit of one slot may leave: the beats, the FMT delay and the factorisation as they were. -/
structure PlainCommit (s t : State) : Prop where
  ids : t.die.nextId = s.die.nextId
  fact : s.core.fact = none → t.core.fact = none
  delay : t.cur.sys.fmtDelay = []
  beats : t.cur.flow.beats = []
  parked : parkedBeats t = none

theorem modSys_stepDelay {s : State} (h : s.cur.sys.fmtDelay = []) : s.modSys SysCtx.stepDelay = s := by
  have : SysCtx.stepDelay s.cur.sys = s.cur.sys := by simp [SysCtx.stepDelay, h]
  simp [State.modSys, State.modCtx, Ctx.modSys, this]

theorem stampStarted_plain {is : List Instr} {pc : Word} {id : Nat} {fresh : Bool} {s : State}
    (hi : s.die.nextId = id) (hf : fresh = true → s.core.fact = none) : stampStarted is pc id fresh s = s := by
  unfold stampStarted
  simp only [hi, if_true]
  cases fresh
  · rfl
  · have := hf rfl
    cases s; rename_i c k cl ks cls d pk inp tu re fr
    cases k; simp_all [State.modCore]

theorem beatNow_none {s : State} (hb : s.cur.flow.beats = []) (hp : parkedBeats s = none) : beatNow s = s := by
  simp [beatNow, hb, hp]

theorem land_flow (n : Nat) (c : Ctx) : (c.land n).flow = c.flow := by
  have : ∀ (l : List Pending) (c : Ctx), (l.foldl (fun c p => if p.due ≤ n then c.landOne p else c) c).flow = c.flow := by
    intro l
    induction l with
    | nil => intro c; rfl
    | cons p r ih =>
      intro c
      simp only [List.foldl_cons]
      rw [ih]
      split
      · unfold Ctx.landOne Ctx.orFlags
        cases hl : p.landed
        · simp only [Bool.false_eq_true, if_false, Ctx.modSys_flow]
          unfold Ctx.writeDest
          split
          · rfl
          · split <;> rfl
        · simp
      · rfl
  simp [Ctx.land, Ctx.landPend, this]

theorem parkedBeats_tick (s : State) : parkedBeats s.tick = parkedBeats s := by simp [parkedBeats]

/-- A plain commit, and the cycle of its issue. -/
theorem commit_plain {i : Instr} {F : State → State} {s : State} (hq : quiet s = true)
    (hF : PlainCommit s (F (moved i s))) :
    commitBundle [i] [(i, .ok F)] s = afterCommit [i] s.pc (servesNow [i] s) (F (moved i s)).tick := by
  have h0 : s.modFlow (fun w =>
      let w := advanceFlow (s.nextPc [i]) { w with levels := s.foundLevels }
      { w with beats := w.beats.map (dropKept (runOf [(i, SlotRes.ok F)])), firstOp := s.die.nextId }) = moved i s := by
    have hb : (advanceFlow (s.nextPc [i]) { s.cur.flow with levels := s.foundLevels }).beats = [] := by
      simp [advanceFlow, quiet_beats hq]
    have hw : ∀ (w : FlowCtx) (g : Beat → Beat) (n : Nat), w.beats = [] →
        { w with beats := w.beats.map g, firstOp := n } = { w with firstOp := n } := by
      intro w g n h; cases w; simp_all
    simp only [moved, State.modFlow, State.modCtx, Ctx.modFlow, hw _ _ _ hb]
  unfold commitBundle commitSlots
  simp only [h0, applyCommits, List.foldl]
  rw [stampStarted_plain hF.ids (by simpa using hF.fact), modSys_stepDelay hF.delay]
  unfold passCycle
  rw [beatNow_none (by simp [land_flow, hF.beats]) (by rw [parkedBeats_tick, hF.parked])]

theorem writeDest_zero {d : Dest} (h : d.isZero = true) (c : Ctx) (v : BitVec 128) (p : Bool) : c.writeDest d v p = c := by
  simp [Ctx.writeDest, h]

theorem writeDest_fstat (c : Ctx) (v : BitVec 128) (p : Bool) : c.writeDest .fstat v p = c := by
  simp [Ctx.writeDest, Dest.isZero]

theorem moved_pend {i : Instr} {s : State} : (moved i s).cur.pend = s.cur.pend := rfl

/-- Queues that hold landed entries alone do not change. -/
theorem landQueue_landed (n : Nat) (l : List QEntry) (h : ∀ e ∈ l, e.landed = true) : landQueue n l = l := by
  induction l with
  | nil => rfl
  | cons e r ih => simp [landQueue, h e (by simp), ih (fun x hx => h x (by simp [hx]))]

theorem quiet_queues {s : State} (h : quiet s = true) (n : Nat) : s.cur.q.map (landQueue n) = s.cur.q := by
  apply Vector.ext
  intro k hk
  simp only [Vector.getElem_map]
  apply landQueue_landed
  have := quiet_queue h (BitVec.ofNat 5 k)
  simpa [Ctx.queue, Nat.mod_eq_of_lt hk] using this

/-- A result, alone in flight, on the cycle of its issue. -/
theorem result_tick {i : Instr} {s : State} (hq : quiet s = true) (d : Dest) (v : BitVec 128) (p : Bool) (fl : Flags)
    (b : Nat) (hb : 0 < b) : (State.result d v p fl b (moved i s)).tick = gives i d v p fl b s := by
  have hqs := quiet_queues hq (s.core.cycle + 1)
  have hp : (moved i s).cur.pend = [] := quiet_pend (s := s) hq
  have hq' : (moved i s).cur.q.map (landQueue (s.core.cycle + 1)) = (moved i s).cur.q := hqs
  have h : (State.result d v p fl b (moved i s)).tick = (passed [i] s).modCtx (fun _ =>
      (State.result d v p fl b (moved i s)).cur.land (s.core.cycle + 1)) := rfl
  have hc : (passed [i] s).cur = (moved i s).cur := rfl
  have hr : (State.result d v p fl b (moved i s)).cur = { (moved i s).cur with pend :=
      [{ dest := if d.isZero then .fstat else d, value := v, poison := p, flags := fl, due := s.core.cycle + b, landed := false }] } := by
    simp only [State.result, State.modCtx_cur, hp, List.map_nil, List.nil_append]; rfl
  rw [h, hr]
  clear h hr
  unfold gives
  generalize passed [i] s = t at hc
  generalize (moved i s).cur = c at hp hq' hc
  obtain ⟨g, gp, k, m, bb, n, q, pend, owed, arr, sys, flow⟩ := c
  dsimp only at hp hq'
  subst hp
  by_cases h1 : b = 1
  · subst h1
    simp only [if_true, landed]
    by_cases hz : d.isZero = true
    · simp [State.modCtx, Ctx.land, Ctx.landPend, Ctx.landOne, hz, hc, hq', writeDest_zero hz, writeDest_fstat, Ctx.orFlags,
        Ctx.modSys]
    · cases d <;> simp_all [State.modCtx, Ctx.land, Ctx.landPend, Ctx.landOne, Ctx.writeDest, Ctx.orFlags, Ctx.modSys]
  · have hlt : ¬ (s.core.cycle + b ≤ s.core.cycle + 1) := by omega
    have hlt' : s.core.cycle + 1 < s.core.cycle + b := by omega
    simp [h1, State.modCtx, Ctx.land, Ctx.landPend, underWay, hlt, hlt', hc, hq']

/-- Nothing but a `phint` serves a pre-emption request. -/
theorem servesNow_lone {i : Instr} {s : State} (h : ∀ f, i ≠ .phint f) : servesNow [i] s = false := by
  cases i <;> first | rfl | exact absurd rfl (h _)

theorem liveness_lone {i : Instr} {s : State} (h : servesNow [i] s = false) : livenessFault [i] s = false := by
  cases i <;> first | rfl | (simp [livenessFault, h])

/-- A lone instruction whose slot commits plainly. -/
theorem exec_ok {i : Instr} {s : State} {F : State → State} (hq : quiet s = true) (hl : lone i s = true)
    (hr : slotRes (s.nextPc [i]) none i s = .ok F) (ho : overflows [i] i s = false) (hs : servesNow [i] s = false)
    (hF : PlainCommit s (F (moved i s))) (hn : (inOrder i && s.acquireHeld) = false := by rfl)
    (hx : exec i s = issueOne i s := by rfl) :
    exec i s = .next (afterCommit [i] s.pc false (F (moved i s)).tick) := by
  rw [hx, issue_lone hq hl, hr, slotInOrder_free hn]
  simp only [deferTrap, slotEnd, ho, liveness_lone hs, hs, Bool.false_eq_true, if_false, commit_plain hq hF]

/-- A lone instruction whose slot traps, a software trap aside. -/
theorem exec_trap {i : Instr} {s : State} {c : Cause} {aux : BitVec 8} {a : Word} (hq : quiet s = true)
    (hl : lone i s = true) (hr : slotRes (s.nextPc [i]) none i s = .trap c aux a) (hc : c ≠ .softwareTrap)
    (hs : servesNow [i] s = false) (hn : (inOrder i && s.acquireHeld) = false := by rfl)
    (hh : (engineHeld i s || interlockHeld i s) = false := by exact held_quiet ‹_›)
    (hx : exec i s = issueOne i s := by rfl) : exec i s = .next (traps i c aux a s) := by
  rw [hx, issue_lone hq hl, hr, deferTrap_free hh, slotInOrder_free hn]
  simp [slotEnd, hc, traps, liveness_lone hs]

theorem moved_plain {i : Instr} {s : State} (hq : quiet s = true) : PlainCommit s (moved i s) where
  ids := rfl
  fact := id
  delay := quiet_delay (s := s) hq
  beats := by simp [advanceFlow, quiet_beats hq]
  parked := quiet_parked (s := s) hq

theorem result_plain {i : Instr} {s : State} (hq : quiet s = true) (d : Dest) (v : BitVec 128) (p : Bool) (fl : Flags)
    (b : Nat) : PlainCommit s (State.result d v p fl b (moved i s)) := by
  obtain ⟨h1, h2, h3, h4, h5⟩ := moved_plain (i := i) hq
  exact ⟨h1, h2, h3, h4, h5⟩

/-- A lone instruction whose one effect is a result. -/
theorem exec_result {i : Instr} {s : State} {d : Dest} {v : BitVec 128} {p : Bool} {fl : Flags} {b : Nat}
    (hq : quiet s = true) (hl : lone i s = true) (hr : slotRes (s.nextPc [i]) none i s = .ok (State.result d v p fl b))
    (hb : 0 < b) (ho : overflows [i] i s = false) (hs : servesNow [i] s = false)
    (ha : ∀ pc t, afterCommit [i] pc false t = t) (hn : (inOrder i && s.acquireHeld) = false := by rfl)
    (hx : exec i s = issueOne i s := by rfl) : exec i s = .next (gives i d v p fl b s) := by
  rw [exec_ok hq hl hr ho hs (result_plain hq d v p fl b) hn hx, ha, result_tick hq d v p fl b hb]

end Sys2Proof.Machine
end

