-- ==== Sys2Proof/Laws/Ops.lean ====
section
/-! SUPPORT. Sparse stores and byte memory: reading after a write, and that every memory operation keeps the canonical form. -/
namespace Sys2Proof.Machine

/-! ## Canonical form -/

theorem smWf_iff {α : Type} [DecidableEq α] (d : α) (m : SMap α) :
    smWf d m = true ↔ m.Pairwise (fun p q => p.1 < q.1) ∧ ∀ p ∈ m, p.2 ≠ d := by
  induction m with
  | nil => simp [smWf]
  | cons p r ih =>
    cases r with
    | nil => simp [smWf]
    | cons q r =>
      simp only [smWf, Bool.and_eq_true, bne_iff_ne, decide_eq_true_eq, ih, List.pairwise_cons, List.mem_cons,
        forall_eq_or_imp]
      constructor
      · rintro ⟨⟨hp, hlt⟩, ⟨hq, hr⟩, hd⟩
        exact ⟨⟨⟨hlt, fun a ha => hlt.trans (hq a ha)⟩, hq, hr⟩, hp, hd⟩
      · rintro ⟨⟨⟨hlt, _⟩, hq, hr⟩, hp, hd⟩
        exact ⟨⟨hp, hlt⟩, ⟨hq, hr⟩, hd⟩

theorem mem_smInsert {α : Type} (k : Nat) (v : α) (m : SMap α) (p : Nat × α) : p ∈ smInsert k v m ↔ p = (k, v) ∨ p ∈ m := by
  induction m with
  | nil => simp [smInsert]
  | cons q r ih =>
    simp only [smInsert]
    split
    · simp
    · simp only [List.mem_cons, ih]; tauto

theorem smInsert_pairwise {α : Type} (k : Nat) (v : α) (m : SMap α) (h : m.Pairwise (fun p q => p.1 < q.1))
    (hk : ∀ p ∈ m, p.1 ≠ k) : (smInsert k v m).Pairwise (fun p q => p.1 < q.1) := by
  induction m with
  | nil => simp [smInsert]
  | cons q r ih =>
    simp only [List.pairwise_cons] at h
    simp only [smInsert]
    split
    next hlt =>
      simp only [List.pairwise_cons, List.mem_cons, forall_eq_or_imp]
      exact ⟨⟨hlt, fun a ha => hlt.trans (h.1 a ha)⟩, h⟩
    next hge =>
      simp only [List.pairwise_cons]
      refine ⟨fun a ha => ?_, ih h.2 (fun p hp => hk p (List.mem_cons_of_mem _ hp))⟩
      rcases (mem_smInsert k v r a).1 ha with rfl | ha
      · have := hk q List.mem_cons_self
        simp only; omega
      · exact h.1 a ha

/-- A write keeps the canonical form. -/
theorem smSet_wf {α : Type} [DecidableEq α] (d : α) (m : SMap α) (k : Nat) (v : α) (h : smWf d m = true) : smWf d (smSet d m k v) = true := by
  rw [smWf_iff] at h ⊢
  have he : (smErase k m).Pairwise (fun p q => p.1 < q.1) := h.1.filter _
  have hd : ∀ p ∈ smErase k m, p.2 ≠ d := fun p hp => h.2 p (List.mem_of_mem_filter hp)
  unfold smSet
  split
  · exact ⟨he, hd⟩
  next hv =>
    refine ⟨smInsert_pairwise k v _ he ?_, ?_⟩
    · intro p hp
      simpa using (List.mem_filter.1 hp).2
    · intro p hp
      rcases (mem_smInsert k v _ p).1 hp with rfl | hp
      · exact hv
      · exact hd p hp

/-! ## Reading after a write -/

theorem lookup_pair {α : Type} (a j : Nat) (x : α) (r : SMap α) : ((a, x) :: r : SMap α).lookup j = if j = a then some x else r.lookup j := by
  by_cases h : j = a
  · simp [h]
  · have : (j == a) = false := by simp [h]
    simp [List.lookup_cons, this, h]

theorem lookup_smErase {α : Type} (m : SMap α) (k j : Nat) : (smErase k m).lookup j = if j = k then none else m.lookup j := by
  induction m with
  | nil => simp [smErase]
  | cons p r ih =>
    obtain ⟨a, x⟩ := p
    by_cases ha : a = k
    · subst ha
      have : smErase a ((a, x) :: r) = smErase a r := by simp [smErase]
      rw [this, ih, lookup_pair]
      split <;> rfl
    · have : smErase k ((a, x) :: r) = (a, x) :: smErase k r := by simp [smErase, ha]
      rw [this, lookup_pair, lookup_pair, ih]
      by_cases hj : j = a
      · subst hj; simp [ha]
      · simp [hj]

theorem lookup_smInsert {α : Type} (m : SMap α) (k j : Nat) (v : α) (hk : ∀ p ∈ m, p.1 ≠ k) :
    (smInsert k v m).lookup j = if j = k then some v else m.lookup j := by
  induction m with
  | nil => rw [smInsert, lookup_pair]
  | cons q r ih =>
    obtain ⟨a, x⟩ := q
    have hq : a ≠ k := hk (a, x) List.mem_cons_self
    simp only [smInsert]
    split
    · rw [lookup_pair]
    · rw [lookup_pair, lookup_pair, ih (fun p hp => hk p (List.mem_cons_of_mem _ hp))]
      by_cases hj : j = a
      · subst hj; simp [hq]
      · simp [hj]

/-- What a store holds at any key after a write: the value at the key written, and what it held elsewhere. -/
theorem smGet_smSet {α : Type} [DecidableEq α] (d : α) (m : SMap α) (k j : Nat) (v : α) :
    smGet d (smSet d m k v) j = if j = k then v else smGet d m j := by
  have hk : ∀ p ∈ smErase k m, p.1 ≠ k := fun p hp => by simpa using (List.mem_filter.1 hp).2
  unfold smGet smSet
  split
  next hv => subst hv; rw [lookup_smErase]; by_cases hj : j = k <;> simp [hj]
  next hv => rw [lookup_smInsert _ _ _ _ hk, lookup_smErase]; by_cases hj : j = k <;> simp [hj]

theorem smGet_smSet_same {α : Type} [DecidableEq α] (d : α) (m : SMap α) (k : Nat) (v : α) : smGet d (smSet d m k v) k = v := by
  simp [smGet_smSet]

/-- Elsewhere a write changes nothing, whatever an unlisted key reads as there. -/
theorem smGet_smSet_other {α : Type} [DecidableEq α] (d e : α) (m : SMap α) (k j : Nat) (v : α) (h : j ≠ k) :
    smGet e (smSet d m k v) j = smGet e m j := by
  have hk : ∀ p ∈ smErase k m, p.1 ≠ k := fun p hp => by simpa using (List.mem_filter.1 hp).2
  unfold smGet smSet
  split
  · rw [lookup_smErase, if_neg h]
  · rw [lookup_smInsert _ _ _ _ hk, lookup_smErase, if_neg h, if_neg h]

/-! ## Byte memory -/

theorem memSet_wf (m : Memory) (a : Nat) (v : Byte) (h : Memory.wf m = true) : Memory.wf (memSet m a v) = true := smSet_wf 0 m a v h

theorem memGet_memSet (m : Memory) (a b : Nat) (v : Byte) : memGet (memSet m a v) b = if b = a then v else memGet m b :=
  smGet_smSet 0 m a b v

theorem memWrite_wf (bs : List Byte) : ∀ (m : Memory) (a : Nat), Memory.wf m = true → Memory.wf (memWrite m a bs) = true := by
  induction bs with
  | nil => exact fun m a h => h
  | cons b r ih => exact fun m a h => ih _ _ (memSet_wf m a b h)

/-- Writing bytes from `a` upward: each address of the run reads as its byte, and every other as before. -/
theorem memGet_memWrite (bs : List Byte) : ∀ (m : Memory) (a b : Nat),
    memGet (memWrite m a bs) b = if a ≤ b ∧ b < a + bs.length then bs.getD (b - a) 0 else memGet m b := by
  induction bs with
  | nil => intro m a b; simp [memWrite]
  | cons x r ih =>
    intro m a b
    simp only [memWrite, ih, memGet_memSet, List.length_cons]
    by_cases h1 : b = a
    · subst h1; simp
    · by_cases h2 : a + 1 ≤ b ∧ b < a + 1 + r.length
      · have h3 : a ≤ b ∧ b < a + (r.length + 1) := by omega
        obtain ⟨n, hn⟩ : ∃ n, b - a = n + 1 := ⟨b - a - 1, by omega⟩
        have hm : b - (a + 1) = n := by omega
        simp [h2, h3, hn, hm]
      · have h3 : ¬ (a ≤ b ∧ b < a + (r.length + 1)) := by omega
        rw [if_neg h2, if_neg h1, if_neg h3]

theorem memFold_wf {β : Type} (f : β → Nat) (g : β → Byte) (l : List β) :
    ∀ m : Memory, Memory.wf m = true → Memory.wf (l.foldl (fun m x => memSet m (f x) (g x)) m) = true := by
  induction l with
  | nil => exact fun m h => h
  | cons x r ih => exact fun m h => ih _ (memSet_wf m _ _ h)

/-! ## Cores, clusters and contexts wherever they are -/

theorem toNat_ne {n : Nat} {a b : BitVec n} (h : a ≠ b) : a.toNat ≠ b.toNat := fun e => h (BitVec.eq_of_toNat_eq e)

/-- A core written is the core read, and the others are as before. -/
theorem coreAt_setCoreAt (id j : BitVec 6) (c : Core) (s : State) (h : c.id = id) :
    coreAt j (setCoreAt id c s) = if j = id then c else coreAt j s := by
  unfold coreAt setCoreAt
  by_cases hi : id = s.core.id
  · by_cases hj : j = id
    · simp [hi, hj, h]
    · have h1 : j ≠ s.core.id := hi ▸ hj
      simp [← hi, h, hj]
  · by_cases hj : j = id
    · subst hj; simp [hi, smGet_smSet]
    · by_cases hs : j = s.core.id
      · simp [hi, hs, Ne.symm hi]
      · simp only [hi, hj, hs, if_false]
        exact smGet_smSet_other _ _ _ _ _ _ (toNat_ne hj)

theorem clusterAt_setClusterAt (id j : BitVec 3) (c : Cluster) (s : State) (h : c.id = id) :
    clusterAt j (setClusterAt id c s) = if j = id then c else clusterAt j s := by
  unfold clusterAt setClusterAt
  by_cases hi : id = s.cluster.id
  · by_cases hj : j = id
    · simp [hi, hj, h]
    · have h1 : j ≠ s.cluster.id := hi ▸ hj
      simp [← hi, h, hj]
  · by_cases hj : j = id
    · subst hj; simp [hi, smGet_smSet]
    · by_cases hs : j = s.cluster.id
      · simp [hi, hs, Ne.symm hi]
      · simp only [hi, hj, hs, if_false]
        exact smGet_smSet_other _ _ _ _ _ _ (toNat_ne hj)

/-- Writing a core touches neither the current context nor anything shared. -/
theorem setCoreAt_frame (id : BitVec 6) (c : Core) (s : State) : (setCoreAt id c s).cur = s.cur ∧ (setCoreAt id c s).cluster = s.cluster ∧
    (setCoreAt id c s).clusters = s.clusters ∧ (setCoreAt id c s).die = s.die ∧ (setCoreAt id c s).pkg = s.pkg := by
  unfold setCoreAt; split <;> exact ⟨rfl, rfl, rfl, rfl, rfl⟩

theorem setClusterAt_frame (id : BitVec 3) (c : Cluster) (s : State) : (setClusterAt id c s).cur = s.cur ∧ (setClusterAt id c s).core = s.core ∧
    (setClusterAt id c s).cores = s.cores ∧ (setClusterAt id c s).die = s.die ∧ (setClusterAt id c s).pkg = s.pkg := by
  unfold setClusterAt; split <;> exact ⟨rfl, rfl, rfl, rfl, rfl⟩

theorem ctxAt_cur (s : State) : ctxAt s.curId s = s.cur := if_pos rfl

theorem setCtxAt_cur (c : Ctx) (s : State) : setCtxAt s.curId c s = { s with cur := c } := if_pos rfl

/-! ## Registers, queues and flags -/

/-- g0, k0 and m0 discard what is written (R18). -/
theorem writeDest_discards (c : Ctx) (d : Dest) (v : BitVec 128) (p : Bool) (h : d.isZero = true) : c.writeDest d v p = c := if_pos h

theorem writeDest_g (c : Ctx) (r : BitVec 5) (v : BitVec 128) (p : Bool) (h : r ≠ 0) :
    c.writeDest (.g r) v p = { c with g := c.g.set r.toNat (v.setWidth 64), gPoison := setBit c.gPoison r.toNat p } :=
  if_neg (by simpa [Dest.isZero] using h)

theorem writeDest_k (c : Ctx) (r : BitVec 4) (v : BitVec 128) (p : Bool) (h : r ≠ 0) :
    c.writeDest (.k r) v p = { c with k := setBit c.k r.toNat (v.getLsbD 0) } := if_neg (by simpa [Dest.isZero] using h)

theorem writeDest_m (c : Ctx) (r : BitVec 3) (v : BitVec 128) (p : Bool) (h : r ≠ 0) :
    c.writeDest (.m r) v p = { c with m := c.m.set r.toNat v } := if_neg (by simpa [Dest.isZero] using h)

theorem readG_zero (key : Nat) (s : State) : s.readG key 0 = (0, false) := rfl
theorem readK_zero (key : Nat) (s : State) : s.readK key 0 = true := rfl
theorem readM_zero (key : Nat) (s : State) : s.readM key 0 = BitVec.allOnes 128 := rfl

theorem queue_setQueue (c : Ctx) (r x : BitVec 5) (l : List QEntry) : (c.setQueue r l).queue x = if x = r then l else c.queue x := by
  by_cases h : x = r
  · subst h; simp [Ctx.setQueue, Ctx.queue]
  · simp only [h, if_false, Ctx.setQueue, Ctx.queue]
    exact Vector.getElem_set_ne _ _ (fun e => h (BitVec.eq_of_toNat_eq e.symm))

/-- A pop takes the head of the queue named and leaves every other queue. -/
theorem popQ_queue (r x : BitVec 5) (s : State) : (s.popQ r).cur.queue x = if x = r then (s.cur.queue r).tail else s.cur.queue x :=
  queue_setQueue _ _ _ _

/-- A post never takes a flag below what it held, nor above 65,535 (R182). -/
theorem satAdd16_toNat (a : BitVec 16) (n : Nat) : (satAdd16 a n).toNat = min (a.toNat + n) 65535 := by
  simp only [satAdd16, BitVec.toNat_ofNat]
  omega

/-- A post changes the flag named alone. -/
theorem post_flag (f : BitVec 5) (n : Nat) (c : Core) (i : Fin 32) :
    (Core.post f n c).f[i] = if i.val = f.toNat then satAdd16 c.f[i] n else c.f[i] := by
  simp only [Core.post, Fin.getElem_fin]
  rw [Vector.getElem_set]
  by_cases h : f.toNat = i.val
  · simp [h]
  · simp [h, Ne.symm h]

theorem post_frame (f : BitVec 5) (n : Nat) (c : Core) : Core.post f n c = { c with f := (Core.post f n c).f } := rfl

/-! ## The stores of the machine -/

/-- Every byte store of the reset state is in canonical form. -/
theorem reset_memories_wf : Memory.wf State.reset.pkg.hbm = true ∧ Memory.wf State.reset.pkg.tier2 = true ∧
    Memory.wf State.reset.cluster.sp = true ∧ Memory.wf State.reset.core.cope = true := ⟨rfl, rfl, rfl, rfl⟩

theorem physWrite_wf (k : Tier) (pa : Nat) (v : Byte) (s : State) (h : Memory.wf s.pkg.hbm = true) (h2 : Memory.wf s.pkg.tier2 = true) :
    Memory.wf (physWrite k pa v s).pkg.hbm = true ∧ Memory.wf (physWrite k pa v s).pkg.tier2 = true := by
  unfold physWrite
  split
  · exact ⟨h, h2⟩
  · cases k
    · exact ⟨memSet_wf _ _ _ h, h2⟩
    · exact ⟨h, memSet_wf _ _ _ h2⟩

theorem writeCells_wf (cells : List (PByte × Byte)) (s : State) (h : Memory.wf s.pkg.hbm = true) (h2 : Memory.wf s.pkg.tier2 = true) :
    Memory.wf (writeCells cells s).pkg.hbm = true ∧ Memory.wf (writeCells cells s).pkg.tier2 = true := by
  have key : ∀ (l : List (PByte × Byte)) (s : State), Memory.wf s.pkg.hbm = true → Memory.wf s.pkg.tier2 = true →
      Memory.wf (l.foldl (fun s c => physWrite c.1.1 c.1.2 c.2 s) s).pkg.hbm = true ∧
      Memory.wf (l.foldl (fun s c => physWrite c.1.1 c.1.2 c.2 s) s).pkg.tier2 = true := by
    intro l
    induction l with
    | nil => exact fun s h h2 => ⟨h, h2⟩
    | cons c r ih =>
      intro s h h2
      have := physWrite_wf c.1.1 c.1.2 c.2 s h h2
      exact ih _ this.1 this.2
  exact key cells s h h2

/-- `physWrite` leaves every part of the state but the package's memory alone. -/
theorem physWrite_frame (k : Tier) (pa : Nat) (v : Byte) (s : State) : (physWrite k pa v s).cur = s.cur ∧ (physWrite k pa v s).core = s.core ∧
    (physWrite k pa v s).cluster = s.cluster ∧ (physWrite k pa v s).die = s.die ∧ (physWrite k pa v s).cores = s.cores ∧
    (physWrite k pa v s).clusters = s.clusters := by
  unfold physWrite
  split <;> exact ⟨rfl, rfl, rfl, rfl, rfl, rfl⟩

theorem scratchWrite_wf (a : Nat) (v : Byte) (s : State) (h : Memory.wf s.cluster.sp = true) :
    Memory.wf (scratchWrite a v s).cluster.sp = true := memSet_wf _ _ _ h

/-- A byte of the scratchpad after one byte is written. -/
theorem scratchRead_scratchWrite (a b : Nat) (v : Byte) (s : State) :
    scratchRead b (scratchWrite a v s) = if b = a then v else scratchRead b s := memGet_memSet _ a b v

end Sys2Proof.Machine
end

