-- ==== Sys2Proof/Laws/PerInstr.lean ====
section
/-! SUPPORT. The word of every instruction fits its slot, one lemma per constructor: what stands above a slot's bytes is zero, so
no bit of an encoding is dropped where the slots of a bundle are laid out. -/
namespace Sys2Proof.Laws.Coding
open Sys2Proof

/-- The bytes of a slot's widest word (R24). -/
def widest : SlotKind → Nat
  | .c => 12 | .a => 4 | .b => 4 | .v => 6 | .m => 6 | .l => 8 | .xlo => 4 | .xhi => 4 | .s => 2

/-- An encoding fits: no word, or a word within its slot's bytes. -/
def Fits : Option (SlotKind × BitVec 96) → Prop
  | none => True
  | some (k, w) => w.toNat < 2 ^ (8 * widest k)

/-- The instruction's word fits its slot. -/
def Statement (i : Instr) : Prop := Fits (encode i)

theorem fits_word {n : Nat} (k : SlotKind) (v : BitVec n) (h : n ≤ 8 * widest k) : Fits (some (k, v.setWidth 96)) := by
  have hv : v.toNat < 2 ^ (8 * widest k) := Nat.lt_of_lt_of_le v.isLt (Nat.pow_le_pow_right (by decide) h)
  have : (v.setWidth 96).toNat ≤ v.toNat := by rw [BitVec.toNat_setWidth]; exact Nat.mod_le _ _
  exact Nat.lt_of_le_of_lt this hv

theorem fits_control (w : BitVec 96) : Fits (some (.c, w)) := w.isLt

theorem fits_unit {n : Nat} (u : AB) (v : BitVec n) (h : n ≤ 32) : Fits (some (unitSlot u, v.setWidth 96)) := by
  cases u
  · exact fits_word .a v h
  · exact fits_word .b v h

theorem tree (f : TreeF) : Statement (.tree f) := fits_control _
theorem jmp (off : BitVec 25) : Statement (.jmp off) := fits_control _
theorem jmpr (r : GP) : Statement (.jmpr r) := fits_control _
theorem call (off : BitVec 25) : Statement (.call off) := fits_control _
theorem ret (r : GP) : Statement (.ret r) := fits_control _
theorem loopImmediate (count : BitVec 16) (len : BitVec 6) : Statement (.loopImmediate count len) := fits_control _
theorem loopRegister (r : GP) (len : BitVec 6) : Statement (.loopRegister r len) := fits_control _
theorem rpt (f : RptF) : Statement (.rpt f) := fits_control _
theorem setfmtImmediate (v : BitVec 32) : Statement (.setfmtImmediate v) := fits_control _
theorem setfmtRegister (r : GP) : Statement (.setfmtRegister r) := fits_control _
theorem yield : Statement .yield := fits_control _
theorem phint (f : PhintF) : Statement (.phint f) := fits_control _
theorem trap (code : BitVec 8) : Statement (.trap code) := fits_control _
theorem sysc (code : BitVec 8) : Statement (.sysc code) := fits_control _
theorem eret : Statement .eret := fits_control _
theorem done : Statement .done := fits_control _
theorem succ : Statement .succ := fits_control _
theorem spawn (r : GP) : Statement (.spawn r) := fits_control _
theorem launch (r : GP) : Statement (.launch r) := fits_control _
theorem wdogSetZero (r : GP) : Statement (.wdogSetZero r) := fits_control _
theorem wdogSuspend (r : GP) : Statement (.wdogSuspend r) := fits_control _
theorem wdogResume (r : GP) : Statement (.wdogResume r) := fits_control _
theorem wdogExpire (r : GP) : Statement (.wdogExpire r) := fits_control _
theorem add (u : AB) (f : RR) : Statement (.add u f) := fits_unit _ _ (by decide)
theorem sub (u : AB) (f : RR) : Statement (.sub u f) := fits_unit _ _ (by decide)
theorem mul (u : AB) (f : RR) : Statement (.mul u f) := fits_unit _ _ (by decide)
theorem mulh (u : AB) (f : RR) : Statement (.mulh u f) := fits_unit _ _ (by decide)
theorem mulhn (u : AB) (f : RR) : Statement (.mulhn u f) := fits_unit _ _ (by decide)
theorem div (f : RR) : Statement (.div f) := fits_word _ _ (by decide)
theorem rem (f : RR) : Statement (.rem f) := fits_word _ _ (by decide)
theorem and (u : AB) (f : RR) : Statement (.and u f) := fits_unit _ _ (by decide)
theorem or (u : AB) (f : RR) : Statement (.or u f) := fits_unit _ _ (by decide)
theorem xor (u : AB) (f : RR) : Statement (.xor u f) := fits_unit _ _ (by decide)
theorem andn (u : AB) (f : RR) : Statement (.andn u f) := fits_unit _ _ (by decide)
theorem shl (u : AB) (f : RR) : Statement (.shl u f) := fits_unit _ _ (by decide)
theorem shr (u : AB) (f : RR) : Statement (.shr u f) := fits_unit _ _ (by decide)
theorem sar (u : AB) (f : RR) : Statement (.sar u f) := fits_unit _ _ (by decide)
theorem min (u : AB) (f : RR) : Statement (.min u f) := fits_unit _ _ (by decide)
theorem max (u : AB) (f : RR) : Statement (.max u f) := fits_unit _ _ (by decide)
theorem minn (u : AB) (f : RR) : Statement (.minn u f) := fits_unit _ _ (by decide)
theorem maxn (u : AB) (f : RR) : Statement (.maxn u f) := fits_unit _ _ (by decide)
theorem clz (u : AB) (f : RR) : Statement (.clz u f) := fits_unit _ _ (by decide)
theorem popc (u : AB) (f : RR) : Statement (.popc u f) := fits_unit _ _ (by decide)
theorem brev (u : AB) (f : RR) : Statement (.brev u f) := fits_unit _ _ (by decide)
theorem bfx (u : AB) (f : RR) : Statement (.bfx u f) := fits_unit _ _ (by decide)
theorem bfi (u : AB) (f : RR) : Statement (.bfi u f) := fits_unit _ _ (by decide)
theorem lea (u : AB) (f : RI) : Statement (.lea u f) := fits_unit _ _ (by decide)
theorem sel (u : AB) (f : RR) : Statement (.sel u f) := fits_unit _ _ (by decide)
theorem addi (u : AB) (f : RI) : Statement (.addi u f) := fits_unit _ _ (by decide)
theorem andi (u : AB) (f : RI) : Statement (.andi u f) := fits_unit _ _ (by decide)
theorem ori (u : AB) (f : RI) : Statement (.ori u f) := fits_unit _ _ (by decide)
theorem shli (u : AB) (f : RI) : Statement (.shli u f) := fits_unit _ _ (by decide)
theorem movi (u : AB) (f : MI) : Statement (.movi u f) := fits_unit _ _ (by decide)
theorem movhi (u : AB) (f : MI) : Statement (.movhi u f) := fits_unit _ _ (by decide)
theorem cmp (u : AB) (f : RR) : Statement (.cmp u f) := fits_unit _ _ (by decide)
theorem cmpi (u : AB) (f : RC) : Statement (.cmpi u f) := fits_unit _ _ (by decide)
theorem kop (u : AB) (f : RR) : Statement (.kop u f) := fits_unit _ _ (by decide)
theorem chk (u : AB) (f : RR) : Statement (.chk u f) := fits_unit _ _ (by decide)
theorem rdsys (f : RI) : Statement (.rdsys f) := fits_word _ _ (by decide)
theorem rdsysTrapinfo (f : RI) : Statement (.rdsysTrapinfo f) := fits_word _ _ (by decide)
theorem wrsys (f : RI) : Statement (.wrsys f) := fits_word _ _ (by decide)
theorem wrsysFmt (f : RI) : Statement (.wrsysFmt f) := fits_word _ _ (by decide)
theorem wrsysFstat (f : RI) : Statement (.wrsysFstat f) := fits_word _ _ (by decide)
theorem wrsysFprog (f : RI) : Statement (.wrsysFprog f) := fits_word _ _ (by decide)
theorem wrsysMlprog (f : RI) : Statement (.wrsysMlprog f) := fits_word _ _ (by decide)
theorem wrsysPourskew (f : RI) : Statement (.wrsysPourskew f) := fits_word _ _ (by decide)
theorem wrsysWdlim (f : RI) : Statement (.wrsysWdlim f) := fits_word _ _ (by decide)
theorem wrsysTvec (f : RI) : Statement (.wrsysTvec f) := fits_word _ _ (by decide)
theorem wrsysTrapinfo (f : RI) : Statement (.wrsysTrapinfo f) := fits_word _ _ (by decide)
theorem wrsysDutymode (f : RI) : Statement (.wrsysDutymode f) := fits_word _ _ (by decide)
theorem wrsysPeer (f : RI) : Statement (.wrsysPeer f) := fits_word _ _ (by decide)
theorem wrsysFlag (f : RI) : Statement (.wrsysFlag f) := fits_word _ _ (by decide)
theorem fadd (f : RR) : Statement (.fadd f) := fits_word _ _ (by decide)
theorem fsub (f : RR) : Statement (.fsub f) := fits_word _ _ (by decide)
theorem fmul (f : RR) : Statement (.fmul f) := fits_word _ _ (by decide)
theorem fma (f : RR) : Statement (.fma f) := fits_word _ _ (by decide)
theorem fdiv (f : RR) : Statement (.fdiv f) := fits_word _ _ (by decide)
theorem fsqrt (f : RR) : Statement (.fsqrt f) := fits_word _ _ (by decide)
theorem fmin (f : RR) : Statement (.fmin f) := fits_word _ _ (by decide)
theorem fmax (f : RR) : Statement (.fmax f) := fits_word _ _ (by decide)
theorem fsgn (f : RR) : Statement (.fsgn f) := fits_word _ _ (by decide)
theorem fcmp (f : RR) : Statement (.fcmp f) := fits_word _ _ (by decide)
theorem fcvt (f : RR) : Statement (.fcvt f) := fits_word _ _ (by decide)
theorem fclass (f : RR) : Statement (.fclass f) := fits_word _ _ (by decide)
theorem wclr (f : RR) : Statement (.wclr f) := fits_word _ _ (by decide)
theorem wset (f : RR) : Statement (.wset f) := fits_word _ _ (by decide)
theorem wadd (f : RR) : Statement (.wadd f) := fits_word _ _ (by decide)
theorem wget (f : RR) : Statement (.wget f) := fits_word _ _ (by decide)
theorem wsum (f : RR) : Statement (.wsum f) := fits_word _ _ (by decide)
theorem wfind (f : RR) : Statement (.wfind f) := fits_word _ _ (by decide)
theorem wcut (f : RR) : Statement (.wcut f) := fits_word _ _ (by decide)
theorem wtot (f : RR) : Statement (.wtot f) := fits_word _ _ (by decide)
theorem wmov (f : RR) : Statement (.wmov f) := fits_word _ _ (by decide)
theorem vadd (f : VF) : Statement (.vadd f) := fits_word _ _ (by decide)
theorem vsub (f : VF) : Statement (.vsub f) := fits_word _ _ (by decide)
theorem vmul (f : VF) : Statement (.vmul f) := fits_word _ _ (by decide)
theorem vfma (f : VF) : Statement (.vfma f) := fits_word _ _ (by decide)
theorem vfms (f : VF) : Statement (.vfms f) := fits_word _ _ (by decide)
theorem vmin (f : VF) : Statement (.vmin f) := fits_word _ _ (by decide)
theorem vmax (f : VF) : Statement (.vmax f) := fits_word _ _ (by decide)
theorem vabs (f : VF) : Statement (.vabs f) := fits_word _ _ (by decide)
theorem vneg (f : VF) : Statement (.vneg f) := fits_word _ _ (by decide)
theorem vdiv (f : VF) : Statement (.vdiv f) := fits_word _ _ (by decide)
theorem vsqrt (f : VF) : Statement (.vsqrt f) := fits_word _ _ (by decide)
theorem vrsqrt (f : VF) : Statement (.vrsqrt f) := fits_word _ _ (by decide)
theorem vrcp (f : VF) : Statement (.vrcp f) := fits_word _ _ (by decide)
theorem vexp2 (f : VF) : Statement (.vexp2 f) := fits_word _ _ (by decide)
theorem vlog2 (f : VF) : Statement (.vlog2 f) := fits_word _ _ (by decide)
theorem vcvt (f : VF) : Statement (.vcvt f) := fits_word _ _ (by decide)
theorem vcmp (f : VF) : Statement (.vcmp f) := fits_word _ _ (by decide)
theorem vsel (f : VF) : Statement (.vsel f) := fits_word _ _ (by decide)
theorem vand (f : VF) : Statement (.vand f) := fits_word _ _ (by decide)
theorem vor (f : VF) : Statement (.vor f) := fits_word _ _ (by decide)
theorem vxor (f : VF) : Statement (.vxor f) := fits_word _ _ (by decide)
theorem vnot (f : VF) : Statement (.vnot f) := fits_word _ _ (by decide)
theorem vshl (f : VF) : Statement (.vshl f) := fits_word _ _ (by decide)
theorem vshr (f : VF) : Statement (.vshr f) := fits_word _ _ (by decide)
theorem vsar (f : VF) : Statement (.vsar f) := fits_word _ _ (by decide)
theorem vredsum (f : VF) : Statement (.vredsum f) := fits_word _ _ (by decide)
theorem vredmax (f : VF) : Statement (.vredmax f) := fits_word _ _ (by decide)
theorem vredmin (f : VF) : Statement (.vredmin f) := fits_word _ _ (by decide)
theorem vscan (f : VF) : Statement (.vscan f) := fits_word _ _ (by decide)
theorem vperm (f : VF) : Statement (.vperm f) := fits_word _ _ (by decide)
theorem vslide (f : VF) : Statement (.vslide f) := fits_word _ _ (by decide)
theorem vbcast (f : VF) : Statement (.vbcast f) := fits_word _ _ (by decide)
theorem vdup (f : VF) : Statement (.vdup f) := fits_word _ _ (by decide)
theorem vdrop (f : VF) : Statement (.vdrop f) := fits_word _ _ (by decide)
theorem viota (f : VF) : Statement (.viota f) := fits_word _ _ (by decide)
theorem vclamp (f : VF) : Statement (.vclamp f) := fits_word _ _ (by decide)
theorem vlen (f : VF) : Statement (.vlen f) := fits_word _ _ (by decide)
theorem mand (f : VF) : Statement (.mand f) := fits_word _ _ (by decide)
theorem mor (f : VF) : Statement (.mor f) := fits_word _ _ (by decide)
theorem mnot (f : VF) : Statement (.mnot f) := fits_word _ _ (by decide)
theorem vmovi (f : VF) : Statement (.vmovi f) := fits_word _ _ (by decide)
theorem xsv (f : XsvF) : Statement (.xsv f) := fits_word _ _ (by decide)
theorem xkm (f : XkmF) : Statement (.xkm f) := fits_word _ _ (by decide)
theorem xvs (f : XvsF) : Statement (.xvs f) := fits_word _ _ (by decide)
theorem xmk (f : XmkF) : Statement (.xmk f) := fits_word _ _ (by decide)
theorem wflag (f : SF) : Statement (.wflag f) := fits_word _ _ (by decide)
theorem pflag (f : SF) : Statement (.pflag f) := fits_word _ _ (by decide)
theorem bar (f : SF) : Statement (.bar f) := fits_word _ _ (by decide)
theorem rsync (f : SF) : Statement (.rsync f) := fits_word _ _ (by decide)
theorem flagWaitRelease (core : BitVec 6) (flag : BitVec 5) : Statement (.flagWaitRelease core flag) := trivial
theorem mpush (f : MF) : Statement (.mpush f) := fits_word _ _ (by decide)
theorem mshift (f : MF) : Statement (.mshift f) := fits_word _ _ (by decide)
theorem macc (f : MF) : Statement (.macc f) := fits_word _ _ (by decide)
theorem mdrain (f : MF) : Statement (.mdrain f) := fits_word _ _ (by decide)
theorem mzero (f : MF) : Statement (.mzero f) := fits_word _ _ (by decide)
theorem mfill (f : MF) : Statement (.mfill f) := fits_word _ _ (by decide)
theorem mload (f : MF) : Statement (.mload f) := fits_word _ _ (by decide)
theorem mflu (f : MF) : Statement (.mflu f) := fits_word _ _ (by decide)
theorem mfch (f : MF) : Statement (.mfch f) := fits_word _ _ (by decide)
theorem mfqr (f : MF) : Statement (.mfqr f) := fits_word _ _ (by decide)
theorem mtrs (f : MF) : Statement (.mtrs f) := fits_word _ _ (by decide)
theorem mrdp (f : MF) : Statement (.mrdp f) := fits_word _ _ (by decide)
theorem mstat (f : MF) : Statement (.mstat f) := fits_word _ _ (by decide)
theorem mwait (f : MF) : Statement (.mwait f) := fits_word _ _ (by decide)
theorem mloadComplete (c : CtxId) : Statement (.mloadComplete c) := trivial
theorem factorisationComplete (c : CtxId) : Statement (.factorisationComplete c) := trivial
theorem factorisationPivotStop (c : CtxId) : Statement (.factorisationPivotStop c) := trivial
theorem factorisationInterruptionPoint (c : CtxId) : Statement (.factorisationInterruptionPoint c) := trivial
theorem tld (f : LF) : Statement (.tld f) := fits_word _ _ (by decide)
theorem tst (f : LF) : Statement (.tst f) := fits_word _ _ (by decide)
theorem tldn (f : LF) : Statement (.tldn f) := fits_word _ _ (by decide)
theorem tstn (f : LF) : Statement (.tstn f) := fits_word _ _ (by decide)
theorem tprf (f : LF) : Statement (.tprf f) := fits_word _ _ (by decide)
theorem bxf (f : LF) : Statement (.bxf f) := fits_word _ _ (by decide)
theorem vld (f : LF) : Statement (.vld f) := fits_word _ _ (by decide)
theorem vst (f : LF) : Statement (.vst f) := fits_word _ _ (by decide)
theorem sld (f : LF) : Statement (.sld f) := fits_word _ _ (by decide)
theorem sst (f : LF) : Statement (.sst f) := fits_word _ _ (by decide)
theorem tlook (f : LF) : Statement (.tlook f) := fits_word _ _ (by decide)
theorem ttag (f : LF) : Statement (.ttag f) := fits_word _ _ (by decide)
theorem tinv (f : LF) : Statement (.tinv f) := fits_word _ _ (by decide)
theorem feset (f : LF) : Statement (.feset f) := fits_word _ _ (by decide)
theorem feclr (f : LF) : Statement (.feclr f) := fits_word _ _ (by decide)
theorem amo (f : LF) : Statement (.amo f) := fits_word _ _ (by decide)
theorem amoc (f : LF) : Statement (.amoc f) := fits_word _ _ (by decide)
theorem fenceAcq (f : LF) : Statement (.fenceAcq f) := fits_word _ _ (by decide)
theorem fenceRel (f : LF) : Statement (.fenceRel f) := fits_word _ _ (by decide)
theorem fenceAr (f : LF) : Statement (.fenceAr f) := fits_word _ _ (by decide)
theorem tfence (f : LF) : Statement (.tfence f) := fits_word _ _ (by decide)
theorem tfenceInv (f : LF) : Statement (.tfenceInv f) := fits_word _ _ (by decide)
theorem tfenceAll (f : LF) : Statement (.tfenceAll f) := fits_word _ _ (by decide)
theorem recld (f : LF) : Statement (.recld f) := fits_word _ _ (by decide)
theorem recst (f : LF) : Statement (.recst f) := fits_word _ _ (by decide)
theorem recmk (f : LF) : Statement (.recmk f) := fits_word _ _ (by decide)
theorem swait (f : LF) : Statement (.swait f) := fits_word _ _ (by decide)
theorem ssig (f : LF) : Statement (.ssig f) := fits_word _ _ (by decide)
theorem wvis (f : LF) : Statement (.wvis f) := fits_word _ _ (by decide)
theorem swaitPost (c : CtxId) (watch : Nat) : Statement (.swaitPost c watch) := trivial
theorem arOpen (f : LF) : Statement (.arOpen f) := fits_word _ _ (by decide)
theorem arJoin (f : LF) : Statement (.arJoin f) := fits_word _ _ (by decide)
theorem arLd (f : LF) : Statement (.arLd f) := fits_word _ _ (by decide)
theorem arSt (f : LF) : Statement (.arSt f) := fits_word _ _ (by decide)
theorem arCommit (f : LF) : Statement (.arCommit f) := fits_word _ _ (by decide)
theorem arAbort (f : LF) : Statement (.arAbort f) := fits_word _ _ (by decide)
theorem arLeave (f : LF) : Statement (.arLeave f) := fits_word _ _ (by decide)
theorem wfill (f : LF) : Statement (.wfill f) := fits_word _ _ (by decide)
theorem wfillApply (op : Nat) : Statement (.wfillApply op) := trivial
theorem wdump (f : LF) : Statement (.wdump f) := fits_word _ _ (by decide)
theorem rput (f : LF) : Statement (.rput f) := fits_word _ _ (by decide)
theorem rputReg (f : LF) : Statement (.rputReg f) := fits_word _ _ (by decide)
theorem rget (f : LF) : Statement (.rget f) := fits_word _ _ (by decide)
theorem reos (f : LF) : Statement (.reos f) := fits_word _ _ (by decide)
theorem ringSpill (ring : BitVec 64) : Statement (.ringSpill ring) := trivial
theorem translationWalkComplete (core : BitVec 6) (w : WalkArg) : Statement (.translationWalkComplete core w) := trivial
theorem operationComplete (op : Nat) : Statement (.operationComplete op) := trivial
theorem engineFault (op : Nat) : Statement (.engineFault op) := trivial
theorem trapDelivery (c : CtxId) : Statement (.trapDelivery c) := trivial
theorem watchdogExpiry (c : CtxId) : Statement (.watchdogExpiry c) := trivial
theorem correctableError (place : ErrorPlace) : Statement (.correctableError place) := trivial
theorem freezeEnd (core : BitVec 6) : Statement (.freezeEnd core) := trivial
theorem uncorrectableError (place : ErrorPlace) : Statement (.uncorrectableError place) := trivial
theorem preemptionRequest (c : CtxId) : Statement (.preemptionRequest c) := trivial
theorem saveComplete (c : CtxId) : Statement (.saveComplete c) := trivial
theorem saveOverrun (c : CtxId) : Statement (.saveOverrun c) := trivial
theorem heldRegionWriteout (core : BitVec 6) (index : Nat) : Statement (.heldRegionWriteout core index) := trivial
theorem contextRestore (c : CtxId) : Statement (.contextRestore c) := trivial
theorem regionDeadline (obj : BitVec 40) : Statement (.regionDeadline obj) := trivial
theorem regionAbortDelivery (c : CtxId) : Statement (.regionAbortDelivery c) := trivial
theorem launchPacket (packet : BitVec 512) : Statement (.launchPacket packet) := trivial
theorem taskDispatch : Statement .taskDispatch := trivial
theorem taskAging (key : Nat) : Statement (.taskAging key) := trivial
theorem waitWordQualify (key : Nat) : Statement (.waitWordQualify key) := trivial
theorem unparkWordStore (v : BitVec 64) : Statement (.unparkWordStore v) := trivial
theorem interruptWordStore (v : BitVec 64) : Statement (.interruptWordStore v) := trivial
theorem taskPublication (key : Nat) : Statement (.taskPublication key) := trivial
theorem replicaAcknowledge (v : VersionId) (die : BitVec 16) : Statement (.replicaAcknowledge v die) := trivial
theorem dmaxUpdate : Statement .dmaxUpdate := trivial
theorem setCompletion (src : BitVec 16) (packet : BitVec 512) : Statement (.setCompletion src packet) := trivial
theorem setFailure (src : BitVec 16) (packet : BitVec 512) (reason : Nat) : Statement (.setFailure src packet reason) := trivial
theorem hbmUncorrectableError (tier2 : Bool) (addr : Nat) (len : Nat) : Statement (.hbmUncorrectableError tier2 addr len) := trivial
theorem lossBroadcast (v : VersionNews) (lost : Bool) : Statement (.lossBroadcast v lost) := trivial
theorem need (v : VersionId) (pri : BitVec 3) : Statement (.need v pri) := trivial
theorem rebuildRetire (v : VersionId) (faulted : Bool) : Statement (.rebuildRetire v faulted) := trivial
theorem restoreComplete (v : VersionId) (bytes : List (BitVec 8)) : Statement (.restoreComplete v bytes) := trivial
theorem mirrorUpdate (entry : BitVec 1024) : Statement (.mirrorUpdate entry) := trivial
theorem readRequest (p : Packet) : Statement (.readRequest p) := trivial
theorem writeRequest (p : Packet) : Statement (.writeRequest p) := trivial
theorem atomicRequest (p : Packet) : Statement (.atomicRequest p) := trivial
theorem compareSwapRequest (p : Packet) : Statement (.compareSwapRequest p) := trivial
theorem signalSetRequest (p : Packet) : Statement (.signalSetRequest p) := trivial
theorem signalAddRequest (p : Packet) : Statement (.signalAddRequest p) := trivial
theorem flagPostRequest (p : Packet) : Statement (.flagPostRequest p) := trivial
theorem tentativeReadRequest (p : Packet) : Statement (.tentativeReadRequest p) := trivial
theorem tentativeWriteRequest (p : Packet) : Statement (.tentativeWriteRequest p) := trivial
theorem regionOpenRequest (p : Packet) : Statement (.regionOpenRequest p) := trivial
theorem regionJoinRequest (p : Packet) : Statement (.regionJoinRequest p) := trivial
theorem regionCommitRequest (p : Packet) : Statement (.regionCommitRequest p) := trivial
theorem regionAbortRequest (p : Packet) : Statement (.regionAbortRequest p) := trivial
theorem regionLeaveRequest (p : Packet) : Statement (.regionLeaveRequest p) := trivial
theorem clockPacket (p : Packet) : Statement (.clockPacket p) := trivial
theorem dataResponse (p : Packet) : Statement (.dataResponse p) := trivial
theorem acknowledgement (p : Packet) : Statement (.acknowledgement p) := trivial
theorem errorResponse (p : Packet) : Statement (.errorResponse p) := trivial
theorem retryResponse (p : Packet) : Statement (.retryResponse p) := trivial
theorem retryResend (index : Nat) : Statement (.retryResend index) := trivial
theorem slotTimeout (c : CtxId) (slot : BitVec 3) : Statement (.slotTimeout c slot) := trivial
theorem packetForward (port : BitVec 3) (p : Packet) : Statement (.packetForward port p) := trivial
theorem packetAgeDrop (p : Packet) : Statement (.packetAgeDrop p) := trivial
theorem requestAgeDrop (index : Nat) : Statement (.requestAgeDrop index) := trivial
theorem managementArrival (p : Packet) : Statement (.managementArrival p) := trivial
theorem domainTable (table : List (BitVec 16)) : Statement (.domainTable table) := trivial
theorem graticuleInstall (x y z : List (BitVec 2)) : Statement (.graticuleInstall x y z) := trivial
theorem linkReplay (port : BitVec 3) (resent : Nat) : Statement (.linkReplay port resent) := trivial
theorem linkRetrain (port : BitVec 3) : Statement (.linkRetrain port) := trivial
theorem retrainEnd (port : BitVec 3) (ok : Bool) : Statement (.retrainEnd port ok) := trivial
theorem fabricControlWrite (v : BitVec 64) : Statement (.fabricControlWrite v) := trivial
theorem submission (w : HostWrite) : Statement (.submission w) := trivial
theorem submissionProcess : Statement .submissionProcess := trivial
theorem memoryWindowAccess (w : WindowAccess) : Statement (.memoryWindowAccess w) := trivial
theorem controlRegisterWrite (offset : Nat) (v : BitVec 64) : Statement (.controlRegisterWrite offset v) := trivial
theorem dutymodeWrite (v : BitVec 64) : Statement (.dutymodeWrite v) := trivial
theorem assistRequest (fn : BitVec 3) (request : BitVec 512) : Statement (.assistRequest fn request) := trivial
theorem assistreply (seq : Nat) (reply : BitVec 512) : Statement (.assistreply seq reply) := trivial
theorem assistTimeout (seq : Nat) : Statement (.assistTimeout seq) := trivial
theorem shakecmd (nonce : BitVec 64) : Statement (.shakecmd nonce) := trivial
theorem shakeoutComplete (r : ShakeResult) : Statement (.shakeoutComplete r) := trivial
theorem firmwareRestart : Statement .firmwareRestart := trivial
theorem firmwareEventDelivery : Statement .firmwareEventDelivery := trivial
theorem imageLoad (image : List (BitVec 8)) : Statement (.imageLoad image) := trivial
theorem fuseCommit (v : BitVec 8) (sig : List (BitVec 8)) : Statement (.fuseCommit v sig) := trivial
theorem measurementExtend (reg : BitVec 4) (m : BitVec 512) : Statement (.measurementExtend reg m) := trivial
theorem getDigests : Statement .getDigests := trivial
theorem getCertificate (offset len : Nat) : Statement (.getCertificate offset len) := trivial
theorem challenge (nonce : BitVec 256) : Statement (.challenge nonce) := trivial
theorem getMeasurements (nonce : BitVec 256) : Statement (.getMeasurements nonce) := trivial
theorem powerSample (p : PowerReading) : Statement (.powerSample p) := trivial
theorem timeSync (reference : Nat) : Statement (.timeSync reference) := trivial
theorem sensorSample (p : PowerReading) : Statement (.sensorSample p) := trivial
theorem powerOnReset : Statement .powerOnReset := trivial
theorem packageReset : Statement .packageReset := trivial
theorem dieReset (die : BitVec 16) : Statement (.dieReset die) := trivial
theorem fixedLatencyResultLanding (c : CtxId) (index : Nat) : Statement (.fixedLatencyResultLanding c index) := trivial
theorem arrayPushLanding (c : CtxId) (queue : BitVec 5) : Statement (.arrayPushLanding c queue) := trivial
theorem copyEngineFailure (op : Nat) : Statement (.copyEngineFailure op) := trivial
theorem domainReset : Statement .domainReset := trivial
theorem dieReturn (die : BitVec 16) : Statement (.dieReturn die) := trivial
theorem firmwareLinkRetrain (port : BitVec 3) (ok : Bool) : Statement (.firmwareLinkRetrain port ok) := trivial
theorem defwdlimWrite (v : BitVec 64) : Statement (.defwdlimWrite v) := trivial
theorem agelimWrite (v : BitVec 64) : Statement (.agelimWrite v) := trivial

end Sys2Proof.Laws.Coding
end

