-- ==== Sys2Proof/Laws/Slots.lean ====
section
/-! SUPPORT. What the shared operand forms of the A and B slots do from a state with nothing under way, and the pushes that
an instruction makes. -/
namespace Sys2Proof.Machine

/-- An instruction that pushes nothing cannot overflow a queue. -/
theorem overflows_none {i : Instr} {s : State} (h : pushesOf (rptCount (rptOf [i])) i = []) : overflows [i] i s = false := by
  simp [overflows, h]

theorem pushesOf_gDest {n : Nat} {i : Instr} {r : BitVec 5} (h : dests i = gDest r) : pushesOf n i = [] := by
  unfold pushesOf
  rw [h]
  unfold gDest
  split <;> simp

theorem pushesOf_kDest {n : Nat} {i : Instr} {r : BitVec 4} (h : dests i = kDest r) : pushesOf n i = [] := by
  unfold pushesOf
  rw [h]
  unfold kDest
  split <;> simp

theorem pushesOf_mDest {n : Nat} {i : Instr} {r : BitVec 3} (h : dests i = mDest r) : pushesOf n i = [] := by
  unfold pushesOf
  rw [h]
  unfold mDest
  split <;> simp

theorem pushesOf_nil {n : Nat} {i : Instr} (h : dests i = []) : pushesOf n i = [] := by
  unfold pushesOf
  rw [h]
  rfl

theorem pushesOf_sys {n : Nat} {i : Instr} {r : BitVec 10} (h : dests i = [.sys r]) : pushesOf n i = [] := by
  unfold pushesOf
  rw [h]
  simp

/-! ## The operand forms -/

theorem alu2_quiet {u : AB} {f : RR} {b : Nat} {op : Word → Word → Word} {s : State} (h : quiet s = true) :
    alu2 u f b op s =
      .ok (State.resultG f.dst (op (gReg f.src1 s) (gReg f.src2 s)) (gTag f.src1 s || gTag f.src2 s) 0 b) := by
  simp [alu2, destG_quiet h, needG_quiet h]

theorem alu1_quiet {u : AB} {f : RR} {b : Nat} {op : Word → Word} {s : State} (h : quiet s = true) :
    alu1 u f b op s = .ok (State.resultG f.dst (op (gReg f.src1 s)) (gTag f.src1 s) 0 b) := by
  simp [alu1, destG_quiet h, needG_quiet h]

theorem aluImm_quiet {u : AB} {f : RI} {op : Word → Word} {s : State} (h : quiet s = true) :
    aluImm u f op s = .ok (State.resultG f.dst (op (gReg f.src1 s)) (gTag f.src1 s) 0 1) := by
  simp [aluImm, destG_quiet h, needG_quiet h]

/-- A floating-point instruction of two sources: its result, or the trap of an enabled flag. -/
theorem fp2_quiet {f : RR} {b : Nat} {op : FFmt → BitVec 64 → BitVec 64 → FRes} {s : State} (h : quiet s = true) :
    fp2 f b op s = fpResult f b (op (fpFmt f) (fpSrc (fpFmt f) (gReg f.src1 s)) (fpSrc (fpFmt f) (gReg f.src2 s)))
      (gTag f.src1 s || gTag f.src2 s) s := by
  simp [fp2, destG_quiet h, needG_quiet h]

theorem fpResult_poison {f : RR} {b : Nat} {r : FRes} {s : State} :
    fpResult f b r true s = .ok (State.resultG f.dst r.1 true 0 b) := by simp [fpResult]

theorem fpResult_clean {f : RR} {b : Nat} {r : FRes} {s : State} (h : flagsTrap s.fmt r.2 = false) :
    fpResult f b r false s = .ok (State.resultG f.dst r.1 false r.2 b) := by simp [fpResult, fpFlags, h]

theorem fpResult_trap {f : RR} {b : Nat} {r : FRes} {s : State} (h : flagsTrap s.fmt r.2 = true) :
    fpResult f b r false s = .trap .fpException ((r.2.setWidth 6).setWidth 8) 0 := by simp [fpResult, fpFlags, h]

/-! ## Results of a lone instruction -/

/-- A lone instruction whose one effect is a result for a general register. -/
theorem exec_resultG {i : Instr} {s : State} {r : BitVec 5} {v : Word} {p : Bool} {fl : Flags} {b : Nat}
    (hq : quiet s = true) (hl : lone i s = true)
    (hr : slotRes (s.nextPc [i]) none i s = .ok (State.resultG r v p fl b)) (hb : 0 < b)
    (hd : pushesOf (rptCount (rptOf [i])) i = []) (hs : servesNow [i] s = false)
    (ha : ∀ pc t, afterCommit [i] pc false t = t)
    (hn : (inOrder i && s.acquireHeld) = false := by rfl) (hx : exec i s = issueOne i s := by rfl) :
    exec i s = .next (givesG i r v p fl b s) :=
  exec_result hq hl hr hb (overflows_none hd) hs ha hn hx

/-- A lone instruction whose one effect is a result for a predicate. -/
theorem exec_resultK {i : Instr} {s : State} {r : BitVec 4} {v : Bool} {fl : Flags} {b : Nat} (hq : quiet s = true)
    (hl : lone i s = true) (hr : slotRes (s.nextPc [i]) none i s = .ok (State.resultK r v fl b)) (hb : 0 < b)
    (hd : pushesOf (rptCount (rptOf [i])) i = []) (hs : servesNow [i] s = false)
    (ha : ∀ pc t, afterCommit [i] pc false t = t)
    (hn : (inOrder i && s.acquireHeld) = false := by rfl) (hx : exec i s = issueOne i s := by rfl) :
    exec i s = .next (givesK i r v fl b s) :=
  exec_result hq hl hr hb (overflows_none hd) hs ha hn hx

/-- A lone instruction whose one effect is a result for a mask. -/
theorem exec_resultM {i : Instr} {s : State} {r : BitVec 3} {v : BitVec 128} {fl : Flags} {b : Nat} (hq : quiet s = true)
    (hl : lone i s = true) (hr : slotRes (s.nextPc [i]) none i s = .ok (State.resultM r v fl b)) (hb : 0 < b)
    (hd : pushesOf (rptCount (rptOf [i])) i = []) (hs : servesNow [i] s = false)
    (ha : ∀ pc t, afterCommit [i] pc false t = t)
    (hn : (inOrder i && s.acquireHeld) = false := by rfl) (hx : exec i s = issueOne i s := by rfl) :
    exec i s = .next (givesM i r v fl b s) :=
  exec_result hq hl hr hb (overflows_none hd) hs ha hn hx

/-- A lone instruction without an effect. -/
theorem exec_nothing {i : Instr} {s : State} (hq : quiet s = true) (hl : lone i s = true)
    (hr : slotRes (s.nextPc [i]) none i s = .nothing) (hd : pushesOf (rptCount (rptOf [i])) i = [])
    (hs : servesNow [i] s = false) (ha : ∀ pc t, afterCommit [i] pc false t = t)
    (hn : (inOrder i && s.acquireHeld) = false := by rfl) (hx : exec i s = issueOne i s := by rfl) :
    exec i s = .next (passed [i] s) := by
  rw [exec_ok hq hl hr (overflows_none hd) hs (moved_plain hq) hn hx, ha]
  have hp : (moved i s).cur.pend = [] := quiet_pend (s := s) hq
  have hqs : (moved i s).cur.q.map (landQueue (s.core.cycle + 1)) = (moved i s).cur.q := quiet_queues hq (s.core.cycle + 1)
  have h : (id (moved i s)).tick = (passed [i] s).modCtx (fun _ => (moved i s).cur.land (s.core.cycle + 1)) := rfl
  have hc : (passed [i] s).cur = (moved i s).cur := rfl
  rw [h]
  clear h
  generalize passed [i] s = t at hc
  generalize (moved i s).cur = c at hp hqs hc
  obtain ⟨g, gp, k, m, b, n, q, pend, owed, arr, sys, flow⟩ := c
  dsimp only at hp hqs
  subst hp
  obtain ⟨tc, tk, tl, ts, tu, td, tp, ti, tt, tr, tf⟩ := t
  dsimp only at hc
  subst hc
  simp [State.modCtx, Ctx.land, Ctx.landPend, hqs]

end Sys2Proof.Machine
end

