-- ==== Sys2Proof/Laws/Traps.lean ====
section
/-! SUPPORT. The drain before a trap, where nothing of the context is under way, and what a trap then does. -/
namespace Sys2Proof.Machine

/-- Nothing of the context is in flight, and no operation or factorisation of it is left to drain. -/
structure Calm (s : State) : Prop where
  pend : s.cur.pend = []
  owed : s.cur.owed = []
  queues : ∀ r, ∀ e ∈ s.cur.queue r, e.landed = true
  beats : s.cur.flow.beats = []
  ops : s.taskOps = []
  fact : s.core.fact = none

theorem landed_queues {c : Ctx} (h : ∀ r, ∀ e ∈ c.queue r, e.landed = true) (n : Nat) : c.q.map (landQueue n) = c.q := by
  apply Vector.ext
  intro k hk
  simp only [Vector.getElem_map]
  apply landQueue_landed
  simpa [Ctx.queue, Nat.mod_eq_of_lt hk] using h (BitVec.ofNat 5 k)

theorem land_calm {c : Ctx} (hp : c.pend = []) (hq : ∀ r, ∀ e ∈ c.queue r, e.landed = true) (n : Nat) : c.land n = c := by
  have h := landed_queues hq n
  unfold Ctx.land
  have : c.landPend n = c := by cases c; simp_all [Ctx.landPend]
  simp only [this, h]

theorem tick_calm {s : State} (h : Calm s) : s.tick = cycled s := by
  simp [State.tick, cycled, land_calm h.pend h.queues]

theorem calm_cycled {s : State} (h : Calm s) : Calm (cycled s) := ⟨h.pend, h.owed, h.queues, h.beats, h.ops, h.fact⟩

theorem landAll_calm {s : State} (h : Calm s) : landAll s = s := by
  have : s.cur.landEarly = s.cur := by
    have hp := h.pend
    cases hc : s.cur; simp_all [Ctx.landEarly]
  simp [landAll, State.modCtx, this]

theorem calm_quiet {s : State} (hq : quiet s = true) (hs : settled s = true) : Calm s where
  pend := quiet_pend hq
  owed := quiet_owed hq
  queues := quiet_queue hq
  beats := quiet_beats hq
  ops := by simp [settled] at hs; tauto
  fact := by simp [settled] at hs; tauto

theorem mload_calm {s : State} (h : s.taskOps = []) :
    s.die.ops.find? (fun o => o.isMload && o.owner == s.curId && o.serial == s.cur.serial) = none := by
  rw [List.find?_eq_none]
  intro o ho hc
  have : o ∈ s.taskOps := by
    simp only [State.taskOps, List.mem_filter, ho, true_and]
    simp only [Bool.and_eq_true] at hc ⊢
    exact ⟨hc.1.2, hc.2⟩
  rw [h] at this
  exact absurd this (by simp)

/-- Nothing is left to drain. -/
theorem drain_calm {s : State} (h : Calm s) : drain s = s := by
  have hb : ∀ n, finishBeats n s = s := by intro n; cases n <;> simp [finishBeats, h.beats]
  unfold drain completeOwing
  rw [landAll_calm h, hb 128, h.ops]
  simp only [List.filter_nil, List.map_nil, List.foldl_nil]
  rw [landAll_calm h]
  unfold interruptMload stopFact State.factBusy
  rw [mload_calm h.ops]
  simp only [h.fact]
  simp

theorem drained_calm {s : State} (h : Calm s) : drained s = true := by
  have hq : s.cur.q.toList.all (fun l => l.all (·.landed)) = true := by
    rw [List.all_eq_true]
    intro l hl
    rw [List.all_eq_true]
    intro e he
    obtain ⟨i, hi, hx⟩ := List.mem_iff_getElem.mp hl
    have hi' : i < 32 := by simpa using hi
    refine h.queues (BitVec.ofNat 5 i) e ?_
    simp only [Ctx.queue, BitVec.toNat_ofNat, Nat.reducePow, Nat.mod_eq_of_lt hi']
    rw [← hx] at he
    simpa using he
  have hi : s.cur.q.toList.all (fun l => l.all (fun e => e.landed || !e.interlocked)) = true := by
    rw [List.all_eq_true] at hq ⊢
    intro l hl
    have := hq l hl
    rw [List.all_eq_true] at this ⊢
    intro e he
    simp [this e he]
  unfold drained
  rw [hi, h.pend, h.owed, h.ops]
  rfl

/-- A trap with nothing left to drain is delivered at once. -/
theorem takeTrap_calm {s : State} (h : Calm s) (r : TrapReq) : takeTrap r s = deliverTrap r s := by
  simp [takeTrap, drain_calm h, drained_calm h]

theorem settleCur_running {s : State} (h : s.cur.flow.residency = .running) : settleCur s = s := by
  simp [settleCur, h]

theorem bundleBytes_length {is : List Instr} : (bundleBytes is).take 47 ≠ [] := by simp [bundleBytes]

/-! ## States from which nothing is left to drain -/

theorem logs_cur (r : BitVec 512) (s : State) : (logs r s).cur = s.cur := rfl
theorem logs_ops (r : BitVec 512) (s : State) : (logs r s).die.ops = s.die.ops := rfl
theorem logs_fact (r : BitVec 512) (s : State) : (logs r s).core.fact = s.core.fact := rfl
theorem logs_curId (r : BitVec 512) (s : State) : (logs r s).curId = s.curId := rfl
theorem recorded_cur (l : List Byte) (c : Nat) (p : Word) (s : State) : (recorded l c p s).cur = s.cur := by
  unfold recorded; exact logs_cur _ _
theorem recorded_ops (l : List Byte) (c : Nat) (p : Word) (s : State) : (recorded l c p s).die.ops = s.die.ops := by
  unfold recorded; exact logs_ops _ _
theorem recorded_fact (l : List Byte) (c : Nat) (p : Word) (s : State) : (recorded l c p s).core.fact = s.core.fact := by
  unfold recorded; exact logs_fact _ _
theorem recorded_curId (l : List Byte) (c : Nat) (p : Word) (s : State) : (recorded l c p s).curId = s.curId := by
  unfold recorded; exact logs_curId _ _
theorem entered_q (n : Nat) (s : State) : (entered n s).cur.q = s.cur.q := by simp only [entered]
theorem entered_pend (n : Nat) (s : State) : (entered n s).cur.pend = s.cur.pend := by simp only [entered]
theorem entered_owed (n : Nat) (s : State) : (entered n s).cur.owed = s.cur.owed := by simp only [entered]
theorem entered_task (n : Nat) (s : State) : (entered n s).cur.flow.task = s.cur.flow.task := by simp only [entered]
theorem entered_beats (n : Nat) (s : State) : (entered n s).cur.flow.beats = [] := by simp only [entered]
theorem entered_residency (n : Nat) (s : State) : (entered n s).cur.flow.residency = s.cur.flow.residency := by simp only [entered]
theorem entered_die (n : Nat) (s : State) : (entered n s).die = { s.die with fillEnds := [] } := by simp only [entered]
theorem entered_ops (n : Nat) (s : State) : (entered n s).die.ops = s.die.ops := by simp only [entered]
theorem entered_fact (n : Nat) (s : State) : (entered n s).core.fact = s.core.fact := by simp only [entered]
theorem entered_curId (n : Nat) (s : State) : (entered n s).curId = s.curId := by simp only [entered, State.curId]

theorem calm_entered {s : State} (h : Calm s) (n : Nat) (l : List Byte) (c : Nat) (p : Word) :
    Calm (entered n (recorded l c p s)) where
  pend := by rw [entered_pend, recorded_cur, h.pend]
  owed := by rw [entered_owed, recorded_cur, h.owed]
  queues := by
    intro r
    have : (entered n (recorded l c p s)).cur.queue r = s.cur.queue r := by
      simp only [Ctx.queue, entered_q, recorded_cur]
    rw [this]
    exact h.queues r
  beats := entered_beats _ _
  ops := by
    have := h.ops
    simp only [State.taskOps, entered_ops, recorded_ops, entered_curId, recorded_curId, Ctx.serial, entered_task,
      recorded_cur] at this ⊢
    exact this
  fact := by rw [entered_fact, recorded_fact, h.fact]

theorem calm_passed {s : State} (h : Calm s) (is : List Instr) : Calm (passed is s) :=
  ⟨h.pend, h.owed, h.queues, h.beats, h.ops, h.fact⟩

theorem calm_moved {s : State} (h : Calm s) (i : Instr) : Calm (moved i s) :=
  ⟨h.pend, h.owed, h.queues, h.beats, h.ops, h.fact⟩

end Sys2Proof.Machine
end

