-- ==== Sys2Proof/Tests/Slice0.lean ====
section
/-! SUPPORT. Tests on small states: the checks of WellFormed, words written out from the encoding tables, one step, and for each
statement states and operands that meet its hypotheses. -/
set_option Elab.async false
namespace Sys2Proof.Tests
open Sys2Proof Sys2Proof.Machine

/-! ## Small states -/

/-- The reset state with its context running in user mode. -/
def base : State := State.reset.modFlow (fun w => { w with residency := .running })

/-- The same in supervisor mode. -/
def sup : State := base.modSys (fun y => { y with mode := .supervisor })

/-- General registers set. -/
def withG (l : List (Nat × Nat)) (s : State) : State :=
  s.modCtx (fun c => { c with g := l.foldl (fun g x => g.setIfInBounds x.1 (BitVec.ofNat 64 x.2)) c.g })

/-- Poisoned general registers. -/
def tagG (l : List Nat) (s : State) : State :=
  s.modCtx (fun c => { c with gPoison := l.foldl (fun p r => setBit p r true) c.gPoison })

/-- A landed queue entry. -/
def landedEntry (v : Nat) : QEntry :=
  { bits := BitVec.ofNat 1024 v, poison := false, landed := true, interlocked := false, due := 0, op := 0 }

/-- A queue set. -/
def withQ (q : Nat) (es : List QEntry) (s : State) : State := s.modCtx (fun c => { c with q := c.q.setIfInBounds q es })

/-- The state that an instruction leaves. -/
def after (i : Instr) (s : State) : State := match exec i s with | .next t => t | _ => s

/-- An instruction answers a next state. -/
def goes (i : Instr) (s : State) : Bool := match exec i s with | .next _ => true | _ => false

/-- Every instruction may stand alone. -/
def allLone (is : List Instr) (s : State) : Bool := quiet s && is.all (fun i => lone i s)

def rr (d a b m : Nat) : RR :=
  { guard := 0, dst := BitVec.ofNat 5 d, src1 := BitVec.ofNat 5 a, port1 := 0, src2 := BitVec.ofNat 5 b, port2 := 1,
    modf := BitVec.ofNat 3 m }
def rr1 (d a m : Nat) : RR := { rr d a 0 m with port2 := 0 }
def ri (d a n : Nat) : RI := { guard := 0, dst := BitVec.ofNat 5 d, src1 := BitVec.ofNat 5 a, port1 := 0, imm := BitVec.ofNat 10 n }
def gp (r : Nat) : GP := { reg := BitVec.ofNat 5 r, port := 0 }

/-- Invalid-operation traps are enabled. -/
def trapsIv (s : State) : State := s.modSys (fun y => { y with fmt := y.fmt ||| 0x00100000 })

/-! ## Hypotheses of the statements: A and B slots -/

def two : State := withG [(2, 0x8000000000000000), (3, 0xFFFFFFFFFFFFFFFF), (4, 7)] base

theorem test_integer_hypotheses : allLone ((List.range 4).flatMap (fun m =>
    [.add .a (rr 1 2 3 m), .sub .b (rr 1 2 3 m)]) ++ [.mul .a (rr 1 2 3 0), .mul .b (rr 1 2 3 1), .mulh .a (rr 1 2 3 0),
    .mulhn .b (rr 1 2 3 0), .and .a (rr 1 2 3 0), .or .b (rr 1 2 3 0), .xor .a (rr 1 2 3 0), .andn .b (rr 0 2 3 0),
    .shl .a (rr 1 2 3 0), .shl .b (rr 1 2 3 1), .shr .a (rr 1 2 3 1), .sar .a (rr 1 2 3 0), .min .a (rr 1 2 3 0),
    .max .a (rr 1 2 3 0), .minn .b (rr 1 2 3 0), .maxn .b (rr 1 2 3 0), .clz .a (rr1 1 2 0), .popc .b (rr1 1 2 0),
    .brev .a (rr1 1 2 0)]) two = true := by decide +kernel

theorem test_division_hypotheses : allLone [.div (rr 1 2 3 0), .rem (rr 1 2 3 0), .div (rr 1 2 3 1), .rem (rr 1 2 3 1)] two = true ∧
    gReg 5 two = 0 ∧ gReg 4 two ≠ 0 ∧ (gReg 2 two).toInt = -(2 ^ 63) ∧ (gReg 3 two).toInt = -1 ∧
    ¬((gReg 4 two).toInt = -(2 ^ 63) ∧ (gReg 3 two).toInt = -1) := by decide +kernel

theorem test_bitfield_hypotheses : allLone [.bfx .a (rr 1 2 3 0), .bfx .b (rr 1 2 3 1), .bfi .a (rr 1 2 3 0)] two = true := by
  decide +kernel

theorem test_immediate_hypotheses :
    allLone [.addi .a (ri 1 2 1023), .andi .a (ri 1 2 5), .ori .b (ri 1 2 5), .shli .a (ri 1 2 63), .lea .b (ri 1 2 3),
      .movi .a { guard := 0, dst := 1, imm := 5 }, .movhi .b { guard := 0, dst := 0, imm := 5 }, .sel .a (rr 1 2 3 0),
      .sel .a (rr 1 2 3 1), .cmp .a (rr 1 2 3 6), .cmp .a (rr 0 2 3 0), .kop .b { rr 1 2 3 7 with port2 := 0 }, .chk .a (rr1 0 2 0),
      .cmpi .a { guard := 0, dst := 1, src1 := 2, port1 := 0, imm := 5, cond := 6 }] two = true ∧
    kReg 0 two = true ∧ kReg 1 two = false := by decide +kernel

/-! System registers -/

theorem test_system_read_hypotheses :
    allLone (((List.range 0x10).filter (fun n => n != 0x00A && n != 0x00B)).map (fun n => Instr.rdsys (ri 1 0 n))) base = true ∧
    allLone ([0x00B, 0x010, 0x017, 0x020, 0x03F].map (fun n => Instr.rdsys (ri 1 0 n))) sup = true ∧
    allLone [.rdsysTrapinfo (ri 1 0 0x00A)] base = true ∧ base.factBusy = false ∧ base.mloadBusy = false := by decide +kernel

theorem test_system_write_hypotheses :
    allLone ([0x00C, 0x00D, 0x00E].map (fun n => Instr.wrsys (ri 0 2 n)) ++ [.wrsysFstat (ri 0 2 1), .wrsysFprog (ri 0 2 4),
      .wrsysMlprog (ri 0 2 5), .wrsysPourskew (ri 0 2 7), .wrsysWdlim (ri 0 2 8), .wrsysTvec (ri 0 2 9),
      .wrsysTrapinfo (ri 0 2 10), .wrsysDutymode (ri 0 2 11), .wrsysPeer (ri 0 2 0x11), .wrsysPeer (ri 0 2 0x17),
      .wrsysFlag (ri 0 2 0x20), .wrsysFlag (ri 0 2 0x3F)]) sup = true ∧ sup.factBusy = false ∧ sup.mloadBusy = false := by
  decide +kernel

def fmtInBounds (v : BitVec 32) : Bool :=
  (bits 28 4 v : BitVec 4) == 0 && (bits 0 4 v : BitVec 4) == 0 && (bits 8 4 v : BitVec 4) == (bits 4 4 v : BitVec 4)

theorem test_format_hypotheses :
    allLone [.setfmtImmediate 0x00004990, .setfmtImmediate 0, .setfmtRegister (gp 2), .setfmtRegister (gp 3), .wrsysFmt (ri 0 2 0)]
      (tagG [3] (withG [(2, 0x00006CC0)] base)) = true ∧ fmtInBounds 0x00004990 = true ∧ fmtInBounds 0x00006CC0 = true ∧
    fmtInBounds 0x00000900 = false := by decide +kernel

/-! Scalar floating point -/

def oneTwo : State := tagG [6] (withG [(2, 0x3FF0000000000000), (3, 0x4000000000000000), (4, 0x7FF0000000000001), (5, 0x3F800000)] base)

theorem test_floating_hypotheses : allLone ([0, 4, 7].flatMap (fun m => [.fadd (rr 1 2 3 m), .fsub (rr 1 2 3 m), .fmul (rr 1 2 3 m),
      .fma (rr 1 2 3 m), .fcvt { rr1 1 2 m with src2 := 3 }]) ++ [.fdiv (rr 1 2 3 4), .fdiv (rr 1 2 3 6), .fsqrt (rr1 1 2 4),
      .fsqrt (rr1 1 2 7), .fmin (rr 1 2 3 4), .fmax (rr 1 2 3 0), .fsgn (rr 1 2 3 6), .fclass (rr1 1 2 4), .fcvt (rr1 1 2 4),
      .fcvt { rr1 1 2 4 with src2 := 9 }, .fcmp (rr 1 2 3 4), .fcmp (rr 1 4 3 7)]) oneTwo = true ∧ gTag 6 oneTwo = true ∧
    gTag 2 oneTwo = false ∧ enabledFlags (fAdd fp64 0 (gReg 4 oneTwo) (gReg 3 oneTwo)).2 (trapsIv oneTwo) ≠ 0 ∧
    enabledFlags (fDiv fp64 0 (gReg 4 oneTwo) (gReg 3 oneTwo)).2 (trapsIv oneTwo) ≠ 0 ∧
    enabledFlags (fAdd fp64 0 (gReg 2 oneTwo) (gReg 3 oneTwo)).2 (trapsIv oneTwo) = 0 ∧
    enabledFlags (fToInt fp64 0 true 64 (gReg 4 oneTwo)).2 (trapsIv oneTwo) ≠ 0 := by decide +kernel

theorem test_rounding_hypotheses : ¬ 2 ^ 2 ∣ 6 ∧ 2 ^ 1 ∣ 6 ∧ 2 * 6 = 2 * (6 / 2 ^ 2 * 2 ^ 2) + 2 ^ 2 := by decide

/-! Sum trees -/

def grown : State := withG [(2, 1), (3, 0xFFFFFFFF), (4, 1023), (5, 1024), (6, 0x3F800000), (7, 0x40400000), (8, 0x7FC00000),
    (9, 0xBF800000), (10, 0x7F800000), (11, 0xFF800000), (12, 0x100000000)]
  (base.setTree 2 (setLeaf 0 5 (setLeaf 1 7 [])))

def nanTraps : State := trapsIv grown

theorem test_tree_update_hypotheses :
    allLone [.wclr { rr1 0 2 2 with port2 := 0 }, .wset { rr 1 2 3 2 with modf := 2 }, .wset { rr 0 4 6 2 with modf := 2 },
      .wadd { rr 1 5 3 2 with modf := 2 }, .wadd { rr 0 2 9 2 with modf := 2 }] grown = true ∧ grown.treeHeld 2 = false ∧
    smWf (0 : BitVec 32) (grown.tree 2) = true ∧ (gReg 5 grown).toNat = 1024 ∧ (gReg 4 grown).toNat = 1023 ∧
    (bits 32 32 (gReg 12 grown) : BitVec 32) ≠ 0 := by decide +kernel

theorem test_tree_read_hypotheses :
    allLone [.wget { rr1 1 2 2 with src2 := 1 }, .wsum { rr1 1 2 2 with src2 := 0 }, .wtot { rr1 1 0 2 with src2 := 1 },
      .wfind { rr1 1 2 2 with src2 := 1 }, .wfind { rr1 1 6 2 with src2 := 0 }, .wcut { rr1 1 6 2 with src2 := 0 },
      .wmov (rr1 0 2 3)] grown = true ∧
    massArg 1 (gReg 2 grown) = .val 1 0 ∧ massGt (prefixSum (grown.tree 2) 1024) 1 0 = true ∧
    massArg 1 (gReg 3 grown) = .val 0xFFFFFFFF 0 ∧ massGt (prefixSum (grown.tree 2) 1024) 0xFFFFFFFF 0 = false ∧
    massArg 0 (gReg 8 grown) = .nan ∧ massArg 0 (gReg 10 grown) = .high ∧ massArg 0 (gReg 11 grown) = .low ∧
    nanTraps.cur.sys.fmt.getLsbD 20 = true ∧ grown.cur.sys.fmt.getLsbD 20 = false ∧ (∀ p ∈ grown.tree 2, p.1 < 1024) ∧
    massGt (rootOf (grown.tree 2)) 5 0 = true ∧ coverLeaf (grown.tree 2) 5 0 = 1 := by decide +kernel

/-! ## Hypotheses of the statements: V and X slots -/

def vf (d a b c t m : Nat) : VF :=
  { guard := 0, dst := BitVec.ofNat 5 d, src1 := BitVec.ofNat 5 a, keep1 := false, src2 := BitVec.ofNat 5 b, keep2 := false,
    src3 := BitVec.ofNat 5 c, keep3 := false, mask := 0, ty := BitVec.ofNat 4 t, modf := BitVec.ofNat 7 m }

/-- Entries in the queues 1 to 3; queue 4 is full, queue 5 empty, and queue 6 holds a poisoned entry. -/
def filled : State := withQ 6 [{ landedEntry 1 with poison := true }] (withQ 4 (List.replicate 4 (landedEntry 0))
  (withQ 3 [landedEntry 9] (withQ 2 [landedEntry 0] (withQ 1 [landedEntry 0x3F800000] base))))

/-- Division by zero traps. -/
def divTraps : State := filled.modSys (fun y => { y with fmt := y.fmt ||| 0x00200000 })

theorem test_lane_hypotheses : (0 : BitVec 4).toNat < 8 ∧ (7 : BitVec 4).toNat < 8 ∧
    (-(2 ^ (tyWidth 12 - 1)) : Int) ∈ [0x80].map (codeOf 12) ∧ (-(2 ^ (tyWidth 13 - 1)) : Int) ∉ [7].map (codeOf 13) ∧
    tyFloat 8 = true ∧ tyFloat 11 = true := by decide

theorem test_elementwise_hypotheses : allLone ([.vadd (vf 5 1 2 0 10 0), .vadd (vf 5 1 2 0 7 1), .vsub (vf 5 1 2 0 0 0),
    .vmul (vf 5 1 2 0 12 0), .vfma (vf 5 1 2 3 11 0), .vfms (vf 5 1 2 3 9 0), .vmin (vf 5 1 2 0 13 0), .vmax (vf 5 1 2 0 4 0),
    .vclamp (vf 5 1 2 3 2 0), .vabs (vf 5 1 0 0 1 1), .vneg (vf 5 1 0 0 8 0), .vsqrt (vf 5 1 0 0 10 0), .vrsqrt (vf 5 1 0 0 10 0),
    .vrcp (vf 5 1 0 0 11 0), .vexp2 (vf 5 1 0 0 10 0), .vlog2 (vf 5 1 0 0 10 0), .vand (vf 5 1 2 0 3 0), .vor (vf 5 1 2 0 3 0),
    .vxor (vf 5 1 2 0 3 0), .vnot (vf 5 1 0 0 7 0), .vshl (vf 5 1 2 0 4 0), .vshr (vf 5 1 2 0 5 0), .vsar (vf 5 1 2 0 6 0),
    .vdiv (vf 5 1 2 0 10 0), .vdiv (vf 5 1 2 0 10 0x40)] ++ [.vsel (vf 5 1 2 0 13 0), .vredsum (vf 5 1 0 0 10 0),
    .vredmax (vf 5 1 0 0 12 0), .vredmin (vf 5 1 0 0 0 0), .vscan (vf 5 1 0 0 10 1), .vperm (vf 5 1 2 0 4 1),
    .vslide (vf 5 1 2 0 10 31), .vslide (vf 5 1 2 3 10 32), .vbcast (vf 5 1 0 0 11 15), .vbcast (vf 5 1 2 0 10 32),
    .vdup (vf 5 1 0 0 4 7), .vdrop (vf 5 1 0 0 4 7), .viota (vf 5 0 0 0 10 0), .vmovi (vf 5 31 31 15 2 0),
    .vcvt (vf 5 1 0 0 0 0x0A), .vcvt (vf 5 1 0 0 10 0x10)]) filled = true := by decide +kernel

theorem test_speculative_division_hypotheses : allLone [.vdiv (vf 5 1 2 0 10 0x40)] divTraps = true ∧
    sourcesReady (vSrc (vf 5 1 2 0 10 0x40) 2) divTraps = true ∧ roomIn 5 (vSrc (vf 5 1 2 0 10 0x40) 2) divTraps = true ∧
    headsTag (vSrc (vf 5 1 2 0 10 0x40) 2) divTraps = false ∧
    enabledFlags (fDiv fp32 0 (nthF [0x3F800000] 0) (nthF [0] 0)).2 divTraps ≠ 0 ∧
    enabledFlags (fDiv fp32 0 (nthF [0x3F800000] 0) (nthF [0x3F800000] 0)).2 divTraps = 0 := by decide +kernel

theorem test_mask_hypotheses : allLone [.mand (vf 1 2 3 0 0 0), .mor (vf 7 2 3 0 0 0), .mnot (vf 0 2 0 0 0 0), .vcmp (vf 1 1 2 0 10 6),
    .vlen (vf 1 1 0 0 13 0), .xsv { guard := 0, pair := 5, port := 0, sel := 2 }, .xsv { guard := 0, pair := 4, port := 0, sel := 0 },
    .xsv { guard := 0, pair := 4, port := 0, sel := 1 }, .xkm { guard := 0, pred := 0, mask := 7 },
    .xvs { guard := 0, pair := 1, keep := false, lane := 31, width := 1 }, .xvs { guard := 0, pair := 5, keep := true, lane := 15, width := 2 },
    .xmk { guard := 0, pred := 15, mask := 0, all := true }] filled = true ∧
    sourcesReady (vSrc (vf 1 1 2 0 10 6) 2) filled = true ∧ sourcesReady (vSrc (vf 1 1 0 0 13 0) 1) filled = true ∧
    sourcesReady (vSrc (vf 1 5 0 0 13 0) 1) filled = false ∧ headsTag (vSrc (vf 1 6 0 0 13 0) 1) filled = true ∧
    roomIn 4 [] filled = false := by decide +kernel

/-! ## Hypotheses of the statements: control flow, traps, tasks -/

/-- Bytes of physical memory set. -/
def withMem (l : List (Nat × Nat × Nat)) (s : State) : State :=
  { s with pkg := { s.pkg with hbm := l.foldl (fun m x => memWrite m x.1 (leBytes x.2.1 x.2.2)) s.pkg.hbm } }

/-- A context in user mode whose addresses 0 to 2^30 − 1 are mapped one to one. -/
def world : State := (placeWord 0 0 State.reset).modCore (fun c =>
  { c with tlb := [{ asid := 0, page := 0, size := 2 ^ 30, pte := 0x3F }] })

/-- A launch packet of set 7: one task, template at 0x1000, plat at 0x2000, code at 0. -/
def packetWith (setid gx sp : Nat) : Nat :=
  0x2000 * 2 ^ 384 + 0x1000 * 2 ^ 320 + setid * 2 ^ 224 + gx * 2 ^ 144 + 2 ^ 128 + 2 ^ 112 + sp * 2 ^ 4

/-- A plat of the dies of a mask: one block, its home this die. -/
def platWith (mask : Nat) : Nat := mask * 2 ^ 336 + 2 ^ 320 + 2 ^ 304 + 2 ^ 288 + 2 ^ 272 + 2 ^ 256 + 2 ^ 240

/-- The packet at 0x3000, a spawn descriptor at 0x3040, a packet with a fault at 0x3080. -/
def launching : State :=
  withG [(2, 0x3000), (3, 0x3001), (4, 0x60000000), (5, 0x3040), (6, 0x3080)] (tagG [7] (withMem [(0x1000, 64, 0),
    (0x2000, 64, platWith 0xF), (0x2040, 8, 0x001002000000), (0x3000, 64, packetWith 7 1 0), (0x3040, 64, 0x2000 * 2 ^ 384 +
      0x1000 * 2 ^ 320 + 7 * 2 ^ 224), (0x3080, 64, packetWith 0 1 0)] world))

def packetAt (a : Nat) (s : State) : BitVec 512 :=
  match readVirtual s.cur.sys.asid s.user a 64 s with | .ok bs => BitVec.ofNat 512 (leNat bs) | _ => 0

def elsewhere : State := withMem [(0x2000, 64, platWith 0xE)] launching
def parkedTask : QTask :=
  let r : TaskRef := { serial := 0, inst := 0, packet := 0, packetAddr := 0, x := 0, y := 0, z := 0, notice := false, rebuild := none,
                       pour := false }
  { ref := r, bank := 3, pri := 0, since := 0, parked := none, watching := false, saved := none }
def banksFull (s : State) : State := s.modQueues (fun q => { q with tasks := List.replicate 4096 parkedTask })

def okIs {α ε : Type} (p : α → Bool) (r : Except ε α) : Bool := match r with | .ok a => p a | .error _ => false

theorem test_launch_hypotheses : allLone [.launch (gp 2), .spawn (gp 5)] launching = true ∧ launching.isRebuild = false ∧
    okIs (fun h => ownInMask (platDmask h) launching) (launchCheck (packetAt 0x3000 launching) false launching) = true ∧
    okIs (fun h => !ownInMask (platDmask h) elsewhere) (launchCheck (packetAt 0x3000 elsewhere) false elsewhere) = true ∧
    okIs (fun _ => true) (launchCheck (packetAt 0x3080 launching) false launching) = false ∧
    heldSet 7 launching = false ∧ launching.setsFull = false ∧ bankFull 0 launching = false ∧ gTag 7 launching = true ∧
    (match readVirtual 0 true 0x60000000 64 launching with | .fail .translation _ => true | _ => false) = true ∧
    heldSet 7 (after (.launch (gp 2)) launching) = true := by decide +kernel

theorem test_spawn_hypotheses :
    okIs (fun h => okIs (fun e => entryOk e (platDmask h) launching && entHome e == launching.die.coord)
      (platEntry (packetAt 0x3040 launching) h 0 0 0 launching)) (launchCheck (packetAt 0x3040 launching) true launching) = true ∧
    okIs (fun h => okIs (fun e => !entryOk e (platDmask h) elsewhere)
      (platEntry (packetAt 0x3040 elsewhere) h 0 0 0 elsewhere)) (launchCheck (packetAt 0x3040 elsewhere) true elsewhere) = true ∧
    pktPredid (packetAt 0x3040 launching) = 0 ∧ trackedSet 7 launching = none ∧ launching.setsFull = false ∧
    launching.die.queues.sets = [] ∧
    ((after (.spawn (gp 5)) launching).die.queues.tasks.getLast?.map (fun q => q.ref.packet) ==
      some (packetAt 0x3040 launching)) = true := by decide +kernel

theorem test_full_bank : bankFull 3 (banksFull launching) = true := by decide +kernel
/-- A condition tree of one node: k1 takes OFF0, else OFF1. -/
def fork (off0 off1 : Nat) : TreeF :=
  { shape := 1, test1 := 1, test2 := 0, test3 := 0, test4 := 0, off0 := BitVec.ofNat 14 off0, off1 := BitVec.ofNat 14 off1,
    off2 := 0, off3 := 0, off4 := 0 }

def aiming : State := tagG [5] (withG [(2, 0x80), (3, 0x81), (4, 0xFFFFFFFFFFFFFFC0)] world)

theorem test_transfer_hypotheses :
    allLone [.jmp 1, .jmp 0x200000, .call 1, .jmpr (gp 2), .jmpr (gp 3), .jmpr (gp 4), .jmpr (gp 5), .ret (gp 3), .ret (gp 5),
      .tree (fork 1 0), .tree (fork 1 2)] aiming = true ∧ aiming.pc = 0 ∧ gTag 5 aiming = true ∧
    treeOff (fork 1 0) (leafTaken (fork 1 0) (treePath (fork 1 0) (fun _ r => kReg r aiming))) = 0 ∧
    treeOff (fork 1 2) (leafTaken (fork 1 2) (treePath (fork 1 2) (fun _ r => kReg r aiming))) = 2 ∧
    (after (.jmp 1) aiming).pc = 64 ∧ gReg 31 (after (.call 1) aiming) = 5 ∧ (after (.ret (gp 3)) aiming).pc = 0x81 := by
  decide +kernel

/-! Loops: at 9 stands a bundle of one `movi`. -/

def level (last : Option Nat) (left : Nat) : Level := { first := 64, len := 5, last := last.map (BitVec.ofNat 64), left := left }
def looped (ls : List Level) : State := world.modFlow (fun w => { w with levels := ls })
def codeHere : State := withMem [(9, 5, 0x000285E002)] world
/-- Four bundles at 0, in the body of an open level. -/
def inBody : State := (withMem [(0, 9, 0x000000A0020000000008), (9, 5, 0x000285E002), (14, 5, 0x000285E002), (19, 5, 0x000285E002)] world).modFlow
  (fun w => { w with pc := 9, levels := [{ first := 9, len := 3, last := some 19, left := 2 }] })

theorem test_loop_hypotheses :
    allLone [.loopImmediate 3 2, .loopImmediate 0 1, .loopRegister (gp 2) 0, .loopRegister (gp 5) 1] aiming = true ∧
    allLone [.loopImmediate 3 2, .loopImmediate 3 3] inBody = true ∧
    (bodyAt inBody 3 9).1.findIdx? (fun a => a == inBody.pc.toNat) = some 0 ∧ (0 : Nat) + 1 + 2 ≤ 3 ∧
    quiet (looped [level none 2, level none 2]) = true ∧ (bits 0 32 (gReg 2 aiming) : BitVec 32).toNat ≠ 0 ∧
    bodyAt codeHere 1 9 = ([9], .at_ 14) ∧ bodyAt world 1 0x60000000 = ([], .fault 0x60000000) ∧
    (after (.loopImmediate 0 1) codeHere).pc = 14 ∧
    (after (.loopImmediate 3 1) codeHere).cur.flow.levels = [{ first := 9, len := 1, last := some 9, left := 3 }] ∧
    (after (.loopImmediate 3 3) inBody).cur.flow.levels = (traps (.loopImmediate 3 3) .loopNest 0 0 inBody).cur.flow.levels := by decide +kernel

theorem test_level_hypotheses :
    let at_ := fun (ls : List Level) => advanceFlow 9 { world.cur.flow with pc := 4, levels := ls }
    (at_ [level (some 8) 2]).pc = 9 ∧ (at_ [level (some 4) 2]).pc = 64 ∧ (at_ [level (some 4) 1]).pc = 9 ∧
    (at_ [level (some 4) 2, level (some 8) 1]).pc = 64 ∧
    (at_ [level (some 4) 2, level (some 4) 2]).levels = [level (some 4) 1, level (some 4) 1] ∧
    (at_ [level (some 4) 1, level (some 8) 1]).pc = 9 ∧
    (at_ [level (some 4) 1, { level (some 4) 2 with first := 128 }]).pc = 128 ∧
    (at_ [level (some 4) 1, level (some 4) 1]).levels = [] := by decide +kernel

/-! Services -/

def firstTask : TaskRef :=
  { serial := 1, inst := 1, packet := BitVec.ofNat 512 (packetWith 7 1 0), packetAddr := 0x3000, x := 0, y := 0, z := 0,
    notice := false, rebuild := none, pour := false }

/-- The context runs a task of set 7. -/
def tasked : State := (world.modFlow (fun w => { w with task := some firstTask })).modQueues (fun q => { q with sets := [
  { inst := 1, order := .own, setid := 7, packet := firstTask.packet, dmask := 1, here := true, pred := none, live := 1, cursor := none,
    succ := false, failed := false, doneAt := [], copy := 0, arrived := 0 }] })

def hinted : PhintF := { index := 0xFFF, planes := 0, trees := 0, queues := 0, regs := 0 }
def toHandler (s : State) : State := s.modSys (fun y => { y with tvec := 0x400 })
def preempted (s : State) : State := s.modFlow (fun w => { w with preempt := true })

theorem test_service_hypotheses :
    allLone [.yield, .phint hinted, .sysc 3, .succ] tasked = true ∧ tasked.acquireHeld = false ∧ gTag 1 tasked = false ∧ gTag 1 (tagG [1] tasked) = true ∧
    (liveRanges 0xFFF (preempted tasked)).isSome = true ∧ settled (preempted tasked) = true ∧
    allLone [.phint hinted] (preempted tasked) = true ∧ (preempted tasked).cur.sys.handler = false ∧
    (after (.phint hinted) (preempted tasked)).cur.flow.residency = .saving ∧
    (after (.sysc 3) tasked).die.queues.notices.length = 1 ∧ (after .succ tasked).die.queues.sets.map (fun e => e.succ) = [true] :=
  by decide +kernel

theorem test_liveness_entry_hypotheses :
    allLone [.phint { hinted with index := 0 }] (preempted tasked) = true ∧ liveRanges 0 (preempted tasked) = none ∧
    (after (.phint { hinted with index := 0 }) (preempted (toHandler tasked))).pc = 0x400 := by decide +kernel

theorem test_rebuild_service_hypotheses :
    let s := tasked.modFlow (fun w => { w with task := some { firstTask with rebuild := some { ident := 1, ver := 1 } } })
    allLone [.succ] s = true ∧ s.isRebuild = true := by decide +kernel

theorem test_notice_queue_full : 4096 ≤ (tasked.modQueues (fun q => { q with notices := List.replicate 4096 0 })).die.queues.notices.length := by
  decide +kernel

/-! Traps -/

def inHandler (s : State) : State := (toHandler s).modSys (fun y => { y with handler := true, trapinfo := BitVec.ofNat 640 (0x1234 * 2 ^ 128) })

theorem test_trap_hypotheses : quiet (toHandler tasked) = true ∧ settled (toHandler tasked) = true ∧
    handled .poison (toHandler tasked) = true ∧ handled .softwareTrap (toHandler tasked) = true ∧
    allLone [.trap 9] (toHandler tasked) = true ∧ allLone [.eret] (toHandler (sup.modFlow (fun w => { w with task := tasked.cur.flow.task }))) = true ∧ allLone [.eret] (inHandler tasked) = true ∧
    (after (.trap 9) (toHandler tasked)).pc = 0x400 ∧ (after (.trap 9) (toHandler tasked)).cur.sys.handler = true ∧
    (after (.eret) (inHandler tasked)).pc = 0x1234 ∧ (after (.eret) (toHandler tasked)).pc = 0x400 := by decide +kernel

theorem test_retirement_hypotheses : quiet tasked = true ∧ settled tasked = true ∧ 0x19 ≤ Cause.watchdog.code.toNat ∧
    tasked.cur.sys.tvec = 0 ∧ (inHandler tasked).cur.sys.handler = true ∧ tasked.cur.flow.task = some firstTask ∧
    tasked.die.rings = [] ∧ tasked.core.prefetch = [] ∧ tasked.cur.flow.region = none ∧
    tasked.cur.flow.slots.all (fun x => !x.held) = true ∧ allLone [.done] tasked = true ∧ tasked.arrayBusy = false ∧
    tasked.die.queues.publications = [] ∧ (after .done tasked).cur.flow.residency = .free ∧
    (traps .yield .poison 0 0 tasked).die.queues.publications.length = 1 := by decide +kernel

theorem test_done_waits :
    let s := tasked.modCore (fun c => { c with fact := some { ctx := 0, instr := .yield, fmt := 0, pc := 0, logged := [], flags := 0 } })
    quiet s = true ∧ allLone [.done] s = true ∧ s.arrayBusy = true := by decide +kernel

theorem test_watchdog_hypotheses :
    let s := sup.modCtx (fun c => { c with g := (((c.g.set 2 0).set 3 0x4000000000000003).set 4 0x8000000000000001).set 5 0xC000000000000000 })
    allLone [.wdogSetZero (gp 2), .wdogSuspend (gp 3), .wdogResume (gp 4), .wdogExpire (gp 5)] s = true ∧
    (after (.wdogExpire (gp 5)) s).cur.sys.wdForced = true := by decide +kernel
/-! ## Hypotheses of the statements: flags, the matrix array -/

def sf (f c : Nat) : SF := { guard := 0, flag := BitVec.ofNat 5 f, count := BitVec.ofNat 3 c }
def withF (f v : Nat) (s : State) : State := s.modCore (fun c => { c with f := c.f.setIfInBounds f (BitVec.ofNat 16 v) })
def granted : State := world.modFlow (fun w => { w with flagGrant := some 0, barGrant := some 0 })
def arrived (n : Nat) (l : List CtxId) (s : State) : State := s.modCluster (fun c => { c with barrier := some { count := n, arrived := l } })

/-- A context of the core that waits at the barrier. -/
def other : CtxId := { core := 0, ctx := 1 }
def pairAtBar : State := arrived 2 [other] (modCtxAt other (fun c => c.modFlow (fun w => { w with barWaiting := some 8 })) world)

theorem test_flag_hypotheses : allLone [.pflag (sf 3 1), .wflag (sf 3 1), .bar (sf 0 2), .rsync (sf 3 0)] world = true ∧
    allLone [.wflag (sf 3 1), .bar (sf 0 2)] granted = true ∧ world.core.waiters = [] ∧ world.cur.flow.flagGrant ≠ some world.pc ∧
    (2 : Nat) ≤ ((withF 3 2 world).core.f[3]).toNat ∧ (world.core.f[3]).toNat < 1 ∧
    quiet (arrived 3 [] world) = true ∧ (arrived 3 [] world).cluster.barrier.isSome = true ∧
    quiet pairAtBar = true ∧ [other].Nodup ∧ other ≠ pairAtBar.curId ∧ (ctxAt other pairAtBar).flow.barWaiting.isSome = true ∧
    (after (.bar (sf 0 2)) pairAtBar).cluster.barrier = none ∧ (after (.bar (sf 0 2)) world).cluster.barrier.isSome = true ∧
    (ctxAt other (after (.bar (sf 0 2)) pairAtBar)).flow.barGrant = some 8 := by decide +kernel

/-- An uncompleted operation of the context's task. -/
def opHere (kind : OpKind) (s : State) : State := s.modDie (fun d => { d with ops := d.ops ++ [{ mkOp kind s with id := 900 }], nextId := 901 })

theorem test_rsync_waits : allLone [.rsync (sf 3 0)] (opHere .posted tasked) = true ∧
    ((opHere .posted tasked).taskOps.filter (fun o => o.counted)).length = 1 ∧
    (after (.rsync (sf 3 0)) (opHere .posted tasked)).die.ops.length = 2 := by decide +kernel

def mf (q p c r m : Nat) : MF :=
  { guard := 0, queue := BitVec.ofNat 5 q, plane := BitVec.ofNat 2 p, caddr := BitVec.ofNat 17 c, row := BitVec.ofNat 7 r, modf := BitVec.ofNat 8 m }
def fmtIs (v : Nat) (s : State) : State := s.modSys (fun y => { y with fmt := BitVec.ofNat 32 v })
def withPlane (p : Nat) (x : Plane) (s : State) : State := s.modCore (fun c => { c with planes := c.planes.setIfInBounds p x })
def resRow (n : Nat) : Row := { elems := List.replicate 128 (.res 1 1 1 false (BitVec.ofNat 20 n)), poison := false, pair := none }
def resPlane : Plane := { kind := .residue, rows := [(2, resRow 3), (3, { resRow 1 with poison := true, pair := some (1, 2) })] }
def fpPlane : Plane := { kind := .fp64, rows := [(1, { elems := [.fp 0x3FF0000000000000 false false], poison := false, pair := none })] }

/-- Queue 1 holds an entry, queue 4 is full, queue 6 holds a poisoned entry; integer formats; plane 1 holds residues, plane 2 FP64. -/
def arrayed : State := withPlane 2 fpPlane (withPlane 1 resPlane (fmtIs 0x6CC0 (withQ 6 [{ landedEntry 1 with poison := true }]
  (withQ 4 (List.replicate 4 (landedEntry 0)) (withQ 1 [landedEntry 0x3F] world)))))
def arrayed64 : State := fmtIs 0xDBB0 arrayed

theorem test_push_hypotheses :
    allLone [.mpush (mf 1 0 0 0 0), .mpush (mf 1 0 0 0 3), .mpush (mf 1 0 0 0 4), .mpush (mf 6 0 0 0 4), .mpush (mf 5 0 0 0 0),
      .mshift (mf 0 0 0 0 3), .mshift (mf 0 0 0 0 254), .mzero (mf 0 1 0 0 0)] arrayed = true ∧
    allLone [.mpush (mf 1 0 0 0 1)] arrayed64 = true ∧ arrayed.core.fact = none ∧ headTag 6 arrayed = true ∧
    arrayed.cur.queue 5 = [] ∧ arrayed.cur.queue 1 ≠ [] ∧ (bits 8 4 arrayed.cur.sys.fmt : BitVec 4) ≠ 11 ∧
    (bits 8 4 arrayed64.cur.sys.fmt : BitVec 4) = 11 ∧ arrayed.planeHeld 1 = false ∧
    goes (.mzero (mf 0 1 0 0 0)) arrayed = true := by decide +kernel

theorem test_macc_hypotheses :
    allLone [.macc (mf 0 1 0 2 0), .macc (mf 0 0 131071 2 0), .macc (mf 0 2 0 2 3), .macc (mf 0 2 0 2 0)] arrayed = true ∧
    allLone [.macc (mf 0 2 0 1 0)] arrayed64 = true ∧
    arrayed.copeAwaited 0 (tileUnits 0x6CC0) = false ∧ arrayed.copeHeld 0 (tileUnits 0x6CC0) = false ∧
    0 + tileUnits 0x6CC0 ≤ 131072 ∧ ¬131071 + tileUnits 0x6CC0 ≤ 131072 ∧ 2 < rowCount 0x6CC0 ∧ 1 < rowCount 0xDBB0 ∧
    (arrayed.core.planes[1]).kind = accKind 0x6CC0 ∧ (arrayed.core.planes[2]).kind ≠ accKind 0x6CC0 ∧
    (arrayed.core.planes[2]).kind = accKind 0xDBB0 ∧ fmtRes 0x6CC0 = true ∧ fmtRes 0xDBB0 = false ∧
    elemAt resPlane 2 5 = .res 1 1 1 false 3 := by decide +kernel

theorem test_reconstruct_ends : (-8257920 : Int) ≤ -8257920 ∧
    reconstruct (BitVec.ofInt 8 (-8257920 % 253)) (BitVec.ofInt 8 (-8257920 % 255)) (BitVec.ofInt 8 (-8257920 % 256)) = -8257920 ∧
    reconstruct (BitVec.ofInt 8 (8257919 % 253)) (BitVec.ofInt 8 (8257919 % 255)) (BitVec.ofInt 8 (8257919 % 256)) = 8257919 := by decide

theorem test_drain_fill_hypotheses :
    allLone [.mdrain (mf 5 1 0 2 0), .mdrain (mf 4 1 0 2 1), .mdrain (mf 5 2 0 2 0), .mfill (mf 1 1 0 2 0), .mfill (mf 1 1 0 2 1),
      .mfill (mf 5 1 0 2 0), .mfill (mf 1 2 0 2 1), .mfill (mf 1 2 0 2 0)] arrayed = true ∧
    0 < drainParts 0x6CC0 ∧ 1 < fillParts 0x6CC0 ∧ roomIn 4 [] arrayed = false ∧ roomIn 5 [] arrayed = true ∧
    enabledFlags (drainEntry 0x6CC0 resPlane 2 0).2.2 arrayed = 0 ∧
    (after (.mdrain (mf 5 1 0 2 0)) arrayed).die.ops.length = 1 ∧
    ((after (.mfill (mf 1 1 0 2 0)) arrayed).cur.queue 1).length = 0 := by decide +kernel

/-- A row whose drain raises an enabled flag. -/
def sticky : State := trapsIv (withPlane 2 { kind := .fp64, rows := [(1, { elems := [.fp 0 true true], poison := false, pair := none })] } arrayed64)

theorem test_drain_flag_hypotheses : allLone [.mdrain (mf 5 2 0 1 0)] sticky = true ∧
    enabledFlags (drainEntry sticky.cur.sys.fmt (sticky.core.planes[2]) 1 0).2.2 sticky ≠ 0 ∧
    (drainEntry sticky.cur.sys.fmt (sticky.core.planes[2]) 1 0).2.1 = false := by decide +kernel

def again (n : Nat) : RptF := { stride := 0, rowStride := 1, count := BitVec.ofNat 7 n }

theorem test_repeat_hypotheses : legal [.rpt (again 4), .macc (mf 0 1 0 2 0)] false = true ∧ guardOf (.macc (mf 0 1 0 2 0)) = 0 ∧
    (List.range 4).all (fun i => 2 + i < rowCount 0x6CC0) = true ∧ ¬((2 : Int) + 1 * 127 < rowCount 0x6CC0) ∧
    (after (.rpt (again 4)) { arrayed with rest := [.macc (mf 0 1 0 2 0)] }).cur.flow.beats.length = 2 ∧
    (after (.rpt (again 4)) { arrayed with rest := [.macc (mf 0 1 0 2 0)] }).cur.flow.rptLeft = 3 := by decide +kernel

/-- A factorisation of the context, and one of another context, runs. -/
def factoring (x : BitVec 2) (s : State) : State :=
  s.modCore (fun c => { c with fact := some { ctx := x, instr := .mfch (mf 0 2 0 0 0), fmt := 0xDBB0, pc := 0, logged := [], flags := 0 } })

theorem test_array_read_hypotheses : allLone [.mrdp (mf 5 0 0 0 0), .mstat (mf 5 0 0 0 0), .mstat (mf 4 0 0 0 1), .mwait (mf 0 0 0 0 0)] arrayed = true ∧
    arrayed.factBusy = false ∧ arrayed.arrayBusy = false ∧
    allLone [.mrdp (mf 5 0 0 0 0), .mwait (mf 0 0 0 0 0)] (factoring 0 arrayed) = true ∧ (factoring 0 arrayed).factBusy = true ∧
    (factoring 0 arrayed).arrayBusy = true ∧ goes (.mrdp (mf 5 0 0 0 0)) arrayed = true := by decide +kernel

def poisonedPlane : State := withPlane 0 { fpPlane with rows := [(1, { elems := [], poison := true, pair := none })] } (withPlane 3 fpPlane arrayed64)

theorem test_factorisation_hypotheses :
    allLone [.mfch (mf 0 2 0 0 0), .mflu (mf 0 2 0 0 1), .mfqr (mf 0 2 0 0 0), .mtrs (mf 0 2 0 0 0x31), .mfch (mf 0 1 0 0 0),
      .mfch (mf 0 0 0 0 0)] poisonedPlane = true ∧ ([2, 3] : List (BitVec 2)).all (fun p => !poisonedPlane.planeHeld p) = true ∧
    ([2, 3] : List (BitVec 2)).all (fun p => (poisonedPlane.plane p).kind == .fp64) = true ∧ (poisonedPlane.plane 1).kind ≠ .fp64 ∧
    (rowAt (poisonedPlane.plane 0) 1).poison = true ∧ (List.range 32).all (fun r => !(rowAt (poisonedPlane.plane 2) r).poison) = true ∧
    (after (.mfch (mf 0 2 0 0 0)) poisonedPlane).core.fact.isSome = true := by decide +kernel

def work (x : BitVec 64) : Fwork :=
  { p := (Array.replicate 1024 0x3FF0000000000000).set! 0 x, t := Array.replicate 1024 0x3FF0000000000000, arr := ArrayCtx.reset, flags := 0 }

theorem test_column_hypotheses : (work 0).p.size = 1024 ∧ (work 0).p.at 0 0 = 0 ∧ (work 0x4000000000000000).p.at 0 0 ≠ 0 ∧
    (cholColumn 0 (work 0)).isNone = true := by decide +kernel
/-! ## Hypotheses of the statements: storage -/

/-- A record: base, extent, bounds mode, space, element format. -/
def rec (base extent mode space fmt : Nat) : Record :=
  BitVec.ofNat 256 (base + extent * 2 ^ 64 + mode * 2 ^ 176 + space * 2 ^ 184 + fmt * 2 ^ 168)
def withB (l : List (Nat × Record)) (s : State) : State :=
  s.modCtx (fun c => { c with b := l.foldl (fun b x => b.setIfInBounds x.1 x.2) c.b })
def lf (b o d imm m : Nat) : LF :=
  { guard := 0, b := BitVec.ofNat 4 b, n := 0, o := BitVec.ofNat 5 o, oport := 0, d := BitVec.ofNat 5 d, dport := 0,
    imm := BitVec.ofNat 16 imm, f := 0, fr := false, fe := 0, modf := BitVec.ofNat 8 m }
/-- With a second register read through port 1. -/
def lg (b o d imm m : Nat) : LF := { lf b o d imm m with dport := 1 }
/-- To the peer of n1. -/
def far (f : LF) : LF := { f with n := 1 }
/-- With a form of the full-empty bits. -/
def fe (n : Nat) (f : LF) : LF := { f with fe := BitVec.ofNat 2 n }

/-- b1 memory, b2 scratchpad, b3 heap, b4 unmapped memory, b5 malformed, b6 clamps, b7 wraps, b8 16 bytes of scratchpad, b9 with
stride; n1 a peer; the first 8 granules of scratchpad are full; g2 = 16, g3 = 3, g4 tagged, g5 = 0x1000, g6 = 32. -/
def stored : State :=
  let regs := withG [(2, 16), (3, 3), (5, 0x1000), (6, 32)] (tagG [4] (withQ 6 [{ landedEntry 1 with poison := true }]
    (withQ 1 [landedEntry 7] tasked)))
  let recs := withB [(1, rec 0x4000 0x1000 0 0 12), (2, rec 0 0x2000 0 2 12), (3, rec 0 0x10000 0 3 12), (4, rec 0x60000000 0x1000 0 0 12),
    (5, rec 0 0x1000 0 0 14), (6, rec 0x4000 8 1 0 12), (7, rec 0x4000 8 2 0 12), (8, rec 0 16 0 2 12),
    (9, rec 0x4000 0x1000 0 0 12 ||| BitVec.ofNat 256 (16 * 2 ^ 104 + 2 ^ 136))] regs
  { recs with
    cluster := { recs.cluster with full := (List.range 8).map (fun i => (i, true)), sp := [(0, 9), (4, 1)] }
    cur := { recs.cur with n := recs.cur.n.set 1 0x0200 } }

theorem test_record_clauses :
    recPlace (rec 0x4000 8 0 0 12) 7 = .byte 7 ∧ recPlace (rec 0x4000 8 0 0 12) 8 = .outside 8 ∧
    recPlace (rec 0x4000 8 1 0 12) (-1) = .clamped ∧ recPlace (rec 0x4000 8 2 0 12) (-1) = .byte 7 ∧
    recordOk (rec 0x4000 8 2 0 13) false = true ∧ recordOk (rec 0x4000 8 2 0 14) false = false ∧ recordOk (rec 0 8 0 0 0) true = false ∧
    recordOk (rec 0 8 0 3 0) true = true ∧ recordOk (rec (2 ^ 25 - 8) 8 0 2 0) false = true ∧
    recordOk (rec (2 ^ 25 - 8) 9 0 2 0) false = false ∧
    accessFault (rec 0x4000 8 0 0 12) false 0 8 4 4 = some (.bounds, 0x4008) ∧
    accessFault (rec 0x4000 8 0 0 12) false 0 4 4 4 = none ∧
    accessFault (rec 0x4000 8 0 0 12) false 0 6 4 4 = some (.misalignedOperand, 0) ∧
    accessFault (rec 0x4000 8 0 0 12) false 1 4 4 4 = some (.operandValue, 0) := by decide +kernel

def cellsOf (acc : Access) (r : Record) (t : Int) (n : Nat) (s : State) : Nat :=
  match cellsFor s.cur.sys.asid s.user acc (kindSpace r) s (placeAddrs r (recRun r t n)) with
  | .ok _ => 0 | .fail .translation _ => 1 | .fail .permission _ => 2 | .fail _ _ => 3

theorem test_load_hypotheses : clear stored = true ∧
    allLone [.vld (lf 1 2 5 0 0), .vld (lf 2 2 5 0 0), .vld (lf 4 2 5 0 0x80), .vld (far (lf 3 2 5 0 0)), .vld (lf 1 4 5 0 0), .vld (lf 1 3 5 0 0),
      .vld (fe 2 (lf 2 0 5 0 0)), .vld (fe 1 (lf 2 5 5 0 0)), .sld (lf 1 2 5 0 0x07), .sld (lf 2 2 5 8 0x02), .sld (far (lf 3 2 5 0 0)),
      .sld (fe 2 (lf 2 0 5 4 0)), .sld (lf 4 2 5 0 0), .sld (lf 5 2 5 0 0x80)] stored = true ∧
    roomIn 5 [] stored = true ∧ gTag 4 stored = true ∧ freeSlots stored.cur = 8 ∧ stored.spHeld [16] = false ∧
    cellsOf .read (rec 0x4000 0x1000 0 0 12) 16 8 stored = 0 ∧ cellsOf .read (rec 0x60000000 0x1000 0 0 12) 16 8 stored = 1 ∧
    accessFault (stored.cur.b[5]) false 0 16 1 1 = some (.operandValue, 0) ∧ accessFault (stored.cur.b[1]) false 0 3 128 16 ≠ none ∧
    accessFault (stored.cur.b[2]) false 2 0 128 16 = none ∧
    (granulesOf (List.range 128)).all (fun g => isFull g stored) = true ∧ isFull 0x100 stored = false := by decide +kernel

theorem test_load_results : (after (.vld (lf 1 2 5 0 0)) stored).die.ops.length = 1 ∧ (after (.sld (lf 2 2 5 8 2)) stored).die.ops.length = 1 ∧
    (after (.sld (far (lf 3 2 5 0 0))) stored).die.ops.length = 1 ∧
    isFull 0 (after (.sld (fe 2 (lf 2 0 5 4 0))) stored) = false := by decide +kernel

theorem test_store_hypotheses :
    allLone [.vst (lf 1 2 1 0 0x01), .vst (lf 2 2 1 0 0), .vst (lf 2 2 5 0 0), .vst (lf 2 2 6 0 0), .vst (lf 2 3 1 0 0),
      .vst (fe 2 (lf 2 0 1 0 0)), .vst (fe 1 (lf 2 0 1 0 0)), .vst (far (lf 3 2 1 0 0)), .vst (lf 4 2 1 0 0), .sst (lg 1 2 3 0 3), .sst (lg 2 2 3 0 3),
      .sst (lg 2 2 4 0 3), .sst (fe 2 (lg 2 5 3 0 0)), .sst (far (lg 3 2 3 0 3)), .sst (lg 4 2 3 0 3)] stored = true ∧
    stored.cur.queue 1 ≠ [] ∧ stored.cur.queue 5 = [] ∧ headTag 6 stored = true ∧ headTag 1 stored = false ∧
    cellsOf .write (rec 0x4000 0x1000 0 0 12) 16 8 stored = 0 ∧ cellsOf .write (rec 0x60000000 0x1000 0 0 12) 16 8 stored = 1 ∧
    (after (.vst (lf 2 2 1 0 0)) stored).cur.queue 1 = [] ∧ scratchRead 16 (after (.sst (lg 2 2 3 0 3)) stored) = 3 ∧
    isFull 0x100 (after (.sst (fe 2 (lg 2 5 3 0 0))) stored) = true := by decide +kernel

/-! Tiles, rows and blocks -/

/-- A descriptor of one row of 16 bytes, at scratchpad byte 512. -/
def rowDesc : Nat := 16 * 2 ^ 496 + ((List.range 6).map (fun k => 2 ^ (80 * k))).sum
def described : State :=
  stored.modCluster (fun c => { c with sp := memWrite c.sp 512 (leBytes 64 rowDesc) })

theorem test_tile_hypotheses : clear described = true ∧
    allLone [.tld (lg 1 2 6 0x0101 0), .tld (lg 1 2 3 0x0101 0), .tld (lg 5 2 6 0x0101 0x80), .tld (far (lg 3 2 6 0x0101 0)), .tst (lg 9 2 6 0x0101 0),
      .tst (lg 1 2 3 0x0101 0), .tst (lg 8 2 6 0x0101 0), .tst (far (lg 3 2 6 0x0101 0)), .tldn (lg 1 2 6 1 0), .tstn (lg 1 2 6 1 0),
      .tldn (far (lg 3 2 6 1 0)), .tldn (lg 1 2 3 1 0), .tstn (lg 1 2 6 0 0)] described = true ∧
    tileShape (described.cur.b[1]) 0x0101 = some (2, 32) ∧ (tileShape (described.cur.b[1]) 0).isSome = true ∧
    firstOutside (described.cur.b[1]) (tilePlaces (described.cur.b[1]) 16 0x0101) = none ∧
    (firstOutside (described.cur.b[8]) (tilePlaces (described.cur.b[8]) 16 0x0101)).isSome = true ∧
    recordOk (described.cur.b[5]) false = false ∧ scratchFault (scratchRun 32 64) described = false ∧
    descOk (readDesc 1 described) 32 = true ∧ descOk (readDesc 0 described) 32 = false ∧ descOk (readDesc 1 described) 3 = false ∧
    firstOutside (described.cur.b[1]) (rowPlaces (described.cur.b[1]) 16 (readDesc 1 described)) = none ∧
    (after (.tld (lg 1 2 6 0x0101 0)) described).die.ops.length = 1 ∧ (after (.tst (lg 9 2 6 0x0101 0)) described).die.ops.length = 1 ∧
    (after (.tldn (lg 1 2 6 1 0)) described).die.ops.length = 1 ∧
    (after (.tstn (lg 1 2 6 1 0)) described).die.ops.length = 1 := by decide +kernel

theorem test_block_hypotheses : clear described = true ∧
    allLone [.bxf (lf 1 2 0 0 8), .bxf (lf 8 0 0 0 1), .bxf (lf 5 0 0 0 1), .bxf { lf 1 0 0 3 0x48 with fr := true }, .bxf (far (lf 3 0 0 0 8))]
      described = true ∧
    recordOk (described.cur.b[8]) false = true ∧ firstOutside (described.cur.b[1]) (recRun (described.cur.b[1]) 16 16) = none ∧
    scratchFault (placeAddrs (described.cur.b[8]) ((List.range 16).map Place.byte)) described = false ∧
    (after (.bxf (lf 1 2 0 0 8)) described).die.ops.length = 1 ∧ goes (.bxf (far (lf 3 0 0 0 8))) described = true := by decide +kernel

theorem test_line_hypotheses : let s := withG [(2, 0x1000), (6, 80), (7, 81)] (withB [(1, rec 0x4000 0x3000 0 0 12)] stored)
    allLone [.tprf (lg 1 2 6 0 0), .tprf (lg 1 2 3 0 0)] s = true ∧ ttagOk 80 0x5000 s = true ∧ ttagOk 3 0x5000 s = false ∧
    recordOk (s.cur.b[1]) false = true ∧ (after (.tprf (lg 1 2 6 0 0)) s).die.ops.length = 1 := by decide +kernel

/-! Tags, granules, fences -/

/-- Operations that read and that write stand open. -/
def reading (s : State) : State := opHere .posted (s.modDie (fun d => { d with ops := [{ mkOp .posted s with id := 899, isRead := true }] }))
def writing (s : State) : State := s.modDie (fun d => { d with ops := [{ mkOp .posted s with id := 899, isWrite := true }] })

theorem test_tag_hypotheses : let s := sup.modCtx (fun c => { c with g := ((c.g.set 2 0x5000).set 6 80).set 7 0xFFFF })
    allLone [.ttag (lg 0 2 6 0 0), .ttag (lg 0 2 7 0 0), .tinv (lf 0 6 0 0 0), .tinv (lf 0 7 0 0 0), .tlook (lf 0 2 5 0 0)] s = true ∧
    clear s = true ∧ (0x5000 / 2 ^ 12 % 512 * 16 : Nat) = 80 ∧
    (List.range 16).all (fun k => k == 0 || !tagMatches (tagOf (80 + k) s) 0x5000 0) = true ∧
    tagMatches (tagOf 80 (after (.ttag (lg 0 2 6 0 0)) s)) 0x5000 0 = true ∧ goes (.tlook (lf 0 2 5 0 0)) s = true := by decide +kernel

theorem test_granule_hypotheses :
    allLone [.feset (lf 2 2 0 3 0), .feclr (lf 2 0 0 8 0), .feset (lf 1 2 0 3 0), .feset (lf 2 3 0 1 0), .feset (lf 8 2 0 1 0)] stored = true ∧
    recordOk (stored.cur.b[2]) false = true ∧ recSpace (stored.cur.b[2]) = 2 ∧ recSpace (stored.cur.b[1]) ≠ 2 ∧
    (firstOutside (stored.cur.b[8]) [feGranule (stored.cur.b[8]) 16]).isSome = true ∧
    isFull 1 (after (.feclr (lf 2 0 0 8 0)) stored) = false ∧ isFull 9 (after (.feset (lf 2 2 0 9 0)) stored) = true := by decide +kernel

theorem test_fence_hypotheses : let s := stored.modSys (fun y => { y with mode := .supervisor })
    allLone [.fenceAcq (lf 0 0 0 3 1), .fenceRel (lf 0 0 0 3 2), .fenceAr (lf 0 0 0 3 3), .tfence (lf 0 0 0 3 0), .tfenceInv (lf 0 2 0 3 1),
      .tfenceAll (lf 0 0 0 3 2)] s = true ∧ clear s = true ∧ s.translatedHeld = false ∧
    quiet (reading s) = true ∧ (reading s).taskOps.any (fun o => o.isRead) = true ∧ quiet (writing s) = true ∧
    (writing s).taskOps.any (fun o => o.isWrite) = true ∧ (after (.tfenceAll (lf 0 0 0 3 2)) s).core.tlb = [] ∧
    s.core.tlb ≠ [] := by decide +kernel

/-! Records, atomics, signals -/

theorem test_record_transfer_hypotheses : let s := withG [(7, 0x4000), (8, 0x60000000), (9, 0x4001), (10, 0xFFFFFFFFFFFFFFFF)] stored
    clear s = true ∧ allLone [.recld (lf 3 7 0 32 0), .recst (lf 1 7 0 32 0), .recld (lf 3 8 0 0 0), .recst (lf 1 9 0 0 0),
      .swait { lg 2 2 3 0 0x40 with f := 3 }, .swait { lg 1 2 3 0 0x40 with f := 3 }, .swait { lg 1 3 3 0 0x40 with f := 3 },
      .wvis { lf 1 0 0 0 0x40 with f := 3 }, .wvis { lf 5 0 0 0 0x40 with f := 3 }] s = true ∧
    allLone ((List.range 6).map (fun m => .recmk (lf 3 2 0 1 m))) s = true ∧ allLone ((List.range 6).map (fun m => .recmk (lf 3 10 0 1 m))) s = true ∧
    (match cellsFor 0 true .read none s ((List.range 32).map (fun i => some (0x4020 + i))) with | .ok cs => !cellsPoison cs s | _ => false) = true ∧
    (match cellsFor 0 true .write none s ((List.range 32).map (fun i => some (0x60000000 + i))) with | .fail .translation _ => true | _ => false) = true ∧
    s.cur.flow.watches.countP Watch.isWord < 8 ∧ (after (.swait { lg 2 2 3 0 0x40 with f := 3 }) s).cur.flow.watches.length = 1 ∧
    ((after (.recmk (lf 3 2 0 1 0)) s).cur.b[3]) = rec 0x4010 0xFF0 0 0 12 ∧
    goes (.recld (lf 3 7 0 32 0)) s = true ∧ goes (.recst (lf 1 7 0 32 0)) s = true := by decide +kernel

theorem test_watches_full : let s := stored.modFlow (fun w => { w with watches := List.replicate 8 { kind := .scratch [] 0, flag := 1 } })
    quiet s = true ∧ lone (.swait { lg 2 2 3 0 0x40 with f := 3 }) s = true ∧ 8 ≤ s.cur.flow.watches.countP Watch.isWord := by decide +kernel

theorem test_atomic_hypotheses :
    allLone [.amo (lg 2 2 3 0 0x10), .amo (lg 1 2 3 0 0x29), .amo (far (lg 3 2 3 0 0)), .amo (lg 4 2 3 0 0), .amo (lg 5 2 3 0 0), .amoc (lg 2 2 3 0x46 0x10),
      .amoc (lg 1 2 3 0x46 0), .ssig (lg 2 2 3 0 1), .ssig (lg 1 2 3 0 0), .ssig (far (lg 3 2 3 0 0)), .ssig (lg 5 2 3 0 0)] stored = true ∧
    gTag 6 stored = false ∧ cellsOf .atomic (rec 0x4000 0x1000 0 0 12) 16 8 stored = 0 ∧
    cellsOf .atomic (rec 0x60000000 0x1000 0 0 12) 16 8 stored = 1 ∧ stored.isRebuild = false ∧
    scratchRead 16 (after (.amo (lg 2 2 3 0 0x10)) stored) = 3 ∧ scratchRead 16 (after (.ssig (lg 2 2 3 0 1)) stored) = 3 ∧
    goes (.amo (lg 1 2 3 0 0x29)) stored = true ∧ goes (.ssig (far (lg 3 2 3 0 0))) stored = true ∧ (0 : Nat) < 2 ^ 32 := by decide +kernel

def rebuilding (s : State) : State :=
  s.modFlow (fun w => { w with task := some { firstTask with rebuild := some { ident := 1, ver := 1 } } })

theorem test_rebuild_signal : clear (rebuilding stored) = true ∧ allLone [.ssig (lg 1 2 3 0 0)] (rebuilding stored) = true ∧
    (rebuilding stored).isRebuild = true := by decide +kernel

theorem test_fault_line_hypotheses : let s := setLineFault 0 true described
    clear s = true ∧ allLone [.tst (lg 9 2 6 0x0101 0), .bxf (lf 1 2 0 0 8), .vld (lf 2 2 5 0 0)] s = true ∧
    scratchFault (scratchRun 32 64) s = true ∧ (after (.bxf (lf 1 2 0 0 8)) s).die.ops = [] := by decide +kernel

/-! The tile load into the cope store -/

theorem test_cope_load_hypotheses :
    allLone [.mload (mf 1 0 128 2 0), .mload (mf 5 0 128 2 0), .mload (mf 3 0 0 2 1), .mload (mf 1 0 128 4 0)] stored = true ∧
    stored.mloadBusy = false ∧ recordOk (stored.cur.b[1]) false = true ∧ recFmt (stored.cur.b[1]) = 12 ∧ (128 : Nat) + 256 ≤ 131072 ∧
    stored.copeHeld 128 256 = false ∧ freeSlots stored.cur ≠ 0 ∧ isRelease (stored.cur.b[1]) = false ∧ stored.taskOps = [] := by
  decide +kernel

theorem test_cope_load_places : firstOutside (rec 0x4000 0x10000 0 0 12) (tilePlaces (rec 0x4000 0x10000 0 0 12) 16 0) = none ∧
    (firstOutside (rec 0x4000 16 0 0 12) (tilePlaces (rec 0x4000 16 0 0 12) 16 0)).isSome = true := by decide +kernel

/-! Trees, rings -/

/-- b1 a ring's descriptor at 0x4000: lanes 0 to 3; the task holds lane 1, lane 3 is closed; b10 scratchpad. -/
def ringed : State :=
  let s := withB [(10, rec 0 0x2000 0 2 12)] stored
  let g : Ring := { place := (.hbm, 0x4000), asid := 0, spill := 0, quota := 4, nprod := 3, reg := 10, closed := 8, ended := false,
                    items := [], spilled := 0, owners := [(1, 1), (3, 1)], gets := [] }
  s.modDie (fun d => { d with rings := [g] })

def descHere (acc : Access) (s : State) : Bool :=
  match cellsFor 0 true acc (some 0) s (placeAddrs (s.cur.b[1]) (recRun (s.cur.b[1]) 0 64)) with
  | .ok cs => cs == (List.range 64).map (fun i => some (Tier.hbm, 0x4000 + i)) && !cellsPoison cs s
  | _ => false

theorem test_tree_transfer_hypotheses : clear ringed = true ∧
    allLone [.wfill (lf 10 2 0 0 0), .wdump (lf 10 2 0 0 1), .wfill (lf 10 3 0 0 0)] ringed = true ∧
    recordOk (ringed.cur.b[10]) false = true ∧ firstOutside (ringed.cur.b[10]) (recRun (ringed.cur.b[10]) 16 4096) = none ∧
    ringed.treeHeld 0 = false ∧ (after (.wfill (lf 10 2 0 0 0)) ringed).die.ops.length = 1 := by decide +kernel

theorem test_ring_hypotheses :
    allLone [.rput (lf 1 0 1 1 0), .rput (lf 1 0 1 3 0), .rput (lf 1 0 5 1 0), .rput (lf 1 0 6 1 0), .rputReg (lf 1 0 0 2 2),
      .rputReg (lf 1 0 0 1 2), .reos (lf 1 0 0 1 0), .reos (lf 1 0 0 2 0), .rget (lf 1 0 5 31 0)] ringed = true ∧
    descHere .write ringed = true ∧ descHere .read ringed = true ∧ ringed.cur.serial = 1 ∧
    (ringAt (.hbm, 0x4000) 0 ringed).hasRoom = true ∧ ringed.die.rings.countP Ring.active < 64 ∧
    (after (.rput (lf 1 0 1 1 0)) ringed).die.rings.map (fun g => g.items.length) = [1] ∧
    (after (.rputReg (lf 1 0 0 2 2)) ringed).die.rings.map (fun g => g.reg) = [14] ∧
    (after (.reos (lf 1 0 0 1 0)) ringed).die.rings.map (fun g => g.closed) = [10] ∧
    (after (.rget (lf 1 0 5 31 0)) ringed).die.rings.map (fun g => g.gets.length) = [1] ∧
    allLone [.rputReg (lf 1 0 0 2 2), .reos (lf 1 0 0 1 0)] (rebuilding ringed) = true := by decide +kernel

theorem test_full_ring : let s := ringed.modDie (fun d => { d with rings := d.rings.map (fun g => { g with items := List.replicate 132 (.entry 1 0 false none) }) })
    lone (.rput (lf 1 0 1 1 0)) s = true ∧ (ringAt (.hbm, 0x4000) 0 s).hasRoom = false := by decide +kernel

/-! Waits of an operation for a slot, a granule or a whole place -/

/-- Every response slot is held. -/
def crowded (s : State) : State := s.modFlow (fun w => { w with slots := w.slots.map (fun x => { x with held := true }) })

theorem test_slot_wait_hypotheses : let s := crowded stored
    clear s = true ∧ freeSlots s.cur = 0 ∧ s.core.fact.isNone = true ∧ s.mloadBusy = false ∧
    allLone [.vld (far (lf 3 2 5 0 0)), .vst (far (lf 3 2 1 0 0)), .sld (far (lf 3 2 5 0 0)), .sst (far (lg 3 2 3 0 3)), .tld (far (lg 3 2 6 0x0101 0)),
      .tst (far (lg 3 2 6 0x0101 0)), .bxf (far (lf 3 0 0 0 8)), .amo (far (lg 3 2 3 0 0)), .ssig (far (lg 3 2 3 0 0)), .mload (mf 3 0 0 2 1)] s = true ∧
    (after (.sld (far (lf 3 2 5 0 0))) s).pc = 0 ∧ (after (.sld (far (lf 3 4 5 0 0))) s).die.trapCount = 0 := by decide +kernel

theorem test_clamped_atomic_hypotheses : allLone [.amo (lg 6 2 3 0 0x10), .amoc (lg 6 2 3 0x46 0)] stored = true ∧
    accessFault (stored.cur.b[6]) false 0 16 4 4 = none ∧
    (placeAddrs (stored.cur.b[6]) (recRun (stored.cur.b[6]) 16 4)).any Option.isNone = true ∧
    (after (.amo (lg 6 2 3 0 0x10)) stored).die.ops.length = 1 := by decide +kernel

theorem test_full_granule_hypotheses : lone (.sst (fe 2 (lg 2 2 3 0 0))) stored = true ∧
    (granulesOf [16]).any (fun g => isFull g stored) = true ∧ (after (.sst (fe 2 (lg 2 2 3 0 0))) stored).pc = 0 := by decide +kernel

theorem test_poisoned_record_hypotheses :
    let s := withG [(7, 0x4000)] (markPoison .hbm 0x4020 8 stored)
    clear s = true ∧ lone (.recld (lf 3 7 0 32 0)) s = true ∧
    (match cellsFor 0 true .read none s ((List.range 32).map (fun i => some (0x4020 + i))) with | .ok cs => cellsPoison cs s | _ => false) = true := by
  decide +kernel

theorem test_line_bounds : (firstOutside (rec 0x4000 8 0 0 12) (blockPlaces (rec 0x4000 8 0 0 12) 0x4000)).isSome = true := by decide +kernel

theorem test_bulk_trap_hypotheses :
    allLone [.wfill (lf 8 2 0 0 0), .wdump (lf 8 2 0 0 1), .wfill (lf 1 2 0 0 0), .wdump (lf 10 3 0 0 0), .wfill (lf 10 2 0 0 0)] (setLineFault 0 true ringed) = true ∧
    (firstOutside (ringed.cur.b[8]) (recRun (ringed.cur.b[8]) 16 4096)).isSome = true ∧ recSpace (ringed.cur.b[1]) ≠ 2 ∧
    (scratchFault (placeAddrs (ringed.cur.b[10]) (recRun (ringed.cur.b[10]) 16 4096)) (setLineFault 0 true ringed)) = true := by decide +kernel

theorem test_ring_trap_hypotheses :
    allLone [.rput (lf 2 2 1 1 0), .rputReg (lf 5 0 0 2 2), .reos (lf 2 0 0 1 0)] ringed = true ∧ ringed.isRebuild = false ∧
    ¬(recordOk (ringed.cur.b[5]) false = true) ∧ headTag 1 ringed = false ∧
    allLone [.rput (lf 1 0 1 1 0), .rputReg (lf 1 0 0 2 2)] (rebuilding ringed) = true := by decide +kernel

/-- Another ring, which is active. -/
def otherRing : Ring :=
  { place := (.hbm, 0x8000), asid := 0, spill := 0, quota := 4, nprod := 3, reg := 1, closed := 0, ended := false, items := [],
    spilled := 0, owners := [], gets := [] }

theorem test_ring_registration_hypotheses :
    let gone := ringed.modDie (fun d => { d with rings := d.rings.map (fun g => { g with ended := true }) })
    let full := ringed.modDie (fun d => { d with rings := (d.rings.map (fun g => { g with reg := 0, closed := 0 })) ++ List.replicate 64 otherRing })
    (ringAt (.hbm, 0x4000) 0 gone).ended = true ∧ (after (.rputReg (lf 1 0 0 2 2)) gone).die.rings.map (fun g => g.reg) = [4] ∧
    64 ≤ full.die.rings.countP Ring.active ∧ (ringAt (.hbm, 0x4000) 0 full).reg = 0 ∧
    (after (.rputReg (lf 1 0 0 2 2)) full).die.trapCount = 1 := by decide +kernel

/-! ## Hypotheses of the statements: regions -/

/-- The heap is mapped too. -/
def heaped : State := stored.modCore (fun c => { c with tlb := { asid := 0, page := Config.heapBase, size := 2 ^ 30, pte := 0x3F } :: c.tlb })
def openRegion : Instr := .arOpen (lf 3 5 7 (2 + 5 * 64) 0)
def opened : State := after openRegion heaped
def joinRegion : Instr := .arJoin (lf 0 0 7 0 0)
def joined : State := after joinRegion opened
/-- A generation of object 0x40, whose home is here. -/
def regionOf (gen : BitVec 14) : RegionName := { home := 0, gen := gen, obj := 0x40, asid := 0 }
def answered (a : HomeAnswer) (s : State) : State := s.modFlow (fun w => { w with homeAnswer := some a })

theorem test_region_open_hypotheses : clear heaped = true ∧ heaped.isRebuild = false ∧ freeSlots heaped.cur ≠ 0 ∧
    allLone [openRegion, .arOpen (lf 1 5 7 66 0), .arOpen (lf 3 5 7 2 0)] heaped = true ∧ recordOk (heaped.cur.b[3]) false = true ∧
    openOffset (heaped.cur.b[3]) 0x1000 = some 0x1000 ∧
    (match translate 0 true .atomic none (Config.heapBase + 0x1000) heaped with | .ok .hbm 0x1000 => true | _ => false) = true ∧
    (homeOpen (.hbm, 0x1000) 0x40 0 2 5 heaped).2.isSome = true ∧ (homeOpen (.hbm, 0x1000) 0x40 0 2 5 opened).2.isNone = true ∧
    gReg 7 opened = handleOf 0 1 0x40 := by decide +kernel

theorem test_region_join_hypotheses : clear opened = true ∧ allLone [joinRegion] opened = true ∧ opened.cur.flow.homeAnswer = none ∧
    opened.cur.flow.region = none ∧ (homeJoin (regionOf 1) (memberRef none opened) opened).2.isNone = true ∧
    (homeJoin (regionOf 2) (memberRef none opened) opened).2.isSome = true ∧ opened.die.coord ∈ opened.die.domain ∧
    joined.cur.flow.region = some { region := regionOf 1, voted := false, flag := none, shards := 0 } ∧
    allLone [joinRegion, .arCommit (lf 0 0 0 0 0), .arAbort (lf 0 0 0 0 0), .arLeave (lf 0 0 0 0 0)] (answered (.done 5 0) joined) = true ∧
    quiet (answered (.refused .regionAborted 0) joined) = true ∧ clear (answered (.asked 3) joined) = true ∧
    allLone [.arCommit (lf 0 0 0 0 0), .arAbort (lf 0 0 0 0 0), .arLeave (lf 0 0 0 0 0)] heaped = true := by decide +kernel

theorem test_region_vote_hypotheses : clear joined = true ∧
    allLone [.arCommit (lf 0 0 0 0 0), .arAbort (lf 0 0 0 0 0), .arLeave (lf 0 0 0 0 0), .arLd (lf 1 2 5 0 0), .arLd (lf 2 2 5 0 0),
      .arLd (lf 4 2 5 0 0), .arLd (lf 1 3 5 0 1), .arSt (lg 1 2 3 0 3)] joined = true ∧
    (homeCommit (regionOf 1) 0 joined).2.isNone = true ∧ (homeCommit (regionOf 2) 0 joined).2.isSome = true ∧
    (homeLeave (regionOf 1) joined).2.isNone = true ∧ (homeLeave (regionOf 2) joined).2.isSome = true ∧
    goes (.arCommit (lf 0 0 0 0 0)) joined = true ∧ (after (.arLeave (lf 0 0 0 0 0)) joined).cur.flow.region = none ∧
    (after (.arLd (lf 1 2 5 0 0)) joined).die.ops.length = 1 ∧ (after (.arSt (lg 1 2 3 0 3)) joined).die.ops.length = 1 := by decide +kernel

theorem test_region_answer_hypotheses : opened.die.ended.contains (regionOf 1) = false ∧
    (opened.modDie (fun d => { d with ended := [regionOf 1] })).die.ended.contains (regionOf 1) = true ∧
    clear (answered (.done 0 0) opened) = true ∧ lone joinRegion (answered (.done 0 0) opened) = true ∧
    (after joinRegion (answered (.done 0 0) opened)).cur.flow.region = some { region := regionOf 1, voted := false, flag := none, shards := 0 } ∧
    allLone [.arOpen { lf 3 5 7 66 0 with n := 1 }] (answered (.done 5 0) heaped) = true ∧
    gReg 7 (after (.arOpen { lf 3 5 7 66 0 with n := 1 }) (answered (.done 5 0) heaped)) = 5 ∧
    (after (.arLeave (lf 0 0 0 0 0)) (answered (.done 0 0) joined)).cur.flow.region = none := by decide +kernel

theorem test_region_place_hypotheses : lone openRegion stored = true ∧ clear stored = true ∧ recordOk (stored.cur.b[3]) false = true ∧
    (match seek 0 true .atomic none (Config.heapBase + 0x1000) stored with | .translation => true | _ => false) = true ∧
    (rebuilding heaped).releaseHeld = false ∧ freeSlots (rebuilding heaped).cur ≠ 0 ∧
    (after openRegion stored).die.trapCount = 1 := by decide +kernel

theorem test_region_refusal_hypotheses : let voted := joined.modFlow (fun w => { w with region := w.region.map (fun m => { m with voted := true }) })
    quiet voted = true ∧ voted.acquireHeld = false ∧ voted.coreOps < 256 ∧
    allLone [.arCommit (lf 0 0 0 0 0), .arLeave (lf 0 0 0 0 0)] voted = true ∧
    allLone [openRegion, joinRegion, .arLd (lf 1 2 5 0 0), .arSt (lg 1 2 3 0 3), .arCommit (lf 0 0 0 0 0), .arAbort (lf 0 0 0 0 0),
      .arLeave (lf 0 0 0 0 0)] (rebuilding heaped) = true ∧
    allLone [.arLd (lf 1 2 5 0 0), .arSt (lg 1 2 3 0 3)] heaped = true ∧ heaped.cur.flow.region = none ∧
    (findRegion (regionOf 1) joined).isSome = true ∧ objState (readObj (.hbm, 0x1000) joined) = 1 ∧ objGen (readObj (.hbm, 0x1000) joined) = 1 ∧
    (after (.arAbort (lf 0 0 0 0 0)) joined).cur.flow.region = none := by decide +kernel

/-! ## Hypotheses of the statements: events of the units -/

def waiting (v : Nat) : State := (withF 3 v world).modCore (fun c => { c with waiters := [{ ctx := 1, flag := 3, count := 2 }] })
def watching (k : WatchKind) (s : State) : State := s.modFlow (fun w => { w with watches := [{ kind := k, flag := 4 }] })
def walkArg (va : Nat) (acc : Access) : WalkArg := { asid := 0, va := BitVec.ofNat 64 va, access := acc, user := true, space := none }
def walked (va : Nat) (acc : Access) (s : State) : Nat :=
  match walkFrom va s walkLevels true placeRoot with
  | .leaf e _ => if pteAllows e acc true none then 0 else 1 | .translation => 2 | _ => 3

theorem test_wait_and_watch_hypotheses :
    (coreAt 0 (waiting 5)).waiters.find? (fun x => x.flag == 3) = some { ctx := 1, flag := 3, count := 2 } ∧
    ((coreAt 0 (waiting 1)).f[3]).toNat < 2 ∧ world.core.waiters = [] ∧
    ((coreAt 0 (after (.flagWaitRelease 0 3) (waiting 5))).f[3]) = 3 ∧
    leNat (readScratch [some 0, some 4] stored) = 0x109 ∧
    (after (.swaitPost stored.curId 0) (watching (.scratch [some 0, some 4] 0x109) stored)).cur.flow.watches = [] ∧
    (after (.swaitPost stored.curId 0) (watching (.scratch [some 0, some 4] 0x10A) stored)).cur.flow.watches.length = 1 ∧
    cellsPoison [some (.hbm, 0x1000)] stored = false ∧ leNat (readCells [some (.hbm, 0x1000)] stored) = 0 ∧
    (after (.swaitPost stored.curId 0) (watching (.memory [some (.hbm, 0x1000)] 0) stored)).cur.flow.watches = [] ∧
    (watching .never stored).cur.flow.watches.length = 1 ∧ predDone 1 stored = true ∧
    (after (.swaitPost stored.curId 0) (watching (.set 3) stored)).cur.flow.watches = [] := by decide +kernel

theorem test_walk_hypotheses : world.die.asTable.lookup 0 = some placeRoot ∧ walked 0x5000 .read world = 0 ∧
    walked 0x60000000 .read world = 2 ∧
    walked 0x5000 .read { world with pkg := { world.pkg with hbm := memWrite world.pkg.hbm placeTable (leBytes 8 0x1F) } } = 1 ∧
    (after (.translationWalkComplete 0 (walkArg 0x5000 .read)) (world.modCore (fun c => { c with tlb := [] }))).core.tlb.length = 1 := by
  decide +kernel

/-- One operation of the running task, numbered 7. -/
def flying (o : Op) (s : State) : State := s.modDie (fun d => { d with ops := [{ o with id := 7, owner := s.curId, serial := s.cur.serial }] })
def plainOp (k : OpKind) : Op := mkOp k stored
def at8 (n : Nat) : List (Option PByte) := (List.range n).map (fun i => some (Tier.hbm, 0x5000 + i))
def owing (s : State) : State := s.modCtx (fun c => { c with owed := [(.g 5, 7)] })
def owedEntry : QEntry := { bits := 0, poison := false, landed := false, interlocked := true, due := 0, op := 7 }
def stands (s : State) : Bool := match s.die.ops with | [o] => ours o s && noRsync s && o.id == 7 | _ => false
def done7 (o : Op) (s : State) : State := after (.operationComplete 7) (flying o s)

theorem test_completion_hypotheses : stands (flying (plainOp .posted) stored) = true ∧ stored.core.frozenLeft = 0 ∧ (done7 (plainOp .posted) stored).die.ops = [] ∧
    ((done7 (plainOp (.elemLoad 5 8 false false (some (77, true)))) (owing stored)).cur.g[5]) = 77 ∧
    ((done7 { plainOp (.elemLoad 5 1 true false none) with cells := at8 1 } (owing (withMem [(0x5000, 1, 0x80)] stored))).cur.g[5]) =
      0xFFFFFFFFFFFFFF80 ∧
    (done7 (plainOp (.vecLoad 9 false (some (3, true)))) (withQ 9 [owedEntry] stored)).cur.queue 9 =
      [{ owedEntry with bits := 3, poison := true, landed := true, interlocked := false, due := stored.core.cycle }] ∧
    memGet (done7 { plainOp (.vecStore 0x55) with cells := at8 128 } stored).pkg.hbm 0x5000 = 0x55 ∧
    memGet (done7 { plainOp (.elemStore 2 0x1234) with cells := at8 2 } stored).pkg.hbm 0x5001 = 0x12 ∧
    memGet (done7 { plainOp (.recStore 0x66) with cells := at8 32 } stored).pkg.hbm 0x5000 = 0x66 ∧
    memGet (done7 { plainOp (.signal false 9) with cells := at8 8 } stored).pkg.hbm 0x5000 = 9 ∧
    ((done7 { plainOp .posted with post := some 3 } stored).core.f[3]) = 1 := by decide +kernel

theorem test_vector_load_from_memory :
    ((done7 { plainOp (.vecLoad 9 false none) with cells := at8 128 } (withQ 9 [owedEntry] (withMem [(0x5001, 1, 2)] stored))).cur.queue 9).map
      (fun e => e.bits) = [0x200] := by decide +kernel

theorem test_atomic_completion_hypotheses : let s := owing (withMem [(0x5000, 4, 40)] stored)
    atomicBytes (.amo 5 0 false false false 2) 40 = some [42, 0, 0, 0] ∧ cellsPoison (at8 4) s = false ∧ s.die.shard = [] ∧
    ((done7 { plainOp (.amo 5 0 false false false 2) with cells := at8 4 } s).cur.g[5]) = 40 ∧
    memGet (done7 { plainOp (.amo 0 0 false false true 2) with cells := at8 4 } s).pkg.hbm 0x5000 = 42 := by decide +kernel

theorem test_push_completion : (after (.arrayPushLanding stored.curId 9)
    (flying (plainOp (.push 9 3 false 0x10)) (withQ 9 [owedEntry] stored))).cur.queue 9 =
      [{ owedEntry with bits := 3, landed := true, interlocked := false, due := stored.core.cycle }] := by decide +kernel

theorem test_tile_completion : let o := { plainOp (.tileLoad false 32 0x0101) with record := rec 0x4000 0x1000 0 0 12, offset := 16 }
    tileShape o.record 0x0101 = some (2, 32) ∧ o.doomed = false ∧
    (engineRead o o.record (tilePlaces o.record 16 0x0101) (flying o stored)).1.length = 64 ∧
    (engineRead o o.record (tilePlaces o.record 16 0x0101) (flying o stored)).2 = .done ∧
    findOp 7 (done7 o stored) = none ∧ isFull 3 (done7 o stored) = true := by decide +kernel

theorem test_engine_fault : let o := { plainOp (.tileStore 32 0x0101) with record := rec 0x60000000 0x1000 0 0 12, offset := 16 }
    (match (scanCells o .write (kindSpace o.record) (flying o stored) (placeAddrs o.record (tilePlaces o.record 16 0x0101))).2 with
      | .fail .translation 0x60000010 => true | _ => false) = true ∧
    ((after (.engineFault 7) (flying o stored)).cur.flow.due.map (fun r => r.faddr)) = [0x60000010] := by decide +kernel

theorem test_fill_hypotheses : let o := { plainOp (.treeFill 2 false 1) with record := rec 0x1000 16 1 2 12, offset := 0 }
    stands (flying o stored) = true ∧
    (granulesOf (named (placeAddrs o.record (recRun o.record 0 4096)))).any (fun g => !isFull g stored) = true ∧
    (granulesOf (named (placeAddrs o.record (recRun o.record 0 4096)))).all (fun g => isFull g (setFullAll [0x100] true stored)) = true := by
  decide +kernel

theorem test_cope_completion_hypotheses : let o := { plainOp (.mload (mf 2 0 128 2 0) 12 0) with record := rec 0 0x8000 0 2 12, offset := 0 }
    let s := flying o stored
    s.beatsLeft = false ∧ s.die.ops.find? (fun x => x.isMload && x.owner == s.curId) = s.die.ops.head? ∧ recSpace o.record = 2 ∧
    stands s = true := by decide +kernel

theorem test_cope_completion_length (r : Record) (o : Int) (h : recFmt r = 12) : (tilePlaces r o 0).length % 64 = 0 := by
  simp [tilePlaces, tileShape, stdShape, h, tileOffsets, List.length_flatMap]

theorem test_landing_hypotheses : let p : Pending := { dest := .g 5, value := 8, poison := false, flags := 0, due := 9, landed := false }
    let s := stored.modCtx (fun c => { c with pend := [p] })
    s.cur.pend[0]? = some p ∧ ((after (.fixedLatencyResultLanding s.curId 0) s).cur.g[5]) = 8 := by decide +kernel

/-- A factorisation of a plane that lists one row: every other diagonal entry is zero. -/
def started : State := after (.mfch (mf 0 2 0 0 0)) (fmtIs 0xDBB0 (withPlane 2 fpPlane stored))
def eye : Plane := { kind := .fp64, rows := (List.range 32).map (fun i =>
  (i, { elems := List.replicate i (.fp 0 false false) ++ [.fp 0x3FF0000000000000 false false], poison := false, pair := none })) }
/-- A factorisation of the unit matrix that FPROG resumes at a column. -/
def resumed (col : Nat) : State := after (.mfch (mf 0 2 0 0 0)) (fmtIs 0xDBB0 (withPlane 2 eye (stored.modArr (fun a =>
  { a with fprog := BitVec.ofNat 64 (0x1200 + col) }))))

theorem test_factorisation_event_hypotheses :
    (started.core.fact.map (fun f => f.ctx)) = some started.core.sel ∧ started.cur.flow.residency = .running ∧
    started.core.frozenLeft = 0 ∧ (resumed 31).core.frozenLeft = 0 ∧
    (started.core.fact.map (fun f => f.seen)) = some 0 ∧ (runColumns 32 started).2 = 2 ∧ (runColumns 32 (resumed 31)).2 = 1 ∧ (runColumn (resumed 30)).2 = 0 ∧
    (after (.factorisationPivotStop started.curId) started).core.fact.isNone = true ∧
    (after (.factorisationComplete started.curId) (resumed 31)).cur.arr.fprog = 0 := by decide +kernel

theorem test_interruption_point :
    let s := (resumed 30).modFlow (fun w => { w with due := [{ cause := .watchdog, aux := 0, faddr := 0, slot := 0, pc := 0, logged := [], ret := none, cycle := 0 }] })
    s.cur.flow.preempt = false ∧ s.cur.flow.due ≠ [] ∧
    (after (.factorisationInterruptionPoint s.curId) s).cur.flow.pendingArray.length = 1 := by decide +kernel

theorem test_spill_hypotheses : let s := ringed.modDie (fun d => { d with rings := d.rings.map (fun g => { g with
      spill := 0x8000, items := List.replicate 130 (.entry 1 5 false none) }) })
    s.die.rings.all (fun g => g.spillable && g.active) = true ∧ ringed.die.rings.all (fun g => g.spillable) = false ∧
    (match cellsFor 0 true .write (some 0) s ((List.range 128).map (fun i => some (0x8000 + i))) with | .ok (some _ :: _) => true | _ => false) = true ∧
    ((after (.ringSpill 0x4000) s).die.rings.map (fun g => g.spilled)) = [1] := by decide +kernel

/-! Waits and traps of held state, fills by the host, and translation fences beyond the die -/

/-- A pre-empted task holds a region of the core. -/
def holding (k : HeldKind) (s : State) : State := s.modCore (fun c => { c with held := [{ owner := 99, kind := k }] })

theorem test_held_region_hypotheses :
    allLone [.tldn (lg 1 2 6 1 0), .tstn (lg 1 2 6 1 0)] (holding (.scratch 8 1) described) = true ∧
    (holding (.scratch 8 1) described).spHeld (named (scratchRun 512 64)) = true ∧ described.spHeld (named (scratchRun 512 64)) = false ∧
    (after (.tldn (lg 1 2 6 1 0)) (holding (.scratch 8 1) described)).pc = described.pc ∧
    lone (.mload (mf 1 0 128 2 0)) (holding (.cope 128 1) stored) = true ∧ (holding (.cope 128 1) stored).copeHeld 128 256 = true ∧
    lone (.mload (mf 2 0 128 0 0)) (holding (.scratch 0 1) stored) = true ∧
    (holding (.scratch 0 1) stored).spHeld ((placeAddrs (stored.cur.b[2]) (tilePlaces (stored.cur.b[2]) 0 0)).filterMap id) = true ∧
    allLone [.wfill (lf 10 2 0 0 2), .wdump (lf 10 2 0 0 2)] (holding (.tree 2) ringed) = true ∧ (holding (.tree 2) ringed).treeHeld 2 = true := by
  decide +kernel

theorem test_late_poison_hypotheses :
    allLone [.sst (fe 2 (lg 2 2 4 0 0)), .sst (lg 5 2 4 0 0), .sst (fe 2 (lg 2 5 4 0 0)), .sst (lg 1 2 4 0 3), .sst (far (lg 3 2 4 0 3))] stored = true ∧
    gTag 4 stored = true ∧ (accessFault (stored.cur.b[5]) false 0 16 1 1).isSome = true ∧
    (granulesOf [16]).any (fun g => isFull g stored) = true ∧ (granulesOf [0x1000]).any (fun g => isFull g stored) = false ∧
    cellsOf .write (rec 0x4000 0x1000 0 0 12) 16 8 stored = 0 ∧ freeSlots stored.cur ≠ 0 := by decide +kernel

/-- The host fills translations, and no entry is kept. -/
def unfilled : State := ((stored.modRegs (fun r => { r with dutymode := 4, assistbase := 0x1000 })).modDie (fun d =>
  { d with fills := [] })).modCore (fun c => { c with tlb := [] })
def pends (acc : Access) (s : State) : Bool :=
  match s.cells acc (some 0) [some 0x4010] with | .fail (.pending _ a) _ => !a | _ => false

theorem test_host_fill_hypotheses : pends .write unfilled = true ∧ pends .read unfilled = true ∧ clear unfilled = true ∧
    allLone [.sst (lg 1 2 3 0 0), .sld (lf 1 2 5 0 0)] unfilled = true ∧
    (after (.sst (lg 1 2 3 0 0)) unfilled).pkg.fw.assists.length = 1 ∧ (after (.sst (lg 1 2 3 0 0)) unfilled).pc = unfilled.pc := by
  decide +kernel

/-- A supervisor whose domain has another die, with a heap address in g5 and a tagged g4. -/
def fencing : State := (withG [(5, Config.heapBase)] stored).modSys (fun y => { y with mode := .supervisor })
def askedFor (id : Nat) (s : State) : State := s.modFlow (fun w => { w with homeAnswer := some (.asked id) })

theorem test_far_fence_hypotheses : clear fencing = true ∧ fencing.translatedHeld = false ∧ fencing.cur.flow.homeAnswer = none ∧
    fencing.die.domain.any (fun d => d != fencing.die.coord && d != 0xFFFF) = true ∧
    allLone [.tfenceInv (lf 0 5 0 4 1), .tfenceInv (lf 0 5 0 3 1), .tfenceInv (lf 0 4 0 3 1), .tfenceAll (lf 0 0 0 4 2)] fencing = true ∧
    Config.heapBase ≤ (gReg 5 fencing).toNat ∧ freeSlots fencing.cur ≠ 0 ∧ freeSlots (crowded fencing).cur = 0 ∧
    allLone [.tfenceInv (lf 0 5 0 4 1), .tfenceAll (lf 0 0 0 4 2)] (crowded fencing) = true ∧ clear (crowded fencing) = true ∧
    (after (.tfenceAll (lf 0 0 0 4 2)) fencing).cur.flow.homeAnswer = some (.asked fencing.die.nextId) ∧
    (askedFor 3 fencing).acquireHeld = false ∧ findOp 3 (askedFor 3 fencing) = none ∧
    allLone [.tfenceInv (lf 0 5 0 4 1), .tfenceAll (lf 0 0 0 4 2)] (askedFor 3 fencing) = true ∧
    (after (.tfenceAll (lf 0 0 0 4 2)) (askedFor 3 fencing)).cur.flow.homeAnswer = none ∧
    (let s := askedFor 7 (flying (plainOp .posted) fencing)
     quiet s = true ∧ (findOp 7 s).isSome = true ∧ s.acquireHeld = false ∧
     (after (.tfenceAll (lf 0 0 0 4 2)) s).cur.flow.homeAnswer = some (.asked 7)) := by decide +kernel

theorem test_tag_trap_hypotheses : let s := sup.modCtx (fun c => { c with g := ((c.g.set 2 0x5000).set 6 80).set 7 0xFFFF, gPoison := 0x10 })
    allLone [.ttag (lg 0 4 6 0 0), .ttag (lg 0 2 4 0 0), .tinv (lf 0 4 0 0 0), .tlook (lf 0 4 5 0 0)] s = true ∧ gTag 4 s = true ∧
    lone (.feset (lf 2 4 0 3 0)) stored = true := by decide +kernel

/-- A descriptor whose page lies in another die's memory, and one whose page is not mapped. -/
def awayRing : State := withB [(1, rec 0x80000000 0x1000 0 0 12), (2, rec 0x4000 16 0 0 12), (3, rec 0x60000000 0x1000 0 0 12)] (ringed.modCore (fun c =>
  { c with tlb := { asid := 0, page := 0x80000000, size := 65536, pte := 0x3F ||| BitVec.ofNat 64 (2 ^ 37) } :: c.tlb }))

theorem test_ring_place_hypotheses :
    allLone [.rputReg (lf 1 0 0 2 2), .reos (lf 1 0 0 1 0), .rputReg (lf 2 0 0 2 2), .reos (lf 2 0 0 1 0), .rputReg (lf 3 0 0 2 2), .reos (lf 3 0 0 1 0)]
      awayRing = true ∧ awayRing.isRebuild = false ∧
    (match awayRing.cells .write (some 0) ((List.range 64).map (fun i => some (0x80000000 + i))) with | .fail .absent 0x80000000 => true | _ => false) = true ∧
    mappedAway 0 true .write (some 0) 0x80000000 awayRing = true ∧ mappedAway 0 true .write (some 0) 0x60000000 awayRing = false ∧
    (firstOutside (awayRing.cur.b[2]) (recRun (awayRing.cur.b[2]) 0 64)).isSome = true ∧
    (after (.rputReg (lf 1 0 0 2 2)) awayRing).die.trapCount = 1 ∧
    (let s := withQ 1 [{ landedEntry 1 with poison := true }] ringed
     allLone [.rput (lf 1 0 1 1 0)] s = true ∧ headTag 1 s = true ∧ allLone [.rput (lf 1 0 1 1 0)] (rebuilding s) = true) := by decide +kernel

theorem test_following_access_hypotheses :
    let o := { plainOp (.elemStore 2 0x1234) with record := rec 0 0x2000 0 2 12, offset := 16, space := 2 }
    stands (flying o stored) = true ∧ o.follows stored = false ∧ o.atLock stored = false ∧ o.inScratch = true ∧
    (plainOp .posted).inScratch = false ∧ (plainOp (.push 9 3 false 0)).lo ≤ stored.core.cycle ∧
    scratchRead 17 (done7 o stored) = 0x12 ∧
    ((done7 { o with kind := .elemLoad 5 8 false false none } (owing stored)).cur.g[5]) = 0 ∧
    scratchRead 16 (done7 { o with kind := .vecStore 0x55 } stored) = 0x55 ∧
    ((done7 { o with kind := .vecLoad 9 false none, offset := 0 } (withQ 9 [owedEntry] stored)).cur.queue 9).map (fun e => e.bits) =
      [BitVec.ofNat 1024 (9 + 2 ^ 32)] := by decide +kernel

theorem test_late_landing_hypotheses : let p : Pending := { dest := .g 5, value := 8, poison := false, flags := 0, due := 9, landed := false }
    let s := stored.modCtx (fun c => { c with pend := [p, { p with landed := true }] })
    (s.cur.pend[1]?.map (fun x => x.landed)) = some true ∧ 0 < (after (.correctableError (.array 0)) s).core.frozenLeft := by decide +kernel

theorem test_done_wait_hypotheses : let s := started
    lone .done s = true ∧ quiet s = true ∧ s.doneHeld = true ∧ stored.doneHeld = false ∧
    (after .done s).cur.flow.doneWait = true := by decide +kernel

theorem test_watchdog_latch_hypotheses :
    let s := stored.modSys (fun y => { y with mode := .supervisor })
    let v := { (withG [(5, 2 ^ 62 + 2 ^ 63 + 1)] s) with core := { s.core with parked := s.core.parked.map (fun x =>
      if x.1 = 1 then (x.1, x.2.modFlow (fun w => { w with residency := .saving })) else x) } }
    lone (.wdogExpire (gp 5)) v = true ∧ quiet v = true ∧ (bits 62 2 (gReg 5 v) : BitVec 2) = 3 ∧ (bits 2 60 (gReg 5 v) : BitVec 60) = 0 := by
  decide +kernel

/-! ## Hypotheses of the statements: events of traps, tasks and lineage -/

def trapReq (c : Cause) : TrapReq :=
  { cause := c, aux := 1, faddr := 2, slot := 3, pc := 4, logged := [5], ret := some 6, cycle := 0 }
def taking (s : State) : State := (toHandler s).modFlow (fun w => { w with taking := some (trapReq .translationFault) })

theorem test_trap_event_hypotheses : quiet (taking tasked) = true ∧ settled (taking tasked) = true ∧
    handled .translationFault (taking tasked) = true ∧ (taking tasked).core.frozenLeft = 0 ∧ (trapReq .translationFault).logged.length = 1 ∧
    0 < (after (.correctableError (.array 0)) (taking tasked)).core.frozenLeft ∧
    (after (.trapDelivery tasked.curId) (taking tasked)).cur.flow.pc = 0x400 ∧
    (after (.trapDelivery tasked.curId) (taking tasked)).die.trapCount = 1 := by decide +kernel

theorem test_watchdog_event_hypotheses : let s := tasked.modSys (fun y => { y with wdForced := true })
    quiet s = true ∧ settled s = true ∧ s.cur.flow.due = [] ∧ s.die.rings = [] ∧ s.core.prefetch = [] ∧
    s.core.frozenLeft = 0 ∧ s.cur.flow.taking = none ∧ s.cur.flow.saveWait = none ∧ s.cur.flow.region = none ∧
    s.cur.flow.slots.all (fun x => !x.held) = true ∧ (after (.watchdogExpiry s.curId) s).cur.flow.residency = .free ∧
    (after (.watchdogExpiry s.curId) s).die.queues.notices.map noticeKind = [1] ∧
    tasked.cur.sys.wdForced = false ∧ tasked.cur.sys.wdlim = 0 := by decide +kernel

theorem test_error_event_hypotheses : runsPour 0 tasked = false ∧ (0 : BitVec 6) ∈ (errorCores (.registers tasked.curId) tasked).1 ∧
    ((after (.correctableError (.array 0)) tasked).core.frozenLeft) = 24 ∧ tasked.cur.flow.residency = .running ∧
    (after (.uncorrectableError (.array 0)) tasked).cur.flow.due.map (fun r => r.cause) = [.uncorrectable] ∧
    (ctxAt other tasked).flow.residency ≠ .running ∧
    (after (.preemptionRequest tasked.curId) tasked).cur.flow.preempt = true := by decide +kernel

/-- The context is being saved. -/
def saving : State := after (.phint hinted) (preempted tasked)
/-- It has been saved and its slot is free. -/
def savedState : State := after (.saveComplete saving.curId) saving

theorem test_save_hypotheses :
    (saving.die.queues.saved.map (fun v => (v.home == saving.curId, v.saving, v.expired, v.ctx.flow.task == some firstTask))) =
      [(true, true, false, true)] ∧ saving.cur.flow.residency = .saving ∧ saving.core.prefetch = [] ∧ saving.die.queues.saved.all (fun v => !v.expired && !saving.cur.wdOver saving.core.cycle) = true ∧
    savedState.cur.flow.residency = .free ∧ savedState.die.queues.tasks.length = 1 ∧
    savedState.die.queues.saved.map (fun v => (v.saving, v.store.length, v.home == savedState.curId)) = [(false, 0, true)] ∧
    savedState.die.queues.tasks.map (fun q => q.saved) = savedState.die.queues.saved.map (fun v => some v.index) ∧
    savedState.die.queues.sets.map (fun e => e.cursor) = [none] ∧
    (after (.contextRestore savedState.curId) savedState).cur.flow.residency = .running := by decide +kernel

/-- A notice task that is being saved. -/
def savingNotice : State :=
  let k : TaskRef := { firstTask with notice := true }
  let s := saving.modFlow (fun w => { w with task := some k })
  s.modQueues (fun q => { q with saved := q.saved.map (fun v => { v with ctx := v.ctx.modFlow (fun w => { w with task := some k }) }) })

/-- The save has run past its bound. -/
def lateNotice : State := savingNotice.modCore (fun c => { c with cycle := c.cycle + 20001 })

theorem test_overrun_hypotheses : lateNotice.cur.flow.region = none ∧ lateNotice.cur.flow.residency = .saving ∧
    lateNotice.die.queues.saved.all (fun v => saveOver v lateNotice) = true ∧
    saving.die.queues.saved.all (fun v => !saveOver v saving) = true ∧ saving.core.held = [] ∧ heldRanges saving ≤ 64 ∧
    (after (.saveOverrun lateNotice.curId) lateNotice).die.queues.saved = [] ∧
    (after (.saveOverrun lateNotice.curId) lateNotice).die.queues.notices.map noticeKind = [7] := by decide +kernel

theorem test_save_expiry_hypotheses : let s := savingNotice.modSys (fun y => { y with wdForced := true })
    s.cur.sys.wdForced = true ∧ s.die.queues.saved.all (fun v => !saveOver v s && v.saving && v.ctx.flow.region.isNone) = true ∧
    s.die.queues.saved.map (fun v => v.ctx.flow.task == s.cur.flow.task) = [true] ∧ s.core.prefetch = [] ∧
    (s.cur.flow.task.map (fun k => k.notice)) = some true ∧ (after (.saveComplete s.curId) s).die.queues.saved = [] ∧
    (after (.saveComplete s.curId) s).die.trapCount = s.die.trapCount + 1 ∧
    (lateNotice.cur.flow.task.map (fun k => k.notice)) = some true ∧ lateNotice.die.queues.notices.length < 4096 := by decide +kernel

theorem test_writeout_hypotheses : let s := savedState.modCore (fun c => { c with held := [{ owner := 1, kind := .tree 2 }] })
    s.core.held[0]? = some { owner := 1, kind := .tree 2 } ∧ heldBusy 0 { owner := 1, kind := .tree 2 } s = false ∧
    (let o := { mkOp .posted s with id := 900, serial := 1, space := 2, lo := 0, hi := 64, isWrite := true }
     heldBusy 0 { owner := 1, kind := .scratch 0 64 } (s.modDie (fun d => { d with ops := [o] }))) = true ∧
    (after (.heldRegionWriteout 0 0) s).core.held = [] ∧
    (after (.heldRegionWriteout 0 0) s).die.queues.saved.map (fun v => v.store.length) = [1] := by decide +kernel

theorem test_deadline_hypotheses : let s := { opened with pkg := { opened.pkg with timePs := 5000000000000 } }
    (s.die.regions.find? (fun x => x.name.obj == 0x40)).map (fun r => (r.place, r.name.gen)) = some ((.hbm, 0x1000), 1) ∧
    (bits 6 34 (0x1000 : BitVec 40) : BitVec 34) = 0x40 ∧
    (bits 448 64 (readObj (.hbm, 0x1000) s) : BitVec 64).toNat ≤ s.timeNs ∧ (bits 0 3 (readObj (.hbm, 0x1000) s) : BitVec 3) = 1 ∧
    (bits 26 14 (readObj (.hbm, 0x1000) s) : BitVec 14) = 1 ∧ devicePa .hbm 0x1000 = false ∧
    opened.timeNs < (bits 448 64 (readObj (.hbm, 0x1000) opened) : BitVec 64).toNat ∧
    (after (.regionDeadline 0x1000) s).die.regions = [] := by decide +kernel

theorem test_abort_delivery_hypotheses : let s := joined.modDie (fun d => { d with regions := [] })
    s.cur.flow.region.isSome = true ∧ s.cur.flow.residency = .running ∧ (findRegion (regionOf 1) s).isSome = false ∧
    (after (.regionAbortDelivery s.curId) s).cur.flow.due.map (fun r => r.cause) = [.regionAborted] := by decide +kernel

/-- A cadastre entry of version (1, 1), whose producer's packet copy is the sixth. -/
def entryOf (state nops tries : Nat) : BitVec 1024 :=
  BitVec.ofNat 1024 (2 ^ 976 + 2 ^ 960 + 0x0200 * 2 ^ 928 + 0x0010 * 2 ^ 912 + state * 2 ^ 902 + nops * 2 ^ 899 + tries * 2 ^ 897 +
    (Config.packetVA + 320) * 2 ^ 768)
def withEntry (e : BitVec 1024) (s : State) : State := s.modDie (fun d => { d with lineage := { d.lineage with entries := [e] } })

def free : State := launching.modFlow (fun w => { w with residency := .free })
def queuedTask : QTask := { parkedTask with ref := firstTask, bank := 0 }
/-- The context is free and a task waits; the template's place is the record at 0x5000 of a tile of FP32 at 0x6000; a valid version
is known. -/
def versionOf (m : Nat) : BitVec 1024 := if m = 4 then entryOf 4 0 0 else entryOf 1 m 0
/-- A row is written to the version's place. -/
def rowWrite : Op := { mkOp (.rowsStore 0 (BitVec.ofNat 512 rowDesc)) stored with id := 7, record := rec 0x6000 0x1000 0 0 12, isWrite := true }
def idleOf (m : Nat) : State :=
  (withEntry (versionOf m) (withMem [(0x1078, 8, 0x5000), (Config.packetBase + 320, 64, packetWith 7 1 0),
    (0x5000, 32, (rec 0x6000 0x1000 0 0 10 ||| BitVec.ofNat 256 (128 * 2 ^ 104 + 4 * 2 ^ 136)).toNat)]
    (free.modQueues (fun q => { q with tasks := [queuedTask], sets := tasked.die.queues.sets })))).modDie (fun d =>
      { d with ops := if m = 4 then [rowWrite] else [] })
/-- The version's entry holds no operands. -/
def idle : State := idleOf 0

theorem reaches_low (va : Nat) (h : va < 2 ^ 30) : reaches .hbm va = true := by
  have hZ : Config.ownHbmFrom = 0 := by decide +kernel
  have hT : Config.ownHbmEnd = 137438953472 := by decide +kernel
  have h' : va < 1073741824 := h
  unfold reaches
  show (decide (Config.ownHbmFrom ≤ va) && decide (va < Config.ownHbmEnd)) = true
  rw [hZ, hT]
  simp
  omega

theorem idle_maps (m va : Nat) (h : va < 2 ^ 30) : Machine.translate 0 true .write none va (idleOf m) = .ok .hbm va := by
  have hf : firmwarePte va = none := by
    simp only [firmwarePte]
    split
    · simp [Config.infoVA] at *; omega
    · split
      · simp [Config.supervisorVA] at *; omega
      · split
        · simp [Config.packetVA] at *; omega
        · split
          · simp [Config.noticeVA] at *; omega
          · rfl
  have ht : findPte 0 va (idleOf m) = .leaf 0x3F (2 ^ 30) := by
    have : (idleOf m).core.tlb = [{ asid := 0, page := 0, size := 2 ^ 30, pte := 0x3F }] := rfl
    have h' : va < 1073741824 := h
    simp [findPte, this, TlbEntry.serves, h']
  have h1 : ¬ 2 ^ 56 ≤ va := by omega
  have hp : ptePa 0x3F = 0 := by decide
  have hl : va % 2 ^ 30 = va := Nat.mod_eq_of_lt h
  have ha : pteAllows 0x3F .write true none = true := by decide
  have hk : (0x3F : BitVec 64).getLsbD 6 = false := by decide
  have hr := reaches_low va h
  simp only [Machine.translate, if_neg h1, hf, ht, throughLeaf, ha, hp, hl, hk, Nat.zero_add, Bool.not_true, Bool.false_eq_true,
    if_false, hr]

theorem idle_cells (m : Nat) (l : List Nat) (h : ∀ a ∈ l, a < 2 ^ 30) :
    cellsFor 0 true .write none (idleOf m) (l.map some) = .ok (l.map (fun a => some (.hbm, a))) := by
  induction l with
  | nil => rfl
  | cons a l ih =>
    have ih' := ih (fun b hb => h b (by simp [hb]))
    simp only [cellsFor] at ih' ⊢
    simp only [List.map_cons, cellsBy, idle_maps m a (h a (by simp)), ih']

/-- What the template of set 7's tasks says, and what its place names. -/
def firstTmpl : Tmpl := { out := 0, place := BitVec.ofNat 256 (0x5000 * 2 ^ 192), ins := [], waits := [] }
def placeR : Record := rec 0x6000 0x1000 0 0 10 ||| BitVec.ofNat 256 (128 * 2 ^ 104 + 4 * 2 ^ 136)
def firstSel : Selection := { tmpl := firstTmpl, record := placeR, fault := none }

/-- The value that a reading brings. -/
def brings {α ε : Type} [BEq α] (a : α) (r : Except ε α) : Bool := match r with | .ok t => t == a | _ => false

theorem brings_eq {α ε : Type} [BEq α] [LawfulBEq α] {a : α} {r : Except ε α} (h : brings a r = true) : r = .ok a := by
  cases r with
  | error e => cases h
  | ok t => exact congrArg _ (eq_of_beq h)

theorem test_template_reads : brings firstTmpl (readTmpl firstTask.packet (idleOf 0)) = true ∧
    brings firstTmpl (readTmpl firstTask.packet (idleOf 2)) = true ∧
    brings firstTmpl (readTmpl firstTask.packet (idleOf 4)) = true := by decide +kernel

theorem test_place_reads : brings placeR (readPlace firstTask.packet firstTmpl (idleOf 0)) = true ∧
    brings placeR (readPlace firstTask.packet firstTmpl (idleOf 2)) = true ∧
    brings placeR (readPlace firstTask.packet firstTmpl (idleOf 4)) = true := by decide +kernel

theorem test_place_offsets : (tileOffsets placeR 0 32 128).all (fun t => 0 ≤ t && t < 0x1000) = true := by decide +kernel

/-- The bytes of the tile at 0x6000. -/
def tileBytes : List PByte := (tileOffsets placeR 0 32 128).map (fun (x : Int) => (Tier.hbm, (0x6000 : BitVec 64).toNat + x.toNat))

/-- The bytes of a well-formed place whose tile is mapped into the die's HBM. -/
theorem output_of (t : TaskRef) (tm : Tmpl) (r : Record) (s : State) (rows w : Nat) (l : List Nat) (h1 : recordOk r false = true)
    (h2 : recSpace r = 0) (h3 : stdShape (recFmt r) = some (rows, w))
    (h4 : (tileOffsets r (placeOffset t tm) rows w).any (fun x => decide (x < 0) || decide (((recExtent r).toNat : Int) ≤ x)) = false)
    (h5 : (tileOffsets r (placeOffset t tm) rows w).map (fun x => (recBase r).toNat + x.toNat) = l)
    (h6 : cellsFor (pktAsid t.packet) true .write none s (l.map some) = .ok (l.map (fun a => some (Tier.hbm, a)))) :
    outputCells t tm r s = .ok (l.map (fun a => (Tier.hbm, a))) := by
  have h7 : (tileOffsets r (placeOffset t tm) rows w).map (fun x => some ((recBase r).toNat + x.toNat)) = l.map some := by
    rw [← h5, List.map_map]
    rfl
  have h8 : (l.map (fun a => some (Tier.hbm, a))).filterMap id = l.map (fun a => (Tier.hbm, a)) := by
    rw [List.filterMap_map]
    exact congrFun List.filterMap_eq_map' l
  have h9 : (l.map (fun a => (Tier.hbm, a))).any (fun p => p.1 != .hbm) = false := by simp
  simp only [outputCells, h1, h2, h3, h4, h7, h6, h8, h9]
  rfl

theorem idle_output (m : Nat) (t : TaskRef) (ht : pktAsid t.packet = 0) (hx : t.x = 0) (hy : t.y = 0) (hz : t.z = 0) :
    outputCells t firstTmpl placeR (idleOf m) = .ok tileBytes := by
  have ho := test_place_offsets
  have h1 : recordOk placeR false = true := by decide
  have h2 : recSpace placeR = 0 := by decide
  have h3 : stdShape (recFmt placeR) = some (32, 128) := by decide
  have h4 : recExtent placeR = 0x1000 := by decide
  have h5 : recBase placeR = 0x6000 := by decide
  have h6 : placeOffset t firstTmpl = 0 := by rw [placeOffset, hx, hy, hz]; decide
  have ho' : (tileOffsets placeR 0 32 128).any (fun t => decide (t < 0) || decide (((0x1000 : BitVec 40).toNat : Int) ≤ t)) = false := by
    rw [List.any_eq_false]
    intro t h
    have := List.all_eq_true.mp ho t h
    simp at this ⊢
    omega
  have hcells := idle_cells m ((tileOffsets placeR 0 32 128).map (fun t => (0x6000 : BitVec 64).toNat + t.toNat)) (by
    intro a h
    obtain ⟨t, hm, rfl⟩ := List.mem_map.mp h
    have := List.all_eq_true.mp ho t hm
    simp at this ⊢
    omega)
  have := output_of t firstTmpl placeR (idleOf m) 32 128 ((tileOffsets placeR 0 32 128).map (fun x => (0x6000 : BitVec 64).toNat + x.toNat))
    h1 h2 h3 (by rw [h6, h4]; exact ho') (by rw [h6, h5]) (by rw [ht]; exact hcells)
  rw [this, List.map_map, tileBytes]
  rfl

/-- The queue unit's reading of a task of set 7 at the origin. -/
theorem idle_select (m : Nat) (hm : m = 0 ∨ m = 2 ∨ m = 4) (t : TaskRef) (ht : t.packet = firstTask.packet)
    (hc : copyPoisoned t (idleOf m) = false) (hx : t.x = 0) (hy : t.y = 0) (hz : t.z = 0) : selectTask t (idleOf m) = firstSel := by
  have has : pktAsid t.packet = 0 := by rw [ht]; decide +kernel
  have ho := idle_output m t has hx hy hz
  have h1 : readTmpl firstTask.packet (idleOf m) = .ok firstTmpl := by
    rcases hm with rfl | rfl | rfl
    · exact brings_eq test_template_reads.1
    · exact brings_eq test_template_reads.2.1
    · exact brings_eq test_template_reads.2.2
  have h2 : readPlace firstTask.packet firstTmpl (idleOf m) = .ok placeR := by
    rcases hm with rfl | rfl | rfl
    · exact brings_eq test_place_reads.1
    · exact brings_eq test_place_reads.2.1
    · exact brings_eq test_place_reads.2.2
  rw [← ht] at h1 h2
  unfold selectTask
  rw [hc, h1]
  dsimp only
  rw [h2]
  dsimp only
  rw [ho]
  rfl

/-- The task that waits, once it has been selected, and the state then. -/
def selectedTask : QTask := { queuedTask with ref := { firstTask with sel := some firstSel } }
def selected : State := idle.modQueues (fun q => { q with tasks := [selectedTask] })

theorem test_selection : selectAt queuedTask idle = selected := by
  have h := idle_select 0 (.inl rfl) firstTask rfl (by decide +kernel) rfl rfl rfl
  have h' : selectTask queuedTask.ref idle = firstSel := h
  have hq : idle.die.queues.tasks = [queuedTask] := rfl
  have hn : queuedTask.saved.isNone = true := rfl
  have hk : queuedTask.ref.serial = 1 := rfl
  simp only [selectAt, markTask, selected, State.modQueues, State.modDie, hq, List.map_cons, List.map_nil, hn, h', if_true, selectedTask, hk]
  rfl

theorem test_producer : [0, 2, 4].all (fun (m : Nat) => let t := producer (versionOf m) (idleOf m)
    t.packet == firstTask.packet && t.x == 0 && t.y == 0 && t.z == 0 && t.sel == none && !copyPoisoned t (idleOf m)) = true := by
  decide +kernel

theorem zero_offset : (0 : Int) ∈ tileOffsets placeR 0 32 128 := by
  simp only [tileOffsets, List.mem_flatMap, List.mem_map, List.mem_range]
  exact ⟨0, by decide, 0, by decide, by decide +kernel⟩

/-- An error in the first block of the version's place hits the version. -/
theorem idle_place (m : Nat) (hm : m = 0 ∨ m = 2 ∨ m = 4) (t : TaskRef) (hs : t.sel = none) (ht : t.packet = firstTask.packet)
    (hc : copyPoisoned t (idleOf m) = false) (hx : t.x = 0) (hy : t.y = 0) (hz : t.z = 0) : placeOf t (idleOf m) = tileBytes := by
  have has : pktAsid t.packet = 0 := by rw [ht]; decide +kernel
  have hsel : selOf t (idleOf m) = firstSel := by simp [selOf, hs, idle_select m hm t ht hc hx hy hz]
  simp only [placeOf, hsel, firstSel, idle_output m t has hx hy hz]
  rfl

theorem producer_place (m : Nat) (hm : m = 0 ∨ m = 2 ∨ m = 4) : placeOf (producer (versionOf m) (idleOf m)) (idleOf m) = tileBytes := by
  have hp := List.all_eq_true.mp test_producer m (by rcases hm with rfl | rfl | rfl <;> simp)
  simp only [Bool.and_eq_true, beq_iff_eq, Bool.not_eq_true'] at hp
  obtain ⟨⟨⟨⟨⟨hp, hx⟩, hy⟩, hz⟩, hs⟩, hc⟩ := hp
  exact idle_place m hm _ hs hp hc hx hy hz

theorem test_memory_error_hits (m : Nat) (hm : m = 0 ∨ m = 2 ∨ m = 4) :
    (placeOf (producer (versionOf m) (idleOf m)) (idleOf m)).any (fun c =>
      c.1 == .hbm && decide (0x6000 ≤ c.2) && decide (c.2 < 0x6000 + 64)) = true ∧ (idleOf m).die.lineage.replicas = [] ∧
    hits 0x6000 64 Config.cadBase 128 = false := by
  refine ⟨?_, rfl, by decide⟩
  rw [producer_place m hm]
  exact List.any_eq_true.mpr ⟨(.hbm, 0x6000), List.mem_map.mpr ⟨0, zero_offset, by decide⟩, by decide⟩

/-- A failing engine was writing the version's bytes. -/
theorem test_engine_failure_hits : findOp 7 (idleOf 4) = some rowWrite ∧ (idleOf 4).die.lineage.entries = [entryOf 4 0 0] ∧
    (placeOf (producer (entryOf 4 0 0) (idleOf 4)) (idleOf 4)).any (fun c => (writtenBytes rowWrite (idleOf 4)).contains c) = true := by
  have h : (writtenBytes rowWrite (idleOf 4)).contains (Tier.hbm, 0x6000) = true := by decide +kernel
  refine ⟨by decide +kernel, rfl, ?_⟩
  rw [show entryOf 4 0 0 = versionOf 4 from rfl, producer_place 4 (.inr (.inr rfl))]
  exact List.any_eq_true.mpr ⟨(.hbm, 0x6000), List.mem_map.mpr ⟨0, zero_offset, by decide⟩, h⟩

/-- The task's own publication meets the conditions of a new version. -/
theorem test_publication_place : firstSel.fault = none ∧ firstSel.tmpl.ins.length ≤ 6 ∧ selOf firstTask idle = firstSel ∧
    outputCells firstTask firstSel.tmpl firstSel.record idle = .ok tileBytes := by
  have h := idle_select 0 (.inl rfl) firstTask rfl (by decide +kernel) rfl rfl rfl
  exact ⟨rfl, by decide, by simp [selOf, firstTask]; exact h, idle_output 0 firstTask (by decide +kernel) rfl rfl rfl⟩

theorem test_launch_event_hypotheses : let p := firstTask.packet
    let s := free
    s.die.queues.sets = [] ∧ trackedSet (pktSetid p) s = none ∧ s.setsFull = false ∧
    okIs (fun h => let slot := freeCopy (arriveSet p (platDmask h) s).1
      ownInMask (platDmask h) s && okIs (fun k => k == h) (platHeader p (keepCopy slot p s)) &&
      okIs (fun x => entryOk x (platDmask h) s && entHome x == s.die.coord) (platEntry p h 0 0 0 (keepCopy slot p s))) (platHeader p s) = true ∧
    bankFull (pktBank p) s = false ∧ pktPredid p = 0 ∧ gridSize p = 1 ∧ (after (.launchPacket p) s).die.queues.tasks.length = 1 := by
  decide +kernel

theorem test_asked_launch_hypotheses : let p := firstTask.packet
    let s := free.modRegs (fun r => { r with dutymode := 1, assistbase := 0x1000 })
    heldSet (pktSetid p) s = false ∧ s.setsFull = false ∧ okIs (fun h => ownInMask (platDmask h) s) (platHeader p s) = true ∧
    pktPredid p = 0 ∧ s.pkg.regs.dutymode.getLsbD 0 = true ∧ s.pkg.fw.assists.length = 0 ∧
    (after (.launchPacket p) s).die.queues.sets.map (fun e => e.order == .asked) = [true] ∧
    (after (.launchPacket p) s).pkg.fw.assists.length = 1 ∧ free.pkg.regs.dutymode.getLsbD 0 = false := by decide +kernel

theorem test_refused_launches : let p := firstTask.packet
    (trackedSet (pktSetid p) (after (.launchPacket p) free)).isSome = true ∧
    okIs (fun h => !ownInMask (platDmask h) elsewhere) (platHeader p elsewhere) = true ∧
    okIs (fun _ => true) (platHeader (p ||| BitVec.ofNat 512 (0x60000000 * 2 ^ 384)) free) = false ∧
    (after (.launchPacket p) (after (.launchPacket p) free)).die.queues.notices.map noticeKind = [10] ∧
    heldSet (pktSetid p) (after (.launchPacket p) free) = true ∧ heldSet (pktSetid p) free = false ∧
    (let full := free.modQueues (fun q => { q with sets := List.replicate 1024 { (emptySet (packetWith 9 1 0) 1) with live := 1, here := true } })
     heldSet (pktSetid p) full = false ∧ full.setsFull = true ∧ full.die.queues.sets.all (fun e => e.inst ≤ full.die.queues.serial)) := by
  decide +kernel

theorem test_dispatch_hypotheses : idle.dispatchStopped = false ∧
    (List.range 64).all (fun k => (coreAt (BitVec.ofNat 6 k) idle).prefetch.isEmpty && (coreAt (BitVec.ofNat 6 k) idle).held.isEmpty) = true ∧
    idle.die.queues.notices = [] ∧ nextTask idle = some queuedTask ∧ nextTask selected = some selectedTask ∧
    waitState selectedTask.ref selected = .ready ∧ startFault selectedTask.ref selected = none ∧
    chooseCore selected = some selected.core.id ∧ freeCtx idle.core.id idle = some { core := 0, ctx := 0 } ∧ idle.die.queues.sets.map (fun e => e.cursor) = [none] := by
  decide +kernel

theorem test_no_dispatch_hypotheses : nextTask world = none ∧ world.dispatchStopped = false ∧
    { world with die := { world.die with resetting := true } }.dispatchStopped = true ∧
    (let n := mkNotice 3 0 { a0 := 0, a1 := 0, a2 := 0, a3 := 0, a4 := 0 } 0 0 0 0 0 0 0
     let s := free.modQueues (fun q => { q with notices := [n], noticeTable := [(3, 0x400)] })
     s.noticeCode n = some 0x400 ∧ chooseCore s = some s.core.id ∧ (freeCtx s.core.id s).isSome = true ∧
     (after .taskDispatch s).cur.flow.pc = 0x400) := by decide +kernel

theorem test_queue_event_hypotheses :
    let s := { selected with pkg := { selected.pkg with clocks := 2 ^ 33 } }
    s.die.queues.agelim.toNat ≤ s.pkg.clocks - 0 ∧ selected.die.queues.agelim ≠ 0 ∧
    ¬ selected.die.queues.agelim.toNat ≤ selected.pkg.clocks - 0 ∧
    (after (.taskAging 1) s).die.queues.tasks.map (fun q => q.pri) = [1] ∧
    (let w := idle.modQueues (fun q => { q with tasks := [{ selectedTask with watching := true }] })
     waitState selectedTask.ref w ≠ .below ∧ (after (.waitWordQualify 1) w).die.queues.tasks.map (fun q => q.watching) = [false]) ∧
    (after (.unparkWordStore 0x50000) idle).die.queues.notices.map noticeKind = [3] ∧
    (after (.interruptWordStore 16) idle).pkg.out = [.vector 16] ∧ (15 : BitVec 64).toNat < 16 ∧
    ((2 ^ 10 : BitVec 64).toNat = 2 ^ 10 ∧ (2 ^ 32 : BitVec 64).toNat = 2 ^ 32 ∧ (2 ^ 10 - 1 : BitVec 64).toNat < 2 ^ 10 ∧
      2 ^ 32 < (2 ^ 32 + 1 : BitVec 64).toNat) ∧
    (after (.agelimWrite (2 ^ 32)) idle).die.queues.agelim = 2 ^ 32 ∧
    (after (.agelimWrite (2 ^ 32 + 1)) idle).die.queues.agelim = idle.die.queues.agelim := by decide +kernel

def published (faulted : Bool) (s : State) : State :=
  s.modQueues (fun q => { q with publications := [{ key := 1, owner := s.curId, ref := firstTask, faulted := faulted }] })

theorem test_publication_hypotheses : (published false idle).die.queues.publications.map (fun p => (p.key, p.ref.rebuild)) = [(1, none)] ∧
    idle.die.ops = [] ∧ idle.die.lineage.entries.length < 983040 ∧
    (after (.taskPublication 1) (published true idle)).die.queues.publications = [] ∧
    ((published false idle).modDie (fun d => { d with ops := [{ mkOp .posted tasked with isWrite := true, serial := 1 }] })).die.ops.any
      (fun o => o.serial == 1 && o.isWrite) = true := by decide +kernel

theorem test_set_event_hypotheses : let p := firstTask.packet
    (tasked.die.queues.sets.find? (fun x => x.packet == p && !x.doneAt.contains 0x0200)).isSome = true ∧
    (world.die.queues.sets.find? (fun x => x.packet == p && !x.doneAt.contains 0x0200)).isNone = true ∧
    (tasked.die.queues.sets.find? (fun x => x.packet == p && !x.failed)).isSome = true ∧ (findSet 1 tasked).isSome = true ∧
    (after (.setCompletion 0x0200 p) tasked).die.queues.sets.map (fun e => e.doneAt) = [[0x0200]] ∧
    (after (.setFailure tasked.die.coord p 4) tasked).die.queues.notices.map noticeKind = [10] ∧
    (failedOf 0x0400 p tasked).map (fun e => (e.failed, (findSet e.inst tasked).isSome)) = some (false, true) ∧
    (spokenOf 0x0200 p tasked).isSome = true ∧ spokenOf 0x0200 p world = none ∧
    (spokenOf 0x0200 p tasked).map (fun e => (e.failed, (findSet e.inst tasked).isSome)) = some (false, true) ∧
    (after (.setCompletion 0x0200 p) world).die.queues.sets.map (fun e => (e.here, e.doneAt)) = [(false, [0x0200])] := by decide +kernel

/-! Lineage -/

def version : VersionId := { ident := 1, ver := 1 }
def replicated (l : List Coord) : State := (withEntry (entryOf 1 0 0) world).modDie (fun d =>
  { d with lineage := { d.lineage with replicas := [{ version := version, acks := l }] } })
def missing (s : State) : State := s.modQueues (fun q => { q with unavailable := [(version, s.die.coord)] })

theorem test_replica_hypotheses : (findCad version (replicated [])).isSome = true ∧ cadRep1 (entryOf 1 0 0) = 0x0200 ∧
    cadRep2 (entryOf 1 0 0) = 0x0010 ∧ (after (.replicaAcknowledge version 0x0010) (replicated [0x0200])).die.lineage.replicas = [] ∧
    (after (.replicaAcknowledge version 0x0010) (replicated [])).die.lineage.replicas.map (fun r => r.acks) = [[0x0010]] ∧
    repDies (entryOf 1 0 0) (replicated []) = (0x0200, 0x0010) ∧ (0x0400 : Coord) ≠ 0x0200 ∧ (0x0400 : Coord) ≠ 0x0010 := by decide +kernel

theorem test_depth_hypotheses : let s := world.modDie (fun d => { d with lineage := { d.lineage with published := 5, losscount := 1 } })
    s.pkg.regs.dutymode.getLsbD 4 = false ∧ s.die.lineage.published ≠ 0 ∧ world.die.lineage.published = 0 ∧
    (after .dmaxUpdate s).die.lineage.published = 0 ∧ ({ s with pkg := { s.pkg with regs := { s.pkg.regs with dutymode := 0x10 } } }).pkg.regs.dutymode.getLsbD 4 = true := by
  decide +kernel

theorem test_memory_error_hypotheses : cadState (entryOf 1 0 0) = 1 ∧ cadMirror (entryOf 1 0 0) = false ∧ cadNops (entryOf 1 0 0) = 0 ∧
    cadNops (entryOf 1 2 0) = 2 ∧ world.die.lineage.entries = [] ∧ 0x8000 + 64 ≤ Config.hbmBytes ∧
    physPoison .hbm 0x8001 (after (.hbmUncorrectableError false 0x8000 64) world) = true ∧
    physPoison .hbm 0x8001 world = false := by decide +kernel

theorem test_need_hypotheses : cadId (entryOf 2 1 0) = version ∧ cadState (entryOf 2 1 0) = 2 ∧ cadState (entryOf 5 0 0) = 5 ∧
    (after (.need version 3) (withEntry (entryOf 2 1 0) world)).die.lineage.entries.map cadState = [3] ∧
    (after (.need version 3) (withEntry (entryOf 5 0 0) (missing world))).die.lineage.entries.map cadState = [6] ∧
    (after (.need version 3) (withEntry (entryOf 2 0 0) (missing world))).die.lineage.entries.map cadState = [6] ∧
    intactReps (entryOf 2 1 0) (withEntry (entryOf 2 1 0) world) = [] ∧ intactReps (entryOf 2 1 0) (replicated [0x0200]) = [0x0200] ∧
    cadState (entryOf 3 1 0) = 3 := by decide +kernel

theorem test_rebuild_hypotheses : (findCad version (withEntry (entryOf 3 1 0) world)).isSome = true ∧ cadTries (entryOf 3 1 1) = 1 ∧
    cadDigest (entryOf 3 1 0) = 0 ∧ crc64 [] = 0 ∧ placeOf (producer (entryOf 3 1 0) world) world = [] ∧
    (after (.rebuildRetire version false) (withEntry (entryOf 3 1 0) (missing world))).die.lineage.entries.map cadState = [1] ∧
    (after (.rebuildRetire version true) (withEntry (entryOf 3 1 0) world)).die.lineage.entries.map cadTries = [1] ∧
    (after (.rebuildRetire version true) (withEntry (entryOf 3 1 1) world)).die.lineage.entries.map cadState = [6] ∧
    cadTries (entryOf 3 1 2) = 2 ∧ cadNodig (entryOf 3 1 0) = false ∧
    cadNodig (entryOf 3 1 0 ||| BitVec.ofNat 1024 (2 ^ 716)) = true ∧
    bankFull (pktBank (producer (entryOf 3 1 0) world).packet) world = false := by decide +kernel

theorem test_restore_hypotheses : cadState (entryOf 4 0 0) = 4 ∧ cadRep1 (entryOf 4 0 0) ≠ 0 ∧ cadRep2 (entryOf 4 0 0) ≠ 0 ∧
    (missing world).die.queues.lost version = true ∧ crc64 [1] ≠ 0 ∧ placeOf (producer (entryOf 4 0 0) world) world = [] ∧
    (after (.restoreComplete version []) (withEntry (entryOf 4 0 0) (missing world))).die.queues.unavailable = [] ∧
    (after (.restoreComplete version [1]) (withEntry (entryOf 4 0 0) (missing world))).die.lineage.entries.map cadRep1 = [0] ∧
    restoring (entryOf 4 0 0) (withEntry (entryOf 4 0 0) (missing world)) = true ∧
    restoring (entryOf 4 0 0) (withEntry (entryOf 4 0 0) world) = false ∧
    (let s := withEntry (entryOf 2 0 0) (missing (replicated [0x0200]))
     restoring (entryOf 2 0 0) s = true ∧ (intactReps (entryOf 2 0 0) s).length = 1 ∧
     (after (.restoreComplete version []) s).die.lineage.entries.map cadState = [1] ∧
     (after (.restoreComplete version [1]) s).die.lineage.entries.map cadState = [6]) := by decide +kernel

theorem test_mirror_and_engine_hypotheses : cadState (entryOf 0 0 0) = 0 ∧
    (findOp 7 (withEntry (entryOf 4 0 0) (flying { plainOp (.vecStore 0) with cells := at8 128 } world))).isSome = true ∧
    ((after (.mirrorUpdate (entryOf 4 0 0)) world).die.lineage.entries.map cadMirror) = [true] ∧
    (let s := world.modDie (fun d => { d with lineage := { d.lineage with entries := List.replicate 983040 (entryOf 1 0 0) } })
     s.die.lineage.entries.length = 983040) := by
  exact ⟨by decide +kernel, by decide +kernel, by decide +kernel, List.length_replicate ..⟩

/-! ## Hypotheses of the statements: events of the fabric -/

/-- A request of the die at 0x0200. -/
def req (type aux opa opb off len : Nat) (payload : List Byte) : Packet :=
  { dst := 0, src := 0x0200, type := BitVec.ofNat 6 type, cls := 0, dl := false, tag := 0, core := 0, ctx := 0, part := 0, scope := 3,
    asid := 0, offset := BitVec.ofNat 40 off, len := len, aux := BitVec.ofNat 8 aux, opa := BitVec.ofNat 64 opa, opb := BitVec.ofNat 64 opb,
    clk := [], payload := payload }
def answersNow (k : BitVec 6) (p : Packet) (acc : Access) (n : Nat) (s : State) : Nat :=
  if inTime k p s then (match cellsFor p.asid true acc none (atWrite p s) (requestBytes p n) with
    | .ok cs => if cellsPoison cs (atWrite p s) then 1 else 0 | .fail .translation _ => 2 | _ => 3) else 4
def spoiled (s : State) : State := markPoison .hbm 0x5000 8 s
def sent (i : Instr) (s : State) : List Nat := (after i s).die.router.outbox.map (fun q => q.type.toNat)

theorem test_request_hypotheses : answersNow 1 (req 1 0 0 0 0x5000 8 []) .read 8 heaped = 0 ∧
    answersNow 1 (req 1 0 0 0 0x5000 8 []) .read 8 (spoiled heaped) = 1 ∧ answersNow 1 (req 1 0 0 0 0x60000000 8 []) .read 8 heaped = 2 ∧
    answersNow 2 (req 2 0 0 0 0x5000 1 [7]) .write 1 heaped = 0 ∧ answersNow 2 (req 2 0 0 0 0x60000000 1 [7]) .write 1 heaped = 2 ∧
    answersNow 3 (req 3 0x20 1 0 0x5000 8 []) .atomic 8 heaped = 0 ∧ answersNow 3 (req 3 0x80 1 0 0x5000 4 []) .atomic 4 heaped = 0 ∧
    answersNow 3 (req 3 0x20 1 0 0x5000 8 []) .atomic 8 (spoiled heaped) = 1 ∧
    answersNow 4 (req 4 0x20 0 9 0x5000 8 []) .atomic 8 heaped = 0 ∧ answersNow 5 (req 5 0 3 0 0x5000 8 []) .write 8 heaped = 0 ∧
    answersNow 6 (req 6 0 3 0 0x5000 8 []) .write 8 heaped = 0 ∧ inTime 7 (req 7 3 1 0 0 0 []) heaped = true ∧
    (let apart := (List.range 8).flatMap (fun k => leBytes 8 (0x5000 + 64 * k))
     answersNow 3 (req 3 0x20 1 0 0x5000 64 apart) .atomic 8 heaped = 0 ∧ answersNow 4 (req 4 0x20 0 9 0x5000 64 apart) .atomic 8 heaped = 0 ∧
     answersNow 5 (req 5 0 3 0 0x5000 64 apart) .write 8 heaped = 0 ∧ answersNow 6 (req 6 0 3 0 0x5000 64 apart) .write 8 heaped = 0 ∧
     memGet (after (.signalSetRequest (req 5 0 0x0102 0 0x5000 64 apart)) heaped).pkg.hbm 0x5040 = 1) ∧
    answersNow 3 (req 3 0x20 1 0 0x60000000 8 []) .atomic 8 heaped = 2 ∧ answersNow 4 (req 4 0x20 0 9 0x60000000 8 []) .atomic 8 heaped = 2 ∧
    answersNow 5 (req 5 0 3 0 0x60000000 8 []) .write 8 heaped = 2 ∧ answersNow 6 (req 6 0 3 0 0x60000000 8 []) .write 8 heaped = 2 := by
  decide +kernel

theorem test_request_results : sent (.readRequest (req 1 0 0 0 0x5000 8 [])) heaped = [32] ∧
    sent (.readRequest (req 1 0 0 0 0x60000000 8 [])) heaped = [34] ∧ sent (.writeRequest (req 2 0 0 0 0x5000 1 [7])) heaped = [33] ∧
    sent (.atomicRequest (req 3 0x20 1 0 0x5000 8 [])) heaped = [32] ∧ sent (.signalAddRequest (req 6 0 3 0 0x5000 8 [])) heaped = [33] ∧
    memGet (after (.compareSwapRequest (req 4 0x20 0 9 0x5000 8 [])) heaped).pkg.hbm 0x5000 = 9 ∧
    memGet (after (.signalSetRequest (req 5 0 3 0 0x5000 8 [])) heaped).pkg.hbm 0x5000 = 3 ∧
    ((after (.flagPostRequest (req 7 3 1 0 0 0 [])) heaped).core.f[3]) = 1 := by decide +kernel

theorem test_early_request_hypotheses : let p := { req 1 0 0 0 0x5000 8 [] with clk := [(0, 5)] }
    clockAhead (takeClock p heaped).2 (atRead p heaped) = true ∧ heaped.die.resetting = false ∧
    (after (.readRequest p) heaped).die.router.heldRequests.length = 1 ∧ inTime 2 p heaped = false ∧
    (domainIndex 0x0200 heaped).isSome = true ∧
    (let full := heaped.modRouter (fun r => { r with heldRequests := List.replicate 4096 { req := p, clock := [], since := 0, stuck := false } })
     clockAhead (takeClock p full).2 (atRead p full) = true ∧ 4096 ≤ (atRead p full).die.router.heldRequests.length ∧
     sent (.readRequest p) full = [35]) := by decide +kernel

/-! Regions of another die's members: generation 1 of object 0x40, whose home is here, with the task of `joined` for a member -/

def handle1 : Nat := 1 * 2 ^ 34 + 0x40
def regionReq (aux opa opb : Nat) : Packet := req 10 aux opa opb 0x1000 0 []
/-- EXPECT is 1, and the one member has joined. -/
def joinedAlone : State := after joinRegion (after (.arOpen (lf 3 5 7 (1 + 5 * 64) 0)) heaped)

/-- OPEN's deadline has come. -/
def overdue : State := { opened with pkg := { opened.pkg with timePs := 5000000000000 } }
/-- The write set holds 4,096 lines. -/
def brimming : State := withMem [(0x100A, 2, 4096)] opened

theorem test_region_request_hypotheses : let obj := (Tier.hbm, 0x1000)
    inTime 10 (regionReq 1 66 0) heaped = true ∧
    (match cellsFor 0 true .atomic none (atWrite (regionReq 1 66 0) heaped) (heapAddrs (regionReq 1 66 0) 64) with
      | .ok (some (.hbm, 0x1000) :: _) => true | _ => false) = true ∧ (bits 0 3 (readObj obj heaped) : BitVec 3) = 0 ∧
    (match cellsFor 0 true .atomic none (atWrite (regionReq 1 66 0) opened) (heapAddrs (regionReq 1 66 0) 64) with
      | .ok (some (.hbm, 0x1000) :: _) => true | _ => false) = true ∧
    (bits 0 3 (readObj obj opened) : BitVec 3) = 1 ∧ inTime 10 (regionReq 2 handle1 0) opened = true ∧
    regionAt (regionOf 1) heaped = none ∧
    (regionAt (regionOf 1) (atWrite (regionReq 2 handle1 0) opened)).map (fun r => (r.place, r.name)) = some (obj, regionOf 1) ∧
    (findRegion (regionOf 1) (atWrite (regionReq 2 handle1 0) opened)).map (fun r => r.place) = some obj ∧
    (bits 26 14 (readObj obj opened) : BitVec 14) = 1 ∧ devicePa .hbm 0x1000 = false ∧
    (bits 48 8 (readObj obj opened) : BitVec 8) ≠ bits 40 8 (readObj obj opened) ∧
    (bits 48 8 (readObj obj joinedAlone) : BitVec 8) = bits 40 8 (readObj obj joinedAlone) ∧
    (bits 56 8 (readObj obj joinedAlone) + 1 : BitVec 8) = bits 48 8 (readObj obj joinedAlone) ∧
    opened.timeNs < (bits 448 64 (readObj obj opened) : BitVec 64).toNat ∧
    joinedAlone.timeNs < (bits 448 64 (readObj obj joinedAlone) : BitVec 64).toNat ∧
    (bits 448 64 (readObj obj overdue) : BitVec 64).toNat ≤ overdue.timeNs ∧ inTime 10 (regionReq 3 handle1 0) overdue = true ∧
    (bits 80 16 (readObj obj opened) : BitVec 16) = 0 ∧ (bits 80 16 (readObj obj brimming) : BitVec 16) = 4096 ∧
    (bits 0 3 (readObj obj brimming) : BitVec 3) = 1 ∧ findRegion (regionOf 1) heaped = none := by decide +kernel

theorem test_region_request_ends : let obj := (Tier.hbm, 0x1000)
    let cause := fun (s : State) => (bits 72 8 (readObj obj s) : BitVec 8)
    cause (after (.regionCommitRequest (regionReq 3 handle1 0)) overdue) = 3 ∧
    cause (after (.regionLeaveRequest (regionReq 5 handle1 0)) overdue) = 3 ∧
    cause (after (.regionAbortRequest (regionReq 4 handle1 0)) opened) = 1 ∧
    cause (after (.regionAbortRequest (regionReq 4 handle1 5)) opened) = 5 ∧
    cause (after (.regionAbortRequest (regionReq 4 handle1 0x100)) brimming) = 4 ∧
    (bits 80 16 (readObj obj (after (.regionAbortRequest (regionReq 4 handle1 0x100)) opened)) : BitVec 16) = 1 ∧
    cause (after (.regionLeaveRequest (regionReq 5 handle1 0)) opened) = 2 := by decide +kernel

theorem test_region_request_results : sent (.regionOpenRequest (regionReq 1 66 0)) heaped = [33] ∧
    sent (.regionOpenRequest (regionReq 1 66 0)) opened = [34] ∧ sent (.regionJoinRequest (regionReq 2 handle1 0)) opened = [33] ∧
    sent (.regionJoinRequest (regionReq 2 handle1 0)) joinedAlone = [34] ∧ sent (.regionCommitRequest (regionReq 3 handle1 0)) joined = [33] ∧
    (sent (.regionAbortRequest (regionReq 4 handle1 0)) opened).getLast? = some 33 ∧ sent (.regionLeaveRequest (regionReq 5 handle1 0)) heaped = [34] := by
  decide +kernel

theorem test_last_vote : (after (.regionCommitRequest (regionReq 3 handle1 0)) joinedAlone).die.regions = [] := by decide +kernel

def tentRead (off : Nat) : Packet := req 8 0 handle1 0 off 1 []
def tentWrite (off : Nat) : Packet := req 9 0 handle1 0 off 1 [7]
/-- The region has written byte 0x5000. -/
def written : State :=
  match execTentativeWriteRequest (tentWrite 0x5000) opened with | .next t => t | _ => opened

theorem test_tentative_hypotheses :
    inTime 8 (tentRead 0x5000) opened = true ∧ inTime 9 (tentWrite 0x5000) opened = true ∧
    regionLive (regionOf 1) heaped = false ∧ regionLive (regionOf 1) opened = true ∧ linesOf (regionOf 1) opened = [] ∧
    answersNow 8 (tentRead 0x5000) .read 1 opened = 0 ∧ answersNow 8 (tentRead 0x5000) .read 1 (spoiled opened) = 1 ∧
    answersNow 8 (tentRead 0x60000000) .read 1 opened = 2 ∧ answersNow 9 (tentWrite 0x60000000) .write 1 opened = 2 ∧
    answersNow 9 (tentWrite 0x5000) .write 1 opened = 0 ∧ opened.die.shard = [] ∧ linesKnown (regionOf 1) opened < 4096 ∧
    (linesOf (regionOf 1) written).map (fun l => (l.line == lineKey (.hbm, 0x5000), l.bytes)) = [(true, [(0, 7)])] ∧
    regionLive { regionOf 1 with home := 0x0200 } heaped = true := by decide +kernel

theorem test_tentative_results :
    sent (.tentativeReadRequest (tentRead 0x5000)) opened = [32] ∧ sent (.tentativeReadRequest (tentRead 0x5000)) heaped = [32] ∧
    sent (.tentativeReadRequest (tentRead 0x5000)) (spoiled opened) = [34] ∧
    (after (.tentativeReadRequest (tentRead 0x5000)) written).die.router.outbox.map (fun q => q.payload) = [[], [7]] ∧
    (after (.tentativeWriteRequest (tentWrite 0x5000)) heaped).die.shard = [] ∧
    (after (.tentativeWriteRequest { tentWrite 0x5000 with opa := BitVec.ofNat 64 (0x0200 * 2 ^ 48 + handle1) }) heaped).die.shard.map
      (fun l => l.line) = [lineKey (.hbm, 0x5000)] := by decide +kernel

/-- A region of another die, of which this die is a shard with one line. -/
def shardLine : State :=
  match execTentativeWriteRequest { tentWrite 0x5000 with opa := BitVec.ofNat 64 (0x0200 * 2 ^ 48 + handle1) } heaped with
  | .next t => t
  | _ => heaped
def shardReq (opb : Nat) : Packet := regionReq 3 (0x0200 * 2 ^ 48 + handle1) opb
/-- Its home has asked for the locks. -/
def shardLocked : State := match execRegionCommitRequest (shardReq 1) shardLine with | .next t => t | _ => shardLine
/-- The last vote names a shard on the die at 0x0200. -/
def committing : State := match execRegionCommitRequest (regionReq 3 handle1 2) joinedAlone with | .next t => t | _ => joinedAlone
def ownAck : Packet := { regionReq 0 handle1 0 with cls := 1, type := 33, part := ownPart }

theorem test_commit_hypotheses : inTime 10 (shardReq 1) shardLine = true ∧ inTime 10 (shardReq 2) shardLocked = true ∧
    shardLine.die.shard.map (fun l => (l.region.home, l.bytes, l.late, l.locked)) = [(0x0200, [(0, 7)], [], false)] ∧
    shardLocked.die.shard.map (fun l => l.locked) = [true] ∧ shardLocked.linesLocked = true ∧ shardLine.linesLocked = false ∧
    devicePa (lineByte (lineKey (.hbm, 0x5000)) 0).1 (lineByte (lineKey (.hbm, 0x5000)) 0).2 = false ∧
    memGet (after (.regionCommitRequest (shardReq 2)) shardLocked).pkg.hbm 0x5000 = 7 ∧ memGet shardLocked.pkg.hbm 0x5000 ≠ 7 := by decide +kernel

theorem test_last_vote_hypotheses :
    reachesDie (req 1 0 0 0 0x5000 8 []) shardLocked = true ∧ (req 1 0 0 0 0x5000 8 []).part ≠ ownPart ∧
    (after (.readRequest (req 1 0 0 0 0x5000 8 [])) shardLocked).die.router.heldRequests.length = 1 ∧
    diesOf 2 joinedAlone = [0x0200] ∧ (bits 0 3 (readObj (.hbm, 0x1000) committing) : BitVec 3) = 2 ∧
    (findRegion (regionOf 1) committing).map (fun r => (r.commit, r.place)) = some (some [0x0200], (.hbm, 0x1000)) ∧
    reachesDie ownAck committing = true ∧ (slotIn ownAck committing).map (fun x => x.held) = some false ∧
    nameOf ownAck.opa ownAck.asid = regionOf 1 ∧
    (bits 0 3 (readObj (.hbm, 0x1000) (after (.acknowledgement ownAck) committing)) : BitVec 3) = 3 := by decide +kernel

/-! Responses -/

/-- A request of slot 0 stands in flight. -/
def asking (k : OpKind) (mode : Nat) : State :=
  let a : Part := { req := req 1 0 0 0 0x5000 8 [], pos := 0, answered := false, poisoned := false, unreachable := false }
  let r : Remote := { dst := 0x0200, slot := 0, gen := 0, failed := false, data := [], parts := [a] }
  let o : Op := { plainOp k with remote := some r, record := rec 0 0x10000 mode 3 12 }
  let slot : Slot := { held := true, gen := 0, op := 7, since := 0 }
  (owing (flying o stored)).modFlow (fun w => { w with slots := w.slots.set 0 slot })
def load8 : OpKind := .elemLoad 5 8 false false none
def resp (type aux : Nat) (payload : List Byte) : Packet := { req type aux 0 0 0 payload.length payload with cls := 1 }
def retryAt (t : Nat) (s : State) : State := s.modRouter (fun r => { r with retries := [(t, req 1 0 0 0 0x5000 8 [])] })
def later (s : State) : State := { s with pkg := { s.pkg with timePs := 10 ^ 13 } }

theorem test_response_hypotheses : reachesDie (resp 32 0 [1]) stored = true ∧ (resp 32 0 [1]).part ≠ ownPart ∧
    stored.deaf 0x0200 = false ∧ (slotIn (resp 32 0 []) stored).map (fun x => x.held) = some false ∧
    (slotIn (resp 32 0 []) (asking load8 0)).map (fun x => (x.held, x.gen, x.op)) = some (true, 0, 7) ∧
    (findOp 7 (asking load8 0)).isSome = true ∧ noRsync (asking load8 0) = true ∧
    (after (.dataResponse (resp 32 0 [1])) stored).die.router.stale = 1 ∧
    ((after (.dataResponse (resp 32 0 [1, 0, 0, 0, 0, 0, 0, 0])) (asking load8 0)).cur.g[5]) = 1 ∧
    (after (.acknowledgement (resp 33 0 [])) (asking (.elemStore 8 1) 0)).die.ops = [] ∧
    (after (.errorResponse (resp 34 1 [])) (asking (.elemStore 8 1) 0)).cur.flow.due.map (fun r => r.cause) = [.engineFault] ∧
    (after (.errorResponse (resp 34 4 [])) (asking load8 0)).cur.flow.due.map (fun r => r.cause) = [.fabricTimeout] ∧
    (after (.errorResponse (resp 34 3 [])) (asking load8 0)).cur.flow.due = [] ∧
    (after (.retryResponse (resp 35 0 [])) (asking load8 0)).die.router.retries.length = 1 := by decide +kernel

theorem test_retry_and_timeout_hypotheses :
    stored.timeNs ≤ 0 + 1000 * (bits 20 20 stored.die.router.control : BitVec 20).toNat ∧
    (after (.retryResend 0) (retryAt 0 (asking load8 0))).die.router.outbox.length = 1 ∧
    (after (.retryResend 0) (retryAt 9 (asking load8 0))).die.router.retries.length = 1 ∧
    (after (.retryResend 0) (retryAt 0 stored)).die.router.outbox = [] ∧
    1000 * (bits 20 20 stored.die.router.control : BitVec 20).toNat ≤ (later (asking (.elemStore 8 1) 0)).timeNs ∧
    (after (.slotTimeout stored.curId 0) (later (asking (.elemStore 8 1) 0))).cur.flow.due.map (fun r => r.cause) = [.fabricTimeout] ∧
    (after (.slotTimeout stored.curId 0) (later (asking (.elemStore 8 1) 1))).cur.flow.due = [] ∧
    (after (.slotTimeout stored.curId 0) (later (asking (.elemStore 8 1) 1))).die.ops = [] ∧
    (after (.slotTimeout stored.curId 0) (asking load8 0)).die.ops.length = 1 ∧
    (let s := (later (asking (.elemStore 8 1) 0)).modDie (fun d => { d with ops := d.ops.map (fun o =>
       { o with remote := o.remote.map (fun r => { r with failed := true }) }) })
     (after (.slotTimeout stored.curId 0) s).cur.flow.due = [] ∧ (after (.slotTimeout stored.curId 0) s).die.ops = [] ∧
     (after (.slotTimeout stored.curId 0) s).die.router.timeout = 1) := by decide +kernel

/-! Routers and links -/

def passing (dst : Coord) : Packet := { req 1 0 0 0 0x5000 8 [] with dst := dst }

theorem test_wire_hypotheses : let p := { req 2 0 0 0 0x5000 3 [1, 2, 3] with clk := [(1, 5), (2, 9)] }
    p.len ≤ 256 ∧ p.payload.length = p.len ∧ p.clk.length ≤ 6 ∧ onWire p = p ∧ onWire (req 1 0 0 0 0x5000 8 []) = req 1 0 0 0 0x5000 8 [] ∧
    (onWire (req 2 0 0 0 0x5000 1 [1, 2, 3])).payload = [1] := by decide +kernel

theorem test_forward_hypotheses : packetKnown (passing 0x0200) = true ∧ packetKnown (passing 0) = true ∧ world.die.resetting = false ∧
    coordX world.die.coord ≠ coordX 0x0200 ∧ portUp world.die.router 0 = true ∧
    (after (.packetForward 6 (passing 0x0200)) world).die.router.outbox.length = 1 ∧
    (after (.packetForward 0 (passing 0x0400)) world).die.router.unreach = 1 ∧
    ((after (.packetForward 6 (passing 0x0400)) world).die.router.outbox.map (fun q => (q.type, q.aux))) = [(34, 4)] ∧
    (after (.packetForward 6 { passing 0x0400 with cls := 1, type := 33 }) world).die.router.unreach = 1 ∧
    sent (.packetForward 6 (passing 0)) heaped = [32] ∧
    (after (.packetForward 2 { passing 0 with cls := 3 }) world).die.router.badpkt = 1 ∧
    (let held := after (.packetForward 6 (passing 0x0200)) (world.modRouter (fun r => { r with links := r.links.set 0 (.retraining 0) }))
     held.die.router.outbox = [] ∧ held.die.router.waiting.map (fun w => (w.port, w.from_, w.since)) = [(0, none, held.timeNs)] ∧
     (after (.packetAgeDrop (passing 0x0200)) held).die.router.waiting.length = 1 ∧
     (after (.packetAgeDrop (passing 0x0200)) (later held)).die.router.waiting = [] ∧
     (after (.packetAgeDrop (passing 0x0200)) (later held)).die.router.agedrop = 1) ∧
    (let old := world.modRouter (fun r => { r with heldRequests := [{ req := passing 0, clock := [], since := 0, stuck := false }] })
     (after (.requestAgeDrop 0) (later old)).die.router.agedrop = 1 ∧
     (after (.requestAgeDrop 0) old).die.router.agedrop = 0) := by decide +kernel

theorem test_domain_table : let s := world.modRegs (fun r => { r with fwstate := 1 })
    let t := after (.domainTable [0, 0x0200]) s
    t.die.domain.take 3 = [0, 0x0200, 0xFFFF] ∧ t.die.domain.length = 64 ∧ (bits 0 3 t.pkg.regs.fwstate : BitVec 3) = 3 ∧
    t.pkg.fw.phase = .rewriting ∧ t.pkg.out = [.vector 4] ∧ joins (([0, 0x0200] ++ List.replicate 64 0xFFFF).take 64) s = false ∧
    joins (([0x0400, 0] ++ List.replicate 64 0xFFFF).take 64) s = true ∧
    (after (.domainTable [0, 0x0200]) world).pkg.out = [] := by decide +kernel

theorem test_management_hypotheses : let p := { passing 0 with cls := 2, type := 49 }
    48 ≤ p.type.toNat ∧ p.type.toNat ≤ 53 ∧ (53 : BitVec 6) ≠ 48 ∧ (53 : BitVec 6) ≠ 49 ∧ world.die.router.mgmtRing.length < 65536 ∧
    (after (.managementArrival p) world).die.router.mgmtRing = [p] := by decide +kernel

theorem test_full_management_ring : 65536 ≤ (world.modRouter (fun r => { r with
    mgmtRing := List.replicate 65536 (passing 0) })).die.router.mgmtRing.length :=
  Nat.le_of_eq List.length_replicate.symm

/-- Fifteen resends of one flit have failed on link 2. -/
def failing : State := world.modRouter (fun r => { r with fails := r.fails.set 2 (some (5, 15)) })
def links (l : LinkState) : State := world.modRouter (fun r => { r with links := r.links.set 2 l, replay := r.replay.set 2 [passing 0], outbox := [passing 0] })

theorem test_link_hypotheses : world.die.router.links[2]? = some .up ∧ (links .down).die.router.links[2]? = some .down ∧
    (after (.linkRetrain 2) world).die.router.links[2]? = some .up ∧ failing.die.router.links[2]? = some .up ∧
    (after (.linkRetrain 2) failing).die.router.links[2]? = some (.retraining 0) ∧
    (bits 16 4 world.die.router.control : BitVec 4) = 8 ∧
    (after (.linkReplay 2 0) world).die.router.fails[2]? = some (some (0, 0)) ∧
    (after (.linkReplay 2 0) (after (.linkReplay 2 0) world)).die.router.fails[2]? = some (some (0, 1)) ∧
    (let w := { from_ := none, port := 2, since := 0, pkt := passing 0x0010 : WaitingPacket }
     let s := (links (.retraining 1)).modRouter (fun r => { r with waiting := [w] })
     routeOf s.die.coord w.pkt.dst s.die.router = .port 2 ∧ (after (.retrainEnd 2 true) s).die.router.waiting = [] ∧
     (after (.retrainEnd 2 true) s).die.router.outbox.length = 2) ∧
    (after (.retrainEnd 2 true) (links (.retraining 1))).die.router.links[2]? = some .up ∧
    (after (.retrainEnd 2 false) (links (.retraining 1))).die.router.links[2]? = some (.retraining 2) ∧
    (after (.retrainEnd 2 false) (links (.retraining 2))).die.router.outbox = [] ∧
    (after (.firmwareLinkRetrain 2 true) (links .down)).die.router.links[2]? = some .up ∧
    (after (.graticuleInstall (List.replicate 32 0) (List.replicate 32 1) (List.replicate 16 2)) world).die.router.routeZ = List.replicate 16 2 ∧
    (after (.fabricControlWrite 0x12C1003F) world).die.router.control = 0x12C1003F ∧
    (after (.fabricControlWrite 0x12B1003F) world).die.router.control = 0x7D08003F ∧ world.die.queues.sets = [] ∧
    (let p := { passing 0 with cls := 2, type := 48, payload := bytes512 firstTask.packet }
     let s := (links (.retraining 2)).modRouter (fun r => { r with replay := r.replay.set 2 [p] })
     (after (.retrainEnd 2 false) s).die.queues.sets.map (fun e => (e.failed, e.packet == firstTask.packet)) = [(true, true)]) := by
  decide +kernel

/-! ## Hypotheses of the statements: events of the host, of firmware and of the package -/

def fwAt (st : Nat) (s : State) : State := s.modRegs (fun r => { r with fwstate := BitVec.ofNat 64 st })
def logged (p : BitVec 512) (s : State) : State := s.modFw (fun w => { w with log := [p] })
/-- The plat of set 7 names this die alone. -/
def alone : State := fwAt 1 (withMem [(0x2000, 64, platWith 1)] launching)
def submit (off n : Nat) : HostWrite := { offset := off, bytes := leBytes n (packetWith 7 1 0) }

theorem test_submission_hypotheses : (submit 0 64).bytes.length = 64 ∧ (submit 262080 64).offset + 64 ≤ 262144 ∧
    (world.pkg.regs.subtail - world.pkg.regs.subdone).toNat < 4096 ∧ world.pkg.fw.events.length < 65536 ∧
    (after (.submission (submit 0 64)) world).pkg.fw.log = [firstTask.packet] ∧
    (after (.submission (submit 0 8)) world).pkg.regs.subbad = 1 ∧
    (after (.submission (submit 0 64)) (fwAt 3 world)).pkg.regs.subdrop = 1 := by decide +kernel

theorem test_submission_process_hypotheses :
    okIs (fun h => maskDies (platDmask h) alone == [alone.die.coord] && ownInMask (platDmask h) alone)
      (launchCheck firstTask.packet false alone) = true ∧
    okIs (fun _ => true) (launchCheck 0 false alone) = false ∧ heldSet 7 alone = false ∧ pktSetid firstTask.packet = 7 ∧ alone.setsFull = false ∧
    (after .submissionProcess (logged firstTask.packet alone)).die.router.outbox.map (fun q => q.type) = [48] ∧
    (after .submissionProcess (logged 0 alone)).pkg.regs.subrej = 1 ∧
    (after .submissionProcess (logged 0 (fwAt 0 alone))).pkg.fw.log = [0] ∧ world.pkg.fw.log = [] := by decide +kernel

def access (off n : Nat) (w : Option (List Byte)) : WindowAccess := { bar := .memory, offset := off, write := w, len := n }

def inBar (b : HostBar) (off n : Nat) (w : Option (List Byte)) : WindowAccess := { access off n w with bar := b }

theorem test_window_hypotheses : 0x5000 + 2 ≤ 2 ^ 36 ∧ 2 ^ 36 < 2 ^ 36 - 1 + 2 ∧ world.die.shard = [] ∧
    (after (.memoryWindowAccess (access 0x40000000 2 none)) world).pkg.out = [.completion [0x01, 0x00] false] ∧
    memGet (after (.memoryWindowAccess (access 0x5000 1 (some [7]))) world).pkg.hbm 0x5000 = 7 ∧ (after (.memoryWindowAccess (access (2 ^ 36 - 1) 2 none)) world).pkg.out = [] ∧
    (after (.controlRegisterWrite 0x50 0x1234567890) world).pkg.regs.winbase = 0x1000000000 ∧
    (bits 6 58 (0x41 : BitVec 64) : BitVec 58) ≠ 0 ∧ (bits 6 58 (0x3F : BitVec 64) : BitVec 58) = 0 := by decide +kernel

theorem test_bar_hypotheses :
    (after (.memoryWindowAccess (inBar .registers 0x90010 8 none)) world).pkg.out.length = 1 ∧ (0x40 : Nat) + 4 ≤ 2 ^ 18 ∧
    (after (.memoryWindowAccess (inBar .submission 0 2 none)) world).pkg.out = [.completion [0xFF, 0xFF] false] ∧
    (0x80004 : Nat) + 2 ≤ 0x88000 ∧ barByte (after (.memoryWindowAccess (inBar .registers 0x80004 2 (some [7, 8]))) world) 0x80005 = 8 ∧
    barByte (after (.memoryWindowAccess (inBar .registers 0x80004 2 (some [7, 8]))) world) 0x80006 = 0 ∧
    (0x50 : Nat) % 8 = 0 ∧ (leBytes 8 9).length = 8 ∧ (0x00 : Nat) ∉ [0x18, 0x20, 0x28, 0x48, 0x50, 0x58, 0x68, 0x78] := by
  decide +kernel

/-- Firmware that runs, and a message of its mailbox. -/
def usual : State := (fwAt 1 world).modFw (fun w => { w with phase := .usual })

theorem test_mailbox_hypotheses : let e : FwEvent := { key := 5, work := .extend 5 9 }
    usual.pkg.fw.events.length < 65536 ∧ coreFor 5 usual = true ∧ (∀ e ∈ usual.pkg.fw.events, e.key ≠ 5) ∧
    coreFor 6 usual = true ∧ coreFor 5 (usual.modFw (fun w => { w with phase := .booting })) = false ∧
    (after (.measurementExtend 5 9) (usual.modFw (fun w => { w with phase := .booting }))).pkg.fw.events = [e] ∧
    coreFor 6 (usual.modFw (fun w => { w with busy := [{ key := 6, work := .reply 1 0 }] })) = false ∧
    (let s := usual.modFw (fun w => { w with events := [e] })
     s.pkg.fw.events.find? (fun x => s.pkg.fw.phase != .booting && s.pkg.fw.busy.length < 12 && !s.pkg.fw.busy.any (fun b => b.key == x.key)) = some e ∧
     (after .firmwareEventDelivery s).pkg.fw.events = [] ∧ (after .firmwareEventDelivery s).pkg.fw.busy = []) := by decide +kernel

theorem test_delivery_hypotheses : let e : FwEvent := { key := 3, work := .submission 1 }
    let s := usual.modFw (fun w => { w with events := [e] })
    s.pkg.fw.busy.length < 12 ∧ (after .firmwareEventDelivery s).pkg.fw.busy = [e] ∧
    (after .firmwareEventDelivery (s.modFw (fun w => { w with busy := [e] }))).pkg.fw.events = [e] ∧
    12 ≤ (s.modFw (fun w => { w with busy := List.replicate 12 e })).pkg.fw.busy.length := by decide +kernel

theorem test_firmware_hypotheses : (bits 0 3 world.pkg.regs.fwstate : BitVec 3) = 0 ∧
    (bits 0 3 (fwAt 2 world).pkg.regs.fwstate : BitVec 3) ≠ 0 ∧ (bits 0 3 (fwAt 2 world).pkg.regs.fwstate : BitVec 3) ≠ 1 ∧ usual.pkg.fw.phase ≠ .booting ∧
    ((fwAt 2 world).modFw (fun w => { w with phase := .booting })).pkg.fw.phase = .booting ∧
    (after .firmwareRestart world).pkg.regs.fwstate = 5 ∧
    (after .firmwareRestart (fwAt 2 usual)).pkg.regs.fwstate = 2 ∧ imageOk world.pkg.fw.loaded 0 = false ∧ (5 : BitVec 4).toNat ≥ 5 := by
  decide +kernel

/-- With an image that passes the checks, whose keys are opaque (log entry 7), the conditions of a restart that accepts it hold. -/
theorem test_image_hypotheses (im : List Byte) (h : imageOk im 0 = true) : let s := fwAt 1 (world.modFw (fun w => { w with loaded := im }))
    s.pkg.fw.loaded = im ∧ im ≠ [] ∧ imageOk im s.pkg.fw.fuse = true ∧ (bits 0 3 s.pkg.regs.fwstate : BitVec 3) = 1 := by
  refine ⟨rfl, ?_, h, show (bits 0 3 (BitVec.ofNat 64 1) : BitVec 3) = 1 by decide⟩
  rintro rfl
  simp [imageOk] at h

/-- With a message that passes its check, the conditions of a fuse commitment hold. -/
theorem test_fuse_hypotheses (v : BitVec 8) (sig : List Byte) (h : Config.mldsaVerify Config.vendorKeyId [v] sig = true) (hv : v ≠ 0) :
    let s := world.modRegs (fun r => { r with fwstate := v.setWidth 64 <<< 32 })
    Config.mldsaVerify Config.vendorKeyId [v] sig = true ∧ v ≤ bits 32 8 s.pkg.regs.fwstate ∧ s.pkg.fw.fuse < v := by
  have h1 : (bits 32 8 (v.setWidth 64 <<< 32 : BitVec 64) : BitVec 8) = v := by
    apply BitVec.eq_of_toNat_eq
    have := v.isLt
    simp [bits, Nat.shiftLeft_eq, Nat.shiftRight_eq_div_pow]
    omega
  have h2 : world.pkg.fw.fuse = 0 := rfl
  refine ⟨h, ?_, ?_⟩
  · show v ≤ (bits 32 8 (v.setWidth 64 <<< 32 : BitVec 64) : BitVec 8)
    rw [h1]; exact BitVec.le_refl v
  · show world.pkg.fw.fuse < v
    rw [h2, BitVec.lt_def]
    exact Nat.pos_of_ne_zero (fun h => hv (BitVec.eq_of_toNat_eq h))

def assisted (base : Nat) : State := world.modRegs (fun r => { r with dutymode := 31, assistbase := BitVec.ofNat 64 base })
def asked (a : AssistWork) : State := usual.modFw (fun w => { w with assists := [{ seq := 1, fn := 4, work := a }] })

theorem test_assist_hypotheses : (assisted 0x1000).pkg.regs.dutymode.getLsbD 4 = true ∧ world.pkg.regs.dutymode.getLsbD 4 = false ∧
    (after (.assistRequest 4 0) (assisted 0x1000)).pkg.fw.assists.length = 1 ∧
    (after (.assistRequest 4 0) (assisted 0)).pkg.fw.assistFallback = 1 ∧
    (asked (.retain 1 100)).pkg.fw.assists.find? (fun a => a.seq == 1) = some { seq := 1, fn := 4, work := .retain 1 100 } ∧
    (after (.assistreply 1 9) (asked (.retain 1 100))).pkg.fw.assists = [] ∧
    (bits 0 8 (after (.assistreply 1 9) (asked (.retain 1 100))).die.lineage.control : BitVec 8) = 9 ∧
    (after (.assistTimeout 1) (asked .routes)).pkg.fw.assistFallback = 1 ∧
    (after (.assistTimeout 1) (asked (.fill (Sys2Proof.Machine.walkArg 0 true .read none 0x10000)))).die.fillEnds.length = 1 ∧
    (after (.assistreply 1 9) ((asked .routes).modFw (fun w => { w with busy := [{ key := 6, work := .reply 1 0 }] }))).pkg.fw.events =
      [{ key := 6, work := .reply 1 9 }] ∧
    world.pkg.fw.assists.find? (fun a => a.seq == 1) = none ∧
    (let full := (assisted 0x1000).modFw (fun w => { w with assists := List.replicate 4096 { seq := 1, fn := 4, work := .routes } })
     4096 ≤ full.pkg.fw.assists.length ∧ (after (.assistRequest 4 0) full).pkg.fw.assistFallback = 1) := by decide +kernel

theorem test_shakeout_hypotheses : (bits 0 3 world.pkg.regs.fwstate : BitVec 3) ≠ 4 ∧ world.pkg.regs.dutymode.getLsbD 5 = false ∧
    world.shakeAsked = false ∧ (asked (.shake 1)).shakeAsked = true ∧ (fwAt 4 world).shakeAsked = false ∧
    (let s := world.modRegs (fun r => { r with dutymode := 0x20, assistbase := 0x1000 })
     s.pkg.regs.dutymode.getLsbD 5 = true ∧ s.pkg.fw.assists.length < 4096 ∧ (after (.shakecmd 9) s).shakeAsked = true) ∧
    (bits 0 3 (after (.shakecmd 9) world).pkg.regs.fwstate : BitVec 3) = 4 ∧
    (after (.shakecmd 9) world).pkg.fw.assists = [] := by decide +kernel

def reading1 (j pw : Nat) : PowerReading := { junction := j, hbm := 60, inlet := 30, package := pw, module := 1000 }
def slowed (n : Nat) : State := world.modPkg (fun p => { p with power := { p.power with freq := 800, calm := n } })

theorem test_power_hypotheses : world.pkg.power.freq ≤ 1100 ∧
    (after (.powerSample (reading1 110 1000)) world).pkg.power.trips = 1 ∧
    (after (.powerSample (reading1 80 1901)) world).pkg.power.freq = 1075 ∧
    (after (.powerSample (reading1 80 1800)) (slowed 99)).pkg.power.freq = 825 ∧
    (after (.powerSample (reading1 80 1800)) (slowed 98)).pkg.power.calm = 99 ∧
    (after (.powerSample (reading1 97 1900)) (slowed 99)).pkg.power.calm = 0 ∧
    (let held := world.modPkg (fun p => { p with timeHeld := true })
     (after (.timeSync 1000) held).pkg.slew = 1000000 - (world.pkg.timePs : Int) ∧ (after (.timeSync 1000) held).pkg.timePs = world.pkg.timePs) ∧
    (let fresh := world.modPkg (fun p => { p with timeHeld := false })
     (after (.timeSync 1000) fresh).pkg.timePs = 1000000 ∧ (after (.timeSync 1000) fresh).pkg.timeHeld = true) ∧
    world.pkg.slewAcc < 10000 ∧
    (let p := { world.pkg with slew := 50 }.pass 10
     p.timePs = world.pkg.timePs + 10 * 909 + 0 ∧ p.slewAcc < 10000) := by decide +kernel

theorem test_reset_event_hypotheses : (bits 0 3 world.pkg.regs.fwstate : BitVec 3) ≠ 4 ∧
    (bits 0 3 (fwAt 4 world).pkg.regs.fwstate : BitVec 3) = 4 ∧ world.die.regions = [] ∧ world.die.lineage.entries = [] ∧ world.die.queues.saved = [] ∧
    (packageIndex 0x0200 world).isSome = true ∧ packageIndex 0x0400 world = none ∧
    (after .packageReset (fwAt 5 world)).pkg.regs.fwstate = 5 ∧ (after .packageReset world).pkg.fw.phase = .booting ∧
    (0x0200 : Coord) ≠ world.die.coord ∧ (after (.dieReset world.die.coord) world).die.resetting = true ∧
    (after (.dieReset world.die.coord) (world.modRouter (fun r => { r with stale := 3 }))).die.router.stale = 3 ∧
    (after .packageReset (world.modRouter (fun r => { r with stale := 3 }))).die.router.stale = 3 ∧
    (after (.dieReset 0x0200) world).die.queues.notices.map noticeKind = [5] ∧
    (after (.dieReturn world.die.coord) (after (.dieReset world.die.coord) world)).die.resetting = false := by decide +kernel

/-! ## Hypotheses of the statements: the machine as a whole -/

/-- Bytes of code at address 0. -/
def coded (bs : List Byte) : State := withMem [(0, bs.length, leNat bs)] (toHandler tasked)

def stepPc (s : State) : Word := match step s with | .next t => t.pc | _ => 1

theorem test_step_hypotheses :
    let bs : List Byte := [0x02, 0xE0, 0x85, 0x02, 0x00]
    (coded bs).inputs = [] ∧ (coded bs).turns = [] ∧ (coded bs).core.cycle % 16 ≠ 15 ∧ (coded bs).core.frozenLeft = 0 ∧
    (coded bs).cur.flow.taking = none ∧ (coded bs).cur.flow.saveWait = none ∧ (coded bs).cur.flow.factPoint = false ∧ (coded bs).pour = none ∧
    (coded bs).cur.flow.due = [] ∧ (coded bs).cur.flow.doneWait = false ∧ (coded bs).cur.flow.serviceWait = none ∧ (coded bs).cur.flow.pendingArray = [] ∧ (coded bs).cur.sys.wdlim = 0 ∧
    (match fetchAt 0 (coded bs) with
      | .line l => l.take 5 == bs && (match decodeBundle l with | .ok (_ :: _, 5) => true | _ => false)
      | _ => false) = true ∧ stepPc (coded bs) = 5 ∧ stepPc (coded [0]) = 64 ∧ stepPc (coded [0x40, 0x00]) = 0x400 ∧
    (match fetchAt 0 (markPoison .hbm 0 8 (coded bs)) with | .poisoned => true | _ => false) = true ∧
    (coded bs).cur.flow.blankPlanes = 0 ∧ (coded bs).cur.flow.blankTrees = 0 ∧ (coded bs).core.parked.all (fun x =>
      x.2.flow.blankPlanes == 0 && x.2.flow.blankTrees == 0) = true ∧
    (match fetchAt 0x60000000 (coded bs) with | .fault => true | _ => false) = true ∧
    stepPc ((coded bs).modFlow (fun w => { w with pc := 0x60000000 })) = 0x400 := by decide +kernel

theorem test_bundle_hypotheses : legal [.add .a (rr 1 2 3 0), .sub .b { rr 4 5 6 0 with port1 := 2, port2 := 3 }] false = true ∧
    legal [.tree (fork 0 0), .add .a { rr 1 2 3 0 with guard := 2 }] false = true ∧
    treeOff (fork 0 0) (leafTaken (fork 0 0) (treePath (fork 0 0) (fun _ r => kReg r world))) = 0 ∧
    3 ∈ treePath (fork 0 0) (fun _ r => kReg r world) ∧ 2 ∉ treePath (fork 0 0) (fun _ r => kReg r world) ∧
    legal [.add .a (rr 1 2 3 0), .sub .b { rr 1 5 6 0 with port1 := 2, port2 := 3 }] false = false ∧
    legal [.eret, .add .a (rr 1 2 3 0)] false = true ∧ treeOf [.eret, .add .a (rr 1 2 3 0)] = none ∧
    ([.eret, .add .a (rr 1 2 3 0)].find? (fun x => privileged x world)) = some .eret ∧
    legal [.chk .a (rr1 0 7 0), .chk .b (rr1 0 7 0)] false = true ∧ legal [.trap 3, .chk .a (rr1 0 7 0)] false = true ∧
    gTag 7 (tagG [7] world) = true ∧ gTag 7 launching = true := by decide +kernel

theorem test_write_hypotheses : let cells : List ((Tier × Nat) × Byte) := [((.hbm, 0x5000), 7), ((.second, 0x5000), 8)]
    (cells.map Prod.fst).Nodup ∧ devicePa .hbm 0x5000 = false ∧ physRead .second 0x5000 (storeCells cells world) = 8 ∧
    physRead .hbm 0x5001 (storeCells cells world) = 0 ∧ physPoison .hbm 0x5001 (spoiled world) = true ∧
    physPoison .hbm 0x5001 (storeCells cells (spoiled world)) = true ∧
    physPoison .hbm 0x5001 (storeCells ((List.range 64).map (fun i => ((.hbm, 0x5000 + i), 1))) (spoiled world)) = false ∧
    scratchRead 8 (writeScratch [some 8, none, some 9] [1, 2, 3] world) = 1 := by decide +kernel

theorem test_round_trip_hypotheses : wellFormed (.wdogSuspend (gp 3)) = true ∧ (encode (.wdogSuspend (gp 3))).isSome = true ∧
    decodeBundle (encodeAlone (.wdogSuspend (gp 3)) ++ [9]) = .ok ([.wdogSetZero (gp 3)], 5) ∧
    decodeBundle (encodeAlone (.vadd { guard := 0, dst := 1, src1 := 2, keep1 := true, src2 := 3, keep2 := false, src3 := 0, keep3 := false, mask := 4, ty := 10, modf := 0 }) ++ [9]) =
      .ok ([.vadd { guard := 0, dst := 1, src1 := 2, keep1 := true, src2 := 3, keep2 := false, src3 := 0, keep3 := false, mask := 4, ty := 10, modf := 0 }], 7) := by
  decide +kernel

theorem test_frame_hypotheses : (Dest.g 5 ≠ .g (BitVec.ofNat 5 6)) ∧ ((0 : Fin 32).val = 0) ∧ ((6 : BitVec 5), false) ∉ [((1 : BitVec 5), false)] := by
  decide

theorem test_canonical_hypotheses : storesWf (coded [0]) = true ∧ stepPc (coded [0]) = 64 := by decide +kernel

theorem test_shakeout_quiesces : let s := world.modRegs (fun r => { r with dutymode := 0x20, assistbase := 0x1000, fwstate := 1 })
    let asked := after (.shakecmd 5) s
    asked.cur.flow.residency = world.cur.flow.residency ∧ asked.pkg.fw.assists.map (·.fn) = [5] ∧
    (let t := after (.assistreply 1 0) asked
     t.cur.flow.residency = .free ∧ t.die.router.links = Vector.replicate 6 .down ∧ t.pkg.fw.assists.map (·.fn) = [5]) := by
  decide +kernel

/-! ## Ill-formed terms: for each check of WellFormed a term that breaks it alone, and a term of each instruction that passes -/

def r0 : RR := rr1 0 0 0
def i0 : RI := ri 0 0 0
def n0 : MI := { guard := 0, dst := 0, imm := 0 }
def c0 : RC := { guard := 0, dst := 0, src1 := 0, port1 := 0, imm := 0, cond := 0 }
def v0 : VF := vf 0 0 0 0 0 0
def m0 : MF := mf 0 0 0 0 0
def l0 : LF := lf 0 0 0 0 0
def s0 : SF := sf 0 0
def x0 : XsvF := { guard := 0, pair := 0, port := 0, sel := 0 }
def x1 : XkmF := { guard := 0, pred := 0, mask := 0 }
def x2 : XvsF := { guard := 0, pair := 0, keep := false, lane := 0, width := 0 }
def x3 : XmkF := { guard := 0, pred := 0, mask := 0, all := false }
def t0 : TreeF := { shape := 0, test1 := 0, test2 := 0, test3 := 0, test4 := 0, off0 := 0, off1 := 0, off2 := 0, off3 := 0, off4 := 0 }

theorem test_ill_formed_control : [Instr.phint { hinted with regs := 1 }, .tree { t0 with test1 := 1 }, .tree { t0 with off1 := 1 },
    .tree { t0 with shape := 1, test2 := 1 }, .tree { t0 with shape := 1, off2 := 1 }, .tree { t0 with shape := 3, test3 := 1 },
    .tree { t0 with shape := 3, off3 := 1 }, .tree { t0 with shape := 6, test4 := 1 }, .tree { t0 with shape := 6, off4 := 1 }].all
      (fun i => !wellFormed i) = true ∧
    [Instr.phint hinted, .tree t0, .tree { t0 with shape := 7, test4 := 1, off4 := 1 }].all wellFormed = true := by decide +kernel

theorem test_well_formed_rr : [
    Instr.add .a r0, .sub .a r0, .mul .a r0, .mulh .a r0, .mulhn .a r0, .div r0, .rem r0, .and .a r0, .or .a r0, .xor .a r0,
    .andn .a r0, .shl .a r0, .shr .a r0, .sar .a r0, .min .a r0, .max .a r0, .minn .a r0, .maxn .a r0, .clz .a r0, .popc .a r0,
    .brev .a r0, .bfx .a r0, .bfi .a r0, .sel .a r0, .cmp .a r0, .kop .a r0, .chk .a r0, .fadd r0, .fsub r0, .fmul r0, .fma r0,
    .fdiv r0, .fsqrt r0, .fmin r0, .fmax r0, .fsgn r0, .fcmp r0, .fcvt r0, .fclass r0, .wclr r0, .wset r0, .wadd r0, .wget r0, .wsum r0,
    .wfind r0, .wcut r0, .wtot r0, .wmov r0].all wellFormed = true := by decide +kernel

theorem test_ill_formed_rr : [
    Instr.add .a { r0 with guard := 10 }, .add .a { r0 with modf := 4 }, .sub .a { r0 with guard := 10 }, .sub .a { r0 with modf := 4 },
    .mul .a { r0 with guard := 10 }, .mul .a { r0 with modf := 2 }, .mulh .a { r0 with guard := 10 }, .mulh .a { r0 with modf := 1 },
    .mulhn .a { r0 with guard := 10 }, .mulhn .a { r0 with modf := 1 }, .div { r0 with guard := 10 }, .div { r0 with modf := 2 },
    .rem { r0 with guard := 10 }, .rem { r0 with modf := 2 }, .and .a { r0 with guard := 10 }, .and .a { r0 with modf := 1 },
    .or .a { r0 with guard := 10 }, .or .a { r0 with modf := 1 }, .xor .a { r0 with guard := 10 }, .xor .a { r0 with modf := 1 },
    .andn .a { r0 with guard := 10 }, .andn .a { r0 with modf := 1 }, .shl .a { r0 with guard := 10 }, .shl .a { r0 with modf := 2 },
    .shr .a { r0 with guard := 10 }, .shr .a { r0 with modf := 2 }, .sar .a { r0 with guard := 10 }, .sar .a { r0 with modf := 2 },
    .min .a { r0 with guard := 10 }, .min .a { r0 with modf := 1 }, .max .a { r0 with guard := 10 }, .max .a { r0 with modf := 1 },
    .minn .a { r0 with guard := 10 }, .minn .a { r0 with modf := 1 }, .maxn .a { r0 with guard := 10 }, .maxn .a { r0 with modf := 1 },
    .clz .a { r0 with guard := 10 }, .clz .a { r0 with src2 := 1 }, .clz .a { r0 with port2 := 1 }, .clz .a { r0 with modf := 1 },
    .popc .a { r0 with guard := 10 }, .popc .a { r0 with src2 := 1 }, .popc .a { r0 with port2 := 1 }, .popc .a { r0 with modf := 1 },
    .brev .a { r0 with guard := 10 }, .brev .a { r0 with src2 := 1 }, .brev .a { r0 with port2 := 1 }, .brev .a { r0 with modf := 1 },
    .bfx .a { r0 with guard := 10 }, .bfx .a { r0 with modf := 2 }, .bfi .a { r0 with guard := 10 }, .bfi .a { r0 with modf := 1 },
    .sel .a { r0 with guard := 10 }, .cmp .a { r0 with guard := 10 }, .cmp .a { r0 with dst := 16 }, .cmp .a { r0 with modf := 7 },
    .kop .a { r0 with guard := 10 }, .kop .a { r0 with dst := 16 }, .kop .a { r0 with src1 := 16 }, .kop .a { r0 with port1 := 1 },
    .kop .a { r0 with src2 := 16 }, .kop .a { r0 with port2 := 1 }, .chk .a { r0 with guard := 10 }, .chk .a { r0 with dst := 1 },
    .chk .a { r0 with src2 := 1 }, .chk .a { r0 with port2 := 1 }, .chk .a { r0 with modf := 1 }, .fadd { r0 with guard := 10 },
    .fsub { r0 with guard := 10 }, .fmul { r0 with guard := 10 }, .fma { r0 with guard := 10 }, .fdiv { r0 with guard := 10 },
    .fsqrt { r0 with guard := 10 }, .fsqrt { r0 with src2 := 1 }, .fsqrt { r0 with port2 := 1 }, .fmin { r0 with guard := 10 },
    .fmin { r0 with modf := 0x2 }, .fmax { r0 with guard := 10 }, .fmax { r0 with modf := 0x2 }, .fsgn { r0 with guard := 10 },
    .fsgn { r0 with modf := 0x3 }, .fcmp { r0 with guard := 10 }, .fcmp { r0 with dst := 16 }, .fcvt { r0 with guard := 10 },
    .fcvt { r0 with src2 := 10 }, .fcvt { r0 with port2 := 1 }, .fcvt { r0 with modf := 3 }, .fclass { r0 with guard := 10 },
    .fclass { r0 with src2 := 1 }, .fclass { r0 with port2 := 1 }, .fclass { r0 with modf := 0x2 }, .wclr { r0 with guard := 10 },
    .wclr { r0 with src2 := 1 }, .wclr { r0 with port2 := 1 }, .wclr { r0 with dst := 1 }, .wset { r0 with guard := 10 },
    .wset { r0 with dst := 2 }, .wadd { r0 with guard := 10 }, .wadd { r0 with dst := 2 }, .wget { r0 with guard := 10 },
    .wget { r0 with src2 := 2 }, .wget { r0 with port2 := 1 }, .wsum { r0 with guard := 10 }, .wsum { r0 with src2 := 2 },
    .wsum { r0 with port2 := 1 }, .wfind { r0 with guard := 10 }, .wfind { r0 with src2 := 2 }, .wfind { r0 with port2 := 1 },
    .wcut { r0 with guard := 10 }, .wcut { r0 with src2 := 2 }, .wcut { r0 with port2 := 1 }, .wtot { r0 with guard := 10 },
    .wtot { r0 with src2 := 2 }, .wtot { r0 with port2 := 1 }, .wtot { r0 with src1 := 1 }, .wtot { r0 with port1 := 1 },
    .wmov { r0 with guard := 10 }, .wmov { r0 with src2 := 1 }, .wmov { r0 with port2 := 1 }, .wmov { r0 with src1 := 8 },
    .wmov { r0 with port1 := 1 }, .wmov { r0 with dst := 1 }].all (fun i => !wellFormed i) = true := by decide +kernel

theorem test_well_formed_ri : [
    Instr.lea .a i0, .addi .a i0, .andi .a i0, .ori .a i0, .shli .a i0, .rdsys i0, .rdsysTrapinfo { i0 with imm := 0x00A },
    .wrsys { i0 with imm := 0x00C }, .wrsysFmt { i0 with imm := 0x000 }, .wrsysFstat { i0 with imm := 0x001 },
    .wrsysFprog { i0 with imm := 0x004 }, .wrsysMlprog { i0 with imm := 0x005 }, .wrsysPourskew { i0 with imm := 0x007 },
    .wrsysWdlim { i0 with imm := 0x008 }, .wrsysTvec { i0 with imm := 0x009 }, .wrsysTrapinfo { i0 with imm := 0x00A },
    .wrsysDutymode { i0 with imm := 0x00B }, .wrsysPeer { i0 with imm := 0x011 }, .wrsysFlag { i0 with imm := 0x020 }].all wellFormed = true := by decide +kernel

theorem test_ill_formed_ri : [
    Instr.lea .a { i0 with guard := 10 }, .addi .a { i0 with guard := 10 }, .andi .a { i0 with guard := 10 },
    .ori .a { i0 with guard := 10 }, .shli .a { i0 with guard := 10 }, .shli .a { i0 with imm := 64 }, .rdsys { i0 with guard := 10 },
    .rdsys { i0 with src1 := 1 }, .rdsys { i0 with port1 := 1 }, .rdsys { i0 with imm := 0x018 }, .rdsys { i0 with imm := 0x040 },
    .rdsys { i0 with imm := 0x00A }, .rdsysTrapinfo { i0 with imm := 0x00A, guard := 10 },
    .rdsysTrapinfo { i0 with imm := 0x00A, src1 := 1 }, .rdsysTrapinfo { i0 with imm := 0x00A, port1 := 1 },
    .rdsysTrapinfo { i0 with imm := 0xb }, .wrsys { i0 with imm := 0x00C, guard := 10 }, .wrsys { i0 with imm := 0x00C, dst := 1 },
    .wrsys { i0 with imm := 0x00B }, .wrsysFmt { i0 with imm := 0x000, guard := 10 }, .wrsysFmt { i0 with imm := 0x000, dst := 1 },
    .wrsysFmt { i0 with imm := 1 }, .wrsysFstat { i0 with imm := 0x001, guard := 10 }, .wrsysFstat { i0 with imm := 0x001, dst := 1 },
    .wrsysFstat { i0 with imm := 0x2 }, .wrsysFprog { i0 with imm := 0x004, guard := 10 },
    .wrsysFprog { i0 with imm := 0x004, dst := 1 }, .wrsysFprog { i0 with imm := 0x5 },
    .wrsysMlprog { i0 with imm := 0x005, guard := 10 }, .wrsysMlprog { i0 with imm := 0x005, dst := 1 },
    .wrsysMlprog { i0 with imm := 0x6 }, .wrsysPourskew { i0 with imm := 0x007, guard := 10 },
    .wrsysPourskew { i0 with imm := 0x007, dst := 1 }, .wrsysPourskew { i0 with imm := 0x8 },
    .wrsysWdlim { i0 with imm := 0x008, guard := 10 }, .wrsysWdlim { i0 with imm := 0x008, dst := 1 },
    .wrsysWdlim { i0 with imm := 0x9 }, .wrsysTvec { i0 with imm := 0x009, guard := 10 }, .wrsysTvec { i0 with imm := 0x009, dst := 1 },
    .wrsysTvec { i0 with imm := 0xa }, .wrsysTrapinfo { i0 with imm := 0x00A, guard := 10 },
    .wrsysTrapinfo { i0 with imm := 0x00A, dst := 1 }, .wrsysTrapinfo { i0 with imm := 0xb },
    .wrsysDutymode { i0 with imm := 0x00B, guard := 10 }, .wrsysDutymode { i0 with imm := 0x00B, dst := 1 },
    .wrsysDutymode { i0 with imm := 0xc }, .wrsysPeer { i0 with imm := 0x011, guard := 10 },
    .wrsysPeer { i0 with imm := 0x011, dst := 1 }, .wrsysPeer { i0 with imm := 0x10 }, .wrsysPeer { i0 with imm := 0x18 },
    .wrsysFlag { i0 with imm := 0x020, guard := 10 }, .wrsysFlag { i0 with imm := 0x020, dst := 1 }, .wrsysFlag { i0 with imm := 0x1f },
    .wrsysFlag { i0 with imm := 0x40 }].all (fun i => !wellFormed i) = true := by decide +kernel

theorem test_well_formed_mi : [
    Instr.movi .a n0, .movhi .a n0].all wellFormed = true := by decide +kernel

theorem test_ill_formed_mi : [
    Instr.movi .a { n0 with guard := 10 }, .movhi .a { n0 with guard := 10 }].all (fun i => !wellFormed i) = true := by decide +kernel

theorem test_well_formed_rc : [
    Instr.cmpi .a c0].all wellFormed = true := by decide +kernel

theorem test_ill_formed_rc : [
    Instr.cmpi .a { c0 with guard := 10 }, .cmpi .a { c0 with dst := 16 }, .cmpi .a { c0 with cond := 7 }].all (fun i => !wellFormed i) = true := by decide +kernel

theorem test_well_formed_vector : [
    Instr.vadd v0, .vsub v0, .vmul v0, .vfma v0, .vfms v0, .vmin v0, .vmax v0, .vabs v0, .vneg v0, .vdiv { v0 with ty := 10 },
    .vsqrt { v0 with ty := 10 }, .vrsqrt { v0 with ty := 10 }, .vrcp { v0 with ty := 10 }, .vexp2 { v0 with ty := 10 },
    .vlog2 { v0 with ty := 10 }, .vcvt v0, .vcmp v0, .vsel v0, .vand v0, .vor v0, .vxor v0, .vnot v0, .vshl v0, .vshr v0, .vsar v0,
    .vredsum v0, .vredmax v0, .vredmin v0, .vscan v0, .vperm v0, .vslide v0, .vbcast v0, .vdup v0, .vdrop v0, .viota v0, .vclamp v0,
    .vlen v0, .mand v0, .mor v0, .mnot v0, .vmovi v0].all wellFormed = true := by decide +kernel

theorem test_ill_formed_vector : [
    Instr.vadd { v0 with guard := 10 }, .vadd { v0 with src3 := 1 }, .vadd { v0 with keep3 := true }, .vadd { v0 with ty := 14 },
    .vadd { v0 with modf := 2 }, .vadd { v0 with modf := 1, ty := 10 }, .vsub { v0 with guard := 10 }, .vsub { v0 with src3 := 1 },
    .vsub { v0 with keep3 := true }, .vsub { v0 with ty := 14 }, .vsub { v0 with modf := 2 }, .vsub { v0 with modf := 1, ty := 10 },
    .vmul { v0 with guard := 10 }, .vmul { v0 with src3 := 1 }, .vmul { v0 with keep3 := true }, .vmul { v0 with ty := 14 },
    .vmul { v0 with modf := 2 }, .vmul { v0 with modf := 1, ty := 10 }, .vfma { v0 with guard := 10 }, .vfma { v0 with ty := 14 },
    .vfma { v0 with modf := 2 }, .vfma { v0 with modf := 1, ty := 10 }, .vfms { v0 with guard := 10 }, .vfms { v0 with ty := 14 },
    .vfms { v0 with modf := 2 }, .vfms { v0 with modf := 1, ty := 10 }, .vmin { v0 with guard := 10 }, .vmin { v0 with src3 := 1 },
    .vmin { v0 with keep3 := true }, .vmin { v0 with ty := 14 }, .vmin { v0 with modf := 1 }, .vmax { v0 with guard := 10 },
    .vmax { v0 with src3 := 1 }, .vmax { v0 with keep3 := true }, .vmax { v0 with ty := 14 }, .vmax { v0 with modf := 1 },
    .vabs { v0 with guard := 10 }, .vabs { v0 with src2 := 1 }, .vabs { v0 with keep2 := true }, .vabs { v0 with src3 := 1 },
    .vabs { v0 with keep3 := true }, .vabs { v0 with ty := 14 }, .vabs { v0 with modf := 2 }, .vabs { v0 with modf := 1, ty := 4 },
    .vneg { v0 with guard := 10 }, .vneg { v0 with src2 := 1 }, .vneg { v0 with keep2 := true }, .vneg { v0 with src3 := 1 },
    .vneg { v0 with keep3 := true }, .vneg { v0 with ty := 14 }, .vneg { v0 with modf := 2 }, .vneg { v0 with modf := 1, ty := 10 },
    .vdiv { v0 with ty := 10, guard := 10 }, .vdiv { v0 with ty := 10, src3 := 1 }, .vdiv { v0 with ty := 10, keep3 := true },
    .vdiv { v0 with ty := 7 }, .vdiv { v0 with ty := 12 }, .vdiv { v0 with ty := 10, modf := 1 },
    .vsqrt { v0 with ty := 10, guard := 10 }, .vsqrt { v0 with ty := 10, src2 := 1 }, .vsqrt { v0 with ty := 10, keep2 := true },
    .vsqrt { v0 with ty := 10, src3 := 1 }, .vsqrt { v0 with ty := 10, keep3 := true }, .vsqrt { v0 with ty := 7 },
    .vsqrt { v0 with ty := 12 }, .vsqrt { v0 with ty := 10, modf := 1 }, .vrsqrt { v0 with ty := 10, guard := 10 },
    .vrsqrt { v0 with ty := 10, src2 := 1 }, .vrsqrt { v0 with ty := 10, keep2 := true }, .vrsqrt { v0 with ty := 10, src3 := 1 },
    .vrsqrt { v0 with ty := 10, keep3 := true }, .vrsqrt { v0 with ty := 7 }, .vrsqrt { v0 with ty := 12 },
    .vrsqrt { v0 with ty := 10, modf := 1 }, .vrcp { v0 with ty := 10, guard := 10 }, .vrcp { v0 with ty := 10, src2 := 1 },
    .vrcp { v0 with ty := 10, keep2 := true }, .vrcp { v0 with ty := 10, src3 := 1 }, .vrcp { v0 with ty := 10, keep3 := true },
    .vrcp { v0 with ty := 7 }, .vrcp { v0 with ty := 12 }, .vrcp { v0 with ty := 10, modf := 1 },
    .vexp2 { v0 with ty := 10, guard := 10 }, .vexp2 { v0 with ty := 10, src2 := 1 }, .vexp2 { v0 with ty := 10, keep2 := true },
    .vexp2 { v0 with ty := 10, src3 := 1 }, .vexp2 { v0 with ty := 10, keep3 := true }, .vexp2 { v0 with ty := 7 },
    .vexp2 { v0 with ty := 12 }, .vexp2 { v0 with ty := 10, modf := 1 }, .vlog2 { v0 with ty := 10, guard := 10 },
    .vlog2 { v0 with ty := 10, src2 := 1 }, .vlog2 { v0 with ty := 10, keep2 := true }, .vlog2 { v0 with ty := 10, src3 := 1 },
    .vlog2 { v0 with ty := 10, keep3 := true }, .vlog2 { v0 with ty := 7 }, .vlog2 { v0 with ty := 12 },
    .vlog2 { v0 with ty := 10, modf := 1 }, .vcvt { v0 with guard := 10 }, .vcvt { v0 with src2 := 1 }, .vcvt { v0 with keep2 := true },
    .vcvt { v0 with src3 := 1 }, .vcvt { v0 with keep3 := true }, .vcvt { v0 with ty := 14 }, .vcvt { v0 with modf := 14 },
    .vcvt { v0 with modf := 0x10 }, .vcvt { v0 with modf := 3 }, .vcvt { v0 with ty := 12, modf := 12 }, .vcvt { v0 with modf := 0x40 },
    .vcmp { v0 with guard := 10 }, .vcmp { v0 with src3 := 1 }, .vcmp { v0 with keep3 := true }, .vcmp { v0 with ty := 13 },
    .vcmp { v0 with modf := 7 }, .vcmp { v0 with modf := 6 }, .vcmp { v0 with dst := 8 }, .vsel { v0 with guard := 10 },
    .vsel { v0 with src3 := 1 }, .vsel { v0 with keep3 := true }, .vsel { v0 with ty := 14 }, .vsel { v0 with modf := 1 },
    .vand { v0 with guard := 10 }, .vand { v0 with src3 := 1 }, .vand { v0 with keep3 := true }, .vand { v0 with ty := 8 },
    .vand { v0 with modf := 1 }, .vor { v0 with guard := 10 }, .vor { v0 with src3 := 1 }, .vor { v0 with keep3 := true },
    .vor { v0 with ty := 8 }, .vor { v0 with modf := 1 }, .vxor { v0 with guard := 10 }, .vxor { v0 with src3 := 1 },
    .vxor { v0 with keep3 := true }, .vxor { v0 with ty := 8 }, .vxor { v0 with modf := 1 }, .vnot { v0 with guard := 10 },
    .vnot { v0 with src2 := 1 }, .vnot { v0 with keep2 := true }, .vnot { v0 with src3 := 1 }, .vnot { v0 with keep3 := true },
    .vnot { v0 with ty := 8 }, .vnot { v0 with modf := 1 }, .vshl { v0 with guard := 10 }, .vshl { v0 with src3 := 1 },
    .vshl { v0 with keep3 := true }, .vshl { v0 with ty := 8 }, .vshl { v0 with modf := 1 }, .vshr { v0 with guard := 10 },
    .vshr { v0 with src3 := 1 }, .vshr { v0 with keep3 := true }, .vshr { v0 with ty := 8 }, .vshr { v0 with modf := 1 },
    .vsar { v0 with guard := 10 }, .vsar { v0 with src3 := 1 }, .vsar { v0 with keep3 := true }, .vsar { v0 with ty := 8 },
    .vsar { v0 with modf := 1 }, .vredsum { v0 with guard := 10 }, .vredsum { v0 with src2 := 1 }, .vredsum { v0 with keep2 := true },
    .vredsum { v0 with src3 := 1 }, .vredsum { v0 with keep3 := true }, .vredsum { v0 with ty := 14 }, .vredsum { v0 with modf := 1 },
    .vredmax { v0 with guard := 10 }, .vredmax { v0 with src2 := 1 }, .vredmax { v0 with keep2 := true },
    .vredmax { v0 with src3 := 1 }, .vredmax { v0 with keep3 := true }, .vredmax { v0 with ty := 14 }, .vredmax { v0 with modf := 1 },
    .vredmin { v0 with guard := 10 }, .vredmin { v0 with src2 := 1 }, .vredmin { v0 with keep2 := true },
    .vredmin { v0 with src3 := 1 }, .vredmin { v0 with keep3 := true }, .vredmin { v0 with ty := 14 }, .vredmin { v0 with modf := 1 },
    .vscan { v0 with guard := 10 }, .vscan { v0 with src2 := 1 }, .vscan { v0 with keep2 := true }, .vscan { v0 with src3 := 1 },
    .vscan { v0 with keep3 := true }, .vscan { v0 with ty := 12 }, .vscan { v0 with modf := 2 }, .vperm { v0 with guard := 10 },
    .vperm { v0 with src3 := 1 }, .vperm { v0 with keep3 := true }, .vperm { v0 with ty := 13 }, .vperm { v0 with modf := 2 },
    .vslide { v0 with guard := 10 }, .vslide { v0 with ty := 14 }, .vslide { v0 with src3 := 1 }, .vslide { v0 with modf := 0x21 },
    .vslide { v0 with ty := 3, modf := 16 }, .vbcast { v0 with guard := 10 }, .vbcast { v0 with ty := 14 },
    .vbcast { v0 with src2 := 1 }, .vbcast { v0 with modf := 0x21 }, .vbcast { v0 with ty := 3, modf := 16 },
    .vdup { v0 with guard := 10 }, .vdup { v0 with src2 := 1 }, .vdup { v0 with keep2 := true }, .vdup { v0 with src3 := 1 },
    .vdup { v0 with keep3 := true }, .vdup { v0 with ty := 14 }, .vdup { v0 with modf := 4 }, .vdup { v0 with modf := 0x40 },
    .vdrop { v0 with guard := 10 }, .vdrop { v0 with src2 := 1 }, .vdrop { v0 with keep2 := true }, .vdrop { v0 with src3 := 1 },
    .vdrop { v0 with keep3 := true }, .vdrop { v0 with ty := 14 }, .vdrop { v0 with modf := 4 }, .vdrop { v0 with modf := 0x40 },
    .viota { v0 with guard := 10 }, .viota { v0 with src1 := 1 }, .viota { v0 with keep1 := true }, .viota { v0 with src2 := 1 },
    .viota { v0 with keep2 := true }, .viota { v0 with src3 := 1 }, .viota { v0 with keep3 := true }, .viota { v0 with ty := 12 },
    .viota { v0 with modf := 1 }, .vclamp { v0 with guard := 10 }, .vclamp { v0 with ty := 14 }, .vclamp { v0 with modf := 1 },
    .vlen { v0 with guard := 10 }, .vlen { v0 with src2 := 1 }, .vlen { v0 with keep2 := true }, .vlen { v0 with src3 := 1 },
    .vlen { v0 with keep3 := true }, .vlen { v0 with ty := 14 }, .vlen { v0 with modf := 1 }, .vlen { v0 with dst := 8 },
    .vlen { v0 with mask := 1 }, .mand { v0 with guard := 10 }, .mand { v0 with src3 := 1 }, .mand { v0 with keep3 := true },
    .mand { v0 with ty := 1 }, .mand { v0 with mask := 1 }, .mand { v0 with keep1 := true }, .mand { v0 with keep2 := true },
    .mand { v0 with modf := 1 }, .mand { v0 with dst := 8 }, .mand { v0 with src1 := 8 }, .mand { v0 with src2 := 8 },
    .mor { v0 with guard := 10 }, .mor { v0 with src3 := 1 }, .mor { v0 with keep3 := true }, .mor { v0 with ty := 1 },
    .mor { v0 with mask := 1 }, .mor { v0 with keep1 := true }, .mor { v0 with keep2 := true }, .mor { v0 with modf := 1 },
    .mor { v0 with dst := 8 }, .mor { v0 with src1 := 8 }, .mor { v0 with src2 := 8 }, .mnot { v0 with guard := 10 },
    .mnot { v0 with src2 := 1 }, .mnot { v0 with keep2 := true }, .mnot { v0 with src3 := 1 }, .mnot { v0 with keep3 := true },
    .mnot { v0 with ty := 1 }, .mnot { v0 with mask := 1 }, .mnot { v0 with keep1 := true }, .mnot { v0 with keep2 := true },
    .mnot { v0 with modf := 1 }, .mnot { v0 with dst := 8 }, .mnot { v0 with src1 := 8 }, .vmovi { v0 with guard := 10 },
    .vmovi { v0 with ty := 14 }, .vmovi { v0 with modf := 1 }, .vmovi { v0 with keep3 := true }, .vmovi { v0 with src3 := 16 }].all (fun i => !wellFormed i) = true := by decide +kernel

theorem test_well_formed_xsv : [
    Instr.xsv x0].all wellFormed = true := by decide +kernel

theorem test_ill_formed_xsv : [
    Instr.xsv { x0 with guard := 10 }, .xsv { x0 with sel := 3 }].all (fun i => !wellFormed i) = true := by decide +kernel

theorem test_well_formed_xkm : [
    Instr.xkm x1].all wellFormed = true := by decide +kernel

theorem test_ill_formed_xkm : [
    Instr.xkm { x1 with guard := 10 }].all (fun i => !wellFormed i) = true := by decide +kernel

theorem test_well_formed_xvs : [
    Instr.xvs x2].all wellFormed = true := by decide +kernel

theorem test_ill_formed_xvs : [
    Instr.xvs { x2 with guard := 10 }, .xvs { x2 with width := 3 }, .xvs { x2 with width := 2, lane := 16 }].all (fun i => !wellFormed i) = true := by decide +kernel

theorem test_well_formed_xmk : [
    Instr.xmk x3].all wellFormed = true := by decide +kernel

theorem test_ill_formed_xmk : [
    Instr.xmk { x3 with guard := 10 }].all (fun i => !wellFormed i) = true := by decide +kernel

theorem test_well_formed_flag : [
    Instr.wflag s0, .pflag s0, .bar s0, .rsync s0].all wellFormed = true := by decide +kernel

theorem test_ill_formed_flag : [
    Instr.wflag { s0 with guard := 10 }, .pflag { s0 with guard := 10 }, .bar { s0 with guard := 10 }, .bar { s0 with flag := 1 },
    .rsync { s0 with guard := 10 }].all (fun i => !wellFormed i) = true := by decide +kernel

theorem test_well_formed_matrix : [
    Instr.mpush m0, .mshift m0, .macc m0, .mdrain m0, .mzero m0, .mfill m0, .mload m0, .mflu m0, .mfch m0, .mfqr m0,
    .mtrs { m0 with plane := 1 }, .mrdp m0, .mstat m0, .mwait m0].all wellFormed = true := by decide +kernel

theorem test_ill_formed_matrix : [
    Instr.mpush { m0 with guard := 10 }, .mpush { m0 with row := 1 }, .mpush { m0 with caddr := 1 }, .mpush { m0 with plane := 1 },
    .mpush { m0 with modf := 8 }, .mpush { m0 with modf := 0x5 }, .mpush { m0 with modf := 0x7 }, .mshift { m0 with guard := 10 },
    .mshift { m0 with row := 1 }, .mshift { m0 with caddr := 1 }, .mshift { m0 with plane := 1 }, .mshift { m0 with queue := 1 },
    .macc { m0 with guard := 10 }, .macc { m0 with queue := 1 }, .macc { m0 with modf := 4 }, .mdrain { m0 with guard := 10 },
    .mdrain { m0 with caddr := 1 }, .mdrain { m0 with modf := 4 }, .mzero { m0 with guard := 10 }, .mzero { m0 with modf := 1 },
    .mzero { m0 with row := 1 }, .mzero { m0 with caddr := 1 }, .mzero { m0 with queue := 1 }, .mfill { m0 with guard := 10 },
    .mfill { m0 with caddr := 1 }, .mfill { m0 with modf := 8 }, .mload { m0 with guard := 10 }, .mload { m0 with plane := 1 },
    .mload { m0 with queue := 16 }, .mload { m0 with modf := 8 }, .mflu { m0 with guard := 10 }, .mflu { m0 with row := 1 },
    .mflu { m0 with caddr := 1 }, .mflu { m0 with queue := 1 }, .mflu { m0 with modf := 2 }, .mfch { m0 with guard := 10 },
    .mfch { m0 with modf := 1 }, .mfch { m0 with row := 1 }, .mfch { m0 with caddr := 1 }, .mfch { m0 with queue := 1 },
    .mfqr { m0 with guard := 10 }, .mfqr { m0 with modf := 1 }, .mfqr { m0 with row := 1 }, .mfqr { m0 with caddr := 1 },
    .mfqr { m0 with queue := 1 }, .mtrs { m0 with plane := 1, guard := 10 }, .mtrs { m0 with plane := 1, row := 1 },
    .mtrs { m0 with plane := 1, caddr := 1 }, .mtrs { m0 with plane := 1, queue := 1 }, .mtrs { m0 with plane := 1, modf := 64 },
    .mtrs { m0 with plane := 0 }, .mrdp { m0 with guard := 10 }, .mrdp { m0 with modf := 1 }, .mrdp { m0 with row := 1 },
    .mrdp { m0 with caddr := 1 }, .mrdp { m0 with plane := 1 }, .mstat { m0 with guard := 10 }, .mstat { m0 with row := 1 },
    .mstat { m0 with caddr := 1 }, .mstat { m0 with plane := 1 }, .mstat { m0 with modf := 3 }, .mwait { m0 with guard := 10 },
    .mwait { m0 with modf := 1 }, .mwait { m0 with row := 1 }, .mwait { m0 with caddr := 1 }, .mwait { m0 with plane := 1 },
    .mwait { m0 with queue := 1 }].all (fun i => !wellFormed i) = true := by decide +kernel

theorem test_well_formed_storage : [
    Instr.tld l0, .tst l0, .tldn l0, .tstn l0, .tprf l0, .bxf l0, .vld l0, .vst l0, .sld l0, .sst l0, .tlook l0, .ttag l0, .tinv l0,
    .feset l0, .feclr l0, .amo l0, .amoc l0, .fenceAcq { l0 with modf := 1 }, .fenceRel { l0 with modf := 2 },
    .fenceAr { l0 with modf := 3 }, .tfence { l0 with imm := 3 }, .tfenceInv { l0 with modf := 1, imm := 3 },
    .tfenceAll { l0 with modf := 2, imm := 3 }, .recld l0, .recst l0, .recmk l0, .swait { l0 with modf := 0x40 }, .ssig l0,
    .wvis { l0 with modf := 0x40 }, .arOpen l0, .arJoin l0, .arLd l0, .arSt l0, .arCommit l0, .arAbort l0, .arLeave l0, .wfill l0,
    .wdump l0, .rput l0, .rputReg { l0 with modf := 2 }, .rget l0, .reos l0].all wellFormed = true := by decide +kernel

theorem test_ill_formed_storage : [
    Instr.tld { l0 with guard := 10 }, .tld { l0 with fr := true }, .tld { l0 with f := 1 }, .tld { l0 with fe := 1 },
    .tld { l0 with modf := 0x20 }, .tst { l0 with guard := 10 }, .tst { l0 with fr := true }, .tst { l0 with f := 1 },
    .tst { l0 with fe := 1 }, .tst { l0 with modf := 0x80 }, .tst { l0 with modf := 0x20 }, .tldn { l0 with guard := 10 },
    .tldn { l0 with fr := true }, .tldn { l0 with f := 1 }, .tldn { l0 with fe := 1 }, .tldn { l0 with modf := 0x80 },
    .tldn { l0 with modf := 0x20 }, .tstn { l0 with guard := 10 }, .tstn { l0 with fr := true }, .tstn { l0 with f := 1 },
    .tstn { l0 with fe := 1 }, .tstn { l0 with modf := 0x80 }, .tstn { l0 with modf := 0x20 }, .tprf { l0 with guard := 10 },
    .tprf { l0 with n := 1 }, .tprf { l0 with imm := 1 }, .tprf { l0 with fr := true }, .tprf { l0 with f := 1 },
    .tprf { l0 with fe := 1 }, .tprf { l0 with modf := 0x80 }, .tprf { l0 with modf := 0x20 }, .bxf { l0 with guard := 10 },
    .bxf { l0 with d := 1 }, .bxf { l0 with dport := 1 }, .bxf { l0 with fr := true }, .bxf { l0 with f := 1 },
    .bxf { l0 with fe := 1 }, .bxf { l0 with modf := 0x80 }, .bxf { l0 with modf := 0x20 }, .bxf { l0 with imm := 64 },
    .vld { l0 with guard := 10 }, .vld { l0 with dport := 1 }, .vld { l0 with fr := true }, .vld { l0 with f := 1 },
    .vld { l0 with modf := 0x40 }, .vld { l0 with fe := 3 }, .vld { l0 with modf := 0x20 }, .vst { l0 with guard := 10 },
    .vst { l0 with dport := 1 }, .vst { l0 with fr := true }, .vst { l0 with f := 1 }, .vst { l0 with fe := 3 },
    .vst { l0 with modf := 0x80 }, .vst { l0 with modf := 0x20 }, .sld { l0 with guard := 10 }, .sld { l0 with dport := 1 },
    .sld { l0 with fr := true }, .sld { l0 with f := 1 }, .sld { l0 with modf := 0x40 }, .sld { l0 with fe := 3 },
    .sld { l0 with modf := 0x20 }, .sst { l0 with guard := 10 }, .sst { l0 with fr := true }, .sst { l0 with f := 1 },
    .sst { l0 with fe := 3 }, .sst { l0 with modf := 0x80 }, .sst { l0 with modf := 0x20 }, .tlook { l0 with guard := 10 },
    .tlook { l0 with b := 1 }, .tlook { l0 with n := 1 }, .tlook { l0 with dport := 1 }, .tlook { l0 with imm := 1 },
    .tlook { l0 with fr := true }, .tlook { l0 with f := 1 }, .tlook { l0 with modf := 0x40 }, .tlook { l0 with fe := 1 },
    .tlook { l0 with modf := 0x80 }, .tlook { l0 with modf := 0x20 }, .ttag { l0 with guard := 10 }, .ttag { l0 with b := 1 },
    .ttag { l0 with n := 1 }, .ttag { l0 with imm := 1 }, .ttag { l0 with fr := true }, .ttag { l0 with f := 1 },
    .ttag { l0 with modf := 0x40 }, .ttag { l0 with fe := 1 }, .ttag { l0 with modf := 0x80 }, .ttag { l0 with modf := 0x20 },
    .tinv { l0 with guard := 10 }, .tinv { l0 with b := 1 }, .tinv { l0 with n := 1 }, .tinv { l0 with d := 1 },
    .tinv { l0 with dport := 1 }, .tinv { l0 with imm := 1 }, .tinv { l0 with fr := true }, .tinv { l0 with f := 1 },
    .tinv { l0 with modf := 0x40 }, .tinv { l0 with fe := 1 }, .tinv { l0 with modf := 0x80 }, .tinv { l0 with modf := 0x20 },
    .feset { l0 with guard := 10 }, .feset { l0 with n := 1 }, .feset { l0 with d := 1 }, .feset { l0 with dport := 1 },
    .feset { l0 with fr := true }, .feset { l0 with f := 1 }, .feset { l0 with modf := 0x40 }, .feset { l0 with fe := 1 },
    .feset { l0 with modf := 0x80 }, .feset { l0 with modf := 0x20 }, .feclr { l0 with guard := 10 }, .feclr { l0 with n := 1 },
    .feclr { l0 with d := 1 }, .feclr { l0 with dport := 1 }, .feclr { l0 with fr := true }, .feclr { l0 with f := 1 },
    .feclr { l0 with modf := 0x40 }, .feclr { l0 with fe := 1 }, .feclr { l0 with modf := 0x80 }, .feclr { l0 with modf := 0x20 },
    .amo { l0 with guard := 10 }, .amo { l0 with fr := true }, .amo { l0 with f := 1 }, .amo { l0 with fe := 1 },
    .amo { l0 with modf := 0x80 }, .amo { l0 with modf := 6 }, .amo { l0 with modf := 8 }, .amoc { l0 with guard := 10 },
    .amoc { l0 with fr := true }, .amoc { l0 with f := 1 }, .amoc { l0 with fe := 1 }, .amoc { l0 with modf := 0x80 },
    .amoc { l0 with modf := 0x8 }, .amoc { l0 with modf := 0x20 }, .amoc { l0 with imm := 128 },
    .fenceAcq { l0 with modf := 1, guard := 10 }, .fenceAcq { l0 with modf := 1, b := 1 }, .fenceAcq { l0 with modf := 1, n := 1 },
    .fenceAcq { l0 with modf := 1, o := 1 }, .fenceAcq { l0 with modf := 1, oport := 1 }, .fenceAcq { l0 with modf := 1, d := 1 },
    .fenceAcq { l0 with modf := 1, dport := 1 }, .fenceAcq { l0 with modf := 1, fr := true }, .fenceAcq { l0 with modf := 1, f := 1 },
    .fenceAcq { l0 with modf := 0x41 }, .fenceAcq { l0 with modf := 1, fe := 1 }, .fenceAcq { l0 with modf := 0x81 },
    .fenceAcq { l0 with modf := 0x21 }, .fenceAcq { l0 with modf := 1, imm := 6 }, .fenceRel { l0 with modf := 2, guard := 10 },
    .fenceRel { l0 with modf := 2, b := 1 }, .fenceRel { l0 with modf := 2, n := 1 }, .fenceRel { l0 with modf := 2, o := 1 },
    .fenceRel { l0 with modf := 2, oport := 1 }, .fenceRel { l0 with modf := 2, d := 1 }, .fenceRel { l0 with modf := 2, dport := 1 },
    .fenceRel { l0 with modf := 2, fr := true }, .fenceRel { l0 with modf := 2, f := 1 }, .fenceRel { l0 with modf := 0x42 },
    .fenceRel { l0 with modf := 2, fe := 1 }, .fenceRel { l0 with modf := 0x82 }, .fenceRel { l0 with modf := 0x22 },
    .fenceRel { l0 with modf := 2, imm := 6 }, .fenceAr { l0 with modf := 3, guard := 10 }, .fenceAr { l0 with modf := 3, b := 1 },
    .fenceAr { l0 with modf := 3, n := 1 }, .fenceAr { l0 with modf := 3, o := 1 }, .fenceAr { l0 with modf := 3, oport := 1 },
    .fenceAr { l0 with modf := 3, d := 1 }, .fenceAr { l0 with modf := 3, dport := 1 }, .fenceAr { l0 with modf := 3, fr := true },
    .fenceAr { l0 with modf := 3, f := 1 }, .fenceAr { l0 with modf := 0x43 }, .fenceAr { l0 with modf := 3, fe := 1 },
    .fenceAr { l0 with modf := 0x83 }, .fenceAr { l0 with modf := 0x23 }, .fenceAr { l0 with modf := 3, imm := 6 },
    .tfence { l0 with imm := 3, guard := 10 }, .tfence { l0 with imm := 3, b := 1 }, .tfence { l0 with imm := 3, n := 1 },
    .tfence { l0 with imm := 3, o := 1 }, .tfence { l0 with imm := 3, oport := 1 }, .tfence { l0 with imm := 3, d := 1 },
    .tfence { l0 with imm := 3, dport := 1 }, .tfence { l0 with imm := 3, fr := true }, .tfence { l0 with imm := 3, f := 1 },
    .tfence { l0 with imm := 3, modf := 0x40 }, .tfence { l0 with imm := 3, fe := 1 }, .tfence { l0 with imm := 3, modf := 0x80 },
    .tfence { l0 with imm := 3, modf := 0x20 }, .tfence { l0 with imm := 0x2 }, .tfence { l0 with imm := 6 },
    .tfenceInv { l0 with modf := 1, imm := 3, guard := 10 }, .tfenceInv { l0 with modf := 1, imm := 3, b := 1 },
    .tfenceInv { l0 with modf := 1, imm := 3, n := 1 }, .tfenceInv { l0 with modf := 1, imm := 3, d := 1 },
    .tfenceInv { l0 with modf := 1, imm := 3, dport := 1 }, .tfenceInv { l0 with modf := 1, imm := 3, fr := true },
    .tfenceInv { l0 with modf := 1, imm := 3, f := 1 }, .tfenceInv { l0 with modf := 0x41, imm := 3 },
    .tfenceInv { l0 with modf := 1, imm := 3, fe := 1 }, .tfenceInv { l0 with modf := 0x81, imm := 3 },
    .tfenceInv { l0 with modf := 0x21, imm := 3 }, .tfenceInv { l0 with modf := 1, imm := 0x2 },
    .tfenceInv { l0 with modf := 1, imm := 6 }, .tfenceAll { l0 with modf := 2, imm := 3, guard := 10 },
    .tfenceAll { l0 with modf := 2, imm := 3, b := 1 }, .tfenceAll { l0 with modf := 2, imm := 3, n := 1 },
    .tfenceAll { l0 with modf := 2, imm := 3, o := 1 }, .tfenceAll { l0 with modf := 2, imm := 3, oport := 1 },
    .tfenceAll { l0 with modf := 2, imm := 3, d := 1 }, .tfenceAll { l0 with modf := 2, imm := 3, dport := 1 },
    .tfenceAll { l0 with modf := 2, imm := 3, fr := true }, .tfenceAll { l0 with modf := 2, imm := 3, f := 1 },
    .tfenceAll { l0 with modf := 0x42, imm := 3 }, .tfenceAll { l0 with modf := 2, imm := 3, fe := 1 },
    .tfenceAll { l0 with modf := 0x82, imm := 3 }, .tfenceAll { l0 with modf := 0x22, imm := 3 },
    .tfenceAll { l0 with modf := 2, imm := 0x2 }, .tfenceAll { l0 with modf := 2, imm := 6 }, .recld { l0 with guard := 10 },
    .recld { l0 with n := 1 }, .recld { l0 with d := 1 }, .recld { l0 with dport := 1 }, .recld { l0 with fr := true },
    .recld { l0 with f := 1 }, .recld { l0 with modf := 0x40 }, .recld { l0 with fe := 1 }, .recld { l0 with modf := 0x80 },
    .recld { l0 with modf := 0x20 }, .recst { l0 with guard := 10 }, .recst { l0 with n := 1 }, .recst { l0 with d := 1 },
    .recst { l0 with dport := 1 }, .recst { l0 with fr := true }, .recst { l0 with f := 1 }, .recst { l0 with fe := 1 },
    .recst { l0 with modf := 0x80 }, .recst { l0 with modf := 0x20 }, .recmk { l0 with guard := 10 }, .recmk { l0 with n := 1 },
    .recmk { l0 with d := 1 }, .recmk { l0 with dport := 1 }, .recmk { l0 with fr := true }, .recmk { l0 with f := 1 },
    .recmk { l0 with modf := 0x40 }, .recmk { l0 with fe := 1 }, .recmk { l0 with modf := 0x80 }, .recmk { l0 with modf := 6 },
    .recmk { l0 with imm := 16 }, .swait { l0 with modf := 0x40, guard := 10 }, .swait { l0 with modf := 0x40, n := 1 },
    .swait { l0 with modf := 0x40, fr := true }, .swait { l0 with modf := 0 }, .swait { l0 with modf := 0x40, fe := 1 },
    .swait { l0 with modf := 0xc0 }, .swait { l0 with modf := 0x60 }, .ssig { l0 with guard := 10 }, .ssig { l0 with fr := true },
    .ssig { l0 with f := 1 }, .ssig { l0 with fe := 1 }, .ssig { l0 with modf := 0x80 }, .ssig { l0 with modf := 0x20 },
    .wvis { l0 with modf := 0x40, guard := 10 }, .wvis { l0 with modf := 0x40, n := 1 }, .wvis { l0 with modf := 0x40, o := 1 },
    .wvis { l0 with modf := 0x40, oport := 1 }, .wvis { l0 with modf := 0x40, d := 1 }, .wvis { l0 with modf := 0x40, dport := 1 },
    .wvis { l0 with modf := 0x40, imm := 1 }, .wvis { l0 with modf := 0x40, fr := true }, .wvis { l0 with modf := 0 },
    .wvis { l0 with modf := 0x40, fe := 1 }, .wvis { l0 with modf := 0xc0 }, .wvis { l0 with modf := 0x60 },
    .arOpen { l0 with guard := 10 }, .arOpen { l0 with dport := 1 }, .arOpen { l0 with fr := true }, .arOpen { l0 with f := 1 },
    .arOpen { l0 with modf := 0x40 }, .arOpen { l0 with fe := 1 }, .arOpen { l0 with modf := 0x80 }, .arOpen { l0 with modf := 0x20 },
    .arJoin { l0 with guard := 10 }, .arJoin { l0 with b := 1 }, .arJoin { l0 with n := 1 }, .arJoin { l0 with o := 1 },
    .arJoin { l0 with oport := 1 }, .arJoin { l0 with imm := 1 }, .arJoin { l0 with fr := true }, .arJoin { l0 with f := 1 },
    .arJoin { l0 with modf := 0x40 }, .arJoin { l0 with fe := 1 }, .arJoin { l0 with modf := 0x80 }, .arJoin { l0 with modf := 0x20 },
    .arLd { l0 with guard := 10 }, .arLd { l0 with dport := 1 }, .arLd { l0 with fr := true }, .arLd { l0 with f := 1 },
    .arLd { l0 with modf := 0x40 }, .arLd { l0 with fe := 1 }, .arLd { l0 with modf := 0x80 }, .arLd { l0 with modf := 0x20 },
    .arSt { l0 with guard := 10 }, .arSt { l0 with fr := true }, .arSt { l0 with f := 1 }, .arSt { l0 with modf := 0x40 },
    .arSt { l0 with fe := 1 }, .arSt { l0 with modf := 0x80 }, .arSt { l0 with modf := 0x20 }, .arCommit { l0 with guard := 10 },
    .arCommit { l0 with b := 1 }, .arCommit { l0 with n := 1 }, .arCommit { l0 with o := 1 }, .arCommit { l0 with oport := 1 },
    .arCommit { l0 with d := 1 }, .arCommit { l0 with dport := 1 }, .arCommit { l0 with imm := 1 }, .arCommit { l0 with fr := true },
    .arCommit { l0 with f := 1 }, .arCommit { l0 with fe := 1 }, .arCommit { l0 with modf := 0x80 }, .arCommit { l0 with modf := 0x20 },
    .arAbort { l0 with guard := 10 }, .arAbort { l0 with b := 1 }, .arAbort { l0 with n := 1 }, .arAbort { l0 with o := 1 },
    .arAbort { l0 with oport := 1 }, .arAbort { l0 with d := 1 }, .arAbort { l0 with dport := 1 }, .arAbort { l0 with imm := 1 },
    .arAbort { l0 with fr := true }, .arAbort { l0 with f := 1 }, .arAbort { l0 with modf := 0x40 }, .arAbort { l0 with fe := 1 },
    .arAbort { l0 with modf := 0x80 }, .arAbort { l0 with modf := 0x20 }, .arLeave { l0 with guard := 10 }, .arLeave { l0 with b := 1 },
    .arLeave { l0 with n := 1 }, .arLeave { l0 with o := 1 }, .arLeave { l0 with oport := 1 }, .arLeave { l0 with d := 1 },
    .arLeave { l0 with dport := 1 }, .arLeave { l0 with imm := 1 }, .arLeave { l0 with fr := true }, .arLeave { l0 with f := 1 },
    .arLeave { l0 with modf := 0x40 }, .arLeave { l0 with fe := 1 }, .arLeave { l0 with modf := 0x80 },
    .arLeave { l0 with modf := 0x20 }, .wfill { l0 with guard := 10 }, .wfill { l0 with n := 1 }, .wfill { l0 with d := 1 },
    .wfill { l0 with dport := 1 }, .wfill { l0 with fr := true }, .wfill { l0 with f := 1 }, .wfill { l0 with fe := 3 },
    .wfill { l0 with modf := 0x80 }, .wfill { l0 with modf := 0x20 }, .wdump { l0 with guard := 10 }, .wdump { l0 with n := 1 },
    .wdump { l0 with d := 1 }, .wdump { l0 with dport := 1 }, .wdump { l0 with fr := true }, .wdump { l0 with f := 1 },
    .wdump { l0 with fe := 3 }, .wdump { l0 with modf := 0x80 }, .wdump { l0 with modf := 0x20 }, .rput { l0 with guard := 10 },
    .rput { l0 with n := 1 }, .rput { l0 with dport := 1 }, .rput { l0 with fr := true }, .rput { l0 with f := 1 },
    .rput { l0 with fe := 1 }, .rput { l0 with modf := 0x80 }, .rput { l0 with modf := 0x20 }, .rput { l0 with imm := 16 },
    .rputReg { l0 with modf := 2, guard := 10 }, .rputReg { l0 with modf := 2, n := 1 }, .rputReg { l0 with modf := 2, d := 1 },
    .rputReg { l0 with modf := 2, dport := 1 }, .rputReg { l0 with modf := 2, fr := true }, .rputReg { l0 with modf := 2, f := 1 },
    .rputReg { l0 with modf := 2, fe := 1 }, .rputReg { l0 with modf := 0x82 }, .rputReg { l0 with modf := 0x22 },
    .rputReg { l0 with modf := 2, imm := 16 }, .rget { l0 with guard := 10 }, .rget { l0 with n := 1 }, .rget { l0 with dport := 1 },
    .rget { l0 with fr := true }, .rget { l0 with f := 1 }, .rget { l0 with modf := 0x40 }, .rget { l0 with fe := 1 },
    .rget { l0 with modf := 0x80 }, .rget { l0 with modf := 0x20 }, .rget { l0 with imm := 32 }, .reos { l0 with guard := 10 },
    .reos { l0 with n := 1 }, .reos { l0 with d := 1 }, .reos { l0 with dport := 1 }, .reos { l0 with fr := true },
    .reos { l0 with f := 1 }, .reos { l0 with fe := 1 }, .reos { l0 with modf := 0x80 }, .reos { l0 with modf := 0x20 },
    .reos { l0 with imm := 16 }].all (fun i => !wellFormed i) = true := by decide +kernel

/-! ## Words written out from the encoding tables: pairs of a field's lowest bit and its value -/

def wd (l : List (Nat × Nat)) : BitVec 96 := BitVec.ofNat 96 (l.foldl (fun a x => a + x.2 * 2 ^ x.1) 0)

/-- The slot's word is read as the instruction. -/
def reads (k : SlotKind) (l : List (Nat × Nat)) (i : Instr) : Bool := match decodeSlot k (wd l) with | .ok j => j == i | .error _ => false

/-- The slot's word is refused. -/
def refuses (k : SlotKind) (l : List (Nat × Nat)) : Bool := match decodeSlot k (wd l) with | .ok _ => false | .error _ => true

theorem test_decode_control :
    let r : GP := { reg := 9, port := 2 }
    reads .c [(0, 2), (2, 1), (7, 9), (11, 2), (15, 3), (19, 12), (23, 7), (26, 1), (40, 16383), (54, 8191), (68, 8192), (82, 5)]
      (.tree { shape := 7, test1 := 9, test2 := 2, test3 := 3, test4 := 12, off0 := 1, off1 := 16383, off2 := 8191, off3 := 8192, off4 := 5 }) = true ∧
    reads .c [(0, 0), (2, 2), (7, 0x1FFFFFF)] (.jmp 0x1FFFFFF) = true ∧ reads .c [(2, 3), (7, 9), (12, 2)] (.jmpr r) = true ∧
    reads .c [(2, 4), (7, 3)] (.call 3) = true ∧ reads .c [(2, 5), (7, 9), (12, 2)] (.ret r) = true ∧
    reads .c [(0, 1), (2, 6), (14, 3), (20, 0x1234), (36, 1)] (.loopImmediate 0x1234 3) = true ∧
    reads .c [(0, 1), (2, 6), (7, 9), (12, 2), (14, 3)] (.loopRegister r 3) = true ∧
    reads .c [(2, 7), (7, 4), (14, 1), (18, 0x80)] (.rpt { stride := 0x80, rowStride := 1, count := 4 }) = true ∧
    reads .c [(0, 1), (2, 8), (8, 0x01234567)] (.setfmtImmediate 0x01234567) = true ∧
    reads .c [(0, 1), (2, 8), (7, 1), (8, 9), (13, 2)] (.setfmtRegister r) = true ∧ reads .c [(2, 9)] .yield = true ∧
    reads .c [(0, 2), (2, 10), (7, 0x80000002), (39, 5), (71, 0x81), (79, 9), (83, 0x801)]
      (.phint { index := 0x801, planes := 9, trees := 0x81, queues := 5, regs := 0x80000002 }) = true ∧
    reads .c [(2, 11), (7, 200)] (.trap 200) = true ∧ reads .c [(2, 12), (7, 201)] (.sysc 201) = true ∧
    reads .c [(2, 13)] .eret = true ∧ reads .c [(2, 14)] .done = true ∧ reads .c [(2, 15)] .succ = true ∧
    reads .c [(2, 16), (7, 9), (12, 2)] (.spawn r) = true ∧ reads .c [(2, 17), (7, 9), (12, 2)] (.launch r) = true ∧
    reads .c [(2, 18), (7, 9), (12, 2)] (.wdogSetZero r) = true ∧
    refuses .c [(2, 13), (7, 1)] = true ∧ refuses .c [(2, 19)] = true ∧ refuses .c [(2, 18), (14, 1)] = true ∧
    refuses .c [(0, 1), (2, 6), (7, 9), (36, 1)] = true ∧ refuses .c [(0, 2), (2, 10), (95, 1)] = true ∧ refuses .c [(0, 2), (2, 10), (7, 1)] = true := by decide +kernel

theorem test_decode_integer :
    let word : Nat → List (Nat × Nat) := fun op => [(0, 2), (4, op), (10, 3), (15, 4), (20, 1), (22, 5), (27, 2)]
    let f : RR := { guard := 2, dst := 3, src1 := 4, port1 := 1, src2 := 5, port2 := 2, modf := 0 }
    let two : List (Nat × (AB → RR → Instr)) := [(1, .add), (2, .sub), (3, .mul), (4, .mulh), (5, .mulhn), (8, .and), (9, .or), (10, .xor),
      (11, .andn), (12, .shl), (13, .shr), (14, .sar), (15, .min), (16, .max), (17, .minn), (18, .maxn), (22, .bfx), (23, .bfi), (25, .sel)]
    let one : List (Nat × (AB → RR → Instr)) := [(19, .clz), (20, .popc), (21, .brev)]
    two.all (fun x => reads .a (word x.1) (x.2 .a f) && reads .b (word x.1) (x.2 .b f)) = true ∧
    reads .a (word 6) (.div f) = true ∧ reads .a (word 7) (.rem f) = true ∧ refuses .b (word 6) = true ∧ refuses .b (word 7) = true ∧
    one.all (fun x => reads .a [(0, 2), (4, x.1), (10, 3), (15, 4), (20, 1)] (x.2 .a { f with src2 := 0, port2 := 0 })) = true ∧
    one.all (fun x => refuses .a (word x.1)) = true ∧
    refuses .a ((29, 7) :: word 32) = true ∧
    reads .a ((29, 6) :: word 32) (.cmp .a { f with modf := 6 }) = true ∧ refuses .a [(4, 32), (14, 1)] = true ∧
    reads .b [(4, 34), (10, 3), (15, 4), (22, 5), (29, 1)] (.kop .b { guard := 0, dst := 3, src1 := 4, port1 := 0, src2 := 5, port2 := 0, modf := 1 }) = true ∧
    reads .b [(4, 35), (15, 4), (20, 1)] (.chk .b { guard := 0, dst := 0, src1 := 4, port1 := 1, src2 := 0, port2 := 0, modf := 0 }) = true := by
  decide +kernel

theorem test_decode_immediates :
    let imm : List (Nat × (AB → RI → Instr)) := [(24, .lea), (26, .addi), (27, .andi), (28, .ori)]
    let f : RI := { guard := 2, dst := 3, src1 := 4, port1 := 1, imm := 0x2A5 }
    imm.all (fun x => x.1 == 24 || reads .b [(0, 2), (4, x.1), (10, 3), (15, 4), (20, 1), (22, 5), (27, 1), (29, 5)] (x.2 .b f)) = true ∧
    reads .a [(4, 24), (10, 3), (22, 5), (29, 5)] (.lea .a { guard := 0, dst := 3, src1 := 0, port1 := 0, imm := 0x285 }) = true ∧
    reads .a [(4, 29), (10, 3), (15, 4), (20, 1), (22, 31), (27, 1)] (.shli .a { f with guard := 0, imm := 63 }) = true ∧
    refuses .a [(4, 29), (10, 3), (15, 4), (27, 2)] = true ∧
    reads .a [(4, 30), (10, 1), (15, 0x1FFFF)] (.movi .a { guard := 0, dst := 1, imm := 0x1FFFF }) = true ∧
    reads .b [(4, 31), (10, 1), (15, 0x12345)] (.movhi .b { guard := 0, dst := 1, imm := 0x12345 }) = true ∧
    reads .a [(4, 33), (10, 3), (15, 4), (20, 1), (22, 0x55), (29, 2)] (.cmpi .a { guard := 0, dst := 3, src1 := 4, port1 := 1, imm := 0x55, cond := 2 }) = true := by
  decide +kernel

theorem test_decode_system :
    let to_ : Nat → List (Nat × Nat) := fun n => [(0, 2), (4, 37), (15, 4), (20, 1), (22, n)]
    let f : Nat → RI := fun n => { guard := 2, dst := 0, src1 := 4, port1 := 1, imm := BitVec.ofNat 10 n }
    let own : List (Nat × (RI → Instr)) := [(0x00, .wrsysFmt), (0x01, .wrsysFstat), (0x04, .wrsysFprog), (0x05, .wrsysMlprog), (0x07, .wrsysPourskew),
      (0x08, .wrsysWdlim), (0x09, .wrsysTvec), (0x0A, .wrsysTrapinfo), (0x0B, .wrsysDutymode), (0x11, .wrsysPeer), (0x17, .wrsysPeer),
      (0x20, .wrsysFlag), (0x3F, .wrsysFlag), (0x0C, .wrsys)]
    own.all (fun x => reads .a (to_ x.1) (x.2 (f x.1))) = true ∧ [0x02, 0x10, 0x18, 0x1F, 0x40].all (fun n => refuses .a (to_ n)) = true ∧
    reads .a [(4, 36), (10, 3), (22, 0x08)] (.rdsys { guard := 0, dst := 3, src1 := 0, port1 := 0, imm := 0x08 }) = true ∧
    reads .a [(4, 36), (10, 3), (22, 0x0A)] (.rdsysTrapinfo { guard := 0, dst := 3, src1 := 0, port1 := 0, imm := 0x0A }) = true ∧
    refuses .b [(4, 36), (10, 3), (22, 0x08)] = true ∧ refuses .a [(4, 36), (10, 3), (22, 0x10), (20, 1)] = true := by decide +kernel

theorem test_decode_floating :
    let word : Nat → Nat → List (Nat × Nat) := fun op m => [(0, 2), (4, op), (10, 3), (15, 4), (20, 1), (22, 5), (27, 2), (29, m)]
    let f : Nat → RR := fun m => { guard := 2, dst := 3, src1 := 4, port1 := 1, src2 := 5, port2 := 2, modf := BitVec.ofNat 3 m }
    let two : List (Nat × Nat × (RR → Instr)) := [(40, 7, .fadd), (41, 5, .fsub), (42, 2, .fmul), (43, 6, .fma), (44, 7, .fdiv), (46, 4, .fmin),
      (47, 0, .fmax), (48, 6, .fsgn), (49, 3, .fcmp)]
    two.all (fun x => reads .b (word x.1 x.2.1) (x.2.2 (f x.2.1)) && refuses .a (word x.1 x.2.1)) = true ∧
    refuses .b (word 46 1) = true ∧ refuses .b (word 48 3) = true ∧
    reads .b [(4, 45), (10, 3), (15, 4), (20, 1), (29, 6)] (.fsqrt { f 6 with guard := 0, src2 := 0, port2 := 0 }) = true ∧
    reads .b [(4, 51), (10, 3), (15, 4), (20, 1), (29, 4)] (.fclass { f 4 with guard := 0, src2 := 0, port2 := 0 }) = true ∧
    reads .b [(4, 50), (10, 3), (15, 4), (20, 1), (22, 4), (29, 5)] (.fcvt { f 5 with guard := 0, src2 := 4, port2 := 0 }) = true := by
  decide +kernel

theorem test_decode_sum_trees :
    let f : Nat → Nat → RR := fun d v => { guard := 0, dst := BitVec.ofNat 5 d, src1 := 4, port1 := 1, src2 := BitVec.ofNat 5 v, port2 := 0, modf := 5 }
    reads .b [(4, 52), (15, 4), (20, 1), (29, 5)] (.wclr (f 0 0)) = true ∧
    reads .b [(4, 53), (10, 1), (15, 4), (20, 1), (22, 6), (27, 2), (29, 5)] (.wset { f 1 6 with port2 := 2 }) = true ∧
    reads .b [(4, 54), (10, 1), (15, 4), (20, 1), (22, 6), (27, 2), (29, 5)] (.wadd { f 1 6 with port2 := 2 }) = true ∧
    refuses .b [(4, 54), (10, 2), (15, 4), (20, 1), (22, 6), (27, 2), (29, 5)] = true ∧
    [(55, Instr.wget), (56, .wsum), (57, .wfind), (58, .wcut)].all (fun (x : Nat × (RR → Instr)) =>
      reads .b [(4, x.1), (10, 3), (15, 4), (20, 1), (22, 1), (29, 5)] (x.2 (f 3 1)) &&
      refuses .b [(4, x.1), (10, 3), (15, 4), (20, 1), (22, 2), (29, 5)]) = true ∧
    reads .b [(4, 59), (10, 3), (22, 1), (29, 5)] (.wtot { f 3 1 with src1 := 0, port1 := 0 }) = true ∧
    reads .b [(4, 60), (15, 2), (29, 5)] (.wmov { f 0 0 with src1 := 2, port1 := 0 }) = true ∧
    refuses .b [(4, 60), (15, 8), (29, 5)] = true := by decide +kernel

theorem test_decode_vector :
    let f : Nat → Nat → VF := fun ty m => { guard := 2, dst := 3, src1 := 4, keep1 := true, src2 := 5, keep2 := false, src3 := 6, keep3 := true, mask := 7, ty := BitVec.ofNat 4 ty, modf := BitVec.ofNat 7 m }
    let word : Nat → Nat → Nat → List (Nat × Nat) := fun op ty m => [(0, 2), (4, op), (11, 3), (16, 4), (21, 1), (34, 7), (37, ty), (41, m)]
    let three : List (Nat × Nat × Nat × (VF → Instr)) := [(4, 10, 0, .vfma), (5, 2, 1, .vfms), (36, 5, 0, .vclamp)]
    let two : List (Nat × Nat × Nat × (VF → Instr)) := [(1, 10, 0, .vadd), (2, 2, 1, .vsub), (3, 12, 0, .vmul), (6, 8, 0, .vmin), (7, 9, 0, .vmax),
      (10, 11, 0x40, .vdiv), (19, 4, 0, .vand), (20, 5, 0, .vor), (21, 6, 0, .vxor), (23, 7, 0, .vshl), (24, 0, 0, .vshr), (25, 1, 0, .vsar),
      (18, 13, 0, .vsel), (30, 10, 0, .vperm)]
    let one : List (Nat × Nat × Nat × (VF → Instr)) := [(8, 0, 1, .vabs), (9, 3, 1, .vneg), (11, 10, 0, .vsqrt), (12, 10, 0, .vrsqrt), (13, 8, 0, .vrcp),
      (14, 9, 0, .vexp2), (15, 11, 0, .vlog2), (22, 4, 0, .vnot), (26, 10, 0, .vredsum), (27, 0, 0, .vredmax), (28, 12, 0, .vredmin),
      (33, 2, 5, .vdup), (34, 2, 5, .vdrop)]
    three.all (fun x => reads .v ((22, 5) :: (28, 6) :: (33, 1) :: word x.1 x.2.1 x.2.2.1) (x.2.2.2 (f x.2.1 x.2.2.1))) = true ∧
    two.all (fun x => reads .v ((22, 5) :: word x.1 x.2.1 x.2.2.1) (x.2.2.2 { f x.2.1 x.2.2.1 with src3 := 0, keep3 := false }) &&
      refuses .v ((22, 5) :: (28, 6) :: word x.1 x.2.1 x.2.2.1)) = true ∧
    one.all (fun x => reads .v (word x.1 x.2.1 x.2.2.1) (x.2.2.2 { f x.2.1 x.2.2.1 with src2 := 0, src3 := 0, keep3 := false }) &&
      refuses .v ((22, 5) :: word x.1 x.2.1 x.2.2.1)) = true ∧
    refuses .v ((22, 5) :: word 1 14 0) = true ∧ refuses .v ((22, 5) :: word 3 2 0x40) = true := by decide +kernel

theorem test_decode_vector_others :
    let f : Nat → Nat → VF := fun ty m => { guard := 0, dst := 3, src1 := 4, keep1 := true, src2 := 0, keep2 := false, src3 := 0, keep3 := false, mask := 7, ty := BitVec.ofNat 4 ty, modf := BitVec.ofNat 7 m }
    reads .v [(4, 16), (11, 3), (16, 4), (21, 1), (34, 7), (37, 9), (41, 10), (45, 1)] (.vcvt (f 9 0x1A)) = true ∧
    reads .v [(4, 17), (11, 3), (16, 4), (21, 1), (22, 5), (34, 7), (37, 2), (41, 2)] (.vcmp { f 2 2 with src2 := 5 }) = true ∧
    refuses .v [(4, 17), (11, 8), (16, 4), (22, 5), (37, 2)] = true ∧ refuses .v [(4, 17), (11, 3), (16, 4), (22, 5), (37, 2), (41, 6)] = true ∧
    reads .v [(4, 29), (11, 3), (16, 4), (21, 1), (34, 7), (37, 2)] (.vscan (f 2 0)) = true ∧
    reads .v [(4, 35), (11, 3), (34, 7), (37, 10)] (.viota { f 10 0 with src1 := 0, keep1 := false }) = true ∧
    reads .v [(4, 41), (11, 3), (16, 0xFFFD), (34, 7), (37, 10)] (.vmovi { f 10 0 with src1 := 0x1D, src2 := 0x1F, keep2 := true, src3 := 0xF }) = true ∧
    reads .v [(4, 38), (11, 3), (16, 4), (22, 5)] (.mand { f 0 0 with keep1 := false, src2 := 5, mask := 0 }) = true ∧
    reads .v [(4, 39), (11, 3), (16, 4), (22, 5)] (.mor { f 0 0 with keep1 := false, src2 := 5, mask := 0 }) = true ∧
    reads .v [(4, 40), (11, 3), (16, 4)] (.mnot { f 0 0 with keep1 := false, mask := 0 }) = true ∧ refuses .v [(4, 40), (11, 3), (16, 8)] = true := by
  decide +kernel

theorem test_decode_transfers :
    reads .xlo [(0, 5), (4, 1), (7, 9), (12, 2), (14, 1)] (.xsv { guard := 5, pair := 9, port := 2, sel := 1 }) = true ∧
    reads .xlo [(0, 5), (4, 2), (7, 12), (11, 6)] (.xkm { guard := 5, pred := 12, mask := 6 }) = true ∧
    reads .xhi [(0, 5), (16, 1), (19, 9), (24, 1), (25, 21), (30, 1)] (.xvs { guard := 5, pair := 9, keep := true, lane := 21, width := 1 }) = true ∧
    reads .xhi [(0, 5), (16, 2), (19, 12), (23, 6), (26, 1)] (.xmk { guard := 5, pred := 12, mask := 6, all := true }) = true ∧
    refuses .xlo [(4, 1), (14, 3)] = true ∧ refuses .xhi [(16, 1), (29, 1), (30, 2)] = true ∧ refuses .xhi [(16, 2), (27, 1)] = true ∧
    decodeBundle [0x40, 0x95, 0x74, 0x49, 0x6B, 9] = .ok ([.xsv { guard := 5, pair := 9, port := 3, sel := 1 }, .xvs { guard := 5, pair := 9, keep := true, lane := 21, width := 1 }], 5) ∧
    [(1, Instr.wflag), (2, .pflag), (3, .bar), (4, .rsync)].all (fun (x : Nat × (SF → Instr)) => x.1 == 3 ||
      reads .s [(0, 2), (4, x.1), (8, 21), (13, 6)] (x.2 { guard := 2, flag := 21, count := 6 })) = true ∧
    reads .s [(0, 2), (4, 3), (13, 6)] (.bar { guard := 2, flag := 0, count := 6 }) = true ∧ refuses .s [(4, 3), (8, 1)] = true ∧
    refuses .s [(4, 5)] = true ∧ refuses .s [(0, 10), (4, 1)] = true := by decide +kernel

theorem test_decode_matrix :
    let f : Nat → Nat → Nat → Nat → Nat → MF := fun q pl ca r m => { guard := 2, queue := BitVec.ofNat 5 q, plane := BitVec.ofNat 2 pl, caddr := BitVec.ofNat 17 ca, row := BitVec.ofNat 7 r, modf := BitVec.ofNat 8 m }
    let word : Nat → Nat → Nat → Nat → Nat → Nat → List (Nat × Nat) := fun op q pl ca r m => [(0, 2), (4, op), (9, q), (14, pl), (16, ca), (33, r), (40, m)]
    let plain : List (Nat × (MF → Instr) × Nat × Nat × Nat × Nat × Nat) := [(1, .mpush, 9, 0, 0, 0, 3), (1, .mpush, 9, 0, 0, 0, 4), (2, .mshift, 0, 0, 0, 0, 0x7F),
      (3, .macc, 0, 2, 0x10305, 101, 3), (4, .mdrain, 9, 2, 0, 101, 3), (5, .mzero, 0, 2, 0, 0, 0), (6, .mfill, 9, 2, 0, 101, 7),
      (7, .mload, 9, 0, 0x10305, 0x65, 5), (8, .mflu, 0, 2, 0, 0, 1), (9, .mfch, 0, 2, 0, 0, 0), (10, .mfqr, 0, 2, 0, 0, 0), (11, .mtrs, 0, 2, 0, 0, 0x3F),
      (12, .mrdp, 9, 0, 0, 0, 0), (13, .mstat, 9, 0, 0, 0, 2), (14, .mwait, 0, 0, 0, 0, 0)]
    plain.all (fun x => reads .m (word x.1 x.2.2.1 x.2.2.2.1 x.2.2.2.2.1 x.2.2.2.2.2.1 x.2.2.2.2.2.2)
      (x.2.1 (f x.2.2.1 x.2.2.2.1 x.2.2.2.2.1 x.2.2.2.2.2.1 x.2.2.2.2.2.2))) = true ∧
    refuses .m (word 14 1 0 0 0 0) = true ∧ refuses .m (word 5 0 0 0 0 1) = true ∧ refuses .m (word 3 1 0 0 0 0) = true ∧
    refuses .m (word 15 0 0 0 0 0) = true ∧ refuses .m (word 0 0 0 0 0 0) = true := by decide +kernel

theorem test_decode_storage :
    let z : LF := { guard := 2, b := 0, n := 0, o := 0, oport := 0, d := 0, dport := 0, imm := 0, f := 0, fr := false, fe := 0, modf := 0 }
    let f : LF := { z with b := 3, n := 5, o := 9, oport := 1 }
    let base_ : Nat → List (Nat × Nat) := fun op => [(0, 2), (4, op), (11, 3), (15, 5), (18, 9), (23, 1)]
    let d : List (Nat × Nat) := [(25, 17), (30, 2)]
    let fd : LF := { f with d := 17, dport := 2, f := 21, modf := 0x40 }
    let post : List (Nat × Nat) := [(48, 21), (62, 1)]
    reads .l (base_ 1 ++ d ++ post ++ [(32, 0x3F07), (63, 1)]) (.tld { fd with imm := 0x3F07, modf := 0xC0 }) = true ∧
    reads .l (base_ 2 ++ d ++ post ++ [(32, 0x3F07)]) (.tst { fd with imm := 0x3F07 }) = true ∧
    reads .l (base_ 3 ++ d ++ post ++ [(32, 40)]) (.tldn { fd with imm := 40 }) = true ∧
    reads .l (base_ 4 ++ d ++ post ++ [(32, 40)]) (.tstn { fd with imm := 40 }) = true ∧
    reads .l (base_ 7 ++ [(25, 17), (32, 0xFFF0), (54, 2), (63, 1)]) (.vld { f with d := 17, imm := 0xFFF0, fe := 2, modf := 0x80 }) = true ∧
    reads .l (base_ 8 ++ [(25, 17), (32, 0xFFF0), (54, 1), (56, 1)] ++ post) (.vst { fd with dport := 0, imm := 0xFFF0, fe := 1, modf := 0x41 }) = true ∧
    reads .l (base_ 9 ++ [(25, 17), (32, 8), (54, 1), (56, 2), (58, 1), (63, 1)]) (.sld { f with d := 17, imm := 8, fe := 1, modf := 0x86 }) = true ∧
    reads .l (base_ 10 ++ d ++ post ++ [(32, 8), (54, 2), (56, 3)]) (.sst { fd with imm := 8, fe := 2, modf := 0x43 }) = true ∧
    reads .l (base_ 16 ++ d ++ post ++ [(32, 8), (56, 1), (59, 1), (60, 1)]) (.amo { fd with imm := 8, modf := 0x59 }) = true ∧
    reads .l (base_ 17 ++ d ++ post ++ [(32, 9), (37, 3), (60, 1)]) (.amoc { fd with imm := 0x69, modf := 0x50 }) = true ∧
    reads .l (base_ 24 ++ d ++ post ++ [(32, 8), (56, 1)]) (.ssig { fd with imm := 8, modf := 0x41 }) = true ∧
    reads .l (base_ 26 ++ [(25, 17), (32, 20), (38, 3)]) (.arOpen { f with d := 17, imm := 212 }) = true ∧
    reads .l (base_ 28 ++ [(25, 17), (32, 8), (56, 2), (58, 1)]) (.arLd { f with d := 17, imm := 8, modf := 6 }) = true ∧
    reads .l (base_ 29 ++ d ++ [(32, 8), (56, 2)]) (.arSt { f with d := 17, dport := 2, imm := 8, modf := 2 }) = true ∧
    reads .l (base_ 6 ++ [(32, 12), (48, 21), (53, 1), (57, 1), (62, 1)]) (.bxf { f with imm := 12, f := 21, fr := true, modf := 0x42 }) = true ∧
    refuses .l (base_ 1 ++ d ++ [(53, 1)]) = true ∧ refuses .l (base_ 9 ++ [(54, 3)]) = true ∧ refuses .l (base_ 38) = true := by decide +kernel

theorem test_decode_storage_others :
    let z : LF := { guard := 2, b := 0, n := 0, o := 0, oport := 0, d := 0, dport := 0, imm := 0, f := 0, fr := false, fe := 0, modf := 0 }
    let o : LF := { z with o := 9, oport := 1 }
    let off : Nat → List (Nat × Nat) := fun op => [(0, 2), (4, op), (18, 9), (23, 1)]
    let post : List (Nat × Nat) := [(48, 21), (62, 1)]
    let p : LF := { o with f := 21, modf := 0x40 }
    reads .l (off 5 ++ post ++ [(11, 3), (25, 17), (30, 2)]) (.tprf { p with b := 3, d := 17, dport := 2 }) = true ∧
    reads .l (off 11 ++ [(25, 17)]) (.tlook { o with d := 17 }) = true ∧ reads .l (off 12 ++ [(25, 17), (30, 2)]) (.ttag { o with d := 17, dport := 2 }) = true ∧
    reads .l (off 13) (.tinv o) = true ∧ reads .l (off 14 ++ [(11, 3), (32, 8)]) (.feset { o with b := 3, imm := 8 }) = true ∧
    reads .l (off 15 ++ [(11, 3), (32, 8)]) (.feclr { o with b := 3, imm := 8 }) = true ∧
    reads .l [(0, 2), (4, 18), (32, 2), (56, 1)] (.fenceAcq { z with imm := 2, modf := 1 }) = true ∧
    reads .l [(0, 2), (4, 18), (32, 2), (56, 2)] (.fenceRel { z with imm := 2, modf := 2 }) = true ∧
    reads .l [(0, 2), (4, 18), (32, 2), (56, 3)] (.fenceAr { z with imm := 2, modf := 3 }) = true ∧ refuses .l [(4, 18)] = true ∧
    reads .l [(0, 2), (4, 19), (32, 3)] (.tfence { z with imm := 3 }) = true ∧
    reads .l (off 19 ++ [(32, 3), (56, 1)]) (.tfenceInv { o with imm := 3, modf := 1 }) = true ∧
    reads .l [(0, 2), (4, 19), (32, 3), (56, 2)] (.tfenceAll { z with imm := 3, modf := 2 }) = true ∧ refuses .l [(4, 19), (56, 3)] = true ∧
    reads .l (off 20 ++ [(11, 3), (32, 32)]) (.recld { o with b := 3, imm := 32 }) = true ∧
    reads .l (off 21 ++ post ++ [(11, 3), (32, 32)]) (.recst { p with b := 3, imm := 32 }) = true ∧
    reads .l (off 22 ++ [(11, 3), (32, 7), (56, 5)]) (.recmk { o with b := 3, imm := 7, modf := 5 }) = true ∧
    reads .l (off 23 ++ post ++ [(11, 3), (25, 17), (30, 2), (32, 8)]) (.swait { p with b := 3, d := 17, dport := 2, imm := 8 }) = true ∧
    refuses .l (off 23 ++ [(11, 3), (25, 17), (30, 2), (32, 8)]) = true ∧
    reads .l [(0, 2), (4, 27), (25, 17), (30, 2)] (.arJoin { z with d := 17, dport := 2 }) = true ∧
    reads .l ([(0, 2), (4, 30)] ++ post) (.arCommit { z with f := 21, modf := 0x40 }) = true ∧ reads .l [(0, 2), (4, 31)] (.arAbort z) = true ∧
    reads .l [(0, 2), (4, 32)] (.arLeave z) = true ∧
    reads .l (off 34 ++ post ++ [(11, 3), (32, 8), (54, 1), (56, 5), (59, 1)]) (.wdump { p with b := 3, imm := 8, fe := 1, modf := 0x4D }) = true ∧
    reads .l (off 35 ++ post ++ [(11, 3), (25, 17), (32, 3), (56, 1)]) (.rput { p with b := 3, d := 17, imm := 3, modf := 0x41 }) = true ∧
    reads .l (off 35 ++ post ++ [(11, 3), (32, 3), (57, 1)]) (.rputReg { p with b := 3, imm := 3, modf := 0x42 }) = true ∧
    reads .l (off 36 ++ [(11, 3), (25, 17), (32, 9)]) (.rget { o with b := 3, d := 17, imm := 9 }) = true ∧
    reads .l (off 37 ++ post ++ [(11, 3), (32, 3)]) (.reos { p with b := 3, imm := 3 }) = true := by decide +kernel

/-- The bundles whose bytes the spec writes out: 02 Fragment 1, 04 the three-slot bundle, 16 the `wvis` and `wflag` bundles,
17 R218, 18 the `phint` bundle, 19 R277, 20 the `wfill` bundle, 22 the `vfma` bundle, 24 the loop body. -/
theorem test_bundles_of_the_spec :
    let r : Nat → Nat → RR := fun d m => { guard := 0, dst := BitVec.ofNat 5 d, src1 := 1, port1 := 0, src2 := 2, port2 := 1, modf := BitVec.ofNat 3 m }
    let i : Nat → Nat → Nat → RI := fun g p n => { guard := 0, dst := BitVec.ofNat 5 g, src1 := BitVec.ofNat 5 g, port1 := BitVec.ofNat 2 p, imm := BitVec.ofNat 10 n }
    let v : VF := { guard := 0, dst := 2, src1 := 1, keep1 := false, src2 := 4, keep2 := false, src3 := 0, keep3 := false, mask := 0, ty := 2, modf := 0 }
    let z : LF := { guard := 0, b := 0, n := 0, o := 0, oport := 0, d := 0, dport := 0, imm := 0, f := 0, fr := false, fe := 0, modf := 0x40 }
    let m : MF := { guard := 0, queue := 0, plane := 0, caddr := 0, row := 0, modf := 1 }
    decodeBundle [0x06, 0x30, 0x8C, 0x80, 0x08, 0x10, 0x90, 0x80, 0x08] = .ok ([.mul .a (r 3 0), .add .b (r 4 0)], 9) ∧
    decodeBundle [0x8A, 0xA0, 0x11, 0x42, 0x00, 0x10, 0x10, 0x01, 0x01, 0x40, 0x00, 0x20, 0x45] =
      .ok ([.addi .a (i 4 0 1), .vadd v, .pflag { guard := 0, flag := 5, count := 2 }], 13) ∧
    decodeBundle [0x20, 0x90, 0x09, 0x00, 0x00, 0x00, 0x00, 0x04, 0x40] = .ok ([.wvis { z with b := 1, f := 4 }], 9) ∧
    decodeBundle [0x80, 0x10, 0x24] = .ok ([.wflag { guard := 0, flag := 4, count := 1 }], 3) ∧
    decodeBundle [0x11, 0x1C, 0x42, 0x00, 0x02, 0x30, 0x00, 0x00, 0x00, 0x00, 0x01] =
      .ok ([.rpt { stride := 128, rowStride := 1, count := 4 }, .macc m], 11) ∧
    decodeBundle [0x11, 0x2A, 0x00, 0x00, 0x00, 0x00, 0x00, 0x00, 0x00, 0x00, 0x00, 0xFA, 0x7F, 0x90, 0x80, 0x00, 0x00, 0x00, 0x00] =
      .ok ([.phint { index := 0xFFF, planes := 4, trees := 0, queues := 0, regs := 0 }, .mfch { m with plane := 2, modf := 0 }], 19) ∧
    decodeBundle [0x20, 0x10, 0x1A, 0x00, 0x00, 0x00, 0x40, 0x42, 0x4A] = .ok ([.wfill { z with b := 3, imm := 0x4000, f := 2, fe := 1, modf := 0x4A }], 9) ∧
    decodeBundle [0x08, 0x40, 0x10, 0x41, 0x69, 0x22, 0x01] =
      .ok ([.vfma { v with src2 := 5, keep2 := true, src3 := 6, keep3 := true, ty := 9 }], 7) ∧
    decodeBundle [0x26, 0xA0, 0x95, 0x02, 0x20, 0xA0, 0x19, 0x13, 0x20, 0x10, 0x90, 0x14, 0x4C, 0x07, 0x00, 0x03, 0x40] =
      .ok ([.addi .a (i 5 0 128), .addi .b (i 6 1 128), .tld { z with b := 2, n := 1, o := 5, d := 6, dport := 1, imm := 7, f := 3 }], 17) := by
  decide +kernel

/-- A word placed for the next step is fetched and run; every row's word of the A slot is fetched from where `step` fetches. -/
theorem test_placed_word :
    decodeTableWord 32 165344 = some (.movi .a { guard := 0, dst := 1, imm := 5 }) ∧ stepPc (State.reset.withFetchWord 32 165344) = 5 ∧
    (match step (State.reset.withFetchWord 32 165344) with | .next t => t.cur.g[1] == 5 | _ => false) = true ∧
    decodeTableWord 16 0x2510 = some (.wflag { guard := 0, flag := 5, count := 1 }) := by decide +kernel

end Sys2Proof.Tests
end

section
/-! What a lone bundle with a result, and one that pushes an entry, leave unchanged (spec/01_machine.md R18; spec/03_bundles.md
R48, R50; spec/13_vector.md R185). -/
namespace Sys2Proof.Machine

/-! ## Writes of a register -/

/-- A bit written leaves the others. -/
theorem getLsbD_setBit_of_ne {n : Nat} (v : BitVec n) {i j : Nat} (b : Bool) (h : j ≠ i) :
    (setBit v i b).getLsbD j = v.getLsbD j := by
  have hbit : (BitVec.ofNat n (2 ^ i)).getLsbD j = false := by
    rw [BitVec.getLsbD_ofNat, Nat.testBit_two_pow_of_ne h.symm, Bool.and_false]
  have hchoice : (if b then BitVec.ofNat n (2 ^ i) else 0).getLsbD j = false := by
    cases b
    · simp
    · exact hbit
  rw [setBit, BitVec.getLsbD_or, BitVec.getLsbD_and, BitVec.getLsbD_not, hbit, hchoice]
  by_cases hj : j < n
  · simp [hj]
  · simp [BitVec.getLsbD_of_ge _ _ (Nat.le_of_not_lt hj)]

/-- A destination that is not register 0 is no register but the one that it names. -/
theorem val_ne_toNat {n : Nat} {r : Fin (2 ^ n)} {x : BitVec n} (hx : x ≠ 0) (h : x ≠ BitVec.ofNat n r.val ∨ r.val = 0) :
    x.toNat ≠ r.val := by
  intro e
  have hr : x = BitVec.ofNat n r.val := by rw [← e, BitVec.ofNat_toNat, BitVec.setWidth_eq]
  rcases h with h | h
  · exact h hr
  · exact hx (by rw [hr, h]; rfl)

/-- Every register that `d` does not name, and every register 0 (R18), holds in `c'` what it holds in `c`. -/
structure OthersKept (d : Dest) (c c' : Ctx) : Prop where
  g : ∀ r : Fin 32, d ≠ .g (BitVec.ofNat 5 r.val) ∨ r.val = 0 →
    c'.g[r] = c.g[r] ∧ c'.gPoison.getLsbD r.val = c.gPoison.getLsbD r.val
  k : ∀ r : Fin 16, d ≠ .k (BitVec.ofNat 4 r.val) ∨ r.val = 0 → c'.k.getLsbD r.val = c.k.getLsbD r.val
  m : ∀ r : Fin 8, d ≠ .m (BitVec.ofNat 3 r.val) ∨ r.val = 0 → c'.m[r] = c.m[r]

/-- Contexts with the same register files differ in no register. -/
theorem OthersKept.of_eq {d : Dest} {c c' : Ctx} (hg : c'.g = c.g) (hp : c'.gPoison = c.gPoison) (hk : c'.k = c.k)
    (hm : c'.m = c.m) : OthersKept d c c' :=
  ⟨fun _ _ => by simp [hg, hp], fun _ _ => by rw [hk], fun _ _ => by rw [hm]⟩

section
variable (c : Ctx) (d : Dest) (v : BitVec 128) (p : Bool)

theorem writeDest_others : OthersKept d c (c.writeDest d v p) := by
  by_cases hz : d.isZero = true
  · rw [writeDest_discards c d v p hz]
    exact .of_eq rfl rfl rfl rfl
  cases d with
  | g x =>
    have hx : x ≠ 0 := by simpa [Dest.isZero] using hz
    rw [writeDest_g c x v p hx]
    refine ⟨fun r h => ?_, fun _ _ => rfl, fun _ _ => rfl⟩
    have hne := val_ne_toNat (n := 5) hx (h.imp_left fun h e => h (congrArg Dest.g e))
    exact ⟨Vector.getElem_set_ne x.isLt r.isLt hne, getLsbD_setBit_of_ne _ _ hne.symm⟩
  | k x =>
    have hx : x ≠ 0 := by simpa [Dest.isZero] using hz
    rw [writeDest_k c x v p hx]
    refine ⟨fun _ _ => ⟨rfl, rfl⟩, fun r h => ?_, fun _ _ => rfl⟩
    have hne := val_ne_toNat (n := 4) hx (h.imp_left fun h e => h (congrArg Dest.k e))
    exact getLsbD_setBit_of_ne _ _ hne.symm
  | m x =>
    have hx : x ≠ 0 := by simpa [Dest.isZero] using hz
    rw [writeDest_m c x v p hx]
    refine ⟨fun _ _ => ⟨rfl, rfl⟩, fun _ _ => rfl, fun r h => ?_⟩
    have hne := val_ne_toNat (n := 3) hx (h.imp_left fun h e => h (congrArg Dest.m e))
    exact Vector.getElem_set_ne x.isLt r.isLt hne
  | fstat =>
    rw [writeDest_fstat]
    exact .of_eq rfl rfl rfl rfl

/-- A result goes to the general registers, the predicates or the masks, and to nothing else of its context. -/
theorem writeDest_frame : c.writeDest d v p = { c with
    g := (c.writeDest d v p).g, gPoison := (c.writeDest d v p).gPoison, k := (c.writeDest d v p).k,
    m := (c.writeDest d v p).m } := by
  by_cases hz : d.isZero = true
  · rw [writeDest_discards c d v p hz]
  · cases d <;> simp [Ctx.writeDest, hz]

/-- The write of a result neither reads nor changes the flow of its context. -/
theorem writeDest_modFlow (f : FlowCtx → FlowCtx) : (c.modFlow f).writeDest d v p = (c.writeDest d v p).modFlow f := by
  by_cases hz : d.isZero = true
  · rw [writeDest_discards _ d v p hz, writeDest_discards _ d v p hz]
  · cases d <;> simp [Ctx.writeDest, hz, Ctx.modFlow]

/-! ## A bundle with a result -/

variable (i : Instr) (fl : Flags) (bound : Nat) (s : State)

/-- The context after a result with a bound of one cycle, where it has landed. -/
theorem gives_one_cur : (gives i d v p fl 1 s).cur = ((passed [i] s).cur.writeDest d v p).orFlags fl := rfl

/-- The context after a result with a longer bound, where it is on its way. -/
theorem gives_late_cur (h : bound ≠ 1) : (gives i d v p fl bound s).cur = { (passed [i] s).cur with
    pend := (gives i d v p fl bound s).cur.pend } := by
  simp only [gives, if_neg h]; rfl

/-- A result changes its context alone; the bundle of the instruction does the rest. -/
theorem gives_frame : gives i d v p fl bound s = (passed [i] s).modCtx (fun _ => (gives i d v p fl bound s).cur) := by
  unfold gives; split <;> rfl

/-- Whether the result has landed or is on its way, no register but its destination has changed (R48, R50). -/
theorem gives_others : OthersKept d s.cur (gives i d v p fl bound s).cur := by
  by_cases h : bound = 1
  · subst h
    rw [gives_one_cur, passed_cur, writeDest_modFlow]
    obtain ⟨hg, hk, hm⟩ := writeDest_others s.cur d v p
    exact ⟨hg, hk, hm⟩
  · rw [gives_late_cur (h := h)]
    exact .of_eq rfl rfl rfl rfl

/-- What the context of a result holds beside its registers and its results in flight: FSTAT takes the flags of a result that has
landed (R50), and all else is as before. -/
theorem gives_cur_frame : (gives i d v p fl bound s).cur.b = s.cur.b ∧ (gives i d v p fl bound s).cur.n = s.cur.n ∧
    (gives i d v p fl bound s).cur.q = s.cur.q ∧ (gives i d v p fl bound s).cur.arr = s.cur.arr ∧
    (gives i d v p fl bound s).cur.sys =
      { s.cur.sys with fstat := if bound = 1 then s.cur.sys.fstat ||| fl else s.cur.sys.fstat } := by
  by_cases h : bound = 1
  · subst h
    rw [gives_one_cur, writeDest_frame]
    exact ⟨rfl, rfl, rfl, rfl, rfl⟩
  · rw [gives_late_cur (h := h), if_neg h]
    exact ⟨rfl, rfl, rfl, rfl, rfl⟩

/-- The machine outside the context: a result leaves the core's flags, trees and cope store, the cluster with its scratchpad, the
die and what stands beside them. -/
theorem gives_machine_frame : (gives i d v p fl bound s).core.f = s.core.f ∧
    (gives i d v p fl bound s).core.trees = s.core.trees ∧ (gives i d v p fl bound s).core.cope = s.core.cope ∧
    (gives i d v p fl bound s).cluster = s.cluster ∧ (gives i d v p fl bound s).die = s.die ∧
    (gives i d v p fl bound s).cores = s.cores ∧ (gives i d v p fl bound s).clusters = s.clusters ∧
    (gives i d v p fl bound s).pkg.regs = s.pkg.regs := by
  rw [gives_frame]
  exact ⟨rfl, rfl, rfl, rfl, rfl, rfl, rfl, rfl⟩

end

/-! ## Reads of physical memory -/

/-- Two states agree on all that a byte of physical memory is read from: the bytes of both tiers, and what the pages that
firmware keeps show. -/
structure SameMemory (s t : State) : Prop where
  die : s.die = t.die
  hbm : s.pkg.hbm = t.pkg.hbm
  tier2 : s.pkg.tier2 = t.pkg.tier2
  power : s.pkg.power = t.pkg.power
  time : s.pkg.timePs = t.pkg.timePs
  clocks : s.pkg.clocks = t.pkg.clocks

section
variable {s t : State} (h : SameMemory s t)
include h

theorem infoWord_congr (off : Nat) : infoWord s off = infoWord t off := by
  simp only [infoWord, State.timeNs, h.die, h.time]

theorem deviceWord_congr (off : Nat) : deviceWord s off = deviceWord t off := by
  simp only [deviceWord, h.die, h.power]

theorem hostInfoWord_congr (j off : Nat) : hostInfoWord j s off = hostInfoWord j t off := by
  simp only [hostInfoWord, packageDie, infoWord_congr h, h.die, h.clocks]

theorem sensorPageWord_congr (off : Nat) : sensorPageWord s off = sensorPageWord t off := by
  simp only [sensorPageWord, hostInfoWord_congr h, h.die, h.power]

theorem physRead_congr (k : Tier) (a : Nat) : physRead k a s = physRead k a t := by
  cases k
  · simp only [physRead, infoWord_congr h, deviceWord_congr h, sensorPageWord_congr h, h.hbm]
  · simp only [physRead, h.tier2]

end

/-- The package's cycles touch what memory shows only through its time and its clocks. -/
theorem gives_sameMemory (i : Instr) (d : Dest) (v : BitVec 128) (p : Bool) (fl : Flags) (bound : Nat) (s : State) :
    SameMemory ((gives i d v p fl bound s).modPkg (fun x => { x with timePs := s.pkg.timePs, clocks := s.pkg.clocks })) s := by
  rw [gives_frame]
  exact ⟨rfl, rfl, rfl, rfl, rfl, rfl⟩

/-! ## A bundle that pushes an entry -/

/-- Popping the sources changes the queues of the context alone. -/
theorem popSources_frame (src : List (BitVec 5 × Bool)) (s : State) :
    popSources src s = s.modCtx (fun c => { c with q := (popSources src s).cur.q }) := by
  induction src generalizing s with
  | nil => rfl
  | cons x r ih =>
    change popSources r (popUnless x.2 x.1 s) = s.modCtx (fun c => { c with q := (popSources r (popUnless x.2 x.1 s)).cur.q })
    rw [ih]
    cases x.2 <;> rfl

/-- A queue that no source pops holds what it held (R185). -/
theorem popSources_queue_other {r : BitVec 5} {src : List (BitVec 5 × Bool)} (s : State) (h : (r, false) ∉ src) :
    (popSources src s).cur.queue r = s.cur.queue r := by
  induction src generalizing s with
  | nil => rfl
  | cons x l ih =>
    obtain ⟨hx, hl⟩ := not_or.mp (fun e => h (List.mem_cons.mpr e))
    obtain ⟨y, keep⟩ := x
    change (popSources l (popUnless keep y s)).cur.queue r = _
    rw [ih _ hl]
    cases keep with
    | true => rfl
    | false =>
      have hne : r ≠ y := fun e => hx (by rw [e])
      exact (popQ_queue y r s).trans (if_neg hne)

theorem flagsUnderWay_frame (fl : Flags) (due : Nat) (s : State) : flagsUnderWay fl due s =
    s.modCtx (fun c => { c with pend := (flagsUnderWay fl due s).cur.pend }) := by
  unfold flagsUnderWay; split <;> rfl

/-- A push changes queues and what is on its way to FSTAT; the bundle of the instruction does the rest. -/
theorem pushes_frame (i : Instr) (src : List (BitVec 5 × Bool)) (dst : BitVec 5) (v : BitVec 1024) (p : Bool) (fl : Flags)
    (bound : Nat) (s : State) : ∃ q pend, pushes i src dst v p fl bound s =
      (passed [i] s).modCtx (fun c => { c with q := q, pend := pend }) := by
  unfold pushes
  rw [flagsUnderWay_frame, popSources_frame]
  exact ⟨_, _, rfl⟩

/-- A queue other than the destination that no source pops holds what it held (R185). -/
theorem pushes_queue_other (i : Instr) {src : List (BitVec 5 × Bool)} {dst r : BitVec 5} (v : BitVec 1024) (p : Bool)
    (fl : Flags) (bound : Nat) (s : State) (hd : r ≠ dst) (hs : (r, false) ∉ src) :
    (pushes i src dst v p fl bound s).cur.queue r = s.cur.queue r := by
  unfold pushes
  rw [flagsUnderWay_frame]
  exact (queue_setQueue _ _ _ _).trans ((if_neg hd).trans (popSources_queue_other _ hs))

/-! ## The statement -/

/-- Settles O57: a result changes its context alone, and there its destination and FSTAT; a push changes queues. -/
theorem resultFrames : Obligations.ResultFrames := by
  refine ⟨fun i d v p fl bound s => ?_, fun i src dst v p fl bound s => ?_⟩
  · obtain ⟨hg, hk, hm⟩ := gives_others d v p i fl bound s
    obtain ⟨hb, hn, hq, ha, hy⟩ := gives_cur_frame d v p i fl bound s
    obtain ⟨hf, htrees, hcope, hcluster, hdie, hcores, hclusters, hregs⟩ := gives_machine_frame d v p i fl bound s
    exact ⟨hg, hk, hm, hb, hn, hq, ha, hy, hf, htrees, hcope, hcluster, hdie, hcores, hclusters, hregs,
      physRead_congr (gives_sameMemory i d v p fl bound s)⟩
  · refine ⟨fun r hd hs => pushes_queue_other i v p fl bound s hd hs, ?_⟩
    obtain ⟨q, pend, h⟩ := pushes_frame i src dst v p fl bound s
    rw [h]
    exact ⟨rfl, rfl, rfl, rfl, rfl, rfl, rfl, rfl, rfl, rfl, rfl, rfl, rfl, rfl⟩

end Sys2Proof.Machine
end

section
/-! The issue of a lone instruction outside the L slot, with no loads, trees or acts after its commit (spec/03_bundles.md R25,
R46). -/
namespace Sys2Proof.Machine

/-- An instruction whose bundle does nothing at issue or commit but what its slot says: it orders nothing, uses no record and no
tree, serves no pre-emption request and has no act after its commit. -/
structure Ordinary (i : Instr) : Prop where
  issues : ∀ s, exec i s = issueOne i s := by exact fun _ => rfl
  unordered : inOrder i = false := by rfl
  noRecord : recordUse i = none := by rfl
  notL : inLSlot i = false := by rfl
  noTree : treeUses i = [] := by rfl
  serves : ∀ s, servesNow [i] s = false := by exact fun _ => rfl
  after : ∀ pc t, afterCommit [i] pc false t = t := by exact fun _ _ => rfl

namespace Ordinary
variable {i : Instr} {s : State} (hi : Ordinary i) (hq : quiet s = true) (hl : lone i s = true)
include hi hq hl

/-- Its slot's trap is the bundle's. -/
theorem exec_trap {c : Cause} {aux : BitVec 8} {a : Word} (hr : slotRes (s.nextPc [i]) none i s = .trap c aux a)
    (hc : c ≠ .softwareTrap) : exec i s = .next (traps i c aux a s) :=
  Machine.exec_trap hq hl hr hc (hi.serves s) (by rw [hi.unordered, Bool.false_and])
    (held_quiet hq hi.noRecord hi.notL hi.noTree) (hi.issues s)

/-- Its one effect is a result for a general register. -/
theorem exec_resultG {r : BitVec 5} {v : Word} {p : Bool} {fl : Flags} {b : Nat}
    (hr : slotRes (s.nextPc [i]) none i s = .ok (State.resultG r v p fl b)) (hb : 0 < b)
    (hd : pushesOf (rptCount (rptOf [i])) i = []) : exec i s = .next (givesG i r v p fl b s) :=
  Machine.exec_resultG hq hl hr hb hd (hi.serves s) hi.after (by rw [hi.unordered, Bool.false_and]) (hi.issues s)

/-- Its one effect is a result for a predicate. -/
theorem exec_resultK {r : BitVec 4} {v : Bool} {fl : Flags} {b : Nat}
    (hr : slotRes (s.nextPc [i]) none i s = .ok (State.resultK r v fl b)) (hb : 0 < b)
    (hd : pushesOf (rptCount (rptOf [i])) i = []) : exec i s = .next (givesK i r v fl b s) :=
  Machine.exec_resultK hq hl hr hb hd (hi.serves s) hi.after (by rw [hi.unordered, Bool.false_and]) (hi.issues s)

end Ordinary

end Sys2Proof.Machine
end

section
/-! The scalar floating-point instructions (spec/05_formats.md R59, R66, R80; spec/07_scalar_control.md R115 to R119). -/
namespace Sys2Proof.Machine

/-! ## Flags that trap -/

theorem flagsTrap_iff (fl : Flags) (s : State) : flagsTrap s.fmt fl = true ↔ enabledFlags fl s ≠ 0 := bne_iff_ne

theorem flagsTrap_eq_false_iff (fl : Flags) (s : State) : flagsTrap s.fmt fl = false ↔ enabledFlags fl s = 0 := bne_eq_false_iff_eq

/-- The width of a source picks its format (R36, R59). -/
theorem fpSrc_fpFmt (f : RR) (v : Word) : fpSrc (fpFmt f) v = if f.modf.getLsbD 2 then v else zext 32 v := by
  unfold fpSrc fpFmt
  cases f.modf.getLsbD 2
  · rfl
  · exact if_neg (by decide)

/-! ## Results for a general register -/

/-- What a lone floating-point instruction with the result `r` does (R66, R80). -/
def FpAnswers (i : Instr) (dst : BitVec 5) (r : FRes) (p : Bool) (bound : Nat) (s : State) : Prop :=
  (p = true → exec i s = .next (givesG i dst r.1 true 0 bound s)) ∧
  (p = false → enabledFlags r.2 s = 0 → exec i s = .next (givesG i dst r.1 false r.2 bound s)) ∧
  (p = false → enabledFlags r.2 s ≠ 0 → exec i s = .next (traps i .fpException ((bits 0 6 r.2 : BitVec 6).setWidth 8) 0 s))

section
variable {i : Instr} {s : State} (hi : Ordinary i) (hq : quiet s = true) (hl : lone i s = true)
include hi hq hl

theorem exec_fpResult {f : RR} {b : Nat} {r : FRes} {p : Bool} (hb : 0 < b) (hd : dests i = gDest f.dst)
    (hr : slotRes (s.nextPc [i]) none i s = fpResult f b r p s) : FpAnswers i f.dst r p b s := by
  refine ⟨fun hp => ?_, fun hp hfl => ?_, fun hp hfl => ?_⟩ <;> subst hp
  · exact hi.exec_resultG hq hl (hr.trans fpResult_poison) hb (pushesOf_gDest hd)
  · exact hi.exec_resultG hq hl (hr.trans (fpResult_clean ((flagsTrap_eq_false_iff _ s).mpr hfl))) hb (pushesOf_gDest hd)
  · exact hi.exec_trap hq hl (hr.trans (fpResult_trap ((flagsTrap_iff _ s).mpr hfl))) (by decide)

/-- The speculative form poisons its result where the plain form would trap (R117). -/
theorem exec_spResult {f : RR} {r : FRes} {p : Bool} (hd : dests i = gDest f.dst)
    (hr : slotRes (s.nextPc [i]) none i s = spResult f r p s) :
    (f.modf.getLsbD 1 = true → p = false → enabledFlags r.2 s ≠ 0 → ∃ v, exec i s = .next (givesG i f.dst v true 0 14 s)) ∧
    (f.modf.getLsbD 1 = false ∨ p = true ∨ enabledFlags r.2 s = 0 → FpAnswers i f.dst r p 14 s) := by
  unfold spResult at hr
  refine ⟨fun hsp hp hfl => ⟨_, hi.exec_resultG hq hl (hr.trans (if_pos ?_)) (by decide) (pushesOf_gDest hd)⟩,
    fun h => exec_fpResult hi hq hl (by decide) hd (hr.trans (if_neg ?_))⟩
  · rw [hsp, hp, (flagsTrap_iff _ s).mpr hfl]
    rfl
  · rw [← flagsTrap_eq_false_iff] at h
    rcases h with h | h | h <;>
      simp only [h, Bool.false_and, Bool.not_true, Bool.and_false, Bool.false_eq_true, not_false_eq_true]

/-- An instruction of two sources. -/
theorem exec_fp2 {f : RR} {b : Nat} {op : FFmt → BitVec 64 → BitVec 64 → FRes} (hb : 0 < b) (hd : dests i = gDest f.dst)
    (hr : slotRes (s.nextPc [i]) none i s = fp2 f b op s) :
    FpAnswers i f.dst (op (fpFmt f) (fpSrc (fpFmt f) (gReg f.src1 s)) (fpSrc (fpFmt f) (gReg f.src2 s)))
      (gTag f.src1 s || gTag f.src2 s) b s :=
  exec_fpResult hi hq hl hb hd (hr.trans (fp2_quiet hq))

end

/-! ## The statement -/

/-- Settles O6: each instruction gives its result, and the two with a speculative form give a poisoned one where they would trap. -/
theorem floatingArithmeticResults : Obligations.FloatingArithmeticResults := by
  intro f s hq
  simp only [← fpSrc_fpFmt]
  refine ⟨fun hl => ?add, fun hl => ?sub, fun hl => ?mul, fun hl => ?fma, fun hl => ?div, fun hl => ?sqrt, fun hl => ?min,
    fun hl => ?max⟩
  case add => exact exec_fp2 (op := fun F => fAdd F (fpMode f)) ({}) hq hl (by decide) rfl rfl
  case sub => exact exec_fp2 (op := fun F => fSub F (fpMode f)) ({}) hq hl (by decide) rfl rfl
  case mul => exact exec_fp2 (op := fun F => fMul F (fpMode f)) ({}) hq hl (by decide) rfl rfl
  case min => exact exec_fp2 (op := fun F => fMinMax F false) ({}) hq hl (by decide) rfl rfl
  case max => exact exec_fp2 (op := fun F => fMinMax F true) ({}) hq hl (by decide) rfl rfl
  case fma =>
    refine exec_fpResult ({}) hq hl (by decide) rfl ?_
    rw [slot_fma, slotFma, destG_quiet hq, needG_quiet hq, needG_quiet hq, needG_quiet hq]
    rfl
  case div =>
    refine exec_spResult ({}) hq hl rfl ?_
    rw [slot_fdiv, slotFdiv, destG_quiet hq, needG_quiet hq, needG_quiet hq]
    rfl
  case sqrt =>
    refine exec_spResult ({}) hq hl rfl ?_
    rw [slot_fsqrt, slotFsqrt, destG_quiet hq, needG_quiet hq]
    rfl

end Sys2Proof.Machine
end

section
/-! `fcmp` (spec/07_scalar_control.md R119), and rounding to a multiple of a power of two (spec/05_formats.md R61). -/
namespace Sys2Proof.Machine

/-! ## `fcmp` -/

/-- The condition of `fcmp` by its code, on unpacked operands. -/
def fcmpHolds (code : Nat) (a b : FVal) : Bool :=
  let nan := a.isNan || b.isNan
  match code with
  | 0 => !nan && eqV a b
  | 1 => !nan && ltV a b
  | 2 => !nan && (ltV a b || eqV a b)
  | _ => nan

/-- The flags of `fcmp`: the ordering conditions raise IV for any NaN, the others for a signalling one. -/
def fcmpRaises (code : Nat) (a b : FVal) : Flags :=
  if (if code = 1 ∨ code = 2 then a.isNan || b.isNan else a.isSnan || b.isSnan) then fIV else 0

theorem fcmpCond_eq (F : FFmt) (c : BitVec 2) (a b : BitVec 64) : fcmpCond F c a b =
    (fcmpHolds c.toNat (unpackF F a) (unpackF F b), fcmpRaises c.toNat (unpackF F a) (unpackF F b)) := by
  have hc : c.toNat < 4 := c.isLt
  unfold fcmpCond fCompare fcmpHolds fcmpRaises
  generalize c.toNat = n at hc
  interval_cases n <;> rfl

theorem slotFcmp_quiet {f : RR} {s : State} (hq : quiet s = true) : slotFcmp f s =
    if gTag f.src1 s || gTag f.src2 s then .trapOf .poison
    else
      let r := fcmpCond (fpFmt f) (fpMode f) (fpSrc (fpFmt f) (gReg f.src1 s)) (fpSrc (fpFmt f) (gReg f.src2 s))
      fpFlags r.2 s (.ok (State.resultK (f.dst.setWidth 4) r.1 r.2 2)) := by
  rw [slotFcmp, cleanG_quiet hq, cleanG_quiet hq]
  cases gTag f.src1 s <;> rfl

theorem exec_fcmp {f : RR} {s : State} (hq : quiet s = true) (hl : lone (.fcmp f) s = true) :
    let a := unpackF (fpFmt f) (fpSrc (fpFmt f) (gReg f.src1 s))
    let b := unpackF (fpFmt f) (fpSrc (fpFmt f) (gReg f.src2 s))
    let fl := fcmpRaises (fpMode f).toNat a b
    exec (.fcmp f) s = .next (
      if gTag f.src1 s || gTag f.src2 s then traps (.fcmp f) .poison 0 0 s
      else if enabledFlags fl s ≠ 0 then traps (.fcmp f) .fpException ((bits 0 6 fl : BitVec 6).setWidth 8) 0 s
      else givesK (.fcmp f) (f.dst.setWidth 4) (fcmpHolds (fpMode f).toNat a b) fl 2 s) := by
  intro a b fl
  have hr := (slot_fcmp (s.nextPc [.fcmp f]) none f s).trans (slotFcmp_quiet hq)
  rw [fcmpCond_eq] at hr
  by_cases hp : (gTag f.src1 s || gTag f.src2 s) = true
  · rw [if_pos hp] at hr ⊢
    exact Ordinary.exec_trap {} hq hl hr (by decide)
  · rw [if_neg hp] at hr ⊢
    by_cases hfl : enabledFlags fl s ≠ 0
    · rw [if_pos hfl]
      exact Ordinary.exec_trap {} hq hl (hr.trans (if_pos ((flagsTrap_iff fl s).mpr hfl))) (by decide)
    · rw [if_neg hfl]
      refine Ordinary.exec_resultK {} hq hl (hr.trans (if_neg ?_)) (by decide) (pushesOf_kDest rfl)
      exact fun h => hfl ((flagsTrap_iff fl s).mp h)

/-! ## Rounding -/

/-- Whether a magnitude with quotient `q` and remainder `r` rounds up, where `half` is half of the unit. -/
def roundsUp (mode : RMode) (neg : Bool) (q r half : Nat) : Bool :=
  match mode.toNat with
  | 0 => half < r || (r == half && q % 2 == 1)
  | 1 => false
  | 2 => !neg && r != 0
  | _ => neg && r != 0

theorem roundsUp_exact (mode : RMode) (neg : Bool) (q : Nat) {half : Nat} (h : 0 < half) :
    roundsUp mode neg q 0 half = false := by
  unfold roundsUp
  split
  case h_1 => simp; omega
  all_goals simp

/-- The quotient by 2^k, or one more, and whether there is a remainder. -/
theorem roundAt_natCast (mode : RMode) (neg : Bool) (m k : Nat) : roundAt mode neg m (k : Int) =
    (if roundsUp mode neg (m / 2 ^ k) (m % 2 ^ k) (2 ^ (k - 1)) then m / 2 ^ k + 1 else m / 2 ^ k, m % 2 ^ k != 0) := by
  unfold roundAt
  cases k with
  | zero => simp [Nat.mod_one, roundsUp_exact]
  | succ k =>
    rw [if_neg (by omega)]
    rfl

/-- To nearest, ties to even: no multiple of the unit is nearer than the one rounded to, which is even on a tie. -/
theorem roundAt_nearest (neg : Bool) {m k : Nat} (h : ¬ 2 ^ k ∣ m) :
    let r := (roundAt 0 neg m (k : Int)).1
    2 * (r * 2 ^ k) ≤ 2 * m + 2 ^ k ∧ 2 * m ≤ 2 * (r * 2 ^ k) + 2 ^ k ∧
      (2 * m = 2 * (m / 2 ^ k * 2 ^ k) + 2 ^ k → r % 2 = 0) := by
  cases k with
  | zero => exact absurd (one_dvd m) h
  | succ k =>
    have hm : m / 2 ^ (k + 1) * 2 ^ (k + 1) + m % 2 ^ (k + 1) = m := Nat.div_add_mod' m _
    have hr : m % 2 ^ (k + 1) < 2 ^ (k + 1) := Nat.mod_lt _ (by positivity)
    have hunit : 2 ^ (k + 1) = 2 * 2 ^ k := Nat.pow_succ'
    rw [roundAt_natCast]
    simp only [Nat.add_sub_cancel]
    generalize m / 2 ^ (k + 1) = q at *
    generalize m % 2 ^ (k + 1) = r at *
    generalize 2 ^ (k + 1) = d at *
    generalize 2 ^ k = half at *
    by_cases hu : roundsUp 0 neg q r half = true
    · have hup : half < r ∨ r = half ∧ q % 2 = 1 := by simpa [roundsUp] using hu
      rw [if_pos hu, Nat.add_mul]
      omega
    · have hdown : ¬ (half < r ∨ r = half ∧ q % 2 = 1) := by simpa [roundsUp] using hu
      rw [if_neg hu]
      omega

/-! ## The statement -/

/-- Settles O8: `fcmp` by its code, and the four roundings from the quotient and remainder by 2^k. -/
theorem floatingComparisonsAndRounding : Obligations.FloatingComparisonsAndRounding := by
  refine ⟨fun f s hq hl => ?_, fun mode neg m k => ?_⟩
  · simp only [← fpSrc_fpFmt]
    exact exec_fcmp hq hl
  · have hexact : m % 2 ^ k = 0 ↔ 2 ^ k ∣ m := Nat.dvd_iff_mod_eq_zero.symm
    refine ⟨?_, fun hd => ?_, fun hd => ⟨?_, ?_, ?_, ?_⟩⟩
    · rw [roundAt_natCast, ← hexact, bne_iff_ne]
    · rw [roundAt_natCast, hexact.mpr hd, roundsUp_exact _ _ _ (by positivity)]
      exact Nat.div_mul_cancel hd
    · rintro rfl
      rw [roundAt_natCast]
      rfl
    · rintro rfl
      have hr : m % 2 ^ k ≠ 0 := fun h => hd (hexact.mp h)
      rw [roundAt_natCast]
      cases neg <;> simp [roundsUp, hr]
    · rintro rfl
      have hr : m % 2 ^ k ≠ 0 := fun h => hd (hexact.mp h)
      rw [roundAt_natCast]
      cases neg <;> simp [roundsUp, hr]
    · rintro rfl
      exact roundAt_nearest neg hd

end Sys2Proof.Machine
end

section
/-! Lone vector instructions with an entry to push (spec/13_vector.md R185 to R194). -/
namespace Sys2Proof.Machine

/-! ## Sources -/

theorem needQ_quiet {s : State} (hq : quiet s = true) (key : Nat) (r : BitVec 5) (k : BitVec 1024 → Bool → SlotRes) :
    needQ key r s k = if s.cur.queue r = [] then .trapOf .queueUnderflow else k (headBits r s) (headTag r s) := by
  have hl := quiet_queue hq r
  unfold needQ State.head headBits headTag
  cases h : s.cur.queue r with
  | nil => rfl
  | cons e l => simp [State.entryHead, hl e (by simp [h])]

/-- The sources of a vector instruction: their heads, or an underflow where one of them is empty. -/
theorem needSources_quiet {s : State} (hq : quiet s = true) (src : List (BitVec 5 × Bool)) (key : Nat)
    (k : List (BitVec 1024) → Bool → SlotRes) : needSources s key src k =
      if sourcesReady src s then k (heads src s) (headsTag src s) else .trapOf .queueUnderflow := by
  induction src generalizing key k with
  | nil => rfl
  | cons x r ih =>
    rw [needSources, needQ_quiet hq]
    simp only [ih, sourcesReady, heads, headsTag, List.all_cons, List.map_cons, List.any_cons]
    by_cases h : s.cur.queue x.1 = []
    · simp [h]
    · simp [h]

/-! ## The commit of a push -/

/-- The context after its sources are popped. -/
def Ctx.popped (src : List (BitVec 5 × Bool)) (c : Ctx) : Ctx :=
  src.foldl (fun c x => if x.2 then c else c.setQueue x.1 (c.queue x.1).tail) c

/-- The context after its sources are popped and an entry and flags are on their way until the cycle `due`. -/
def Ctx.pushed (src : List (BitVec 5 × Bool)) (dst : BitVec 5) (v : BitVec 1024) (p : Bool) (fl : Flags) (due : Nat) (c : Ctx) :
    Ctx :=
  let c := c.popped src
  let c := c.setQueue dst (c.queue dst ++
    [{ bits := v, poison := p, landed := false, interlocked := false, due := due, op := 0 }])
  if fl = 0 then c
  else { c with pend := c.pend ++ [{ dest := .fstat, value := 0, poison := false, flags := fl, due := due, landed := false }] }

theorem popSources_eq (src : List (BitVec 5 × Bool)) (s : State) : popSources src s = s.modCtx (Ctx.popped src) := by
  induction src generalizing s with
  | nil => rfl
  | cons x r ih =>
    obtain ⟨q, keep⟩ := x
    change popSources r (popUnless keep q s) = _
    rw [ih]
    cases keep <;> rfl

theorem popped_frame (src : List (BitVec 5 × Bool)) (c : Ctx) : c.popped src = { c with q := (c.popped src).q } := by
  induction src generalizing c with
  | nil => rfl
  | cons x r ih =>
    obtain ⟨q, keep⟩ := x
    cases keep with
    | true => exact ih c
    | false => exact ih (c.setQueue q (c.queue q).tail)

theorem pushed_frame (src : List (BitVec 5 × Bool)) (dst : BitVec 5) (v : BitVec 1024) (p : Bool) (fl : Flags) (due : Nat)
    (c : Ctx) : c.pushed src dst v p fl due =
      { c with q := (c.pushed src dst v p fl due).q, pend := (c.pushed src dst v p fl due).pend } := by
  unfold Ctx.pushed
  rw [popped_frame]
  split <;> rfl

theorem pushes_eq (i : Instr) (src : List (BitVec 5 × Bool)) (dst : BitVec 5) (v : BitVec 1024) (p : Bool) (fl : Flags)
    (bound : Nat) (s : State) : pushes i src dst v p fl bound s =
      (passed [i] s).modCtx (Ctx.pushed src dst v p fl (s.core.cycle + bound)) := by
  rw [pushes, popSources_eq, flagsUnderWay]
  unfold Ctx.pushed
  split <;> simp [*] <;> rfl

/-- Popping a queue leaves entries that have landed. -/
theorem popped_landed {c : Ctx} (h : ∀ r, ∀ e ∈ c.queue r, e.landed = true) (src : List (BitVec 5 × Bool)) (r : BitVec 5) :
    ∀ e ∈ (c.popped src).queue r, e.landed = true := by
  induction src generalizing c with
  | nil => exact h r
  | cons x l ih =>
    obtain ⟨q, keep⟩ := x
    cases keep with
    | true => exact ih h
    | false =>
      refine ih (c := c.setQueue q (c.queue q).tail) fun y e he => ?_
      rw [queue_setQueue] at he
      split at he
      · exact h q e (List.mem_of_mem_tail he)
      · exact h y e he

theorem landQueue_append {n : Nat} {l : List QEntry} (h : ∀ e ∈ l, e.landed = true) (r : List QEntry) :
    landQueue n (l ++ r) = l ++ landQueue n r := by
  induction l with
  | nil => rfl
  | cons e l ih => simp [landQueue, h e (by simp), ih (fun x hx => h x (by simp [hx]))]

/-- A context in which nothing lands. -/
theorem land_eq_self {c : Ctx} {n : Nat} (hp : ∀ p ∈ c.pend, n < p.due) (hq : ∀ r, landQueue n (c.queue r) = c.queue r) :
    c.land n = c := by
  have hfold : ∀ (l : List Pending) (d : Ctx), (∀ p ∈ l, n < p.due) →
      l.foldl (fun c p => if p.due ≤ n then c.landOne p else c) d = d := by
    intro l
    induction l with
    | nil => exact fun d _ => rfl
    | cons p l ih =>
      intro d h
      rw [List.foldl_cons, if_neg (Nat.not_le.mpr (h p (by simp))), ih d (fun x hx => h x (by simp [hx]))]
  have hpend : c.landPend n = c := by
    rw [Ctx.landPend, hfold _ _ hp, List.filter_eq_self.mpr (by simpa using hp)]
  have hqueues : c.q.map (landQueue n) = c.q := by
    apply Vector.ext
    intro k hk
    have := hq (BitVec.ofNat 5 k)
    simpa [Ctx.queue, Nat.mod_eq_of_lt hk] using this
  rw [Ctx.land, hpend, hqueues]

/-- An entry with a bound above one cycle is still on its way after the cycle of its issue. -/
theorem pushed_land {c : Ctx} {n due : Nat} (hp : c.pend = []) (hq : ∀ r, ∀ e ∈ c.queue r, e.landed = true) (hn : n < due)
    (src : List (BitVec 5 × Bool)) (dst : BitVec 5) (v : BitVec 1024) (p : Bool) (fl : Flags) :
    (c.pushed src dst v p fl due).land n = c.pushed src dst v p fl due := by
  have hpend : (c.popped src).pend = [] := by rw [popped_frame]; exact hp
  have hqueue : ∀ r, landQueue n ((c.pushed src dst v p fl due).queue r) = (c.pushed src dst v p fl due).queue r := by
    intro r
    have h : (c.pushed src dst v p fl due).queue r = if r = dst then (c.popped src).queue dst ++
        [{ bits := v, poison := p, landed := false, interlocked := false, due := due, op := 0 }] else (c.popped src).queue r := by
      rw [← queue_setQueue]
      unfold Ctx.pushed
      split <;> rfl
    rw [h]
    split
    · rw [landQueue_append (popped_landed hq src dst)]
      simp [landQueue, Nat.not_le.mpr hn]
    · exact landQueue_landed n _ (popped_landed hq src r)
  refine land_eq_self (fun x hx => ?_) hqueue
  unfold Ctx.pushed at hx
  split at hx
  · simp [Ctx.setQueue, hpend] at hx
  · simp only [Ctx.setQueue, hpend, List.nil_append, List.mem_singleton] at hx
    rw [hx]
    exact hn

/-- What a vector instruction commits. -/
def commitsPush (src : List (BitVec 5 × Bool)) (dst : BitVec 5) (v : BitVec 1024) (p : Bool) (bound : Nat) (fl : Flags) (s : State) :
    State :=
  State.resultFlags fl bound ((popSources src s).pushQ dst v p bound)

section
variable (src : List (BitVec 5 × Bool)) (dst : BitVec 5) (v : BitVec 1024) (p : Bool) (fl : Flags) (bound : Nat)

theorem commitsPush_eq {t : State} (ht : t.cur.pend = []) : commitsPush src dst v p bound fl t =
    t.modCtx (Ctx.pushed src dst v p fl (t.core.cycle + bound)) := by
  have hp : (t.cur.popped src).pend = [] := by rw [popped_frame]; exact ht
  rw [commitsPush, popSources_eq, State.resultFlags]
  unfold Ctx.pushed
  by_cases h : fl = 0
  · simp only [h, if_true]
    rfl
  · simp only [if_neg h]
    simp [State.result, State.pushQ, State.modCtx, Ctx.setQueue, hp, Dest.isZero]

variable {i : Instr} {s : State} (hq : quiet s = true)
include hq

theorem commitsPush_plain : PlainCommit s (commitsPush src dst v p bound fl (moved i s)) := by
  obtain ⟨hids, hfact, hdelay, hbeats, hparked⟩ := moved_plain (i := i) hq
  rw [commitsPush_eq (t := moved i s) (ht := quiet_pend (s := s) hq)]
  refine ⟨hids, hfact, ?_, ?_, hparked⟩
  · rw [State.modCtx_cur, pushed_frame]; exact hdelay
  · rw [State.modCtx_cur, pushed_frame]; exact hbeats

theorem commitsPush_tick (hb : 1 < bound) :
    (commitsPush src dst v p bound fl (moved i s)).tick = pushes i src dst v p fl bound s := by
  have hp : (moved i s).cur.pend = [] := quiet_pend (s := s) hq
  have hl : ∀ r, ∀ e ∈ (moved i s).cur.queue r, e.landed = true := quiet_queue (s := s) hq
  have hland := pushed_land hp hl (Nat.add_lt_add_left hb s.core.cycle) src dst v p fl
  obtain ⟨q, pend, hframe⟩ : ∃ q pend, (moved i s).cur.pushed src dst v p fl (s.core.cycle + bound) =
      { (moved i s).cur with q := q, pend := pend } := ⟨_, _, pushed_frame ..⟩
  rw [hframe] at hland
  calc (commitsPush src dst v p bound fl (moved i s)).tick
    _ = ((moved i s).modCtx (fun _ => (moved i s).cur.pushed src dst v p fl (s.core.cycle + bound))).tick := by
      rw [commitsPush_eq (ht := hp)]
      rfl
    _ = (passed [i] s).modCtx (fun _ => Ctx.land (s.core.cycle + 1) { (moved i s).cur with q := q, pend := pend }) := by
      rw [hframe]
      rfl
    _ = pushes i src dst v p fl bound s := by
      rw [hland, ← hframe, pushes_eq]
      rfl

end

/-! ## What the instruction does -/

/-- The queues that a vector instruction pops are its sources that it does not keep. -/
theorem vPops_eq (f : VF) {n : Nat} (hn : n ≤ 3) : vPops n f = ((vSrc f n).filter (fun q => !q.2)).map Prod.fst := by
  unfold vPops vSrc
  interval_cases n <;> cases f.keep1 <;> cases f.keep2 <;> cases f.keep3 <;> rfl

/-- A slot that commits, and whose push finds no room, traps. -/
theorem Ordinary.exec_overflow {i : Instr} {s : State} (hi : Ordinary i) (hq : quiet s = true) (hl : lone i s = true)
    {F : State → State} (hr : slotRes (s.nextPc [i]) none i s = .ok F) (ho : overflows [i] i s = true) :
    exec i s = .next (traps i .queueOverflow 0 0 s) := by
  have hn : (inOrder i && s.acquireHeld) = false := by rw [hi.unordered, Bool.false_and]
  rw [hi.issues, issue_lone hq hl, hr, slotInOrder_free hn]
  simp [deferTrap, slotEnd, ho, liveness_lone (hi.serves s), traps]

/-- A lone vector instruction that reads `n` queues and pushes one entry. -/
structure Pushing (i : Instr) (f : VF) (n : Nat) : Prop extends Ordinary i where
  few : n ≤ 3 := by decide
  dest : dests i = [.q f.dst] := by rfl
  popped : ∀ k, popsOf k i = vPops n f := by exact fun _ => rfl
  once : ∀ k, pushesOf k i = [f.dst] := by exact fun _ => rfl

theorem Pushing.overflows_eq {i : Instr} {f : VF} {n : Nat} (hi : Pushing i f n) (s : State) :
    overflows [i] i s = !roomIn f.dst (vSrc f n) s := by
  simp only [overflows, hi.once, List.flatMap_cons, List.flatMap_nil, List.append_nil, hi.popped, vPops_eq f hi.few, roomIn,
    List.any_cons, List.any_nil, Bool.or_false, List.count_singleton_self, ← decide_not, Nat.not_le]

theorem vectorPush_poison {f : VF} {n bound : Nat} {v : BitVec 1024} {fl : Flags} {s : State} :
    vectorPush f n bound v fl true s = .ok (commitsPush (vSrc f n) f.dst v true bound 0) := by
  simp only [vectorPush, if_true]
  rfl

theorem vectorPush_clean {f : VF} {n bound : Nat} {v : BitVec 1024} {fl : Flags} {s : State} (h : flagsTrap s.fmt fl = false) :
    vectorPush f n bound v fl false s = .ok (commitsPush (vSrc f n) f.dst v false bound fl) := by
  simp only [vectorPush, fpFlags, h, Bool.false_eq_true, if_false]
  rfl

theorem vectorPush_trap {f : VF} {n bound : Nat} {v : BitVec 1024} {fl : Flags} {s : State} (h : flagsTrap s.fmt fl = true) :
    vectorPush f n bound v fl false s = .trap .fpException ((fl.setWidth 6).setWidth 8) 0 := by
  simp only [vectorPush, fpFlags, h, Bool.false_eq_true, if_false, if_true]

section
variable {i : Instr} {f : VF} {n bound : Nat} {s : State} {v : BitVec 1024} {fl : Flags} (hi : Pushing i f n)
  (hq : quiet s = true) (hl : lone i s = true) (hb : 1 < bound)
include hi hq hl hb

theorem Pushing.exec_commitsPush {p : Bool}
    (hr : slotRes (s.nextPc [i]) none i s = .ok (commitsPush (vSrc f n) f.dst v p bound fl)) :
    exec i s = .next (if !roomIn f.dst (vSrc f n) s then traps i .queueOverflow 0 0 s
      else pushes i (vSrc f n) f.dst v p fl bound s) := by
  have ho := hi.overflows_eq s
  by_cases h : (!roomIn f.dst (vSrc f n) s) = true
  · rw [if_pos h]
    exact hi.exec_overflow hq hl hr (ho.trans h)
  · rw [if_neg h, exec_ok hq hl hr (ho.trans (Bool.eq_false_iff.mpr h)) (hi.serves s) (commitsPush_plain _ _ _ _ _ _ hq)
      (by rw [hi.unordered, Bool.false_and]) (hi.issues s), hi.after, commitsPush_tick _ _ _ _ _ _ hq hb]

/-- The whole answer of a lone vector instruction whose slot reads its sources and pushes. -/
theorem Pushing.exec_vectorPush (hr : slotRes (s.nextPc [i]) none i s =
      if sourcesReady (vSrc f n) s then vectorPush f n bound v fl (headsTag (vSrc f n) s) s else .trapOf .queueUnderflow) :
    exec i s = .next (vectorAnswers i (vSrc f n) f.dst v fl bound s) := by
  unfold vectorAnswers
  by_cases hs : sourcesReady (vSrc f n) s = true
  · rw [if_pos hs] at hr
    rw [if_neg (by simp [hs])]
    by_cases hp : headsTag (vSrc f n) s = true
    · rw [hp, vectorPush_poison] at hr
      simp only [hp, Bool.not_true, Bool.false_and, Bool.false_eq_true, if_false, if_true]
      exact hi.exec_commitsPush hq hl hb hr
    · rw [Bool.eq_false_iff.mpr hp] at hr
      simp only [hp, Bool.not_false, Bool.true_and, Bool.false_eq_true, if_false, bne_iff_ne]
      by_cases hfl : enabledFlags fl s = 0
      · rw [vectorPush_clean ((flagsTrap_eq_false_iff fl s).mpr hfl)] at hr
        rw [if_neg (not_not.mpr hfl)]
        exact hi.exec_commitsPush hq hl hb hr
      · rw [vectorPush_trap ((flagsTrap_iff fl s).mpr hfl)] at hr
        rw [if_pos hfl]
        exact hi.exec_trap hq hl hr (by decide)
  · rw [if_neg hs] at hr
    rw [if_pos (by simpa using hs)]
    exact hi.exec_trap hq hl hr (by decide)

end

end Sys2Proof.Machine
end

section
/-! Lanes of entries, and the elementwise vector instructions (spec/13_vector.md R192 to R200). -/
namespace Sys2Proof.Machine

/-! ## Packed lanes -/

theorem packLanes_lt (w : Nat) (ls : List Nat) : packLanes w ls < 2 ^ (w * ls.length) := by
  induction ls with
  | nil => simp [packLanes]
  | cons l r ih =>
    have hl : l % 2 ^ w < 2 ^ w := Nat.mod_lt _ (by positivity)
    rw [packLanes, List.length_cons, Nat.mul_succ, Nat.add_comm (w * r.length), Nat.pow_add]
    have hr := Nat.mul_le_mul_left (2 ^ w) (Nat.succ_le_of_lt ih)
    rw [Nat.mul_succ] at hr
    omega

theorem packLanes_lt_of_le {w n : Nat} {ls : List Nat} (h : w * ls.length ≤ n) : packLanes w ls < 2 ^ n :=
  (packLanes_lt w ls).trans_le (Nat.pow_le_pow_right (by decide) h)

theorem packLanes_lane (w : Nat) (ls : List Nat) {k : Nat} (hk : k < ls.length) :
    packLanes w ls / 2 ^ (w * k) % 2 ^ w = ls[k] % 2 ^ w := by
  induction ls generalizing k with
  | nil => exact absurd hk (by simp)
  | cons l r ih =>
    cases k with
    | zero => simp [packLanes, Nat.add_mul_mod_self_left]
    | succ k =>
      have hlow : (l % 2 ^ w + 2 ^ w * packLanes w r) / 2 ^ w = packLanes w r := by
        rw [Nat.add_mul_div_left _ _ (by positivity), Nat.div_eq_of_lt (Nat.mod_lt _ (by positivity)), Nat.zero_add]
      rw [packLanes, Nat.mul_succ, Nat.add_comm (w * k), Nat.pow_add, ← Nat.div_div_eq_div_mul, hlow]
      exact ih (Nat.lt_of_succ_lt_succ hk)

theorem toNat_ofNat_of_lt {n x : Nat} (h : x < 2 ^ n) : (BitVec.ofNat n x).toNat = x := by
  rw [BitVec.toNat_ofNat, Nat.mod_eq_of_lt h]

/-- The lanes of an entry are those that it was packed from. -/
theorem laneOf_entryOf {w : Nat} {ls : List Nat} (hfit : w * ls.length ≤ 1024) {k : Nat} (hk : k < ls.length) :
    laneOf w k (entryOf w ls) = ls[k] % 2 ^ w := by
  rw [laneOf, entryOf, toNat_ofNat_of_lt (packLanes_lt_of_le hfit), packLanes_lane w ls hk]

/-- The lanes of an element type fill an entry. -/
theorem tyWidth_mul_laneCount (ty : BitVec 4) : tyWidth ty * laneCount ty = 1024 := by
  revert ty; decide

/-! ## Lanes under a mask -/

theorem mapIdx_map_range {α β : Type} (n : Nat) (g : Nat → α) (h : Nat → α → β) :
    ((List.range n).map g).mapIdx h = (List.range n).map (fun k => h k (g k)) := by
  apply List.ext_getElem <;> simp

variable (ty : BitVec 4) (m : BitVec 128) (g : Nat → LRes)

/-- A lane of a result under a mask: zero where it is masked off. -/
theorem maskLanes_lane {k : Nat} (hk : k < laneCount ty) :
    laneOf (tyWidth ty) k (maskLanes ty m ((List.range (laneCount ty)).map g)).1 =
      if laneOn ty m k then (g k).1 % 2 ^ tyWidth ty else 0 := by
  simp only [maskLanes, mapIdx_map_range, List.map_map]
  rw [laneOf_entryOf (by simp [tyWidth_mul_laneCount]) (by simpa using hk)]
  simp only [List.getElem_map, List.getElem_range, Function.comp]
  split <;> simp

/-- The flags of a result under a mask are those of the active lanes. -/
theorem maskLanes_flags : (maskLanes ty m ((List.range (laneCount ty)).map g)).2 =
    (List.range (laneCount ty)).foldl (fun fl k => if laneOn ty m k then fl ||| (g k).2 else fl) 0 := by
  simp only [maskLanes, mapIdx_map_range, List.foldl_map]
  congr 1
  funext fl k
  split <;> simp

end Sys2Proof.Machine
end

section
/-! The elementwise vector instructions (spec/13_vector.md R192 to R200). -/
namespace Sys2Proof.Machine

/-! ## One computed lane -/

theorem clampInt_eq {lo hi : Int} (h : lo ≤ hi) (v : Int) : clampInt lo hi v = max lo (min hi v) := by
  unfold clampInt
  split
  · omega
  · split <;> omega

theorem tyMin_le_tyMax (ty : BitVec 4) : tyMin ty ≤ tyMax ty := by revert ty; decide

theorem tyRes_iff (ty : BitVec 4) : tyRes ty = true ↔ ty = 12 ∨ ty = 13 := by revert ty; decide

theorem tyFloat_of_tyRes {ty : BitVec 4} (h : tyRes ty = true) : tyFloat ty = false := by revert ty; decide

theorem tyWidth_pos (ty : BitVec 4) : 0 < tyWidth ty := by revert ty; decide

theorem tyWidth_le (ty : BitVec 4) : tyWidth ty ≤ 64 := by revert ty; decide

/-- NaV is the code of the sign bit alone. -/
theorem wrapTo_navCode {w : Nat} (h : 0 < w) : wrapTo w (navCode w) = 2 ^ (w - 1) := by
  obtain ⟨n, rfl⟩ := Nat.exists_eq_succ_of_ne_zero h.ne'
  have hn : ((2 ^ n : Nat) : Int) = 2 ^ n := by push_cast; rfl
  have hpos : (0 : Int) < 2 ^ n := by positivity
  rw [wrapTo, navCode, Nat.succ_sub_one, pow_succ, ← Int.add_mul_emod_self_left _ _ 1, Int.emod_eq_of_lt (by omega) (by omega)]
  omega

section
variable (fmt : BitVec 32) {ty : BitVec 4} (sat : Bool) (ex : List Int → Int) (fl : FFmt → RMode → List (BitVec 64) → FRes)
  (xs : List Nat)

/-- A lane of class F (R194). -/
theorem computeLane_float (h : tyFloat ty = true) : computeLane fmt ty sat ex fl xs =
    let r := flushOut (floatFmt ty) (fmtSubz fmt)
      (fl (floatFmt ty) (fmtRmode fmt) (xs.map (fun x => flushIn (floatFmt ty) (fmtSubz fmt) (BitVec.ofNat 64 x))))
    (r.1.toNat, r.2) := if_pos h

/-- A lane of class I (R197). -/
theorem computeLane_int (h : ty.toNat < 8) : computeLane fmt ty sat ex fl xs =
    (wrapTo (tyWidth ty) (if sat then max (tyMin ty) (min (tyMax ty) (ex (xs.map (codeOf ty)))) else ex (xs.map (codeOf ty))), 0) := by
  have hf : tyFloat ty = false := by revert ty; decide
  have hr : tyRes ty = false := by revert ty; decide
  simp only [computeLane, hf, hr, Bool.false_eq_true, if_false, clampInt_eq (tyMin_le_tyMax ty)]

/-- A lane of class X with a NaV source (R68). -/
theorem computeLane_nav (h : tyRes ty = true) (hn : navCode (tyWidth ty) ∈ xs.map (codeOf ty)) :
    computeLane fmt ty sat ex fl xs = (2 ^ (tyWidth ty - 1), 0) := by
  have hf : tyFloat ty = false := tyFloat_of_tyRes h
  have hnav : (xs.map (codeOf ty)).any (fun c => c == navCode (tyWidth ty)) = true :=
    List.any_eq_true.mpr ⟨_, hn, beq_self_eq_true _⟩
  simp only [computeLane, hf, h, hnav, Bool.false_eq_true, if_false, if_true, wrapTo_navCode (tyWidth_pos ty)]

/-- A lane of class X without one (R68). -/
theorem computeLane_clamped (h : tyRes ty = true) (hn : navCode (tyWidth ty) ∉ xs.map (codeOf ty)) :
    computeLane fmt ty sat ex fl xs =
      (wrapTo (tyWidth ty) (max (-(resMax (tyWidth ty))) (min (resMax (tyWidth ty)) (ex (xs.map (codeOf ty))))),
        if -(resMax (tyWidth ty)) ≤ ex (xs.map (codeOf ty)) ∧ ex (xs.map (codeOf ty)) ≤ resMax (tyWidth ty) then 0 else fOF) := by
  have hf : tyFloat ty = false := tyFloat_of_tyRes h
  have hnav : ¬ (xs.map (codeOf ty)).any (fun c => c == navCode (tyWidth ty)) = true := by simpa using hn
  have hpos : (0 : Int) ≤ resMax (tyWidth ty) := by
    have := Int.pow_pos (n := 2) (m := tyWidth ty - 1) (by decide)
    unfold resMax
    omega
  simp only [computeLane, hf, h, if_neg hnav, Bool.false_eq_true, if_false, if_true]
  rw [clampInt_eq (by omega)]
  generalize ex (xs.map (codeOf ty)) = v
  generalize resMax (tyWidth ty) = top at hpos
  have hkept : max (-top) (min top v) = v ↔ -top ≤ v ∧ v ≤ top := by omega
  simp only [hkept]

end

/-! ## Sign lanes -/

theorem getLsbD_setBit_self {n : Nat} (v : BitVec n) {i : Nat} (hi : i < n) (b : Bool) : (setBit v i b).getLsbD i = b := by
  have hbit : (BitVec.ofNat n (2 ^ i)).getLsbD i = true := by
    rw [BitVec.getLsbD_ofNat, Nat.testBit_two_pow_self, decide_eq_true hi, Bool.true_and]
  rw [setBit, BitVec.getLsbD_or, BitVec.getLsbD_and, BitVec.getLsbD_not, hbit]
  cases b
  · simp
  · rw [if_pos rfl, hbit, Bool.or_true]

/-- A number of at most j + 1 bits with bit j written. -/
theorem setBit_toNat {a j : Nat} (hj : j < 64) (ha : a < 2 ^ (j + 1)) (b : Bool) :
    (setBit (BitVec.ofNat 64 a) j b).toNat = a % 2 ^ j + if b then 2 ^ j else 0 := by
  have hlow : a % 2 ^ j < 2 ^ j := Nat.mod_lt _ (by positivity)
  have hsum : a % 2 ^ j + (if b then 2 ^ j else 0) = (if b then 2 ^ j else 0) ||| a % 2 ^ j := by
    cases b
    · simp
    · have := Nat.two_pow_add_eq_or_of_lt hlow 1
      rw [Nat.mul_one] at this
      rw [if_pos rfl, Nat.add_comm, this]
  rw [hsum]
  apply Nat.eq_of_testBit_eq
  intro k
  have hk : j < k → a.testBit k = false := fun h =>
    Nat.testBit_lt_two_pow (ha.trans_le (Nat.pow_le_pow_right (by decide) h))
  change (setBit (BitVec.ofNat 64 a) j b).getLsbD k = _
  rw [Nat.testBit_or, Nat.testBit_mod_two_pow]
  by_cases hkj : k = j
  · subst hkj
    cases b <;> simp [getLsbD_setBit_self _ hj]
  · have hbit : (if b then 2 ^ j else 0).testBit k = false := by
      cases b <;> simp [Nat.testBit_two_pow_of_ne (Ne.symm hkj)]
    rw [getLsbD_setBit_of_ne _ _ hkj, BitVec.getLsbD_ofNat, hbit, Bool.false_or]
    by_cases hlt : k < j
    · simp [hlt, hlt.trans hj]
    · simp [hlt, hk (by omega)]

/-- The sign bit stands at the top of a lane of class F. -/
theorem floatFmt_top {ty : BitVec 4} (h : tyFloat ty = true) :
    (floatFmt ty).ew + (floatFmt ty).mw + 1 = tyWidth ty := by revert ty; decide

theorem signLane_eq {ty : BitVec 4} (h : tyFloat ty = true) (g : Bool → Bool) {xs : List Nat} (hx : ∀ x ∈ xs, x < 2 ^ tyWidth ty) :
    signLane ty g xs = (xs.getD 0 0 % 2 ^ (tyWidth ty - 1) +
      (if g ((xs.getD 0 0).testBit (tyWidth ty - 1)) then 2 ^ (tyWidth ty - 1) else 0), 0) := by
  have htop := floatFmt_top h
  have hw : tyWidth ty ≤ 64 := tyWidth_le ty
  have ha : xs.getD 0 0 < 2 ^ tyWidth ty := by
    cases xs with
    | nil => simp
    | cons x r => exact hx x (by simp)
  have hj : (floatFmt ty).ew + (floatFmt ty).mw = tyWidth ty - 1 := by omega
  have ha' : xs.getD 0 0 < 2 ^ (tyWidth ty - 1 + 1) := by rwa [← hj, htop]
  unfold signLane signBit
  simp only [BitVec.getLsbD_ofNat, hj]
  rw [setBit_toNat (by omega) ha', decide_eq_true (by omega), Bool.true_and]

/-! ## The answers -/

/-- What a lone elementwise instruction does: the lanes that it pushes and the flags that it raises (R192, R194). -/
def LanesAnswer (i : Instr) (f : VF) (n bound : Nat) (lane : List Nat → LRes) (s : State) : Prop :=
  let on := laneOn f.ty (mReg f.mask s)
  let res := fun k => lane ((heads (vSrc f n) s).map (laneOf (tyWidth f.ty) k))
  ∃ v : BitVec 1024, (∀ k, k < laneCount f.ty → laneOf (tyWidth f.ty) k v = if on k then (res k).1 % 2 ^ tyWidth f.ty else 0) ∧
    exec i s = .next (vectorAnswers i (vSrc f n) f.dst v
      ((List.range (laneCount f.ty)).foldl (fun fl k => if on k then fl ||| (res k).2 else fl) 0) bound s)

/-- Lanes are computed from numbers of the lane's width alone. -/
theorem LanesAnswer.congr {i : Instr} {f : VF} {n bound : Nat} {lane lane' : List Nat → LRes} {s : State}
    (h : ∀ xs, (∀ x ∈ xs, x < 2 ^ tyWidth f.ty) → lane xs = lane' xs) (ha : LanesAnswer i f n bound lane s) :
    LanesAnswer i f n bound lane' s := by
  have hres : ∀ k, lane ((heads (vSrc f n) s).map (laneOf (tyWidth f.ty) k)) =
      lane' ((heads (vSrc f n) s).map (laneOf (tyWidth f.ty) k)) := by
    refine fun k => h _ fun x hx => ?_
    obtain ⟨e, -, rfl⟩ := List.mem_map.mp hx
    exact Nat.mod_lt _ (by positivity)
  simpa only [LanesAnswer, hres] using ha

theorem vectorLanes_quiet {f : VF} {n bound : Nat} {lane : List Nat → LRes} {s : State} (hq : quiet s = true) :
    vectorLanes f n bound lane s =
      let r := maskLanes f.ty (mReg f.mask s)
        ((List.range (laneCount f.ty)).map (fun k => lane ((heads (vSrc f n) s).map (laneOf (tyWidth f.ty) k))))
      if sourcesReady (vSrc f n) s then vectorPush f n bound r.1 r.2 (headsTag (vSrc f n) s) s else .trapOf .queueUnderflow := by
  rw [vectorLanes, needSources_quiet hq, readM_quiet hq]

theorem Pushing.exec_vectorLanes {i : Instr} {f : VF} {n bound : Nat} {lane : List Nat → LRes} {s : State} (hi : Pushing i f n)
    (hq : quiet s = true) (hl : lone i s = true) (hb : 1 < bound)
    (hr : slotRes (s.nextPc [i]) none i s = vectorLanes f n bound lane s) : LanesAnswer i f n bound lane s := by
  refine ⟨_, fun k hk => maskLanes_lane _ _ _ hk, ?_⟩
  rw [← maskLanes_flags]
  exact hi.exec_vectorPush hq hl hb (hr.trans (vectorLanes_quiet hq))

/-- Logic and shifts (R200). -/
theorem Pushing.exec_bitLane2 {i : Instr} {f : VF} {op : Nat → BitVec 64 → BitVec 64 → BitVec 64} {s : State} (hi : Pushing i f 2)
    (hq : quiet s = true) (hl : lone i s = true) (hr : slotRes (s.nextPc [i]) none i s = bitLane2 f op s) :
    LanesAnswer i f 2 3 (fun x => ((op (tyWidth f.ty) (BitVec.ofNat 64 (x.getD 0 0)) (BitVec.ofNat 64 (x.getD 1 0))).toNat %
      2 ^ tyWidth f.ty, 0)) s :=
  hi.exec_vectorLanes hq hl (by decide) hr

/-- `vabs` and `vneg`: class F changes its sign bit alone. -/
theorem Pushing.exec_signLane {i : Instr} {f : VF} {g : Bool → Bool} {lane : List Nat → LRes} {s : State} (hi : Pushing i f 1)
    (hq : quiet s = true) (hl : lone i s = true)
    (hr : slotRes (s.nextPc [i]) none i s = vectorLanes f 1 3 (if tyFloat f.ty then signLane f.ty g else lane) s) :
    LanesAnswer i f 1 3 (if tyFloat f.ty then fun x => (x.getD 0 0 % 2 ^ (tyWidth f.ty - 1) +
      (if g ((x.getD 0 0).testBit (tyWidth f.ty - 1)) then 2 ^ (tyWidth f.ty - 1) else 0), 0) else lane) s := by
  refine (hi.exec_vectorLanes hq hl (by decide) hr).congr fun xs hx => ?_
  by_cases h : tyFloat f.ty = true
  · rw [if_pos h, if_pos h, signLane_eq h g hx]
  · rw [if_neg h, if_neg h]

/-! ## The speculative division (R198) -/

/-- The entry and the flags of a division. -/
def vdivResult (f : VF) (s : State) : BitVec 1024 × Flags :=
  maskLanes f.ty (mReg f.mask s) ((List.range (laneCount f.ty)).map (fun k =>
    computeLane s.cur.sys.fmt f.ty false (fun _ => 0) (fun F m x => fDiv F m (nthF x 0) (nthF x 1))
      ((heads (vSrc f 2) s).map (laneOf (tyWidth f.ty) k))))

theorem slotVdiv_quiet {f : VF} {s : State} (hq : quiet s = true) : slotVdiv f s =
    if sourcesReady (vSrc f 2) s then
      (if f.modf.getLsbD 6 && !headsTag (vSrc f 2) s && flagsTrap s.fmt (vdivResult f s).2 then
        vectorPush f 2 14 (Config.freeEntry (s.freeIdx (keyV + 7))) 0 true s
      else vectorPush f 2 14 (vdivResult f s).1 (vdivResult f s).2 (headsTag (vSrc f 2) s) s)
    else .trapOf .queueUnderflow := by
  rw [slotVdiv, needSources_quiet hq, readM_quiet hq]
  rfl

theorem slotVdiv_plain {f : VF} (s : State) (h : f.modf.getLsbD 6 = false) :
    slotVdiv f s = vectorLanes f 2 14 (floatLane s f.ty (fun F m x => fDiv F m (nthF x 0) (nthF x 1))) s := by
  simp only [slotVdiv, vectorLanes, h, Bool.false_and, Bool.false_eq_true, if_false]

/-- Where the plain form would trap, the speculative one pushes a poisoned entry; else it answers as the plain form. -/
theorem exec_vdiv_speculative {f : VF} {s : State} (hq : quiet s = true) (hl : lone (.vdiv f) s = true)
    (hsp : f.modf.getLsbD 6 = true) (hs : sourcesReady (vSrc f 2) s = true) :
    let trapping := headsTag (vSrc f 2) s = false ∧ enabledFlags (vdivResult f s).2 s ≠ 0
    (trapping → roomIn f.dst (vSrc f 2) s = true →
      ∃ v, exec (.vdiv f) s = .next (pushes (.vdiv f) (vSrc f 2) f.dst v true 0 14 s)) ∧
    (¬trapping → exec (.vdiv f) s =
      .next (vectorAnswers (.vdiv f) (vSrc f 2) f.dst (vdivResult f s).1 (vdivResult f s).2 14 s)) := by
  intro trapping
  have hi : Pushing (.vdiv f) f 2 := {}
  have hr := (slot_vdiv (s.nextPc [.vdiv f]) none f s).trans (slotVdiv_quiet hq)
  have hcond : (f.modf.getLsbD 6 && !headsTag (vSrc f 2) s && flagsTrap s.fmt (vdivResult f s).2) = true ↔ trapping := by
    rw [hsp, Bool.true_and, Bool.and_eq_true, Bool.not_eq_true', flagsTrap_iff]
  refine ⟨fun ht hroom => ⟨Config.freeEntry (s.freeIdx (keyV + 7)), ?_⟩, fun ht => ?_⟩
  · rw [if_pos hs, if_pos (hcond.mpr ht), vectorPush_poison] at hr
    rw [hi.exec_commitsPush hq hl (by decide) hr, if_neg (by simp [hroom])]
  · rw [if_neg (mt hcond.mp ht)] at hr
    exact hi.exec_vectorPush hq hl (by decide) hr

/-! ## The statement -/

/-- Settles O11: each lane of each elementwise instruction, its mask and its flags, and the speculative division. -/
theorem vectorLanesAndElementwiseResults : Obligations.VectorLanesAndElementwiseResults := by
  refine ⟨fun fmt ty sat ex fl xs => ?_, fun f s hq => ?_, fun f s hq hl hsp hs => exec_vdiv_speculative hq hl hsp hs⟩
  · refine ⟨fun h hs => ?_, fun h hs => ?_, fun h hn => ?_, fun h hn => ?_, fun h => computeLane_float fmt sat ex fl xs h⟩
    · subst hs
      exact computeLane_int fmt false ex fl xs h
    · subst hs
      exact computeLane_int fmt true ex fl xs h
    · exact computeLane_nav fmt sat ex fl xs ((tyRes_iff ty).mpr h) hn
    · exact computeLane_clamped fmt sat ex fl xs ((tyRes_iff ty).mpr h) hn
  · refine ⟨fun hl => ?vadd, fun hl => ?vsub, fun hl => ?vmul, fun hl => ?vfma, fun hl => ?vfms, fun hl => ?vmin,
      fun hl => ?vmax, fun hl => ?vclamp, fun hl => ?vabs, fun hl => ?vneg, fun hl => ?vsqrt, fun hl => ?vrsqrt,
      fun hl => ?vrcp, fun hl => ?vexp2, fun hl => ?vlog2, fun hl => ?vand, fun hl => ?vor, fun hl => ?vxor,
      fun hl => ?vnot, fun hl => ?vshl, fun hl => ?vshr, fun hl => ?vsar, fun hsp hl => ?vdiv⟩
    case vadd => exact (Pushing.exec_vectorLanes {} hq hl (by decide) (slot_vadd _ none f s) :)
    case vsub => exact (Pushing.exec_vectorLanes {} hq hl (by decide) (slot_vsub _ none f s) :)
    case vmul => exact (Pushing.exec_vectorLanes {} hq hl (by decide) (slot_vmul _ none f s) :)
    case vfma => exact (Pushing.exec_vectorLanes {} hq hl (by decide) (slot_vfma _ none f s) :)
    case vfms => exact (Pushing.exec_vectorLanes {} hq hl (by decide) (slot_vfms _ none f s) :)
    case vmin => exact (Pushing.exec_vectorLanes {} hq hl (by decide) (slot_vmin _ none f s) :)
    case vmax => exact (Pushing.exec_vectorLanes {} hq hl (by decide) (slot_vmax _ none f s) :)
    case vclamp => exact (Pushing.exec_vectorLanes {} hq hl (by decide) (slot_vclamp _ none f s) :)
    case vabs => exact (Pushing.exec_signLane {} hq hl (slot_vabs _ none f s) :)
    case vneg => exact (Pushing.exec_signLane {} hq hl (slot_vneg _ none f s) :)
    case vsqrt => exact (Pushing.exec_vectorLanes {} hq hl (by decide) (slot_vsqrt _ none f s) :)
    case vrsqrt => exact (Pushing.exec_vectorLanes {} hq hl (by decide) (slot_vrsqrt _ none f s) :)
    case vrcp => exact (Pushing.exec_vectorLanes {} hq hl (by decide) (slot_vrcp _ none f s) :)
    case vexp2 => exact (Pushing.exec_vectorLanes {} hq hl (by decide) (slot_vexp2 _ none f s) :)
    case vlog2 => exact (Pushing.exec_vectorLanes {} hq hl (by decide) (slot_vlog2 _ none f s) :)
    case vand => exact (Pushing.exec_bitLane2 {} hq hl (slot_vand _ none f s) :)
    case vor => exact (Pushing.exec_bitLane2 {} hq hl (slot_vor _ none f s) :)
    case vxor => exact (Pushing.exec_bitLane2 {} hq hl (slot_vxor _ none f s) :)
    case vnot => exact (Pushing.exec_vectorLanes {} hq hl (by decide) (slot_vnot _ none f s) :)
    case vshl => exact (Pushing.exec_bitLane2 {} hq hl (slot_vshl _ none f s) :)
    case vshr => exact (Pushing.exec_bitLane2 {} hq hl (slot_vshr _ none f s) :)
    case vsar => exact (Pushing.exec_bitLane2 {} hq hl (slot_vsar _ none f s) :)
    case vdiv => exact (Pushing.exec_vectorLanes {} hq hl (by decide) (slotVdiv_plain s hsp) :)

end Sys2Proof.Machine
end

section
/-! One beat of `macc` (spec/17_matrix.md R250, R253; spec/05_formats.md R68 to R72). -/
namespace Sys2Proof.Machine

/-! ## The issue of a lone beat -/

theorem quiet_arrayTaken {s : State} (hq : quiet s = true) : s.arrayTaken = false := by
  have h := quiet_parked hq
  simpa [parkedBeats, State.arrayTaken] using h

theorem needPlane_quiet {s : State} (hq : quiet s = true) (hf : s.core.fact = none) {i : BitVec 2} (hp : s.planeHeld i = false)
    (k : SlotRes) : needPlane i s k = k := by
  simp [needPlane, needArray, hf, quiet_arrayTaken hq, hp]

theorem beatOf_alone (f : MF) : beatOf f none 0 = f := by
  simp [beatOf, beatRow, beatAddr]

/-- The tile of a beat is in range, and so is its row (R250). -/
def maccFits (f : MF) (fmt : BitVec 32) : Prop := f.row.toNat < rowCount fmt ∧ f.caddr.toNat + tileUnits fmt ≤ 131072

theorem rowsOk_and_tilesOk_alone (f : MF) (fmt : BitVec 32) : (rowsOk f none fmt && tilesOk f none fmt) = true ↔ maccFits f fmt := by
  simp only [rowsOk, tilesOk, rptCount, List.range_one, List.all_cons, List.all_nil, Bool.and_true, Bool.and_eq_true,
    decide_eq_true_eq]
  simp only [beatRow, beatAddr, maccFits, Config.copeUnits]
  omega

section
variable {f : MF} {s : State} (hq : quiet s = true) (hf : s.core.fact = none) (hp : s.planeHeld f.plane = false)
  (ha : s.copeAwaited f.caddr.toNat (tileUnits s.fmt) = false) (hh : s.copeHeld f.caddr.toNat (tileUnits s.fmt) = false)
include hq hf hp ha hh

theorem slotMacc_alone : slotMacc f none s =
    if !(rowsOk f none s.fmt && tilesOk f none s.fmt) then .trapOf .operandValue
    else if !f.modf.getLsbD 0 && (s.plane f.plane).kind ≠ accKind s.fmt then .trapOf .operandValue
    else .ok (startBeats [{ instr := .macc f, fmt := s.fmt, entry := none }]) := by
  have hwait : (List.range (rptCount none)).any (fun i => s.copeAwaited (beatAddr f none i).toNat (tileUnits s.fmt) ||
      s.copeHeld (beatAddr f none i).toNat (tileUnits s.fmt)) = false := by
    simp [rptCount, beatAddr, ha, hh]
  rw [slotMacc, needPlane_quiet hq hf hp]
  simp only [hwait, Bool.false_eq_true, if_false, Bool.not_and]
  simp only [rptCount, List.range_one, List.map_cons, List.map_nil, beatOf_alone]
  rfl

end

/-! ## What a beat leaves -/

theorem setPlane_plain {s t : State} (h : PlainCommit s t) (i : BitVec 2) (p : Plane) : PlainCommit s (t.setPlane i p) := by
  obtain ⟨hids, hfact, hdelay, hbeats, hparked⟩ := h
  exact ⟨hids, hfact, hdelay, hbeats, hparked⟩

theorem setPlane_tick {i : Instr} {s : State} (hq : quiet s = true) (x : BitVec 2) (p : Plane) :
    ((moved i s).setPlane x p).tick = does i (State.setPlane x p) s := by
  have hland : (moved i s).cur.land (s.core.cycle + 1) = (moved i s).cur :=
    land_calm (c := (moved i s).cur) (quiet_pend (s := s) hq) (quiet_queue (s := s) hq) _
  change ((passed [i] s).setPlane x p).modCtx (fun _ => (moved i s).cur.land (s.core.cycle + 1)) = _
  rw [hland]
  rfl

/-- A lone ordinary instruction that pushes nothing and writes one plane. -/
theorem Ordinary.exec_setPlane {i : Instr} {s : State} {F : State → State} {x : BitVec 2} {p : Plane} (hi : Ordinary i)
    (hq : quiet s = true) (hl : lone i s = true) (hr : slotRes (s.nextPc [i]) none i s = .ok F)
    (hd : pushesOf (rptCount (rptOf [i])) i = []) (hF : F (moved i s) = (moved i s).setPlane x p) :
    exec i s = .next (does i (State.setPlane x p) s) := by
  have hplain : PlainCommit s (F (moved i s)) := by
    rw [hF]
    exact setPlane_plain (moved_plain hq) x p
  rw [exec_ok hq hl hr (overflows_none hd) (hi.serves s) hplain (by rw [hi.unordered, Bool.false_and]) (hi.issues s), hi.after, hF,
    setPlane_tick hq]

/-! ## The row that a beat writes -/

/-- The plane after one beat. -/
def maccPlane (f : MF) (fmt : BitVec 32) (s : State) : Plane := (doMacc f fmt s).plane f.plane

theorem setPlane_plane (x : BitVec 2) (p : Plane) (s : State) : (s.setPlane x p).plane x = p := by
  simp [State.setPlane, State.plane]

theorem doMacc_eq (f : MF) (fmt : BitVec 32) (s : State) : doMacc f fmt s = s.setPlane f.plane (maccPlane f fmt s) := by
  rw [maccPlane, doMacc, setPlane_plane]

theorem startBeats_alone {s : State} (hb : s.cur.flow.beats = []) (f : MF) (fmt : BitVec 32) :
    startBeats [{ instr := .macc f, fmt := fmt, entry := none }] s = s.setPlane f.plane (maccPlane f fmt s) := by
  have hflow : (s.setPlane f.plane (maccPlane f fmt s)).modFlow (fun w => { w with beats := [] }) =
      s.setPlane f.plane (maccPlane f fmt s) := by
    have : { s.cur.flow with beats := [] } = s.cur.flow := by rw [← hb]
    simp only [State.modFlow, State.modCtx, Ctx.modFlow, State.setPlane, State.modCore, this]
  rw [← hflow, ← doMacc_eq]
  rfl

theorem rowAt_setRow (p : Plane) (r x : Nat) (v : Row) : rowAt (setRow p r v) x = if x = r then v else rowAt p x :=
  smGet_smSet _ _ _ _ _

theorem openPlane_kind (fmt : BitVec 32) (ix : Nat) (p : Plane) : (openPlane fmt ix p).kind = accKind fmt := by
  unfold openPlane
  split
  · assumption
  · rfl

theorem openPlane_same {fmt : BitVec 32} {ix : Nat} {p : Plane} (h : p.kind = accKind fmt) : openPlane fmt ix p = p := if_pos h

section
variable (f : MF) (fmt : BitVec 32) (s : State)

/-- The plane that a beat finds. -/
def maccFound : Plane := openPlane fmt s.freeCount (s.plane f.plane)

theorem maccPlane_kind : (maccPlane f fmt s).kind = accKind fmt := by
  rw [maccPlane, doMacc, setPlane_plane]
  exact openPlane_kind _ _ _

theorem maccPlane_other {x : Nat} (h : x ≠ f.row.toNat) : rowAt (maccPlane f fmt s) x = rowAt (maccFound f fmt s) x := by
  rw [maccPlane, doMacc, setPlane_plane, rowAt_setRow, if_neg h]
  rfl

theorem maccPlane_poison : (rowAt (maccPlane f fmt s) f.row.toNat).poison =
    (tilePoison fmt f.caddr.toNat s || s.cur.arr.ePoison ||
      (!f.modf.getLsbD 0 && (rowAt (maccFound f fmt s) f.row.toNat).poison)) := by
  rw [maccPlane, doMacc, setPlane_plane, rowAt_setRow, if_pos rfl]
  rfl

theorem maccPlane_pair : (rowAt (maccPlane f fmt s) f.row.toNat).pair =
    maccPair fmt (f.modf.getLsbD 0) f.caddr.toNat (rowAt (maccFound f fmt s) f.row.toNat) s := by
  rw [maccPlane, doMacc, setPlane_plane, rowAt_setRow, if_pos rfl]
  rfl

variable {j : Nat} (hj : j < rowCount fmt)
include hj

/-- An element in the residue modes (R70). -/
theorem maccPlane_residue (h : fmtRes fmt = true) : elemAt (maccPlane f fmt s) f.row.toNat j =
    maccResidue fmt (f.modf.getLsbD 0) (f.modf.getLsbD 1) f.caddr.toNat j (elemAt (maccFound f fmt s) f.row.toNat j) s := by
  rw [elemAt, maccPlane, doMacc, setPlane_plane, rowAt_setRow, if_pos rfl]
  simp only [h, if_true, List.getD_eq_getElem?_getD, List.getElem?_map, List.getElem?_range hj, Option.map_some, Option.getD_some]
  rfl

/-- An element in the floating modes (R81). -/
theorem maccPlane_float (h : fmtRes fmt = false) : elemAt (maccPlane f fmt s) f.row.toNat j =
    (maccFloat fmt (f.modf.getLsbD 0) (f.modf.getLsbD 1) f.caddr.toNat j (elemAt (maccFound f fmt s) f.row.toNat j)
      (rowAt (maccFound f fmt s) f.row.toNat).sums[j]? s).1 := by
  rw [elemAt, maccPlane, doMacc, setPlane_plane, rowAt_setRow, if_pos rfl]
  simp only [h, Bool.false_eq_true, if_false, List.map_map, List.getD_eq_getElem?_getD, List.getElem?_map, List.getElem?_range hj,
    Option.map_some, Option.getD_some]
  rfl

end

/-! ## Residue arithmetic -/

theorem foldl_add_filter {α : Type} (p : α → Bool) (h : α → Int) (l : List α) (a : Int) :
    (l.filter p).foldl (fun a x => a + h x) a = a + (l.map (fun x => if p x then h x else 0)).sum := by
  induction l generalizing a with
  | nil => simp
  | cons x r ih =>
    by_cases hx : p x = true
    · simp [hx, ih, Int.add_assoc]
    · simp [hx, ih]

/-- The code of NaV, as the statement writes it. -/
theorem navCode_eq (w : Nat) : navCode w = -((2 ^ (w - 1) : Nat) : Int) := by
  rw [navCode]
  push_cast
  rfl

section
variable (fmt : BitVec 32) (c j : Nat) (s : State)

/-- Factor k of E and of column j of the tile. -/
def maccE (k : Nat) : Int := signedOf (eWidth fmt) (eElem fmt k s)
def maccB (k : Nat) : Int := signedOf (eWidth fmt) (tileElem fmt c k j s)

/-- The product of the factors k, 0 where one of them is NaV (R68). -/
def maccTerm (k : Nat) : Int :=
  if maccE fmt s k = navCode (eWidth fmt) ∨ maccB fmt c j s k = navCode (eWidth fmt) then 0 else maccE fmt s k * maccB fmt c j s k

/-- The sum of the products, with the sign of the beat. -/
def maccSum (neg : Bool) : Int := (if neg then -1 else 1) * ((List.range (eCount fmt)).map (maccTerm fmt c j s)).sum

theorem maccResidue_eq (first neg : Bool) (x y z : BitVec 8) (n : Bool) (t : BitVec 20) :
    maccResidue fmt first neg c j (.res x y z n t) s = .res
      (BitVec.ofInt 8 (((if first then 0 else (x.toNat : Int)) + maccSum fmt c j s neg) % 253))
      (BitVec.ofInt 8 (((if first then 0 else (y.toNat : Int)) + maccSum fmt c j s neg) % 255))
      (BitVec.ofInt 8 (((if first then 0 else (z.toNat : Int)) + maccSum fmt c j s neg) % 256))
      ((!first && n) || (List.range (eCount fmt)).any (fun k =>
        maccE fmt s k = navCode (eWidth fmt) ∨ maccB fmt c j s k = navCode (eWidth fmt)))
      (BitVec.ofNat 20 (min ((if first then 0 else t.toNat) + eCount fmt) 1048575)) := by
  have hterm : ∀ k, (if maccE fmt s k != navCode (eWidth fmt) && maccB fmt c j s k != navCode (eWidth fmt) then
      maccE fmt s k * maccB fmt c j s k else 0) = maccTerm fmt c j s k := by
    intro k
    unfold maccTerm
    by_cases h1 : maccE fmt s k = navCode (eWidth fmt) <;> by_cases h2 : maccB fmt c j s k = navCode (eWidth fmt) <;> simp [h1, h2]
  have hsum : (((List.range (eCount fmt)).map (fun k => (maccE fmt s k, maccB fmt c j s k))).filter (fun p =>
      p.1 != navCode (eWidth fmt) && p.2 != navCode (eWidth fmt))).foldl (fun a p => a + p.1 * p.2) (0 : Int) =
      ((List.range (eCount fmt)).map (maccTerm fmt c j s)).sum := by
    rw [foldl_add_filter, Int.zero_add, List.map_map]
    simp only [Function.comp_def, hterm]
  have hany : ((List.range (eCount fmt)).map (fun k => (maccE fmt s k, maccB fmt c j s k))).any (fun p =>
      p.1 == navCode (eWidth fmt) || p.2 == navCode (eWidth fmt)) = (List.range (eCount fmt)).any (fun k =>
        maccE fmt s k = navCode (eWidth fmt) ∨ maccB fmt c j s k = navCode (eWidth fmt)) := by
    simp only [List.any_map, Function.comp_def, Bool.decide_or, beq_eq_decide]
  simp only [← hany, maccSum, ← hsum]
  cases first <;> cases neg <;> simp only [Int.one_mul, Int.neg_mul, if_true, Bool.false_eq_true, if_false] <;> rfl

end

/-- The three residues determine an integer of the range (R72). -/
theorem reconstruct_residues {x : Int} (hlo : -8257920 ≤ x) (hhi : x < 8257920) :
    reconstruct (BitVec.ofInt 8 (x % 253)) (BitVec.ofInt 8 (x % 255)) (BitVec.ofInt 8 (x % 256)) = x := by
  have hnat : ∀ m : Int, 0 < m → m ≤ 256 → ((BitVec.ofInt 8 (x % m)).toNat : Int) = x % m := by
    intro m h0 hm
    have hr0 := Int.emod_nonneg x h0.ne'
    have hr := Int.emod_lt_of_pos x h0
    rw [BitVec.toNat_ofInt, Int.toNat_of_nonneg (Int.emod_nonneg _ (by decide))]
    exact Int.emod_eq_of_lt hr0 (by omega)
  have ha := hnat 253 (by decide) (by decide)
  have hb := hnat 255 (by decide) (by decide)
  have hd := hnat 256 (by decide) (by decide)
  unfold reconstruct
  generalize (BitVec.ofInt 8 (x % 253)).toNat = a at *
  generalize (BitVec.ofInt 8 (x % 255)).toNat = b at *
  generalize (BitVec.ofInt 8 (x % 256)).toNat = d at *
  dsimp only
  split <;> omega

/-! ## The statement -/

/-- A beat of the plane's KIND finds the plane as it was before the bundle. -/
theorem maccFound_moved {f : MF} {i : Instr} {s : State} (h : (s.plane f.plane).kind = accKind s.fmt) :
    maccFound f s.fmt (moved i s) = s.plane f.plane := openPlane_same h

/-- The scale pair after a beat in the residue modes. -/
theorem maccPair_eq {fmt : BitVec 32} (h : fmtRes fmt = true) (first : Bool) (c : Nat) (r : Row) (s : State) :
    maccPair fmt first c r s = if first = true ∨ r.pair = none then some (s.cur.arr.es, copeScaleAt (c / 128) s) else r.pair := by
  unfold maccPair
  simp only [h, Bool.not_true, Bool.false_eq_true, if_false, Bool.or_eq_true, Option.isNone_iff_eq_none]

section
variable {f : MF} {s : State} (hq : quiet s = true) (hf : s.core.fact = none) (hl : lone (.macc f) s = true)
  (hp : s.planeHeld f.plane = false) (ha : s.copeAwaited f.caddr.toNat (tileUnits s.fmt) = false)
  (hh : s.copeHeld f.caddr.toNat (tileUnits s.fmt) = false)
include hq hf hl hp ha hh

theorem exec_macc_outside (h : ¬ maccFits f s.fmt) : exec (.macc f) s = .next (traps (.macc f) .operandValue 0 0 s) := by
  refine Ordinary.exec_trap {} hq hl ?_ (by decide)
  rw [slot_macc, slotMacc_alone hq hf hp ha hh, if_pos]
  · rfl
  · rw [Bool.not_eq_true', Bool.eq_false_iff]
    exact mt (rowsOk_and_tilesOk_alone f s.fmt).mp h

theorem exec_macc_kind (h : maccFits f s.fmt) (h1 : f.modf.getLsbD 0 = false) (hk : (s.plane f.plane).kind ≠ accKind s.fmt) :
    exec (.macc f) s = .next (traps (.macc f) .operandValue 0 0 s) := by
  refine Ordinary.exec_trap {} hq hl ?_ (by decide)
  rw [slot_macc, slotMacc_alone hq hf hp ha hh, (rowsOk_and_tilesOk_alone f s.fmt).mpr h, if_neg (by decide), h1, if_pos]
  · rfl
  · simpa using hk

theorem exec_macc_beat (h : maccFits f s.fmt) (hk : f.modf.getLsbD 0 = true ∨ (s.plane f.plane).kind = accKind s.fmt) :
    exec (.macc f) s = .next (does (.macc f) (State.setPlane f.plane (maccPlane f s.fmt (moved (.macc f) s))) s) := by
  refine Ordinary.exec_setPlane {} hq hl ?_ rfl (startBeats_alone (by simp [advanceFlow, quiet_beats hq]) f s.fmt)
  rw [slot_macc, slotMacc_alone hq hf hp ha hh, (rowsOk_and_tilesOk_alone f s.fmt).mpr h, if_neg (by decide), if_neg]
  rcases hk with hk | hk <;> simp [hk]

end

/-- Settles O24: the checks of a beat, the row that it writes, and the integer that three residues determine. -/
theorem multiplyAccumulateBeats : Obligations.MultiplyAccumulateBeats := by
  refine ⟨fun f s hq hf hl hp ha hh => ?_, fun x hlo hhi => reconstruct_residues hlo hhi⟩
  refine ⟨exec_macc_outside hq hf hl hp ha hh, exec_macc_kind hq hf hl hp ha hh, fun h hk =>
    ⟨_, exec_macc_beat hq hf hl hp ha hh h hk, maccPlane_kind .., fun hsame x hx => ?_, ?_, fun hr hsame => ⟨?_, ?_⟩,
      fun hr hsame j hj => ?_⟩⟩
  · rw [maccPlane_other f _ _ hx, maccFound_moved hsame]
    rfl
  · rw [maccPlane_poison]
    rcases hk with hk | hk
    · rw [hk]
      rfl
    · rw [maccFound_moved hk]
      rfl
  · rw [maccPlane_pair, maccFound_moved hsame, maccPair_eq (fmt := s.fmt) hr]
    rfl
  · intro j hj x y z n t hold
    rw [maccPlane_residue f s.fmt _ hj hr, maccFound_moved hsame]
    rw [show elemAt (s.plane f.plane) f.row.toNat j = .res x y z n t from hold, maccResidue_eq]
    simp only [← navCode_eq]
    rfl
  · rw [maccPlane_float f s.fmt _ hj hr, maccFound_moved hsame]
    rfl

end Sys2Proof.Machine
end

section
/-! The machine right after reset. -/
namespace Sys2Proof.Machine

/-- Every core is a core at reset, the one in focus and those that are not listed. -/
theorem coreAt_reset (id : BitVec 6) : coreAt id State.reset = Core.reset id := by
  by_cases h : id = 0
  · subst h; rfl
  · exact if_neg h

theorem clusterAt_reset (id : BitVec 3) : clusterAt id State.reset = Cluster.reset id := by
  by_cases h : id = 0
  · subst h; rfl
  · exact if_neg h

/-- So is every context, in focus or parked. -/
theorem ctxAt_reset (id : CtxId) : ctxAt id State.reset = Ctx.reset := by
  unfold ctxAt
  split
  · rfl
  · rw [coreAt_reset]
    rfl

/-- All leaves of every tree of a core at reset are 0 (spec/19_trees_regions.md R273). -/
theorem leafOf_reset (id : BitVec 6) (t : Fin 8) (i : Nat) : leafOf (Core.reset id).trees[t] i = 0 := by
  have h : (Core.reset id).trees[t] = [] := by simp [Core.reset]
  rw [h]
  rfl

/-- Settles O59: the contexts, cores and clusters at reset, and the die and the package as `State.reset` lists them. -/
theorem resetState : Obligations.ResetState := by
  refine ⟨fun c => ?_, fun k => ?_, fun k => ?_, rfl, rfl, rfl, rfl, rfl, rfl, rfl, rfl, ?_⟩
  · rw [ctxAt_reset]
    exact ⟨rfl, rfl, rfl, rfl, rfl⟩
  · rw [coreAt_reset]
    exact ⟨rfl, rfl, leafOf_reset k⟩
  · rw [clusterAt_reset]
    exact ⟨rfl, rfl, rfl⟩
  · obtain ⟨hhbm, htier2, hsp, hcope⟩ := reset_memories_wf
    simp only [storesWf, hhbm, htier2, hsp, hcope]
    rfl

end Sys2Proof.Machine
end

section
/-! Work on a plane as a matrix of 32 by 32 elements (spec/17_matrix.md R260): entries after a write and after a loop of writes. -/
namespace Sys2Proof.Machine

/-! ## Entries after one write -/

theorem put_size (p : Mat) (i c : Nat) (v : BitVec 64) : (p.put i c v).size = p.size := by simp [Mat.put]

theorem at_put {p : Mat} (hp : p.size = 1024) {i c a b : Nat} (hi : i < 32) (hc : c < 32) (hb : b < 32) (v : BitVec 64) :
    (p.put i c v).at a b = if a = i ∧ b = c then v else p.at a b := by
  simp only [Mat.at, Mat.put, Array.getD_eq_getD_getElem?, Array.getElem?_setIfInBounds]
  by_cases h : a = i ∧ b = c
  · obtain ⟨rfl, rfl⟩ := h
    rw [if_pos rfl, if_pos (by omega), if_pos ⟨rfl, rfl⟩]
    rfl
  · rw [if_neg h, if_neg (by omega)]

/-! ## Entries after a loop of writes -/

/-- `v` is `w` with the entries of `S` rewritten to `g`, and with nothing else changed but the flags raised. -/
structure Rewrites (S : Nat → Nat → Prop) (g : Nat → Nat → BitVec 64) (w v : Fwork) : Prop where
  arr : v.arr = w.arr
  t : v.t = w.t
  size : v.p.size = w.p.size
  wrote : ∀ i c, i < 32 → c < 32 → S i c → v.p.at i c = g i c
  kept : ∀ i c, i < 32 → c < 32 → ¬ S i c → v.p.at i c = w.p.at i c

/-- The entries that a loop leaves alone before its step at `x`. -/
def Untouched (L : List (Nat × Nat)) (x : Nat × Nat) (w v : Fwork) : Prop :=
  ∀ a b, a < 32 → b < 32 → (a, b) = x ∨ (a, b) ∉ L → v.p.at a b = w.p.at a b

/-- A loop over distinct entries, each written once with a value computed from itself and from entries outside the loop. -/
theorem rewrites_foldl {L : List (Nat × Nat)} {g : Nat → Nat → BitVec 64} {w : Fwork} {val : Fwork → Nat × Nat → FRes}
    (hw : w.p.size = 1024) (hL : L.Nodup) (hin : ∀ x ∈ L, x.1 < 32 ∧ x.2 < 32)
    (hval : ∀ x ∈ L, ∀ v, Untouched L x w v → (val v x).1 = g x.1 x.2) :
    Rewrites (fun i c => (i, c) ∈ L) g w (L.foldl (fun v x => v.set x.1 x.2 (val v x)) w) := by
  suffices h : ∀ P : List (Nat × Nat), P.Nodup → P ⊆ L →
      Rewrites (fun i c => (i, c) ∈ P) g w (P.foldl (fun v x => v.set x.1 x.2 (val v x)) w) from h L hL (List.Subset.refl L)
  intro P
  induction P using List.reverseRecOn with
  | nil => exact fun _ _ => ⟨rfl, rfl, rfl, fun _ _ _ _ h => absurd h (by simp), fun _ _ _ _ _ => rfl⟩
  | append_singleton P x ih =>
    intro hnodup hsub
    have hx : x ∈ L := hsub (by simp)
    obtain ⟨hx1, hx2⟩ := hin x hx
    have hfresh : x ∉ P := fun h => (List.nodup_append.mp hnodup).2.2 x h x (by simp) rfl
    obtain ⟨harr, ht, hsize, hwrote, hkept⟩ := ih (List.nodup_append.mp hnodup).1 (fun y hy => hsub (by simp [hy]))
    rw [List.foldl_append, List.foldl_cons, List.foldl_nil]
    generalize P.foldl (fun v x => v.set x.1 x.2 (val v x)) w = v at *
    have hv : (val v x).1 = g x.1 x.2 := by
      refine hval x hx v fun a b ha hb hab => hkept a b ha hb fun hmem => ?_
      rcases hab with rfl | hab
      · exact hfresh hmem
      · exact hab (hsub (by simp [hmem]))
    have hat : ∀ a b, b < 32 → (v.set x.1 x.2 (val v x)).p.at a b = if a = x.1 ∧ b = x.2 then g x.1 x.2 else v.p.at a b := by
      intro a b hb
      rw [← hv]
      exact at_put (hsize.trans hw) hx1 hx2 hb _
    refine ⟨harr, ht, (put_size ..).trans hsize, fun a b ha hb hab => ?_, fun a b ha hb hab => ?_⟩
    · rw [hat a b hb]
      split
      · next h => rw [h.1, h.2]
      · next h =>
        refine hwrote a b ha hb ?_
        rcases List.mem_append.mp hab with hab | hab
        · exact hab
        · exact absurd (Prod.ext_iff.mp (List.mem_singleton.mp hab)) h
    · rw [hat a b hb, if_neg (fun h => hab (by simp [h.1, h.2]))]
      exact hkept a b ha hb fun h => hab (by simp [h])

/-! ## Loops over rows and columns -/

/-- The indices of `upFrom a`. -/
def above (a : Nat) : List Nat := (List.range (32 - a)).map (a + ·)

theorem mem_above {a i : Nat} : i ∈ above a ↔ a ≤ i ∧ i < 32 := by
  simp only [above, List.mem_map, List.mem_range]
  exact ⟨fun ⟨x, hx, h⟩ => by omega, fun h => ⟨i - a, by omega, by omega⟩⟩

theorem nodup_above (a : Nat) : (above a).Nodup := List.nodup_range.map fun _ _ h => Nat.add_left_cancel h

theorem upFrom_eq (a : Nat) (f : Fwork → Nat → Fwork) (w : Fwork) : upFrom a f w = (above a).foldl f w := by
  rw [upFrom, above, List.foldl_map]

/-- Entries listed by an outer and an inner index, each pair of which names its own. -/
theorem nodup_positions {l : List Nat} {l' : Nat → List Nat} {pos : Nat → Nat → Nat × Nat} (hl : l.Nodup)
    (hl' : ∀ x, (l' x).Nodup) (hpos : ∀ x y x' y', pos x y = pos x' y' → x = x' ∧ y = y') :
    (l.flatMap (fun x => (l' x).map (pos x))).Nodup := by
  refine List.nodup_flatMap.mpr ⟨fun x _ => (hl' x).map fun y y' h => (hpos _ _ _ _ h).2, hl.imp fun {x x'} hne => ?_⟩
  intro p hp hp'
  obtain ⟨y, -, hy⟩ := List.mem_map.mp hp
  obtain ⟨y', -, hy'⟩ := List.mem_map.mp hp'
  exact hne (hpos _ _ _ _ (hy.trans hy'.symm)).1

/-- Two nested loops over distinct entries. -/
theorem rewrites_nested {l : List Nat} {l' : Nat → List Nat} {pos : Nat → Nat → Nat × Nat} {g : Nat → Nat → BitVec 64} {w : Fwork}
    {val : Fwork → Nat × Nat → FRes} (hw : w.p.size = 1024) (hl : l.Nodup) (hl' : ∀ x, (l' x).Nodup)
    (hpos : ∀ x y x' y', pos x y = pos x' y' → x = x' ∧ y = y')
    (hin : ∀ x ∈ l, ∀ y ∈ l' x, (pos x y).1 < 32 ∧ (pos x y).2 < 32)
    (hval : ∀ x ∈ l, ∀ y ∈ l' x, ∀ v, Untouched (l.flatMap (fun x => (l' x).map (pos x))) (pos x y) w v →
      (val v (pos x y)).1 = g (pos x y).1 (pos x y).2) :
    Rewrites (fun i c => (i, c) ∈ l.flatMap (fun x => (l' x).map (pos x))) g w
      (l.foldl (fun v x => (l' x).foldl (fun v y => v.set (pos x y).1 (pos x y).2 (val v (pos x y))) v) w) := by
  have hmem : ∀ p ∈ l.flatMap (fun x => (l' x).map (pos x)), ∃ x ∈ l, ∃ y ∈ l' x, pos x y = p := by
    intro p hp
    obtain ⟨x, hx, hp⟩ := List.mem_flatMap.mp hp
    obtain ⟨y, hy, hp⟩ := List.mem_map.mp hp
    exact ⟨x, hx, y, hy, hp⟩
  have h := rewrites_foldl (val := val) (g := g) hw (nodup_positions hl hl' hpos) (fun p hp => by
    obtain ⟨x, hx, y, hy, rfl⟩ := hmem p hp
    exact hin x hx y hy) (fun p hp v hv => by
    obtain ⟨x, hx, y, hy, rfl⟩ := hmem p hp
    exact hval x hx y hy v hv)
  simpa only [List.foldl_flatMap, List.foldl_map] using h

/-- One loop over distinct entries. -/
theorem rewrites_map {l : List Nat} {pos : Nat → Nat × Nat} {g : Nat → Nat → BitVec 64} {w : Fwork} {val : Fwork → Nat × Nat → FRes}
    (hw : w.p.size = 1024) (hl : l.Nodup) (hpos : Function.Injective pos) (hin : ∀ x ∈ l, (pos x).1 < 32 ∧ (pos x).2 < 32)
    (hval : ∀ x ∈ l, ∀ v, Untouched (l.map pos) (pos x) w v → (val v (pos x)).1 = g (pos x).1 (pos x).2) :
    Rewrites (fun i c => (i, c) ∈ l.map pos) g w (l.foldl (fun v x => v.set (pos x).1 (pos x).2 (val v (pos x))) w) := by
  have h := rewrites_foldl (val := val) (g := g) hw (hl.map hpos) (fun p hp => by
    obtain ⟨x, hx, rfl⟩ := List.mem_map.mp hp
    exact hin x hx) (fun p hp v hv => by
    obtain ⟨x, hx, rfl⟩ := List.mem_map.mp hp
    exact hval x hx v hv)
  simpa only [List.foldl_map] using h

/-- The same entries, named otherwise. -/
theorem Rewrites.congr {S S' : Nat → Nat → Prop} {g g' : Nat → Nat → BitVec 64} {w v : Fwork} (h : Rewrites S g w v)
    (hS : ∀ i c, i < 32 → c < 32 → (S' i c ↔ S i c)) (hg : ∀ i c, i < 32 → c < 32 → S i c → g' i c = g i c) :
    Rewrites S' g' w v := by
  obtain ⟨harr, ht, hsize, hwrote, hkept⟩ := h
  refine ⟨harr, ht, hsize, fun i c hi hc hs => ?_, fun i c hi hc hs => hkept i c hi hc (mt (hS i c hi hc).mpr hs)⟩
  rw [hg i c hi hc ((hS i c hi hc).mp hs)]
  exact hwrote i c hi hc ((hS i c hi hc).mp hs)

/-! ## The loops of the factorisations -/

/-- The column below the diagonal divided by the diagonal. -/
theorem rewrites_columnDivided {w : Fwork} (hw : w.p.size = 1024) {j : Nat} (hj : j < 32) :
    Rewrites (fun i c => c = j ∧ j < i) (fun i _ => (fDiv fp64 0 (w.p.at i j) (w.p.at j j)).1) w
      (upFrom (j + 1) (fun w i => w.set i j (fDiv fp64 0 (w.p.at i j) (w.p.at j j))) w) := by
  rw [upFrom_eq]
  have h := rewrites_map (l := above (j + 1)) (pos := fun i => (i, j)) (w := w)
    (val := fun v x => fDiv fp64 0 (v.p.at x.1 x.2) (v.p.at x.2 x.2)) (g := fun i _ => (fDiv fp64 0 (w.p.at i j) (w.p.at j j)).1)
    hw (nodup_above _) (fun _ _ h => (Prod.ext_iff.mp h).1) (fun x hx => ⟨(mem_above.mp hx).2, hj⟩) (fun x hx v hv => by
      have hx' := mem_above.mp hx
      rw [hv x j hx'.2 hj (.inl rfl), hv j j hj hj (.inr (by simp [mem_above]))])
  refine h.congr (fun i c hi _ => ?_) fun _ _ _ _ _ => rfl
  simp only [List.mem_map, mem_above, Prod.mk.injEq]
  constructor
  · rintro ⟨rfl, h⟩
    exact ⟨i, by omega, rfl, rfl⟩
  · rintro ⟨x, hx, rfl, rfl⟩
    omega

/-- The lower triangle behind column j, from its diagonal down, loses its products with column j. -/
theorem rewrites_triangleReduced {w : Fwork} (hw : w.p.size = 1024) {j : Nat} (hj : j < 32) :
    Rewrites (fun i c => j < c ∧ c ≤ i) (fun i c => (mulSub (w.p.at i c) (w.p.at i j) (w.p.at c j)).1) w
      (upFrom (j + 1) (fun w c => upFrom c (fun w i => w.set i c (mulSub (w.p.at i c) (w.p.at i j) (w.p.at c j))) w) w) := by
  simp only [upFrom_eq]
  have h := rewrites_nested (l := above (j + 1)) (l' := above) (pos := fun c i => (i, c)) (w := w)
    (val := fun v x => mulSub (v.p.at x.1 x.2) (v.p.at x.1 j) (v.p.at x.2 j))
    (g := fun i c => (mulSub (w.p.at i c) (w.p.at i j) (w.p.at c j)).1)
    hw (nodup_above _) nodup_above (fun _ _ _ _ h => (Prod.ext_iff.mp h).symm)
    (fun c hc i hi => ⟨(mem_above.mp hi).2, (mem_above.mp hc).2⟩) (fun c hc i hi v hv => by
      have hc' := (mem_above.mp hc).2
      have hi' := (mem_above.mp hi).2
      have hcol : ∀ a, (a, j) ∉ (above (j + 1)).flatMap (fun c => (above c).map (fun i => (i, c))) := by
        intro a
        simp [mem_above]
      rw [hv i c hi' hc' (.inl rfl), hv i j hi' hj (.inr (hcol i)), hv c j hc' hj (.inr (hcol c))])
  refine h.congr (fun i c hi hc => ?_) fun _ _ _ _ _ => rfl
  simp only [List.mem_flatMap, List.mem_map, mem_above, Prod.mk.injEq]
  constructor
  · rintro ⟨h1, h2⟩
    exact ⟨c, by omega, i, by omega, rfl, rfl⟩
  · rintro ⟨x, hx, y, hy, rfl, rfl⟩
    omega

/-- The square behind column and row j loses the products of the two. -/
theorem rewrites_squareReduced {w : Fwork} (hw : w.p.size = 1024) {j : Nat} (hj : j < 32) :
    Rewrites (fun i c => j < i ∧ j < c) (fun i c => (mulSub (w.p.at i c) (w.p.at i j) (w.p.at j c)).1) w
      (upFrom (j + 1) (fun w i => upFrom (j + 1) (fun w c =>
        w.set i c (mulSub (w.p.at i c) (w.p.at i j) (w.p.at j c))) w) w) := by
  simp only [upFrom_eq]
  have h := rewrites_nested (l := above (j + 1)) (l' := fun _ => above (j + 1)) (pos := fun i c => (i, c)) (w := w)
    (val := fun v x => mulSub (v.p.at x.1 x.2) (v.p.at x.1 j) (v.p.at j x.2))
    (g := fun i c => (mulSub (w.p.at i c) (w.p.at i j) (w.p.at j c)).1)
    hw (nodup_above _) (fun _ => nodup_above _) (fun _ _ _ _ h => Prod.ext_iff.mp h)
    (fun i hi c hc => ⟨(mem_above.mp hi).2, (mem_above.mp hc).2⟩) (fun i hi c hc v hv => by
      have hc' := (mem_above.mp hc).2
      have hi' := (mem_above.mp hi).2
      rw [hv i c hi' hc' (.inl rfl), hv i j hi' hj (.inr (by simp [mem_above])), hv j c hj hc' (.inr (by simp [mem_above]))])
  refine h.congr (fun i c hi hc => ?_) fun _ _ _ _ _ => rfl
  simp only [List.mem_flatMap, List.mem_map, mem_above, Prod.mk.injEq]
  constructor
  · rintro ⟨h1, h2⟩
    exact ⟨i, by omega, c, by omega, rfl, rfl⟩
  · rintro ⟨x, hx, y, hy, rfl, rfl⟩
    omega

/-- Row k divided. -/
theorem rewrites_rowDivided {w : Fwork} (hw : w.p.size = 1024) {k : Nat} (hk : k < 32) (d : BitVec 64) :
    Rewrites (fun i _ => i = k) (fun _ c => (fDiv fp64 0 (w.p.at k c) d).1) w
      (upFrom 0 (fun w c => w.set k c (fDiv fp64 0 (w.p.at k c) d)) w) := by
  rw [upFrom_eq]
  have h := rewrites_map (l := above 0) (pos := fun c => (k, c)) (w := w) (val := fun v x => fDiv fp64 0 (v.p.at x.1 x.2) d)
    (g := fun _ c => (fDiv fp64 0 (w.p.at k c) d).1) hw (nodup_above _) (fun _ _ h => (Prod.ext_iff.mp h).2)
    (fun c hc => ⟨hk, (mem_above.mp hc).2⟩) (fun c hc v hv => by rw [hv k c hk (mem_above.mp hc).2 (.inl rfl)])
  refine h.congr (fun i c _ hc => ?_) fun _ _ _ _ _ => rfl
  simp only [List.mem_map, mem_above, Prod.mk.injEq]
  constructor
  · rintro rfl
    exact ⟨c, by omega, rfl, rfl⟩
  · rintro ⟨x, hx, rfl, rfl⟩
    rfl

/-- Column k divided. -/
theorem rewrites_colDivided {w : Fwork} (hw : w.p.size = 1024) {k : Nat} (hk : k < 32) (d : BitVec 64) :
    Rewrites (fun _ c => c = k) (fun i _ => (fDiv fp64 0 (w.p.at i k) d).1) w
      (upFrom 0 (fun w i => w.set i k (fDiv fp64 0 (w.p.at i k) d)) w) := by
  rw [upFrom_eq]
  have h := rewrites_map (l := above 0) (pos := fun i => (i, k)) (w := w) (val := fun v x => fDiv fp64 0 (v.p.at x.1 x.2) d)
    (g := fun i _ => (fDiv fp64 0 (w.p.at i k) d).1) hw (nodup_above _) (fun _ _ h => (Prod.ext_iff.mp h).1)
    (fun i hi => ⟨(mem_above.mp hi).2, hk⟩) (fun i hi v hv => by rw [hv i k (mem_above.mp hi).2 hk (.inl rfl)])
  refine h.congr (fun i c hi _ => ?_) fun _ _ _ _ _ => rfl
  simp only [List.mem_map, mem_above, Prod.mk.injEq]
  constructor
  · rintro rfl
    exact ⟨i, by omega, rfl, rfl⟩
  · rintro ⟨x, hx, rfl, rfl⟩
    rfl

section
variable {w : Fwork} (hw : w.p.size = 1024) {k : Nat} (hk : k < 32) {l : List Nat} (hl : l.Nodup) (hin : ∀ m ∈ l, m < 32)
  (hne : k ∉ l) (d : Nat → BitVec 64)
include hw hk hl hin hne

/-- The rows `l` lose their multiples of row k. -/
theorem rewrites_rowsReduced : Rewrites (fun i _ => i ∈ l) (fun i c => (mulSub (w.p.at i c) (d i) (w.p.at k c)).1) w
    (l.foldl (fun w m => upFrom 0 (fun w c => w.set m c (mulSub (w.p.at m c) (d m) (w.p.at k c))) w) w) := by
  simp only [upFrom_eq]
  have h := rewrites_nested (l := l) (l' := fun _ => above 0) (pos := fun m c => (m, c)) (w := w)
    (val := fun v x => mulSub (v.p.at x.1 x.2) (d x.1) (v.p.at k x.2))
    (g := fun i c => (mulSub (w.p.at i c) (d i) (w.p.at k c)).1)
    hw hl (fun _ => nodup_above _) (fun _ _ _ _ h => Prod.ext_iff.mp h)
    (fun m hm c hc => ⟨hin m hm, (mem_above.mp hc).2⟩) (fun m hm c hc v hv => by
      have hc' := (mem_above.mp hc).2
      rw [hv m c (hin m hm) hc' (.inl rfl), hv k c hk hc' (.inr (by simp [hne]))])
  refine h.congr (fun i c _ hc => ?_) fun _ _ _ _ _ => rfl
  simp only [List.mem_flatMap, List.mem_map, mem_above, Prod.mk.injEq]
  constructor
  · exact fun h => ⟨i, h, c, by omega, rfl, rfl⟩
  · rintro ⟨x, hx, y, hy, rfl, rfl⟩
    exact hx

/-- The columns `l` lose their multiples of column k. -/
theorem rewrites_colsReduced : Rewrites (fun _ c => c ∈ l) (fun i c => (mulSub (w.p.at i c) (w.p.at i k) (d c)).1) w
    (l.foldl (fun w m => upFrom 0 (fun w i => w.set i m (mulSub (w.p.at i m) (w.p.at i k) (d m))) w) w) := by
  simp only [upFrom_eq]
  have h := rewrites_nested (l := l) (l' := fun _ => above 0) (pos := fun m i => (i, m)) (w := w)
    (val := fun v x => mulSub (v.p.at x.1 x.2) (v.p.at x.1 k) (d x.2))
    (g := fun i c => (mulSub (w.p.at i c) (w.p.at i k) (d c)).1)
    hw hl (fun _ => nodup_above _) (fun _ _ _ _ h => (Prod.ext_iff.mp h).symm)
    (fun m hm i hi => ⟨(mem_above.mp hi).2, hin m hm⟩) (fun m hm i hi v hv => by
      have hi' := (mem_above.mp hi).2
      rw [hv i m hi' (hin m hm) (.inl rfl), hv i k hi' hk (.inr (by simp [hne]))])
  refine h.congr (fun i c hi _ => ?_) fun _ _ _ _ _ => rfl
  simp only [List.mem_flatMap, List.mem_map, mem_above, Prod.mk.injEq]
  constructor
  · exact fun h => ⟨c, h, i, by omega, rfl, rfl⟩
  · rintro ⟨x, hx, y, hy, rfl, rfl⟩
    exact hx

end

end Sys2Proof.Machine
end

section
/-! The columns of `mfch` and `mflu` and the steps of `mtrs`, entry by entry (spec/17_matrix.md R265, R266, R268). -/
namespace Sys2Proof.Machine

/-! ## Tests of an element -/

/-- The magnitude of a pattern, from its exponent field and its fraction. -/
theorem magnitude_eq (n : Nat) : n % 2 ^ 63 = n / 2 ^ 52 % 2 ^ 11 * 2 ^ 52 + n % 2 ^ 52 := by omega

/-- What a pattern of FP64 is, by its magnitude: a NaN, an infinity or a number, which is zero where the magnitude is. -/
theorem unpackF_fp64_cases (x : BitVec 64) :
    (∃ q, unpackF fp64 x = .nan q ∧ 0x7FF0000000000000 < x.toNat % 2 ^ 63) ∨
    (unpackF fp64 x = .inf (x.getLsbD 63) ∧ x.toNat % 2 ^ 63 = 0x7FF0000000000000) ∨
    ∃ m e, unpackF fp64 x = .num (x.getLsbD 63) m e ∧ x.toNat % 2 ^ 63 < 0x7FF0000000000000 ∧ (m = 0 ↔ x.toNat % 2 ^ 63 = 0) := by
  have hex : x.toNat / 2 ^ 52 % 2 ^ 11 < 2 ^ 11 := Nat.mod_lt _ (by decide)
  have hfrac : x.toNat % 2 ^ 52 < 2 ^ 52 := Nat.mod_lt _ (by decide)
  have hunpack : unpackF fp64 x =
      if x.toNat / 2 ^ 52 % 2 ^ 11 = 2 ^ 11 - 1 then
        if x.toNat % 2 ^ 52 = 0 then .inf (x.getLsbD 63) else .nan (x.toNat % 2 ^ 52 < 2 ^ 51)
      else if x.toNat / 2 ^ 52 % 2 ^ 11 = 0 then .num (x.getLsbD 63) (x.toNat % 2 ^ 52) (fp64.emin - fp64.mw)
      else .num (x.getLsbD 63) (x.toNat % 2 ^ 52 + 2 ^ 52) ((x.toNat / 2 ^ 52 % 2 ^ 11 : Nat) - fp64.bias - fp64.mw) := rfl
  rw [magnitude_eq, hunpack]
  generalize x.toNat / 2 ^ 52 % 2 ^ 11 = ex at *
  generalize x.toNat % 2 ^ 52 = frac at *
  split
  · split
    · exact .inr (.inl ⟨rfl, by omega⟩)
    · exact .inl ⟨_, rfl, by omega⟩
  · split
    · exact .inr (.inr ⟨_, _, rfl, by omega, by omega⟩)
    · exact .inr (.inr ⟨_, _, rfl, by omega, by omega⟩)

theorem isNan64_iff (x : BitVec 64) : isNan64 x = true ↔ 0x7FF0000000000000 < x.toNat % 2 ^ 63 := by
  unfold isNan64
  obtain ⟨q, hx, h⟩ | ⟨hx, h⟩ | ⟨m, e, hx, h, -⟩ := unpackF_fp64_cases x
  all_goals
    simp only [hx, FVal.isNan, Bool.false_eq_true, false_iff, true_iff]
    omega

/-- Zero lies below a number as below its signed mantissa. -/
theorem ltV_zero_num (n : Bool) (m : Nat) (e : Int) : ltV (.num false 0 0) (.num n m e) = true ↔ m ≠ 0 ∧ n = false := by
  have hpos : (0 : Int) < 2 ^ (e - min 0 e).toNat := by positivity
  simp only [ltV, exactAdd, signed, decide_eq_true_eq, Bool.false_eq_true, if_false, Nat.cast_zero, zero_mul, zero_add, neg_mul,
    Int.neg_neg_iff_pos, mul_pos_iff_of_pos_right hpos]
  cases n
  · simp [Nat.pos_iff_ne_zero]
  · simp

/-- A pattern that is no NaN lies above zero where it is neither zero nor negative. -/
theorem positive_iff {x : BitVec 64} (hnan : isNan64 x = false) :
    ltV (.num false 0 0) (unpackF fp64 x) = true ↔ ¬ (x.toNat % 2 ^ 63 = 0 ∨ x.getLsbD 63 = true) := by
  have hmag := mt (isNan64_iff x).mpr (by simp [hnan])
  obtain ⟨q, -, h⟩ | ⟨hx, h⟩ | ⟨m, e, hx, -, h⟩ := unpackF_fp64_cases x
  · exact absurd h hmag
  · have hz : x.toNat % 2 ^ 63 ≠ 0 := by omega
    simp only [hx, ltV, Bool.not_eq_true', hz, false_or, Bool.not_eq_true]
  · rw [hx, ltV_zero_num, ne_eq, h, not_or, Bool.not_eq_true]

/-- The test for a zero pivot looks at the magnitude. -/
theorem mask_eq_zero_iff (x : BitVec 64) : x &&& 0x7FFFFFFFFFFFFFFF = 0 ↔ x.toNat % 2 ^ 63 = 0 := by
  rw [← BitVec.toNat_inj, BitVec.toNat_and]
  change x.toNat &&& (2 ^ 63 - 1) = 0 ↔ _
  rw [Nat.and_two_pow_sub_one_eq_mod]

/-- The rank of a pattern for the choice of a pivot, from its bits. -/
theorem pivotRank_eq (x : BitVec 64) :
    pivotRank x = if 0x7FF0000000000000 < x.toNat % 2 ^ 63 then 2 ^ 63 else x.toNat % 2 ^ 63 := by
  simp only [pivotRank, isNan64_iff]

/-! ## Pivot, exchange of rows and PVEC -/

/-- The pivot is the first of the largest among the rows from `j` down. -/
theorem pivotRow_spec (p : Mat) {j : Nat} (hj : j < 32) :
    j ≤ pivotRow p j ∧ pivotRow p j < 32 ∧ ∀ i, j ≤ i → i < 32 →
      pivotRank (p.at i j) ≤ pivotRank (p.at (pivotRow p j) j) ∧
      (i < pivotRow p j → pivotRank (p.at i j) < pivotRank (p.at (pivotRow p j) j)) := by
  unfold pivotRow
  generalize hrank : (fun i => pivotRank (p.at i j)) = rank
  have hr : ∀ i, pivotRank (p.at i j) = rank i := fun i => congrFun hrank i
  simp only [hr]
  suffices h : ∀ n, let b := (List.range n).foldl (fun b i => if rank b < rank (j + i) then j + i else b) j
      j ≤ b ∧ b ≤ j + n ∧ (b < j + n ∨ b = j) ∧ ∀ i, j ≤ i → i < j + n → rank i ≤ rank b ∧ (i < b → rank i < rank b) by
    obtain ⟨h1, -, h2, h3⟩ := h (32 - j)
    exact ⟨h1, by omega, fun i hji hi => h3 i hji (by omega)⟩
  intro n
  induction n with
  | zero => exact ⟨Nat.le_refl j, by simp, .inr rfl, fun i h1 h2 => absurd h1 (by omega)⟩
  | succ n ih =>
    rw [List.range_succ, List.foldl_append, List.foldl_cons, List.foldl_nil]
    generalize (List.range n).foldl (fun b i => if rank b < rank (j + i) then j + i else b) j = b at *
    obtain ⟨h1, h2, h3, h4⟩ := ih
    dsimp only
    split
    · next hlt =>
      refine ⟨by omega, by omega, .inl (by omega), fun i hji hi => ?_⟩
      rcases Nat.lt_or_ge i (j + n) with hin | hin
      · have := (h4 i hji hin).1
        exact ⟨by omega, fun _ => by omega⟩
      · obtain rfl : i = j + n := by omega
        exact ⟨Nat.le_refl _, fun h => absurd h (by omega)⟩
    · next hge =>
      refine ⟨h1, by omega, .inl (by omega), fun i hji hi => ?_⟩
      rcases Nat.lt_or_ge i (j + n) with hin | hin
      · exact h4 i hji hin
      · obtain rfl : i = j + n := by omega
        exact ⟨by omega, fun h => absurd h (by omega)⟩

/-- Row `i` after the exchange of rows `a` and `b`. -/
def swapped (a b i : Nat) : Nat := if i = a then b else if i = b then a else i

/-- The exchange of two rows, column by column. -/
theorem at_swapRows {p : Mat} (hp : p.size = 1024) {a b : Nat} (ha : a < 32) (hb : b < 32) :
    (swapRows p a b).size = 1024 ∧ ∀ i c, i < 32 → c < 32 → (swapRows p a b).at i c = p.at (swapped a b i) c := by
  unfold swapRows
  suffices h : ∀ n ≤ 32, let m := (List.range n).foldl (fun m c => (m.put a c (p.at b c)).put b c (p.at a c)) p
      m.size = 1024 ∧ ∀ i c, i < 32 → c < 32 → m.at i c = p.at (if c < n then swapped a b i else i) c by
    obtain ⟨h1, h2⟩ := h 32 (Nat.le_refl 32)
    exact ⟨h1, fun i c hi hc => by rw [h2 i c hi hc, if_pos hc]⟩
  intro n
  induction n with
  | zero => exact fun _ => ⟨hp, fun i c _ _ => by simp⟩
  | succ n ih =>
    intro hn
    rw [List.range_succ, List.foldl_append, List.foldl_cons, List.foldl_nil]
    obtain ⟨hsize, hat⟩ := ih (by omega)
    generalize (List.range n).foldl (fun m c => (m.put a c (p.at b c)).put b c (p.at a c)) p = m at *
    refine ⟨by rw [put_size, put_size, hsize], fun i c hi hc => ?_⟩
    rw [at_put (by rw [put_size, hsize]) hb (by omega) hc, at_put hsize ha (by omega) hc, hat i c hi hc]
    unfold swapped
    grind

/-- PVEC holds five bits for each column, of which one entry is written. -/
theorem setPvec_field (v : BitVec 160) {j r k : Nat} (hj : j < 32) (hr : r < 32) (hk : k < 32) :
    (setPvec v j r).toNat / 2 ^ (5 * k) % 32 = if k = j then r else v.toNat / 2 ^ (5 * k) % 32 := by
  refine Nat.eq_of_testBit_eq fun t => ?_
  have hfield : ∀ n : Nat, (n / 2 ^ (5 * k) % 32).testBit t = (decide (t < 5) && n.testBit (5 * k + t)) := by
    intro n
    rw [show 32 = 2 ^ 5 from rfl, Nat.testBit_mod_two_pow, Nat.testBit_div_two_pow]
    rw [Nat.add_comm]
  have hmask : ∀ m : Nat, (31 : Nat).testBit m = decide (m < 5) := fun m => Nat.testBit_two_pow_sub_one 5 m
  rw [apply_ite (fun n : Nat => n.testBit t), hfield, hfield, BitVec.testBit_toNat, BitVec.testBit_toNat, setPvec, Nat.mod_eq_of_lt hr]
  simp only [BitVec.getLsbD_or, BitVec.getLsbD_and, BitVec.getLsbD_not, BitVec.getLsbD_ofNat, Nat.testBit_mul_two_pow, hmask]
  have hhigh : ∀ m, 5 ≤ m → r.testBit m = false := fun m hm =>
    Nat.testBit_lt_two_pow (lt_of_lt_of_le hr (Nat.pow_le_pow_right (n := 2) (by decide) hm))
  by_cases ht : t < 5
  · have hwidth : 5 * k + t < 160 := by omega
    by_cases hkj : k = j
    · subst hkj
      simp [ht, hwidth]
    · have hother : ¬ 5 * j ≤ 5 * k + t ∨ 5 ≤ 5 * k + t - 5 * j := by omega
      rcases hother with h | h
      · simp [ht, hkj, hwidth, h]
      · simp [ht, hkj, hwidth, hhigh _ h, show ¬ 5 * k + t - 5 * j < 5 by omega]
  · simp [ht, hhigh t (by omega)]

/-! ## One column of `mfch` -/

/-- One entry written. -/
theorem rewrites_set {w : Fwork} (hw : w.p.size = 1024) {i c : Nat} (hi : i < 32) (hc : c < 32) (r : FRes) :
    Rewrites (fun a b => a = i ∧ b = c) (fun _ _ => r.1) w (w.set i c r) :=
  ⟨rfl, rfl, put_size .., fun _ _ _ hb h => (at_put hw hi hc hb _).trans (if_pos h),
    fun _ _ _ hb h => (at_put hw hi hc hb _).trans (if_neg h)⟩

/-- The part of a column of `mfch` behind its diagonal. -/
def cholReduced (j : Nat) (w : Fwork) : Fwork :=
  let w := upFrom (j + 1) (fun w i => w.set i j (fDiv fp64 0 (w.p.at i j) (w.p.at j j))) w
  upFrom (j + 1) (fun w c => upFrom c (fun w i => w.set i c (mulSub (w.p.at i c) (w.p.at i j) (w.p.at c j))) w) w

/-- What stops a column of `mfch` is a diagonal that is a NaN, a zero or negative. -/
theorem cholColumn_eq (j : Nat) (w : Fwork) :
    cholColumn j w =
      if 0x7FF0000000000000 < (w.p.at j j).toNat % 2 ^ 63 ∨ (w.p.at j j).toNat % 2 ^ 63 = 0 ∨ (w.p.at j j).getLsbD 63 = true
      then none else some (cholReduced j (w.set j j (fSqrt fp64 0 (w.p.at j j)))) := by
  refine if_congr ?_ rfl rfl
  rw [Bool.or_eq_true, Bool.not_eq_true', ← isNan64_iff]
  rcases hnan : isNan64 (w.p.at j j) with _ | _
  · rw [← Bool.not_eq_true, positive_iff hnan, not_not]
  · simp

/-- The entries of a column of `mfch`, its diagonal in place. -/
theorem cholReduced_entries {w : Fwork} (hw : w.p.size = 1024) {j : Nat} (hj : j < 32) :
    (cholReduced j w).arr = w.arr ∧
    (∀ i, j < i → i < 32 → (cholReduced j w).p.at i j = (fDiv fp64 0 (w.p.at i j) (w.p.at j j)).1) ∧
    (∀ i c, j < c → c ≤ i → i < 32 → (cholReduced j w).p.at i c =
      (mulSub (w.p.at i c) (fDiv fp64 0 (w.p.at i j) (w.p.at j j)).1 (fDiv fp64 0 (w.p.at c j) (w.p.at j j)).1).1) ∧
    ∀ i c, i < 32 → c < 32 → ¬ (c = j ∧ j < i) → ¬ (j < c ∧ c ≤ i) → (cholReduced j w).p.at i c = w.p.at i c := by
  unfold cholReduced
  have hdiv := rewrites_columnDivided hw hj
  generalize upFrom (j + 1) (fun w i => w.set i j (fDiv fp64 0 (w.p.at i j) (w.p.at j j))) w = u at hdiv ⊢
  have hsub := rewrites_triangleReduced (hdiv.size.trans hw) hj
  refine ⟨hsub.arr.trans hdiv.arr, fun i hji hi => ?_, fun i c hjc hci hi => ?_, fun i c hi hc hcol htri => ?_⟩
  · rw [hsub.kept i j hi hj (by omega), hdiv.wrote i j hi hj ⟨rfl, hji⟩]
  · have hc : c < 32 := by omega
    rw [hsub.wrote i c hi hc ⟨hjc, hci⟩, hdiv.kept i c hi hc (by omega), hdiv.wrote i j hi hj ⟨rfl, by omega⟩,
      hdiv.wrote c j hc hj ⟨rfl, hjc⟩]
  · rw [hsub.kept i c hi hc htri, hdiv.kept i c hi hc hcol]

/-! ## One column of `mflu` -/

/-- A column of `mflu` after the exchange of its rows, PVEC and UMAX written. -/
def luSwapped (j : Nat) (w : Fwork) : Fwork :=
  let r := pivotRow w.p j
  let w := { w with p := swapRows w.p j r, arr := { w.arr with pvec := setPvec w.arr.pvec j r } }
  { w with arr := { w.arr with umax := (List.range (32 - j)).foldl (fun m i => maxMag m (w.p.at j (j + i))) w.arr.umax } }

/-- The elimination of a column of `mflu`. -/
def luReduced (j : Nat) (w : Fwork) : Fwork :=
  let w := upFrom (j + 1) (fun w i => w.set i j (fDiv fp64 0 (w.p.at i j) (w.p.at j j))) w
  upFrom (j + 1) (fun w i => upFrom (j + 1) (fun w c =>
    w.set i c (mulSub (w.p.at i c) (w.p.at i j) (w.p.at j c))) w) w

theorem luColumn_eq (go trapped : Bool) (j : Nat) (w : Fwork) :
    luColumn go trapped j w =
      if (luSwapped j w).p.at j j &&& 0x7FFFFFFFFFFFFFFF = 0 then
        if !go || trapped then (luSwapped j w, true) else ({ luSwapped j w with flags := (luSwapped j w).flags ||| fZP }, false)
      else (luReduced j (luSwapped j w), false) := rfl

/-- A zero pivot leaves the exchanged rows, and stops unless the task goes on without a trap. -/
theorem luColumn_of_zero (go trapped : Bool) {j : Nat} {w : Fwork} (h : ((luSwapped j w).p.at j j).toNat % 2 ^ 63 = 0) :
    (luColumn go trapped j w).2 = (!go || trapped) ∧ (luColumn go trapped j w).1.p = (luSwapped j w).p ∧
      (luColumn go trapped j w).1.arr = (luSwapped j w).arr := by
  have hcol : luColumn go trapped j w =
      if !go || trapped then (luSwapped j w, true) else ({ luSwapped j w with flags := (luSwapped j w).flags ||| fZP }, false) := by
    rw [luColumn_eq, if_pos ((mask_eq_zero_iff _).mpr h)]
  rw [hcol]
  cases !go || trapped <;> simp

theorem luColumn_of_ne_zero (go trapped : Bool) {j : Nat} {w : Fwork} (h : ((luSwapped j w).p.at j j).toNat % 2 ^ 63 ≠ 0) :
    luColumn go trapped j w = (luReduced j (luSwapped j w), false) := by
  rw [luColumn_eq, if_neg (mt (mask_eq_zero_iff _).mp h)]

/-- The entries of a column of `mflu`, its pivot row in place. -/
theorem luReduced_entries {w : Fwork} (hw : w.p.size = 1024) {j : Nat} (hj : j < 32) :
    (luReduced j w).arr = w.arr ∧
    (∀ i, j < i → i < 32 → (luReduced j w).p.at i j = (fDiv fp64 0 (w.p.at i j) (w.p.at j j)).1) ∧
    (∀ i c, j < i → i < 32 → j < c → c < 32 → (luReduced j w).p.at i c =
      (mulSub (w.p.at i c) (fDiv fp64 0 (w.p.at i j) (w.p.at j j)).1 (w.p.at j c)).1) ∧
    ∀ i c, i < 32 → c < 32 → (i ≤ j ∨ c < j) → (luReduced j w).p.at i c = w.p.at i c := by
  unfold luReduced
  have hdiv := rewrites_columnDivided hw hj
  generalize upFrom (j + 1) (fun w i => w.set i j (fDiv fp64 0 (w.p.at i j) (w.p.at j j))) w = u at hdiv ⊢
  have hsub := rewrites_squareReduced (hdiv.size.trans hw) hj
  refine ⟨hsub.arr.trans hdiv.arr, fun i hji hi => ?_, fun i c hji hi hjc hc => ?_, fun i c hi hc hout => ?_⟩
  · rw [hsub.kept i j hi hj (by omega), hdiv.wrote i j hi hj ⟨rfl, hji⟩]
  · rw [hsub.wrote i c hi hc ⟨hji, hjc⟩, hdiv.kept i c hi hc (by omega), hdiv.wrote i j hi hj ⟨rfl, hji⟩,
      hdiv.kept j c hj hc (by omega)]
  · rw [hsub.kept i c hi hc (by omega), hdiv.kept i c hi hc (by omega)]

/-- The exchange of the rows: the plane and PVEC. -/
theorem luSwapped_entries {w : Fwork} (hw : w.p.size = 1024) {j : Nat} (hj : j < 32) :
    (luSwapped j w).p.size = 1024 ∧
    (∀ i c, i < 32 → c < 32 → (luSwapped j w).p.at i c = w.p.at (swapped j (pivotRow w.p j) i) c) ∧
    ∀ k, k < 32 → (luSwapped j w).arr.pvec.toNat / 2 ^ (5 * k) % 32 =
      if k = j then pivotRow w.p j else w.arr.pvec.toNat / 2 ^ (5 * k) % 32 := by
  have hr := (pivotRow_spec w.p hj).2.1
  obtain ⟨hsize, hat⟩ := at_swapRows hw hj hr
  dsimp only [luSwapped]
  exact ⟨hsize, hat, fun k hk => setPvec_field _ hj hr hk⟩

/-! ## One step of `mtrs` -/

theorem mem_mtrsAfter (f : MF) {k m : Nat} (hk : k < 32) :
    m ∈ mtrsAfter f k ↔ if mtrsUp f then k < m ∧ m < 32 else m < k := by
  unfold mtrsAfter
  split
  · simp only [List.mem_map, List.mem_range]
    exact ⟨fun ⟨x, hx, h⟩ => by omega, fun h => ⟨m - (k + 1), by omega, by omega⟩⟩
  · simp only [List.mem_map, List.mem_range]
    exact ⟨fun ⟨x, hx, h⟩ => by omega, fun h => ⟨k - 1 - m, by omega, by omega⟩⟩

theorem nodup_mtrsAfter (f : MF) (k : Nat) : (mtrsAfter f k).Nodup := by
  unfold mtrsAfter
  split
  · exact List.nodup_range.map fun _ _ h => Nat.add_left_cancel h
  · refine List.Nodup.map_on (fun x hx y hy h => ?_) List.nodup_range
    rw [List.mem_range] at hx hy
    omega

theorem lt_of_mem_mtrsAfter (f : MF) {k m : Nat} (hk : k < 32) (h : m ∈ mtrsAfter f k) : m < 32 ∧ m ≠ k := by
  rw [mem_mtrsAfter f hk] at h
  split at h <;> omega

/-- The element of the triangle at row `a` and column `b`. -/
def mtrsOp (f : MF) (w : Fwork) (a b : Nat) : BitVec 64 := if mtrsTrans f then w.t.at b a else w.t.at a b

/-- An element of the line of step k, divided by the diagonal. -/
def mtrsDiv (f : MF) (k : Nat) (w : Fwork) (x : BitVec 64) : BitVec 64 :=
  if mtrsUnit f then x else (fDiv fp64 0 x (mtrsOp f w k k)).1

/-- A step from the left: row k, then the rows after it. -/
theorem trsColumn_left {f : MF} {k : Nat} {w : Fwork} (hk : k < 32) (hw : w.p.size = 1024) (hright : mtrsRight f = false) :
    (trsColumn f k w).arr = w.arr ∧ (trsColumn f k w).t = w.t ∧
    (∀ c, c < 32 → (trsColumn f k w).p.at k c = mtrsDiv f k w (w.p.at k c)) ∧
    (∀ m c, m < 32 → c < 32 → m ∈ mtrsAfter f k →
      (trsColumn f k w).p.at m c = (mulSub (w.p.at m c) (mtrsOp f w m k) (mtrsDiv f k w (w.p.at k c))).1) ∧
    ∀ m c, m < 32 → c < 32 → m ≠ k → m ∉ mtrsAfter f k → (trsColumn f k w).p.at m c = w.p.at m c := by
  have hcol : trsColumn f k w = (mtrsAfter f k).foldl
      (fun v m => upFrom 0 (fun v c => v.set m c (mulSub (v.p.at m c) (mtrsOp f w m k) (v.p.at k c))) v)
      (if mtrsUnit f then w else upFrom 0 (fun v c => v.set k c (fDiv fp64 0 (v.p.at k c) (mtrsOp f w k k))) w) := by
    unfold trsColumn
    simp only [hright, Bool.false_eq_true, if_false]
    rfl
  have hdiv : Rewrites (fun i _ => i = k) (fun _ c => mtrsDiv f k w (w.p.at k c)) w
      (if mtrsUnit f then w else upFrom 0 (fun v c => v.set k c (fDiv fp64 0 (v.p.at k c) (mtrsOp f w k k))) w) := by
    unfold mtrsDiv
    split
    · exact ⟨rfl, rfl, rfl, fun _ _ _ _ h => by rw [h], fun _ _ _ _ _ => rfl⟩
    · exact rewrites_rowDivided hw hk _
  rw [hcol]
  generalize (if mtrsUnit f then w else upFrom 0 (fun v c => v.set k c (fDiv fp64 0 (v.p.at k c) (mtrsOp f w k k))) w) = u at hdiv ⊢
  have hne : k ∉ mtrsAfter f k := fun h => (lt_of_mem_mtrsAfter f hk h).2 rfl
  have hsub := rewrites_rowsReduced (hdiv.size.trans hw) hk (nodup_mtrsAfter f k) (fun m h => (lt_of_mem_mtrsAfter f hk h).1) hne
    (fun m => mtrsOp f w m k)
  refine ⟨hsub.arr.trans hdiv.arr, hsub.t.trans hdiv.t, fun c hc => ?_, fun m c hm hc hmem => ?_, fun m c hm hc hmk hmem => ?_⟩
  · rw [hsub.kept k c hk hc hne, hdiv.wrote k c hk hc rfl]
  · rw [hsub.wrote m c hm hc hmem, hdiv.kept m c hm hc (lt_of_mem_mtrsAfter f hk hmem).2, hdiv.wrote k c hk hc rfl]
  · rw [hsub.kept m c hm hc hmem, hdiv.kept m c hm hc hmk]

/-- A step from the right: column k, then the columns after it. -/
theorem trsColumn_right {f : MF} {k : Nat} {w : Fwork} (hk : k < 32) (hw : w.p.size = 1024) (hright : mtrsRight f = true) :
    (trsColumn f k w).arr = w.arr ∧ (trsColumn f k w).t = w.t ∧
    (∀ r, r < 32 → (trsColumn f k w).p.at r k = mtrsDiv f k w (w.p.at r k)) ∧
    (∀ m r, m < 32 → r < 32 → m ∈ mtrsAfter f k →
      (trsColumn f k w).p.at r m = (mulSub (w.p.at r m) (mtrsDiv f k w (w.p.at r k)) (mtrsOp f w k m)).1) ∧
    ∀ m r, m < 32 → r < 32 → m ≠ k → m ∉ mtrsAfter f k → (trsColumn f k w).p.at r m = w.p.at r m := by
  have hcol : trsColumn f k w = (mtrsAfter f k).foldl
      (fun v m => upFrom 0 (fun v r => v.set r m (mulSub (v.p.at r m) (v.p.at r k) (mtrsOp f w k m))) v)
      (if mtrsUnit f then w else upFrom 0 (fun v r => v.set r k (fDiv fp64 0 (v.p.at r k) (mtrsOp f w k k))) w) := by
    unfold trsColumn
    simp only [hright, if_true]
    rfl
  have hdiv : Rewrites (fun _ c => c = k) (fun r _ => mtrsDiv f k w (w.p.at r k)) w
      (if mtrsUnit f then w else upFrom 0 (fun v r => v.set r k (fDiv fp64 0 (v.p.at r k) (mtrsOp f w k k))) w) := by
    unfold mtrsDiv
    split
    · exact ⟨rfl, rfl, rfl, fun _ _ _ _ h => by rw [h], fun _ _ _ _ _ => rfl⟩
    · exact rewrites_colDivided hw hk _
  rw [hcol]
  generalize (if mtrsUnit f then w else upFrom 0 (fun v r => v.set r k (fDiv fp64 0 (v.p.at r k) (mtrsOp f w k k))) w) = u at hdiv ⊢
  have hne : k ∉ mtrsAfter f k := fun h => (lt_of_mem_mtrsAfter f hk h).2 rfl
  have hsub := rewrites_colsReduced (hdiv.size.trans hw) hk (nodup_mtrsAfter f k) (fun m h => (lt_of_mem_mtrsAfter f hk h).1) hne
    (fun m => mtrsOp f w k m)
  refine ⟨hsub.arr.trans hdiv.arr, hsub.t.trans hdiv.t, fun r hr => ?_, fun m r hm hr hmem => ?_, fun m r hm hr hmk hmem => ?_⟩
  · rw [hsub.kept r k hr hk hne, hdiv.wrote r k hr hk rfl]
  · rw [hsub.wrote r m hr hm hmem, hdiv.kept r m hr hm (lt_of_mem_mtrsAfter f hk hmem).2, hdiv.wrote r k hr hk rfl]
  · rw [hsub.kept r m hr hm hmem, hdiv.kept r m hr hm hmk]

/-- A line comes after k where it lies on the side to which the steps go. -/
theorem mem_mtrsAfter_iff (f : MF) {k m : Nat} (hk : k < 32) (hm : m < 32) :
    m ∈ mtrsAfter f k ↔ if mtrsUp f then k < m else m < k := by
  rw [mem_mtrsAfter f hk]
  split
  · exact and_iff_left hm
  · rfl

/-! ## The obligation -/

/-- Settles O27: each loop of a column or step rewrites distinct entries, each from itself and from entries that the loop leaves. -/
theorem factorisationColumnsAndSolveSteps : Obligations.FactorisationColumnsAndSolveSteps := by
  unfold Obligations.FactorisationColumnsAndSolveSteps
  refine ⟨fun j w hj hw => ⟨fun hstop => ?_, fun hgo => ?_, fun go trapped => ?_⟩, fun f k w hk hw => ?_⟩
  · rw [cholColumn_eq, if_pos hstop]
  · rw [cholColumn_eq, if_neg hgo]
    have hset := rewrites_set hw hj hj (fSqrt fp64 0 (w.p.at j j))
    obtain ⟨harr, hcol, htri, hkept⟩ := cholReduced_entries (hset.size.trans hw) hj
    have hdiag := hset.wrote j j hj hj ⟨rfl, rfl⟩
    refine ⟨_, rfl, harr.trans hset.arr, ?_, fun i hji hi => ?_, fun i c hjc hci hi => ?_, fun i c hi hc hout => ?_⟩
    · rw [hkept j j hj hj (by omega) (by omega), hdiag]
    · rw [hcol i hji hi, hset.kept i j hi hj (by omega), hdiag]
    · rw [htri i c hjc hci hi, hdiag, hset.kept i c hi (by omega) (by omega), hset.kept i j hi hj (by omega),
        hset.kept c j (by omega) hj (by omega)]
      rfl
    · rw [hkept i c hi hc (by omega) (by omega), hset.kept i c hi hc (by omega)]
  · obtain ⟨hjr, hr, hrank⟩ := pivotRow_spec w.p hj
    obtain ⟨hsize, hat, hpvec⟩ := luSwapped_entries hw hj
    simp only [pivotRank_eq] at hrank
    refine ⟨pivotRow w.p j, hjr, hr, hrank, ?_⟩
    by_cases hz : ((luSwapped j w).p.at j j).toNat % 2 ^ 63 = 0
    · obtain ⟨hstop, hp, harr⟩ := luColumn_of_zero go trapped hz
      refine ⟨by rw [harr]; exact hpvec, fun _ => ⟨hstop, fun i c hi hc => ?_⟩, fun hn => absurd ?_ hn⟩
      · rw [hp]
        exact hat i c hi hc
      · rwa [hat j j hj hj] at hz
    · obtain ⟨harr, hcol, hsq, hkept⟩ := luReduced_entries hsize hj
      rw [luColumn_of_ne_zero go trapped hz]
      refine ⟨by rw [harr]; exact hpvec, fun hn => absurd ?_ hz, fun _ => ⟨rfl, fun i hji hi => ?_, fun i c hji hi hjc hc => ?_,
        fun i c hi hc hout => ?_⟩⟩
      · rwa [hat j j hj hj]
      · rw [hcol i hji hi, hat i j hi hj, hat j j hj hj]
        rfl
      · rw [hsq i c hji hi hjc hc, hat i j hi hj, hat j j hj hj, hat i c hi hc, hat j c hj hc]
        rfl
      · rw [hkept i c hi hc hout]
        exact hat i c hi hc
  · rcases hright : mtrsRight f with _ | _
    · obtain ⟨harr, ht, hdiv, hsub, hkept⟩ := trsColumn_left hk hw hright
      refine ⟨harr, ht, fun _ => ⟨hdiv, fun m c hm hc h => hsub m c hm hc ((mem_mtrsAfter_iff f hk hm).mpr h),
        fun m c hm hc hne h => hkept m c hm hc hne (mt (mem_mtrsAfter_iff f hk hm).mp h)⟩, fun h => ?_⟩
      exact absurd (hright.symm.trans h) (by decide)
    · obtain ⟨harr, ht, hdiv, hsub, hkept⟩ := trsColumn_right hk hw hright
      refine ⟨harr, ht, fun h => ?_, fun _ => ⟨hdiv, fun m r hm hr h => hsub m r hm hr ((mem_mtrsAfter_iff f hk hm).mpr h),
        fun m r hm hr hne h => hkept m r hm hr hne (mt (mem_mtrsAfter_iff f hk hm).mp h)⟩⟩
      exact absurd (hright.symm.trans h) (by decide)

end Sys2Proof.Machine
end

section
/-! The integer instructions of the A and B slots (spec/07_scalar_control.md R105, R106). -/
namespace Sys2Proof.Machine

/-! ## Instructions of either unit -/

/-- An instruction that both units have is ordinary when it is in each. -/
theorem Ordinary.of_units (i : AB → Instr) (u : AB) (ha : Ordinary (i .a) := by exact {})
    (hb : Ordinary (i .b) := by exact {}) : Ordinary (i u) := by cases u; exacts [ha, hb]

theorem lone_wellFormed {i : Instr} {s : State} (h : lone i s = true) : wellFormed i = true := by
  have hl := lone_legal h
  simp only [legal, List.all_cons, List.all_nil, Bool.and_true, Bool.and_eq_true] at hl
  tauto

section
variable {i : Instr} {s : State} (hi : Ordinary i) (hq : quiet s = true)
include hi hq

/-- A lone instruction of two sources gives the value of its operation. -/
theorem exec_alu2 {u : AB} {f : RR} {b : Nat} {op : Word → Word → Word} {v : Word} (hd : dests i = gDest f.dst)
    (hr : slotRes (s.nextPc [i]) none i s = alu2 u f b op s) (hb : 0 < b)
    (hv : op (gReg f.src1 s) (gReg f.src2 s) = v) (hl : lone i s = true) :
    exec i s = .next (givesG i f.dst v (gTag f.src1 s || gTag f.src2 s) 0 b s) := by
  subst hv
  exact hi.exec_resultG hq hl (hr.trans (alu2_quiet hq)) hb (pushesOf_gDest hd)

/-- A lone instruction of one source gives the value of its operation. -/
theorem exec_alu1 {u : AB} {f : RR} {b : Nat} {op : Word → Word} {v : Word} (hd : dests i = gDest f.dst)
    (hr : slotRes (s.nextPc [i]) none i s = alu1 u f b op s) (hb : 0 < b) (hv : op (gReg f.src1 s) = v)
    (hl : lone i s = true) : exec i s = .next (givesG i f.dst v (gTag f.src1 s) 0 b s) := by
  subst hv
  exact hi.exec_resultG hq hl (hr.trans (alu1_quiet hq)) hb (pushesOf_gDest hd)

/-- A lone instruction of one source and an immediate gives the value of its operation. -/
theorem exec_aluImm {u : AB} {f : RI} {op : Word → Word} {v : Word} (hd : dests i = gDest f.dst)
    (hr : slotRes (s.nextPc [i]) none i s = aluImm u f op s) (hv : op (gReg f.src1 s) = v) (hl : lone i s = true) :
    exec i s = .next (givesG i f.dst v (gTag f.src1 s) 0 1 s) := by
  subst hv
  exact hi.exec_resultG hq hl (hr.trans (aluImm_quiet hq)) (by decide) (pushesOf_gDest hd)

end

/-! ## Values of the operations -/

theorem clampInt_eq_max_min {lo hi : Int} (h : lo ≤ hi) (v : Int) : clampInt lo hi v = max lo (min hi v) := by
  unfold clampInt
  split
  · omega
  · split <;> omega

theorem addOp_eq (m : BitVec 3) (a b : Word) : addOp m a b = (match m.toNat with
    | 0 => a + b
    | 1 => sext 32 (a + b)
    | 2 => BitVec.ofInt 64 (max (-(2 ^ 63)) (min (2 ^ 63 - 1) (a.toInt + b.toInt)))
    | _ => BitVec.ofNat 64 (min (2 ^ 64 - 1) (a.toNat + b.toNat))) := by
  unfold addOp
  generalize m.toNat = n
  rcases n with _ | _ | _ | n
  case succ.succ.zero => exact congrArg (BitVec.ofInt 64) (clampInt_eq_max_min (by decide) _)
  case succ.succ.succ => exact congrArg (BitVec.ofNat 64) (Nat.min_comm ..)
  all_goals rfl

theorem subOp_eq (m : BitVec 3) (a b : Word) : subOp m a b = (match m.toNat with
    | 0 => a - b
    | 1 => sext 32 (a - b)
    | 2 => BitVec.ofInt 64 (max (-(2 ^ 63)) (min (2 ^ 63 - 1) (a.toInt - b.toInt)))
    | _ => BitVec.ofNat 64 (a.toNat - b.toNat)) := by
  unfold subOp
  generalize m.toNat = n
  rcases n with _ | _ | _ | n
  case succ.succ.zero => exact congrArg (BitVec.ofInt 64) (clampInt_eq_max_min (by decide) _)
  all_goals rfl

/-- The high half of the signed product, taken of the 128-bit product. -/
theorem mulhOp_eq (a b : Word) : mulhOp a b = (a.signExtend 128 * b.signExtend 128).extractLsb' 64 64 := by
  have hp : a.signExtend 128 * b.signExtend 128 = BitVec.ofInt 128 (a.toInt * b.toInt) := by
    rw [BitVec.signExtend, BitVec.signExtend, ← BitVec.ofInt_mul]
  rw [hp]
  apply BitVec.eq_of_toNat_eq
  simp only [mulhOp, BitVec.toNat_ofInt, BitVec.extractLsb'_toNat, Nat.shiftRight_eq_div_pow]
  generalize a.toInt * b.toInt = p
  norm_num
  omega

/-- The high half of the unsigned product. -/
theorem mulhnOp_eq (a b : Word) : mulhnOp a b = (a.setWidth 128 * b.setWidth 128).extractLsb' 64 64 := by
  apply BitVec.eq_of_toNat_eq
  have ha := a.isLt
  have hb := b.isLt
  have hab : a.toNat * b.toNat < 2 ^ 128 := by
    calc a.toNat * b.toNat < 2 ^ 64 * 2 ^ 64 := Nat.mul_lt_mul'' ha hb
      _ = 2 ^ 128 := by norm_num
  simp only [mulhnOp, BitVec.toNat_ofNat, BitVec.extractLsb'_toNat, Nat.shiftRight_eq_div_pow, BitVec.toNat_mul,
    BitVec.toNat_setWidth, Nat.mod_eq_of_lt (ha.trans (by norm_num : 2 ^ 64 < 2 ^ 128)),
    Nat.mod_eq_of_lt (hb.trans (by norm_num : 2 ^ 64 < 2 ^ 128)), Nat.mod_eq_of_lt hab]

/-- A number of n low bits is the number mod 2^n. -/
theorem bits_zero_toNat {n : Nat} (w : Nat) (v : BitVec n) : (bits 0 w v).toNat = v.toNat % 2 ^ w := by
  simp [BitVec.extractLsb'_toNat]

theorem minOp_eq (a b : Word) : minOp a b = if a.toInt ≤ b.toInt then a else b := by
  rw [minOp, BitVec.slt_eq_decide]
  split <;> split <;> simp_all; omega

theorem maxOp_eq (a b : Word) : maxOp a b = if a.toInt ≤ b.toInt then b else a := by
  rw [maxOp, BitVec.slt_eq_decide]
  rcases lt_trichotomy a.toInt b.toInt with h | h | h
  · rw [if_pos (decide_eq_true h), if_pos h.le]
  · rw [BitVec.eq_of_toInt_eq h, ite_self, ite_self]
  · rw [if_neg (by simpa using h.le), if_neg (by omega)]

theorem minnOp_eq (a b : Word) : minnOp a b = if a.toNat ≤ b.toNat then a else b := by
  rw [minnOp, BitVec.ult_eq_decide]
  split <;> split <;> simp_all; omega

theorem maxnOp_eq (a b : Word) : maxnOp a b = if a.toNat ≤ b.toNat then b else a := by
  rw [maxnOp, BitVec.ult_eq_decide]
  rcases lt_trichotomy a.toNat b.toNat with h | h | h
  · rw [if_pos (decide_eq_true h), if_pos h.le]
  · rw [BitVec.eq_of_toNat_eq h, ite_self, ite_self]
  · rw [if_neg (by simpa using h.le), if_neg (by omega)]

/-- The leading zeros among the `k` low bits of a word that has no others. -/
theorem clzGo_eq (a : Word) : ∀ k, a.toNat < 2 ^ k → clzGo a k = if a = 0 then k else k - 1 - Nat.log2 a.toNat
  | 0, h => by
    have h0 : a = 0 := BitVec.eq_of_toNat_eq (by simpa using h)
    rw [if_pos h0, clzGo]
  | k + 1, h => by
    have hbit : a.getLsbD k = decide (2 ^ k ≤ a.toNat) := by
      rw [BitVec.getLsbD, Nat.testBit_eq_decide_div_mod_eq]
      have hdiv : a.toNat / 2 ^ k < 2 := Nat.div_lt_of_lt_mul (by rwa [← Nat.pow_succ])
      have hpos : 1 ≤ a.toNat / 2 ^ k ↔ 2 ^ k ≤ a.toNat := by
        rw [Nat.le_div_iff_mul_le (by positivity), Nat.one_mul]
      rw [decide_eq_decide]
      generalize a.toNat / 2 ^ k = q at hdiv hpos
      omega
    rw [clzGo, hbit]
    by_cases hk : 2 ^ k ≤ a.toNat
    · have hne : a ≠ 0 := by
        rintro rfl
        exact absurd hk (by simp)
      have hlog : Nat.log2 a.toNat = k := by
        rw [Nat.log2_eq_iff (by omega)]
        exact ⟨hk, h⟩
      rw [if_pos (decide_eq_true hk), if_neg hne, hlog]
      omega
    · rw [if_neg (by simpa using hk), clzGo_eq a k (by omega)]
      by_cases hz : a = 0
      · rw [if_pos hz, if_pos hz]; omega
      · have hne : a.toNat ≠ 0 := fun h0 => hz (BitVec.eq_of_toNat_eq (by simpa using h0))
        have hlog : Nat.log2 a.toNat < k := (Nat.log2_lt hne).mpr (by omega)
        rw [if_neg hz, if_neg hz]; omega

theorem clzOp_eq (a : Word) : clzOp a = if a = 0 then 64 else BitVec.ofNat 64 (63 - Nat.log2 a.toNat) := by
  rw [clzOp, clzGo_eq a 64 a.isLt]
  split <;> rfl

/-! ## Obligation O1 -/

/-- Settles O1: each instruction gives the value of its operation, which is the one that R105 names. -/
theorem integerOperationResults : Obligations.IntegerOperationResults := by
  refine ⟨fun u f s hq => ⟨?add, ?sub, ?mul, ?mulh, ?mulhn, ?and, ?or, ?xor, ?andn⟩,
    fun u f s hq => ⟨?shl, ?shr, ?sar, ?min, ?max, ?minn, ?maxn, ?clz, ?popc, ?brev⟩⟩
  case add => exact exec_alu2 (.of_units (.add · f) u) hq rfl (slot_add ..) (by decide) (addOp_eq ..)
  case sub => exact exec_alu2 (.of_units (.sub · f) u) hq rfl (slot_sub ..) (by decide) (subOp_eq ..)
  case mul => exact exec_alu2 (.of_units (.mul · f) u) hq rfl (slot_mul ..) (by decide) rfl
  case mulh => exact exec_alu2 (.of_units (.mulh · f) u) hq rfl (slot_mulh ..) (by decide) (mulhOp_eq ..)
  case mulhn => exact exec_alu2 (.of_units (.mulhn · f) u) hq rfl (slot_mulhn ..) (by decide) (mulhnOp_eq ..)
  case and => exact exec_alu2 (op := fun a b => a &&& b) (.of_units (.and · f) u) hq rfl (slot_and ..) (by decide) rfl
  case or => exact exec_alu2 (op := fun a b => a ||| b) (.of_units (.or · f) u) hq rfl (slot_or ..) (by decide) rfl
  case xor => exact exec_alu2 (op := fun a b => a ^^^ b) (.of_units (.xor · f) u) hq rfl (slot_xor ..) (by decide) rfl
  case andn => exact exec_alu2 (op := fun a b => a &&& ~~~b) (.of_units (.andn · f) u) hq rfl (slot_andn ..) (by decide) rfl
  case shl => exact exec_alu2 (.of_units (.shl · f) u) hq rfl (slot_shl ..) (by decide) (by rw [bits_zero_toNat, bits_zero_toNat]; rfl)
  case shr => exact exec_alu2 (.of_units (.shr · f) u) hq rfl (slot_shr ..) (by decide) (by rw [bits_zero_toNat, bits_zero_toNat]; rfl)
  case sar => exact exec_alu2 (.of_units (.sar · f) u) hq rfl (slot_sar ..) (by decide) (by rw [bits_zero_toNat, bits_zero_toNat]; rfl)
  case min => exact exec_alu2 (.of_units (.min · f) u) hq rfl (slot_min ..) (by decide) (minOp_eq ..)
  case max => exact exec_alu2 (.of_units (.max · f) u) hq rfl (slot_max ..) (by decide) (maxOp_eq ..)
  case minn => exact exec_alu2 (.of_units (.minn · f) u) hq rfl (slot_minn ..) (by decide) (minnOp_eq ..)
  case maxn => exact exec_alu2 (.of_units (.maxn · f) u) hq rfl (slot_maxn ..) (by decide) (maxnOp_eq ..)
  case clz => exact exec_alu1 (.of_units (.clz · f) u) hq rfl (slot_clz ..) (by decide) (clzOp_eq _)
  case popc => exact exec_alu1 (.of_units (.popc · f) u) hq rfl (slot_popc ..) (by decide) (by rw [popcOp, List.countP_eq_length_filter])
  case brev =>
    refine ⟨brevOp (gReg f.src1 s), fun k hk => ?_, exec_alu1 (.of_units (.brev · f) u) hq rfl (slot_brev ..) (by decide) rfl⟩
    rw [brevOp, BitVec.getLsbD_reverse, BitVec.getMsbD, decide_eq_true (by omega), Bool.true_and]
    congr 1
    omega

end Sys2Proof.Machine
end

section
/-! Division and bit fields (spec/07_scalar_control.md R106, R107). -/
namespace Sys2Proof.Machine

/-! ## Division (R106) -/

theorem divOp_zero (m : BitVec 3) (a : Word) : divOp m a 0 = BitVec.allOnes 64 := if_pos rfl
theorem remOp_zero (m : BitVec 3) (a : Word) : remOp m a 0 = a := if_pos rfl
theorem divOp_unsigned {a b : Word} (hb : b ≠ 0) : divOp 1 a b = BitVec.ofNat 64 (a.toNat / b.toNat) := if_neg hb
theorem divOp_signed {a b : Word} (hb : b ≠ 0) : divOp 0 a b = BitVec.ofInt 64 (a.toInt.tdiv b.toInt) := if_neg hb

theorem remOp_unsigned {a b : Word} (hb : b ≠ 0) :
    remOp 1 a b = BitVec.ofNat 64 (a.toNat - b.toNat * (a.toNat / b.toNat)) := by
  rw [← Nat.mod_eq_sub_mul_div]
  exact if_neg hb

theorem remOp_signed {a b : Word} (hb : b ≠ 0) :
    remOp 0 a b = BitVec.ofInt 64 (a.toInt - b.toInt * a.toInt.tdiv b.toInt) := by
  rw [← Int.tmod_def]
  exact if_neg hb

/-- A quotient truncated toward zero has the sign of the product. -/
theorem tdiv_mul_mul_nonneg (a b : Int) : 0 ≤ a.tdiv b * (a * b) := by
  rcases le_total 0 a with ha | ha <;> rcases le_total 0 b with hb | hb
  · exact mul_nonneg (Int.tdiv_nonneg ha hb) (mul_nonneg ha hb)
  · exact mul_nonneg_of_nonpos_of_nonpos (Int.tdiv_nonpos_of_nonneg_of_nonpos ha hb) (mul_nonpos_of_nonneg_of_nonpos ha hb)
  · refine mul_nonneg_of_nonpos_of_nonpos ?_ (mul_nonpos_of_nonpos_of_nonneg ha hb)
    rw [← Int.neg_neg a, Int.neg_tdiv]
    exact neg_nonpos.mpr (Int.tdiv_nonneg (by omega) hb)
  · refine mul_nonneg ?_ (mul_nonneg_of_nonpos_of_nonpos ha hb)
    rw [← Int.neg_tdiv_neg]
    exact Int.tdiv_nonneg (by omega) (by omega)

/-- Settles O2: the quotient and the remainder are those of truncated division, with the two cases that R106 names. -/
theorem divisionResults : Obligations.DivisionResults := by
  intro f s hq a b answers
  have hdiv : ∀ {v}, divOp f.modf a b = v → answers (.div f) v :=
    exec_alu2 (u := .a) {} hq rfl (slot_div ..) (by decide)
  have hrem : ∀ {v}, remOp f.modf a b = v → answers (.rem f) v :=
    exec_alu2 (u := .a) {} hq rfl (slot_rem ..) (by decide)
  refine ⟨fun hb => ?zero, fun hb hm => ?unsigned, fun hm ha hb => ?overflow, fun hb hm _ => ?signed, rfl, rfl⟩
  case zero =>
    rw [hb] at hdiv hrem
    refine ⟨hdiv ((divOp_zero ..).trans ?_), hrem (remOp_zero ..)⟩
    split <;> decide
  case unsigned =>
    rw [hm] at hdiv hrem
    exact ⟨hdiv (divOp_unsigned hb), hrem (remOp_unsigned hb)⟩
  case overflow =>
    have hb0 : b ≠ 0 := fun h => by simp [h] at hb
    rw [hm] at hdiv hrem
    refine ⟨hdiv ((divOp_signed hb0).trans ?_), hrem ((remOp_signed hb0).trans ?_)⟩ <;> rw [ha, hb] <;> decide
  case signed =>
    rw [hm] at hdiv hrem
    exact ⟨a.toInt.tdiv b.toInt, Int.natAbs_tdiv .., tdiv_mul_mul_nonneg .., hdiv (divOp_signed hb), hrem (remOp_signed hb)⟩

/-! ## Bit fields (R107) -/

theorem fieldPos_eq (b : Word) : (bits 0 6 b : BitVec 6).toNat = fieldPos b := bits_zero_toNat 6 b

theorem fieldWidth_eq (b : Word) : (bits 8 6 b : BitVec 6).toNat + 1 = fieldWidth b := by
  rw [BitVec.extractLsb'_toNat, Nat.shiftRight_eq_div_pow]
  rfl

theorem fieldMask_getLsbD (b : Word) {k : Nat} (hk : k < 64) :
    (fieldMask b).getLsbD k = decide (fieldPos b ≤ k ∧ k < fieldPos b + fieldWidth b) := by
  rw [fieldMask, BitVec.getLsbD_ofNat, Nat.mul_comm, Nat.testBit_two_pow_mul, Nat.testBit_two_pow_sub_one,
    decide_eq_true hk, Bool.true_and, ← Bool.decide_and, decide_eq_decide]
  omega

/-- The field before its extension. -/
theorem field_getLsbD (a b : Word) (k : Nat) :
    ((a &&& fieldMask b) >>> fieldPos b).getLsbD k = (decide (k < fieldWidth b) && a.getLsbD (fieldPos b + k)) := by
  rw [BitVec.getLsbD_ushiftRight, BitVec.getLsbD_and, Bool.and_comm]
  by_cases hk : fieldPos b + k < 64
  · rw [fieldMask_getLsbD b hk]
    congr 1
    rw [decide_eq_decide]
    omega
  · rw [BitVec.getLsbD_of_ge a _ (by omega), Bool.and_false, Bool.and_false]

theorem bfxOp_getLsbD {m : BitVec 3} (a b : Word) {k : Nat} (hk : k < 64) :
    (bfxOp m a b).getLsbD k =
      if k < fieldWidth b then a.getLsbD (fieldPos b + k) else m == 1 && a.getLsbD (fieldPos b + fieldWidth b - 1) := by
  have hw : 0 < fieldWidth b := Nat.succ_pos _
  unfold bfxOp
  by_cases hm : m = 1
  · rw [if_pos hm, sext, BitVec.getLsbD_signExtend, BitVec.msb_eq_getLsbD_last, BitVec.getLsbD_setWidth,
      BitVec.getLsbD_setWidth, field_getLsbD, field_getLsbD, Nat.add_sub_assoc hw]
    by_cases hkw : k < fieldWidth b
    · simp [hk, hkw]
    · simp [hk, hkw, hm, hw]
  · rw [if_neg hm, field_getLsbD]
    rw [beq_eq_false_iff_ne.mpr hm]
    by_cases hkw : k < fieldWidth b <;> simp [hkw]

theorem bfiOp_getLsbD (a b c : Word) {k : Nat} (hk : k < 64) :
    (bfiOp a b c).getLsbD k =
      if fieldPos b ≤ k ∧ k < fieldPos b + fieldWidth b then a.getLsbD (k - fieldPos b) else c.getLsbD k := by
  rw [bfiOp, BitVec.getLsbD_or, BitVec.getLsbD_and, BitVec.getLsbD_and, BitVec.getLsbD_not, BitVec.getLsbD_shiftLeft,
    fieldMask_getLsbD b hk]
  by_cases hf : fieldPos b ≤ k ∧ k < fieldPos b + fieldWidth b
  · simp [hf, hk]
  · simp [hf, hk]

theorem slotBfi_quiet {u : AB} {f : RR} {s : State} (hq : quiet s = true) : slotBfi u f s =
    .ok (State.resultG f.dst (bfiOp (gReg f.src1 s) (gReg f.src2 s) (gReg f.dst s))
      (gTag f.src1 s || gTag f.src2 s || gTag f.dst s) 0 2) := by
  rw [slotBfi, destG_quiet hq, needG_quiet hq, needG_quiet hq, needG_quiet hq]

/-- Settles O3: the bits of the extracted field and of the word with the field inserted. -/
theorem bitFieldResults : Obligations.BitFieldResults := by
  intro u f s hq a b c p w
  have hp : p = fieldPos b := fieldPos_eq b
  have hw : w = fieldWidth b := fieldWidth_eq b
  rw [hp, hw]
  refine ⟨⟨bfxOp f.modf a b, fun k hk => bfxOp_getLsbD a b hk, ?bfx⟩, ⟨bfiOp a b c, fun k hk => bfiOp_getLsbD a b c hk, ?bfi⟩⟩
  case bfx => exact exec_alu2 (.of_units (.bfx · f) u) hq rfl (slot_bfx ..) (by decide) rfl
  case bfi =>
    exact fun hl => (Ordinary.of_units (.bfi · f) u).exec_resultG hq hl ((slot_bfi ..).trans (slotBfi_quiet hq)) (by decide)
      (pushesOf_gDest rfl)

end Sys2Proof.Machine
end

section
/-! Immediate forms, `lea`, `sel`, comparisons, predicate logic and `chk` (spec/07_scalar_control.md R108 to R113). -/
namespace Sys2Proof.Machine

/-! ## Results and traps -/

/-- A lone instruction without an effect. -/
theorem Ordinary.exec_nothing {i : Instr} {s : State} (hi : Ordinary i) (hq : quiet s = true) (hl : lone i s = true)
    (hr : slotRes (s.nextPc [i]) none i s = .nothing) (hd : pushesOf (rptCount (rptOf [i])) i = []) :
    exec i s = .next (passed [i] s) :=
  Machine.exec_nothing hq hl hr hd (hi.serves s) hi.after (by rw [hi.unordered, Bool.false_and]) (hi.issues s)

section
variable {i : Instr} {s : State} (hi : Ordinary i) (hq : quiet s = true) (hl : lone i s = true)
include hi hq hl

/-- A lone instruction that gives a predicate, or catches a poisoned source. -/
theorem exec_test {r : BitVec 4} {v w : Bool} {p : Bool} (hd : dests i = kDest r)
    (hr : slotRes (s.nextPc [i]) none i s = if p then .trapOf .poison else .ok (State.resultK r v 0 1)) (hv : v = w) :
    exec i s = .next (if p then traps i .poison 0 0 s else givesK i r w 0 1 s) := by
  subst hv
  by_cases hp : p = true
  · rw [if_pos hp] at hr ⊢
    exact hi.exec_trap hq hl hr (by decide)
  · rw [if_neg hp] at hr ⊢
    exact hi.exec_resultK hq hl hr (by decide) (pushesOf_kDest hd)

/-- A lone instruction that does nothing, or catches a poisoned source. -/
theorem exec_check {p : Bool} (hd : dests i = [])
    (hr : slotRes (s.nextPc [i]) none i s = if p then .trapOf .poison else .nothing) :
    exec i s = .next (if p then traps i .poison 0 0 s else passed [i] s) := by
  by_cases hp : p = true
  · rw [if_pos hp] at hr ⊢
    exact hi.exec_trap hq hl hr (by decide)
  · rw [if_neg hp] at hr ⊢
    exact hi.exec_nothing hq hl hr (pushesOf_nil hd)

end

/-! ## What the slots do -/

theorem slotMovi_quiet {u : AB} {f : MI} {s : State} (hq : quiet s = true) :
    slotMovi u f s = .ok (State.resultG f.dst (f.imm.signExtend 64) false 0 1) := destG_quiet hq ..

theorem slotMovhi_quiet {u : AB} {f : MI} {s : State} (hq : quiet s = true) :
    slotMovhi u f s = .ok (State.resultG f.dst (f.imm.setWidth 64 <<< 32) false 0 1) := destG_quiet hq ..

theorem slotSel_quiet {u : AB} {f : RR} {s : State} (hq : quiet s = true) : slotSel u f s =
    if kReg (f.modf.setWidth 4) s then .ok (State.resultG f.dst (gReg f.src1 s) (gTag f.src1 s) 0 1)
    else .ok (State.resultG f.dst (gReg f.src2 s) (gTag f.src2 s) 0 1) := by
  rw [slotSel, destG_quiet hq, needG_quiet hq, needG_quiet hq, readK_quiet hq]

theorem slotCmp_quiet {u : AB} {f : RR} {s : State} (hq : quiet s = true) : slotCmp u f s =
    if gTag f.src1 s || gTag f.src2 s then .trapOf .poison
    else .ok (State.resultK (f.dst.setWidth 4) (cmpCond f.modf (gReg f.src1 s) (gReg f.src2 s)) 0 1) := by
  rw [slotCmp, cleanG_quiet hq, cleanG_quiet hq]
  cases gTag f.src1 s <;> rfl

theorem slotCmpi_quiet {u : AB} {f : RC} {s : State} (hq : quiet s = true) : slotCmpi u f s =
    if gTag f.src1 s then .trapOf .poison
    else .ok (State.resultK (f.dst.setWidth 4) (cmpCond f.cond (gReg f.src1 s) (f.imm.signExtend 64)) 0 1) := by
  rw [slotCmpi, cleanG_quiet hq]

theorem slotKop_quiet {u : AB} {f : RR} {s : State} {v : Bool} (hq : quiet s = true)
    (hv : kopOp f.modf (kReg (f.src1.setWidth 4) s) (kReg (f.src2.setWidth 4) s) = v) :
    slotKop u f s = .ok (State.resultK (f.dst.setWidth 4) v 0 1) := by
  rw [slotKop, readK_quiet hq, readK_quiet hq, hv]

theorem slotChk_quiet {u : AB} {f : RR} {s : State} (hq : quiet s = true) :
    slotChk u f s = if gTag f.src1 s then .trapOf .poison else .nothing := cleanG_quiet hq ..

/-! ## Conditions -/

theorem not_slt_eq_decide (a b : Word) : (!a.slt b) = decide (b.toInt ≤ a.toInt) := by
  rw [BitVec.slt_eq_decide, ← decide_not, decide_eq_decide, not_lt]

theorem not_ult_eq_decide (a b : Word) : (!a.ult b) = decide (b.toNat ≤ a.toNat) := by
  rw [BitVec.ult_eq_decide, ← decide_not, decide_eq_decide, not_lt]

theorem cmpCond_eq (c : BitVec 3) (a b : Word) : cmpCond c a b = (match c.toNat with
    | 0 => decide (a = b)
    | 1 => decide (a ≠ b)
    | 2 => decide (a.toInt < b.toInt)
    | 3 => decide (b.toInt ≤ a.toInt)
    | 4 => decide (a.toNat < b.toNat)
    | 5 => decide (b.toNat ≤ a.toNat)
    | _ => decide (a &&& b ≠ 0)) := by
  unfold cmpCond
  generalize c.toNat = n
  rcases n with _ | _ | _ | _ | _ | _ | n
  case zero => rfl
  case succ.zero => exact (decide_not ..).symm
  case succ.succ.zero => exact BitVec.slt_eq_decide
  case succ.succ.succ.zero => exact not_slt_eq_decide a b
  case succ.succ.succ.succ.zero => exact BitVec.ult_eq_decide
  case succ.succ.succ.succ.succ.zero => exact not_ult_eq_decide a b
  case succ.succ.succ.succ.succ.succ => exact (decide_not ..).symm

theorem kopOp_eq (m : BitVec 3) (x y : Bool) : kopOp m x y = (match m.toNat with
    | 0 => x && y
    | 1 => x || y
    | 2 => Bool.xor x y
    | 3 => x && !y
    | 4 => !(x && y)
    | 5 => !(x || y)
    | 6 => !(Bool.xor x y)
    | _ => x || !y) := by
  unfold kopOp
  generalize m.toNat = n
  rcases n with _ | _ | _ | _ | _ | _ | _ | n
  case succ.succ.zero => cases x <;> cases y <;> rfl
  case succ.succ.succ.succ.succ.succ.zero => cases x <;> cases y <;> rfl
  all_goals rfl

/-! ## Obligation O4 -/

/-- Settles O4: each instruction gives its result, and the checking ones trap on a poisoned source. -/
theorem immediateSelectAndPredicateResults : Obligations.ImmediateSelectAndPredicateResults := by
  constructor
  · intro u fi fm fr s hq
    dsimp only
    refine ⟨?addi, ?andi, ?ori, ?shli, ?movi, ?movhi, ?lea, ?selTrue, ?selFalse⟩
    case addi => exact exec_aluImm (op := fun a => a + imm10 fi) (.of_units (.addi · fi) u) hq rfl (slot_addi ..) rfl
    case andi => exact exec_aluImm (op := fun a => a &&& imm10 fi) (.of_units (.andi · fi) u) hq rfl (slot_andi ..) rfl
    case ori => exact exec_aluImm (op := fun a => a ||| imm10 fi) (.of_units (.ori · fi) u) hq rfl (slot_ori ..) rfl
    case shli =>
      intro hl
      have himm : fi.imm.toNat < 64 := by
        have hw := lone_wellFormed hl
        simp only [wellFormed, Bool.and_eq_true, decide_eq_true_eq, BitVec.lt_def] at hw
        exact hw.2
      exact exec_aluImm (.of_units (.shli · fi) u) hq rfl (slot_shli ..) (by rw [Nat.mod_eq_of_lt himm]) hl
    case movi =>
      exact fun hl => (Ordinary.of_units (.movi · fm) u).exec_resultG hq hl ((slot_movi ..).trans (slotMovi_quiet hq))
        (by decide) (pushesOf_gDest rfl)
    case movhi =>
      exact fun hl => (Ordinary.of_units (.movhi · fm) u).exec_resultG hq hl ((slot_movhi ..).trans (slotMovhi_quiet hq))
        (by decide) (pushesOf_gDest rfl)
    case lea =>
      exact exec_aluImm (op := fun a => s.line + 32 * imm10 fi + a) (.of_units (.lea · fi) u) hq rfl (slot_lea ..) rfl
    case selTrue =>
      exact fun hk hl => (Ordinary.of_units (.sel · fr) u).exec_resultG hq hl
        ((slot_sel ..).trans ((slotSel_quiet hq).trans (if_pos hk))) (by decide) (pushesOf_gDest rfl)
    case selFalse =>
      exact fun hk hl => (Ordinary.of_units (.sel · fr) u).exec_resultG hq hl
        ((slot_sel ..).trans ((slotSel_quiet hq).trans (if_neg (by rw [hk]; exact Bool.false_ne_true)))) (by decide)
        (pushesOf_gDest rfl)
  · intro u f fc s hq
    dsimp only
    refine ⟨fun hl => ?cmp, fun hl => ?cmpi, fun hl => ?kop, fun hl => ?chk⟩
    case cmp =>
      exact exec_test (.of_units (.cmp · f) u) hq hl rfl ((slot_cmp ..).trans (slotCmp_quiet hq)) (cmpCond_eq ..)
    case cmpi =>
      exact exec_test (.of_units (.cmpi · fc) u) hq hl rfl ((slot_cmpi ..).trans (slotCmpi_quiet hq)) (cmpCond_eq ..)
    case kop =>
      exact (Ordinary.of_units (.kop · f) u).exec_resultK hq hl ((slot_kop ..).trans (slotKop_quiet hq (kopOp_eq ..)))
        (by decide) (pushesOf_kDest rfl)
    case chk => exact exec_check (.of_units (.chk · f) u) hq hl rfl ((slot_chk ..).trans (slotChk_quiet hq))

end Sys2Proof.Machine
end

section
/-! Sign operations, conversions and classes (spec/07_scalar_control.md R118, R120, R121). -/
namespace Sys2Proof.Machine

/-! ## `fsgn` -/

/-- The sign that `fsgn` writes, by its mode. -/
def fsgnSign (m : RMode) (a b : Bool) : Bool := match m.toNat with | 0 => b | 1 => !b | _ => Bool.xor a b

theorem fsgnOp_eq (F : FFmt) (m : RMode) (a b : BitVec 64) :
    fsgnOp F m a b = (setBit a (F.ew + F.mw) (fsgnSign m (signBit F a) (signBit F b)), 0) := by
  unfold fsgnOp fsgnSign
  generalize m.toNat = n
  rcases n with _ | _ | n
  case succ.succ => cases signBit F a <;> cases signBit F b <;> rfl
  all_goals rfl

theorem exec_fsgn {f : RR} {s : State} (hq : quiet s = true) (hl : lone (.fsgn f) s = true) :
    exec (.fsgn f) s = .next (givesG (.fsgn f) f.dst (fsgnOp (fpFmt f) (fpMode f) (fpSrc (fpFmt f) (gReg f.src1 s))
      (fpSrc (fpFmt f) (gReg f.src2 s))).1 (gTag f.src1 s || gTag f.src2 s) 0 2 s) := by
  obtain ⟨hpoison, hclean, -⟩ := exec_fp2 (op := fun F => fsgnOp F (fpMode f)) {} hq hl (by decide) rfl (slot_fsgn ..)
  by_cases hp : (gTag f.src1 s || gTag f.src2 s) = true
  · rw [hpoison hp, hp]
  · rw [hclean (by simpa using hp) (by simp [fsgnOp, enabledFlags]), Bool.eq_false_of_not_eq_true hp]
    rfl

/-! ## `fcvt` -/

theorem slotFcvt_quiet {f : RR} {s : State} (hq : quiet s = true) : slotFcvt f s =
    fpResult f 3 (fcvtOp (fpFmt f) (fpMode f) f.src2 (gReg f.src1 s)) (gTag f.src1 s) s := by
  rw [slotFcvt, destG_quiet hq, needG_quiet hq]

/-- The widths of `fcvt` between the formats are those of its modifier. -/
theorem fpFmt_eq_fp32_iff (f : RR) : fpFmt f = fp32 ↔ f.modf.getLsbD 2 = false := by
  unfold fpFmt
  cases f.modf.getLsbD 2 <;> decide

theorem low32_eq_bits (v : Word) : low32 v = bits 0 32 v := BitVec.eq_of_toNat_eq (by rw [bits_zero_toNat]; rfl)

theorem fcvtOp_eq {f : RR} (m : RMode) (code : BitVec 5) {v x : Word} (hx : fpSrc (fpFmt f) v = x) :
    fcvtOp (fpFmt f) m code v = (let F := fpFmt f
    match code.toNat with
    | 0 => if f.modf.getLsbD 2 then fToF fp64 fp32 m x else fToF fp32 fp64 m x
    | 1 => intResult (fToInt F m true 32 x)
    | 2 => intResult (fToInt F m false 32 x)
    | 3 => intResult (fToInt F m true 64 x)
    | 4 => intResult (fToInt F m false 64 x)
    | 5 => intToF F m (bits 0 32 v : BitVec 32).toInt
    | 6 => intToF F m (bits 0 32 v : BitVec 32).toNat
    | 7 => intToF F m v.toInt
    | 8 => intToF F m v.toNat
    | _ => fToIntegral F m x) := by
  unfold fcvtOp
  rw [low32_eq_bits, hx]
  generalize code.toNat = n
  rcases n with _ | _ | _ | _ | _ | _ | _ | _ | _ | n
  case zero =>
    simp only [fpFmt_eq_fp32_iff]
    cases f.modf.getLsbD 2 <;> rfl
  all_goals rfl

/-! ## `fclass` -/

/-- The class of a value by its exponent, whose greatest is `exMax`, its fraction, the top bit of it and the sign. -/
def classBit (exMax ex frac : Nat) (quietBit neg : Bool) : Nat :=
  if ex = exMax then (if frac ≠ 0 then (if quietBit then 1 else 0) else if neg then 2 else 9)
  else if ex = 0 then (if frac = 0 then (if neg then 5 else 6) else if neg then 4 else 7)
  else if neg then 3 else 8

/-- The top bit of a fraction is 0 where the fraction is less than half of what it can be. -/
theorem testBit_pred_eq {w : Nat} (hw : 0 < w) (n : Nat) : n.testBit (w - 1) = decide (2 ^ (w - 1) ≤ n % 2 ^ w) := by
  obtain ⟨w, rfl⟩ : ∃ k, w = k + 1 := ⟨w - 1, by omega⟩
  rw [Nat.add_sub_cancel, Nat.testBit_eq_decide_div_mod_eq, decide_eq_decide, Nat.pow_succ, Nat.mod_mul]
  have hlt : n % 2 ^ w < 2 ^ w := Nat.mod_lt _ (by positivity)
  rcases Nat.mod_two_eq_zero_or_one (n / 2 ^ w) with h | h <;> rw [h] <;> omega

theorem fClass_eq (F : FFmt) (hw : 0 < F.mw) (he : 0 < 2 ^ F.ew - 1) (a : BitVec 64) : fClass F a =
    classBit (2 ^ F.ew - 1) (a.toNat / 2 ^ F.mw % 2 ^ F.ew) (a.toNat % 2 ^ F.mw) (a.getLsbD (F.mw - 1)) (signBit F a) := by
  have hquiet : a.getLsbD (F.mw - 1) = decide (2 ^ (F.mw - 1) ≤ a.toNat % 2 ^ F.mw) := testBit_pred_eq hw a.toNat
  have hmw : 0 < 2 ^ F.mw := by positivity
  unfold fClass unpackF classBit isSubnormal
  rw [hquiet]
  generalize a.toNat / 2 ^ F.mw % 2 ^ F.ew = ex
  generalize a.toNat % 2 ^ F.mw = frac
  by_cases hmax : ex = 2 ^ F.ew - 1
  · by_cases hf : frac = 0
    · simp [hmax, hf]
    · by_cases hlt : frac < 2 ^ (F.mw - 1)
      · simp [hmax, hf, hlt]
      · simp [hmax, hf, hlt, le_of_not_gt hlt]
  · by_cases h0 : ex = 0
    · by_cases hf : frac = 0
      · simp [h0, hf, he.ne]
      · simp [h0, hf, he.ne]
    · have hne : frac + 2 ^ F.mw ≠ 0 := by omega
      simp [hmax, h0]

/-- The class by the fields of the two formats. -/
theorem fClass_fpFmt (f : RR) (a : BitVec 64) : fClass (fpFmt f) a =
    (let wide := f.modf.getLsbD 2
    classBit (if wide then 2047 else 255)
      (if wide then (bits 52 11 a : BitVec 11).toNat else (bits 23 8 a : BitVec 8).toNat)
      (if wide then (bits 0 52 a : BitVec 52).toNat else (bits 0 23 a : BitVec 23).toNat)
      (a.getLsbD (if wide then 51 else 22)) (a.getLsbD (if wide then 63 else 31))) := by
  simp only [BitVec.extractLsb'_toNat, Nat.shiftRight_eq_div_pow, Nat.pow_zero, Nat.div_one]
  unfold fpFmt
  cases f.modf.getLsbD 2
  · exact fClass_eq fp32 (by decide) (by decide) a
  · exact fClass_eq fp64 (by decide) (by decide) a

theorem slotFclass_quiet {f : RR} {s : State} (hq : quiet s = true) : slotFclass f s =
    .ok (State.resultG f.dst (BitVec.ofNat 64 (2 ^ fClass (fpFmt f) (fpSrc (fpFmt f) (gReg f.src1 s)))) (gTag f.src1 s) 0 2) := by
  rw [slotFclass, destG_quiet hq, needG_quiet hq]

/-! ## Obligation O7 -/

/-- Settles O7: the sign bit of `fsgn`, the conversion of `fcvt` by its code, and the class of `fclass`. -/
theorem floatingConversionAndClassResults : Obligations.FloatingConversionAndClassResults := by
  intro f s hq wide F m src a b v top ex exMax frac quietBit neg kind toInt converted enabled
  have ha : a = fpSrc (fpFmt f) (gReg f.src1 s) := (fpSrc_fpFmt ..).symm
  have hb : b = fpSrc (fpFmt f) (gReg f.src2 s) := (fpSrc_fpFmt ..).symm
  have htop : (fpFmt f).ew + (fpFmt f).mw = top := by
    unfold fpFmt top wide
    cases f.modf.getLsbD 2 <;> rfl
  have htop64 : top < 64 := by unfold top; split <;> decide
  refine ⟨⟨setBit a top (fsgnSign m neg (b.getLsbD top)), fun k _ hk => ?kept, ?sign, fun hl => ?fsgn⟩, fun hl => ?fcvt,
    fun hl => ?fclass⟩
  case kept => exact getLsbD_setBit_of_ne _ _ hk
  case sign =>
    exact getLsbD_setBit_self _ htop64 _
  case fsgn =>
    rw [exec_fsgn hq hl, fsgnOp_eq, signBit, signBit, htop, ← ha, ← hb]
    rfl
  case fcvt =>
    have hc : fcvtOp (fpFmt f) (fpMode f) f.src2 (gReg f.src1 s) = converted := fcvtOp_eq _ _ ha.symm
    have := exec_fpResult {} hq hl (by decide) rfl ((slot_fcvt ..).trans (slotFcvt_quiet hq))
    rw [hc] at this
    exact this
  case fclass =>
    have hkind : fClass (fpFmt f) a = kind := fClass_fpFmt f a
    rw [← hkind, ha]
    exact Ordinary.exec_resultG {} hq hl ((slot_fclass ..).trans (slotFclass_quiet hq)) (by decide) (pushesOf_gDest rfl)

end Sys2Proof.Machine
end

section
/-! Loops (spec/07_scalar_control.md R90 to R92), and the commit of a lone bundle that acts on its context. -/
namespace Sys2Proof.Machine

/-! ## The commit of an act -/

/-- No result or entry of the context has still to land. -/
structure Ctx.Landed (c : Ctx) : Prop where
  pend : c.pend = []
  queues : ∀ r, ∀ e ∈ c.queue r, e.landed = true

theorem landed_moved {s : State} (hq : quiet s = true) (i : Instr) : (moved i s).cur.Landed :=
  ⟨quiet_pend (s := s) hq, quiet_queue (s := s) hq⟩

theorem Ctx.Landed.land {c : Ctx} (h : c.Landed) (n : Nat) : c.land n = c := land_calm h.pend h.queues n

theorem Ctx.Landed.modFlow {c : Ctx} (h : c.Landed) (f : FlowCtx → FlowCtx) : (c.modFlow f).Landed := ⟨h.pend, h.queues⟩

/-- A cycle in which nothing has to land. -/
theorem tick_landed {t : State} (h : t.cur.Landed) : t.tick = cycled t := by
  simp [State.tick, cycled, h.land]

/-- A lone ordinary instruction that pushes nothing and does `G` at its commit. -/
theorem Ordinary.exec_does {i : Instr} {s : State} {F G : State → State} (hi : Ordinary i) (hq : quiet s = true)
    (hl : lone i s = true) (hr : slotRes (s.nextPc [i]) none i s = .ok F) (hd : pushesOf (rptCount (rptOf [i])) i = [])
    (hF : PlainCommit s (F (moved i s))) (hG : (F (moved i s)).tick = does i G s) :
    exec i s = .next (does i G s) := by
  rw [exec_ok hq hl hr (overflows_none hd) (hi.serves s) hF (by rw [hi.unordered, Bool.false_and]) (hi.issues s), hi.after, hG]

/-- The act of a bundle on a part of its context that holds no beats. -/
theorem modFlow_plain {s t : State} (h : PlainCommit s t) {f : FlowCtx → FlowCtx}
    (hf : (f t.cur.flow).beats = t.cur.flow.beats) : PlainCommit s (t.modFlow f) := by
  obtain ⟨hids, hfact, hdelay, hbeats, hparked⟩ := h
  exact ⟨hids, hfact, hdelay, hf.trans hbeats, hparked⟩

/-- A cycle after an act on the flow of the context that keeps its task resident or not. -/
theorem modFlow_tick {i : Instr} {s : State} (hq : quiet s = true) {f : FlowCtx → FlowCtx}
    (hf : ∀ w, (f w).residency = w.residency) : ((moved i s).modFlow f).tick = does i (State.modFlow f) s := by
  have hruns : ((moved i s).modFlow f).coreRuns = (moved i s).coreRuns := by
    simp only [State.coreRuns, State.modFlow_cur, Ctx.modFlow_flow, hf, State.modFlow_core]
  have hclock : ((moved i s).modFlow f).clockHere = (moved i s).clockHere := by
    simp only [State.clockHere, hruns, State.modFlow_core, State.modFlow_pkg]
  rw [tick_landed (t := (moved i s).modFlow f) ((landed_moved hq i).modFlow f)]
  unfold cycled State.passClocks
  rw [hclock]
  rfl

/-! ## Cycles without an issue -/

/-- What passing cycles leave of a state in which nothing has to land. -/
theorem ticks_landed : ∀ (n : Nat) {t : State}, t.cur.Landed →
    (ticks n t).cur = t.cur ∧ (ticks n t).die = t.die ∧ (ticks n t).core.fact = t.core.fact ∧
      (ticks n t).core.parked = t.core.parked ∧ (ticks n t).core.cycle = t.core.cycle + n
  | 0, _, _ => ⟨rfl, rfl, rfl, rfl, rfl⟩
  | n + 1, t, h => by
    have hcur : t.tick.cur = t.cur := h.land _
    have hcycle : t.tick.core.cycle = t.core.cycle + 1 := rfl
    obtain ⟨h1, h2, h3, h4, h5⟩ := ticks_landed n (t := t.tick) (by rw [hcur]; exact h)
    refine ⟨h1.trans hcur, h2, h3, h4, ?_⟩
    rw [ticks, h5, hcycle]
    omega

/-! ## Opening a loop -/

/-- A body of `n` bundles may be opened: at most one level is open, and the body ends no later than that level's. -/
def Nested (n : Nat) (s : State) : Prop :=
  match s.cur.flow.levels with
  | [] => True
  | [o] => ∀ k, (bodyAt s o.len o.first).1.findIdx? (fun a => a == s.pc.toNat) = some k → k + 1 + n ≤ o.len
  | _ => False

theorem nestOk_iff (n : Nat) (s : State) : nestOk n s = true ↔ Nested n s := by
  unfold nestOk Nested
  rcases s.cur.flow.levels with _ | ⟨o, _ | ⟨o', r⟩⟩
  · simp
  · dsimp only
    generalize (bodyAt s o.len o.first).1.findIdx? (fun a => a == s.pc.toNat) = x
    cases x <;> simp
  · simp

/-- The level that a loop opens. -/
def openLevel (next : Word) (len count : Nat) (s : State) (w : FlowCtx) : FlowCtx :=
  { w with levels := { first := next, len := len, last := lastBundle s len next, left := count } :: w.levels }

/-- Where a context stands that has passed over a body whose bundles stand at `l` and which ends at `a`. -/
def afterBody (l : List Nat) (a : Nat) (w : FlowCtx) : FlowCtx :=
  let r := passBody (BitVec.ofNat 64 (l.getLastD 0)) (BitVec.ofNat 64 a) w.levels
  { w with pc := r.2, levels := r.1 }

/-- What passes over that body: one cycle for each of its lines. -/
def passOver (l : List Nat) (a : Nat) (u : State) : State := ticks ((l.map (· / 64)).dedup.length) (u.modFlow (afterBody l a))

section
variable {count len : Nat} {next : Word} {s : State}

theorem openLoop_of_not_nested (h : ¬ Nested len s) : openLoop count len next s = .trapOf .loopNest := by
  rw [← nestOk_iff, Bool.not_eq_true] at h
  rw [openLoop, h]
  rfl

theorem openLoop_of_pos (h : Nested len s) (hc : 0 < count) :
    openLoop count len next s = .ok (State.modFlow (openLevel next len count s)) := by
  rw [openLoop, (nestOk_iff len s).mpr h, if_neg (by decide), if_neg (by omega)]
  rfl

theorem openLoop_of_zero (h : Nested len s) {l : List Nat} {a : Nat} (hb : bodyAt s len next = (l, .at_ a)) :
    openLoop 0 len next s = .ok (passOver l a) := by
  rw [openLoop, (nestOk_iff len s).mpr h, hb, if_neg (by decide), if_pos rfl]
  rfl

theorem openLoop_of_fault (h : Nested len s) {l : Nat} (hb : (bodyAt s len next).2 = .fault l) :
    openLoop 0 len next s = .trap .fetchFault 0 (BitVec.ofNat 64 l) := by
  rw [openLoop, (nestOk_iff len s).mpr h]
  simp only [hb]
  rfl

end

/-- The loop levels that stand open where the bundle of a state commits, in a state with none. -/
theorem moved_levels_nil {i : Instr} {s : State} (h : s.cur.flow.levels = []) : (moved i s).cur.flow.levels = [] := by
  have hf : s.foundLevels = [] := by rw [State.foundLevels, h, List.map_nil]
  simp only [State.modFlow_cur, Ctx.modFlow_flow, advanceFlow, hf, passBody]

section
variable {i : Instr} {s : State} (hi : Ordinary i) (hq : quiet s = true) (hl : lone i s = true)
include hi hq hl

/-- A lone loop passes over its body. -/
theorem exec_passOver {l : List Nat} {a : Nat} (hr : slotRes (s.nextPc [i]) none i s = .ok (passOver l a))
    (hd : pushesOf (rptCount (rptOf [i])) i = []) :
    ∃ t, exec i s = .next t ∧ t.core.cycle = s.core.cycle + 1 + (l.map (fun x => x / 64)).dedup.length ∧
      (s.cur.flow.levels = [] → t.pc = BitVec.ofNat 64 a ∧ t.cur.flow.levels = []) := by
  obtain ⟨hids, hfact, hdelay, hbeats, hparked⟩ := moved_plain (i := i) hq
  obtain ⟨h1, h2, h3, h4, h5⟩ := ticks_landed ((l.map (· / 64)).dedup.length)
    (t := (moved i s).modFlow (afterBody l a)) ((landed_moved hq i).modFlow (afterBody l a))
  have hplain : PlainCommit s (passOver l a (moved i s)) := by
    refine ⟨?_, ?_, ?_, ?_, ?_⟩
    · rw [passOver, h2]; exact hids
    · rw [passOver, h3]; exact hfact
    · rw [passOver, h1]; exact hdelay
    · rw [passOver, h1]; exact hbeats
    · rw [passOver, parkedBeats, h4]; exact hparked
  refine ⟨_, exec_ok hq hl hr (overflows_none hd) (hi.serves s) hplain (by rw [hi.unordered, Bool.false_and]) (hi.issues s), ?_, ?_⟩
  · rw [hi.after, State.tick_core, passOver, h5, State.modFlow_core]
    change s.core.cycle + _ + 1 = _
    omega
  · intro hn
    have hlevels := moved_levels_nil (i := i) hn
    rw [hi.after, State.pc, State.tick_cur, land_flow, passOver, h1]
    simp only [State.modFlow_cur, Ctx.modFlow_flow, afterBody] at hlevels ⊢
    rw [hlevels]
    exact ⟨rfl, rfl⟩

/-- A lone loop with its count, by the levels that are open. -/
theorem exec_openLoop {count len : Nat} (hd : dests i = [])
    (hr : slotRes (s.nextPc [i]) none i s = openLoop count len (s.nextPc [i]) s) :
    (¬ Nested len s → exec i s = .next (traps i .loopNest 0 0 s)) ∧
    (Nested len s → 0 < count → exec i s = .next (does i (State.modFlow (openLevel (s.nextPc [i]) len count s)) s)) ∧
    (Nested len s → count = 0 → ∀ l a, bodyAt s len (s.nextPc [i]) = (l, .at_ a) →
      ∃ t, exec i s = .next t ∧ t.core.cycle = s.core.cycle + 1 + (l.map (fun x => x / 64)).dedup.length ∧
        (s.cur.flow.levels = [] → t.pc = BitVec.ofNat 64 a ∧ t.cur.flow.levels = [])) ∧
    (Nested len s → count = 0 → ∀ l, (bodyAt s len (s.nextPc [i])).2 = .fault l →
      exec i s = .next (traps i .fetchFault 0 (BitVec.ofNat 64 l) s)) := by
  refine ⟨fun hn => ?nest, fun hn hc => ?level, fun hn hc l a hb => ?passes, fun hn hc l hb => ?fault⟩
  case nest => exact hi.exec_trap hq hl (hr.trans (openLoop_of_not_nested hn)) (by decide)
  case level =>
    exact hi.exec_does hq hl (hr.trans (openLoop_of_pos hn hc)) (pushesOf_nil hd) (modFlow_plain (moved_plain hq) rfl)
      (modFlow_tick hq (fun _ => rfl))
  case passes =>
    subst hc
    exact exec_passOver hi hq hl (hr.trans (openLoop_of_zero hn hb)) (pushesOf_nil hd)
  case fault =>
    subst hc
    exact hi.exec_trap hq hl (hr.trans (openLoop_of_fault hn hb)) (by decide)

end

/-! ## Obligation O16 -/

/-- Settles O16: a loop opens by its count and the levels around it, and a commit passes the bodies that end at its bundle. -/
theorem loopsOpenAndAdvance : Obligations.LoopsOpenAndAdvance := by
  refine ⟨fun len s hq => ?opens, fun next w o p => ?advances⟩
  case opens =>
    intro n nested opens
    refine ⟨fun c hl => ?immediate, fun r hr hl => ?register, fun r hr hl => ?poison⟩
    case immediate => exact exec_openLoop {} hq hl rfl (slot_loopImmediate ..)
    case register =>
      refine exec_openLoop {} hq hl rfl ((slot_loopRegister ..).trans ?_)
      rw [slotLoopReg, cleanG_quiet hq, hr, if_neg (by decide), low32_eq_bits]
      rfl
    case poison =>
      refine Ordinary.exec_trap {} hq hl ((slot_loopRegister ..).trans ?_) (by decide)
      rw [slotLoopReg, cleanG_quiet hq, hr, if_pos rfl]
      rfl
  case advances =>
    intro goes
    simp only [goes, advanceFlow]
    refine ⟨?_, ?_, ?_, ?_, ?_, ?_, ?_, ?_, ?_⟩
    · intro h; simp [h, passBody]
    · intro r h ho; simp [h, passBody, ho]
    · intro h ho hleft; simp [h, passBody, ho, hleft, countEnds]
    · intro h ho hleft; simp [h, passBody, ho, hleft]
    · intro h ho hleft hp; simp [h, passBody, ho, hleft, countEnds, hp]
    · intro h ho hleft hp; simp [h, passBody, ho, hleft, countEnds, hp]
    · intro h ho hleft hp; simp [h, passBody, ho, hleft, hp]
    · intro h ho hleft hp hpl; simp [h, passBody, ho, hleft, hp, hpl, countEnds]
    · intro h ho hleft hp hpl; simp [h, passBody, ho, hleft, hp, hpl]

end Sys2Proof.Machine
end

section
/-! `yield`, `phint`, `sysc` and `succ` (spec/07_scalar_control.md R96, R97, R99, R102). -/
namespace Sys2Proof.Machine

/-! ## The cycle of a commit -/

theorem moved_tick {s : State} (hq : quiet s = true) (i : Instr) : (moved i s).tick = passed [i] s := by
  rw [tick_landed (landed_moved hq i)]
  rfl

/-- The clock of a core depends on whether a task runs on it, on its own clock and on the latest one. -/
theorem clockHere_congr {s t : State} (hcur : t.cur.flow.residency = s.cur.flow.residency) (hparked : t.core.parked = s.core.parked)
    (hnow : t.core.now = s.core.now) (hclocks : t.pkg.clocks = s.pkg.clocks) : t.clockHere = s.clockHere := by
  unfold State.clockHere State.coreRuns
  rw [hcur, hparked, hnow, hclocks]

/-- The cycle after a commit that leaves the core's clock as it was. -/
theorem tick_of_clockHere {s t : State} (h : t.cur.Landed) (hc : t.clockHere = s.clockHere) : t.tick =
    { t with
      core := { t.core with cycle := t.core.cycle + 1, now := s.clockHere + 1 }
      pkg := t.pkg.pass (s.clockHere + 1 - max s.clockHere t.pkg.clocks)
      freeCount := t.freeCount + 1 } := by
  rw [tick_landed h, cycled, State.passClocks, hc]

/-! ## `yield` -/

theorem passPath_eq (t : State) : passPath t =
    (let x := t.core.sel
    if readyCtx (x + 1) t then focusCtx (x + 1) t else if readyCtx (x + 2) t then focusCtx (x + 2) t
    else if readyCtx (x + 3) t then focusCtx (x + 3) t else t) := by
  simp only [passPath, nextReady, List.find?]
  cases readyCtx (t.core.sel + 1) t
  · cases readyCtx (t.core.sel + 2) t
    · cases readyCtx (t.core.sel + 3) t <;> rfl
    · rfl
  · rfl

theorem exec_yield {s : State} (hq : quiet s = true) (hl : lone .yield s = true) :
    exec .yield s = .next (passPath (does .yield (State.modSys (fun (y : SysCtx) =>
      { y with wdCount := 0, wdSince := s.core.cycle + 1 })) s)) := by
  rw [exec_ok (F := id) hq hl (slot_yield ..) (overflows_none rfl) rfl (moved_plain hq), id, moved_tick hq]
  rfl

/-! ## `phint` -/

section
variable {f : PhintF} {s : State} (hq : quiet s = true) (hl : lone (.phint f) s = true)
include hq hl

theorem exec_phint : exec (.phint f) s = .next (
    if livenessFault [.phint f] s then traps (.phint f) .livenessEntry 0 0 s
    else afterPhint f (servesNow [.phint f] s) (passed [.phint f] s)) := by
  have hx : exec (.phint f) s = issueOne (.phint f) s := rfl
  have ho : overflows [.phint f] (.phint f) s = false := overflows_none rfl
  rw [hx, issue_lone hq hl, slot_phint, slotInOrder_free rfl]
  simp only [deferTrap, SlotRes.nothing, slotEnd, ho, Bool.false_eq_true, if_false]
  rw [commit_plain (F := id) hq (moved_plain hq), id, moved_tick hq]
  split <;> rfl

end

theorem servesNow_phint {f : PhintF} {s : State} (hq : quiet s = true) :
    servesNow [.phint f] s = (s.cur.flow.preempt && !s.cur.sys.handler) := by
  simp [servesNow, quiet_window hq]

theorem livenessFault_phint {f : PhintF} {s : State} (hq : quiet s = true) :
    livenessFault [.phint f] s = ((s.cur.flow.preempt && !s.cur.sys.handler) && (liveRanges f.index s).isNone) := by
  rw [← servesNow_phint (f := f) hq]
  rfl

/-- A save that finds nothing in flight begins at once. -/
theorem serveSave_calm {s : State} (h : Calm s) (l : LiveSet) : serveSave l s = beginSave l (s.modFlow (fun w => { w with saveWait := none })) := by
  have hc : Calm (s.modFlow (fun w => { w with saveWait := some l })) := ⟨h.pend, h.owed, h.queues, h.beats, h.ops, h.fact⟩
  unfold serveSave settleSave
  simp only [State.modFlow_cur, Ctx.modFlow_flow, drain_calm hc, drained_calm hc, if_true]
  rfl

/-- A save has begun: the context is in its save block. -/
theorem beginSave_saves (l : LiveSet) (s : State) :
    (beginSave l s).cur.flow.residency = .saving ∧ (beginSave l s).cur.flow.preempt = false ∧
      ∃ v ∈ (beginSave l s).die.queues.saved, v.home = s.curId ∧ v.saving = true ∧ v.index = s.die.queues.serial := by
  refine ⟨rfl, rfl, _, List.mem_append_right _ (List.mem_singleton.mpr rfl), rfl, rfl, rfl⟩

/-- A `phint` that serves a request from a state with nothing in flight begins the save. -/
theorem serves_saves {s : State} (h : Calm s) (f : PhintF) : let t := afterPhint f true s
    t.cur.flow.residency = .saving ∧ t.cur.flow.preempt = false ∧
      ∃ v ∈ t.die.queues.saved, v.home = s.curId ∧ v.saving = true ∧ v.index = s.die.queues.serial := by
  have hc : Calm (s.modFlow (fun w => { w with hint := some { f := f } })) := ⟨h.pend, h.owed, h.queues, h.beats, h.ops, h.fact⟩
  intro t
  have ht : t = serveSave (hintLive f _) (s.modFlow (fun w => { w with hint := some { f := f } })) := rfl
  rw [ht, serveSave_calm hc]
  exact beginSave_saves ..

/-! ## `sysc` -/

theorem quiet_resultsLanded {s : State} (hq : quiet s = true) : s.resultsLanded = true := by
  have hqueues : s.cur.q.toList.all (fun l => l.all (·.landed)) = true := by
    simp only [quiet, Bool.and_eq_true] at hq
    tauto
  rw [State.resultsLanded, quiet_pend hq, quiet_owed hq, hqueues]
  rfl

/-- A service notice that finds room is enqueued, and firmware is told nothing of it. -/
theorem enqueueNotice_service {s : State} (h : s.die.queues.notices.length < 4096) (code : BitVec 8) (args : NoticeArgs)
    (t : Option TaskRef) (rank : BitVec 16) : enqueueNotice 2 code args t rank s =
    (let who := match t with
      | some t => (if t.notice then (0 : BitVec 32) else pktSetid t.packet, t.x, t.y, t.z)
      | none => (0, 0, 0, 0)
    let n := mkNotice 2 code args who.1 who.2.1 who.2.2.1 who.2.2.2 rank s.die.queues.noticeSeq (BitVec.ofNat 64 s.timeNs)
    s.modQueues (fun q => { q with notices := q.notices ++ [n], noticeSeq := q.noticeSeq + 1 })) := by
  have hfull : s.noticesFull = false := by
    rw [State.noticesFull, decide_eq_false_iff_not]
    omega
  unfold enqueueNotice
  rw [if_neg (by rw [hfull]; decide)]
  rfl

/-- What `sysc` commits. -/
def callService (code : BitVec 8) (next : Word) (args : NoticeArgs) (u : State) : State :=
  ((enqueueNotice 2 code args u.cur.flow.task (rankOf u.curId) u).modFlow (fun w => { w with serviceWait := some next })).modCore
    (Core.addWaiter u.core.sel (28 + u.core.sel.setWidth 5) 1)

/-- A service's notice stands in the queue, and context `x` waits for its service flag. -/
def awaitsService (n : BitVec 512) (next : Word) (x : BitVec 2) (u : State) : State :=
  ((u.modQueues (fun q => { q with notices := q.notices ++ [n], noticeSeq := q.noticeSeq + 1 })).modFlow
    (fun w => { w with serviceWait := some next })).modCore (Core.addWaiter x (28 + x.setWidth 5) 1)

/-- The notice of a service that the context in focus calls. -/
def serviceNotice (code : BitVec 8) (args : NoticeArgs) (s : State) : BitVec 512 :=
  let who := match s.cur.flow.task with
    | some t => (if t.notice then (0 : BitVec 32) else pktSetid t.packet, t.x, t.y, t.z)
    | none => (0, 0, 0, 0)
  mkNotice 2 code args who.1 who.2.1 who.2.2.1 who.2.2.2 (rankOf s.curId) s.die.queues.noticeSeq (BitVec.ofNat 64 s.timeNs)

theorem callService_eq {s : State} (h : s.die.queues.notices.length < 4096) (code : BitVec 8) (next : Word) (args : NoticeArgs) :
    callService code next args s = awaitsService (serviceNotice code args s) next s.core.sel s := by
  rw [callService, enqueueNotice_service h]
  rfl

/-- The arguments of a service's notice. -/
def serviceArgs (next : Word) (s : State) : NoticeArgs :=
  { a0 := next, a1 := gReg 1 s, a2 := gReg 2 s, a3 := gReg 3 s, a4 := gReg 4 s }

theorem slotSysc_quiet {code : BitVec 8} {next : Word} {s : State} (hq : quiet s = true) : slotSysc code next s =
    if gTag 1 s || gTag 2 s || gTag 3 s || gTag 4 s then .trapOf .poison
    else if s.noticesFull then .trapOf .queueFull
    else .ok (callService code next (serviceArgs next s)) := by
  rw [slotSysc, quiet_resultsLanded hq, cleanG_quiet hq, cleanG_quiet hq, cleanG_quiet hq, cleanG_quiet hq]
  cases gTag 1 s
  · cases gTag 2 s
    · cases gTag 3 s
      · cases gTag 4 s <;> rfl
      · rfl
    · rfl
  · rfl

/-- A waiter is added whatever cycle it is. -/
theorem addWaiter_cycle (x : BitVec 2) (f : BitVec 5) (n : BitVec 16) (c : Core) (cycle now : Nat) :
    Core.addWaiter x f n { c with cycle := cycle, now := now } = { Core.addWaiter x f n c with cycle := cycle, now := now } := by
  unfold Core.addWaiter
  dsimp only
  split <;> rfl

/-- A waiter changes the waiters alone. -/
theorem addWaiter_frame (x : BitVec 2) (f : BitVec 5) (n : BitVec 16) (c : Core) :
    Core.addWaiter x f n c = { c with waiters := (Core.addWaiter x f n c).waiters } := by
  unfold Core.addWaiter
  split <;> rfl

theorem awaitsService_core (n : BitVec 512) (next : Word) (x : BitVec 2) (u : State) :
    ∃ l, (awaitsService n next x u).core = { u.core with waiters := l } := ⟨_, addWaiter_frame ..⟩

section
variable {i : Instr} {s : State} (hq : quiet s = true) (n : BitVec 512) (next : Word) (x : BitVec 2)
include hq

theorem awaitsService_tick : (awaitsService n next x (moved i s)).tick = does i (awaitsService n next x) s := by
  have hland : (awaitsService n next x (moved i s)).cur.Landed :=
    ⟨(landed_moved hq i).pend, (landed_moved hq i).queues⟩
  obtain ⟨l, hcore⟩ := awaitsService_core n next x (moved i s)
  have hclock : (awaitsService n next x (moved i s)).clockHere = s.clockHere := by
    refine clockHere_congr rfl ?_ ?_ rfl <;> rw [hcore] <;> rfl
  have hcycle : (awaitsService n next x (moved i s)).core.cycle = s.core.cycle := by
    rw [hcore]
    rfl
  have hpassed : (awaitsService n next x (passed [i] s)).core =
      { Core.addWaiter x (28 + x.setWidth 5) 1 s.core with cycle := s.core.cycle + 1, now := s.clockHere + 1 } :=
    addWaiter_cycle x (28 + x.setWidth 5) 1 s.core (s.core.cycle + 1) (s.clockHere + 1)
  rw [tick_of_clockHere hland hclock, hcycle]
  change _ = { awaitsService n next x (passed [i] s) with core := (awaitsService n next x (passed [i] s)).core }
  rw [hpassed]
  rfl

theorem awaitsService_plain : PlainCommit s (awaitsService n next x (moved i s)) := by
  obtain ⟨hids, hfact, hdelay, hbeats, hparked⟩ := moved_plain (i := i) hq
  obtain ⟨l, hcore⟩ := awaitsService_core n next x (moved i s)
  refine ⟨hids, ?_, hdelay, hbeats, ?_⟩
  · rw [hcore]
    exact hfact
  · rw [parkedBeats, hcore]
    exact hparked

end

/-- A lone `sysc` after which no earlier acquire stands. -/
theorem exec_sysc {code : BitVec 8} {s : State} (hq : quiet s = true) (hl : lone (.sysc code) s = true)
    (ha : s.acquireHeld = false) (hclean : (gTag 1 s || gTag 2 s || gTag 3 s || gTag 4 s) = false)
    (hroom : s.die.queues.notices.length < 4096) :
    let next := s.nextPc [.sysc code]
    let t := does (.sysc code) (awaitsService (serviceNotice code (serviceArgs next s) s) next s.core.sel) s
    exec (.sysc code) s = .next (if t.core.flagMet t.core.sel (28 + t.core.sel.setWidth 5) 1 then t else passPath t) := by
  intro next t
  have hfull : s.noticesFull = false := by
    rw [State.noticesFull, decide_eq_false_iff_not]
    omega
  have hF : callService code next (serviceArgs next s) (moved (.sysc code) s) =
      awaitsService (serviceNotice code (serviceArgs next s) s) next s.core.sel (moved (.sysc code) s) :=
    callService_eq (s := moved (.sysc code) s) hroom code next (serviceArgs next s)
  have hr : slotRes next none (.sysc code) s = .ok (callService code next (serviceArgs next s)) := by
    rw [slot_sysc, slotSysc_quiet hq, hclean, hfull]
    rfl
  rw [exec_ok hq hl hr (overflows_none rfl) rfl (hF ▸ awaitsService_plain hq _ _ _) (by rw [ha, Bool.and_false]), hF,
    awaitsService_tick hq]
  rfl

/-! ## `succ` -/

/-- What `succ` commits for a task of a set. -/
def succeeds (inst : Nat) (u : State) : State :=
  (u.modFlow (fun w => { w with succDone := true })).modQueues (fun q =>
    { q with sets := q.sets.map (fun e => if e.inst = inst then { e with succ := true } else e) })

theorem succeeds_tick {i : Instr} {s : State} (hq : quiet s = true) (inst : Nat) :
    (succeeds inst (moved i s)).tick = does i (succeeds inst) s := by
  have hland : (succeeds inst (moved i s)).cur.Landed :=
    ⟨(landed_moved hq i).pend, (landed_moved hq i).queues⟩
  have hclock : (succeeds inst (moved i s)).clockHere = s.clockHere := clockHere_congr rfl rfl rfl rfl
  rw [tick_of_clockHere hland hclock]
  rfl

theorem succeeds_plain {i : Instr} {s : State} (hq : quiet s = true) (inst : Nat) :
    PlainCommit s (succeeds inst (moved i s)) := by
  obtain ⟨hids, hfact, hdelay, hbeats, hparked⟩ := moved_plain (i := i) hq
  exact ⟨hids, hfact, hdelay, hbeats, hparked⟩

/-- What the slot of `succ` commits: for a task of a set, its first mark. -/
def markSet (u : State) : State :=
  if u.cur.flow.succDone then u
  else
    let u := u.modFlow (fun w => { w with succDone := true })
    match u.cur.flow.task with
    | some t => if t.notice then u else modSet t.inst (fun e => { e with succ := true }) u
    | none => u

theorem slotSucc_eq {s : State} (h : s.isRebuild = false) : slotSucc s = .ok markSet := if_neg (by rw [h]; decide)

theorem markSet_eq {u : State} {t : TaskRef} (ht : u.cur.flow.task = some t) (hn : t.notice = false) :
    markSet u = if u.cur.flow.succDone then u else succeeds t.inst u := by
  unfold markSet
  simp only [State.modFlow_cur, Ctx.modFlow_flow, ht, hn]
  rfl

theorem exec_succ {s : State} {t : TaskRef} (hq : quiet s = true) (hl : lone .succ s = true)
    (ht : s.cur.flow.task = some t) (hr : s.isRebuild = false) (hn : t.notice = false) :
    exec .succ s = .next (does .succ (fun u => if s.cur.flow.succDone then u else succeeds t.inst u) s) := by
  have hm : markSet (moved .succ s) = if s.cur.flow.succDone then moved .succ s else succeeds t.inst (moved .succ s) :=
    markSet_eq (u := moved .succ s) ht hn
  refine Ordinary.exec_does {} hq hl ((slot_succ ..).trans (slotSucc_eq hr)) (pushesOf_nil rfl) ?plain ?tick
  case plain =>
    rw [hm]
    split
    · exact moved_plain hq
    · exact succeeds_plain hq _
  case tick =>
    rw [hm, does]
    split
    · exact moved_tick hq _
    · exact succeeds_tick hq _

/-! ## Obligation O17 -/

/-- Settles O17: `yield` and `sysc` pass the path on, `phint` serves a request or names its hint, and `succ` marks its set. -/
theorem yieldHintServiceAndSuccessor : Obligations.YieldHintServiceAndSuccessor := by
  intro s hq pick waits
  have hpick : ∀ t, passPath t = pick t := passPath_eq
  refine ⟨fun hl => ?yield, fun f hl => ⟨fun h => ?hint, fun hp hh hf => ?fault, fun hp hh hf hs => ?save⟩,
    fun code hl ha => ⟨fun ht => ?poison, fun ht hfull => ?full, fun ht hroom => ?call⟩, fun t hl ht hr hn => ?succ,
    fun hl hr => ?rebuild⟩
  case yield => rw [exec_yield hq hl, hpick]
  case hint =>
    have hserve : (s.cur.flow.preempt && !s.cur.sys.handler) = false := by rcases h with h | h <;> simp [h]
    rw [exec_phint hq hl, livenessFault_phint hq, servesNow_phint hq, hserve]
    rfl
  case fault =>
    rw [exec_phint hq hl, livenessFault_phint hq, hp, hh, hf]
    rfl
  case save =>
    have hcalm := calm_passed (calm_quiet hq hs) [.phint f]
    have hserve : (s.cur.flow.preempt && !s.cur.sys.handler) = true := by rw [hp, hh]; rfl
    have hnone : (liveRanges f.index s).isNone = false := by
      rw [← Option.not_isSome, hf]; rfl
    rw [exec_phint hq hl, livenessFault_phint hq, servesNow_phint hq, hserve, hnone, if_neg (by decide)]
    obtain ⟨hres, hpre, v, hv, hhome, hsaving, hindex⟩ := serves_saves hcalm f
    exact ⟨afterPhint f true (passed [.phint f] s), v, rfl, hres, hpre, hv, hhome, hsaving, hindex⟩
  case poison =>
    refine exec_trap hq hl ((slot_sysc ..).trans ((slotSysc_quiet hq).trans (if_pos ht))) (by decide) rfl
      (by rw [ha, Bool.and_false])
  case full =>
    have hnotices : s.noticesFull = true := decide_eq_true hfull
    refine exec_trap hq hl ((slot_sysc ..).trans ((slotSysc_quiet hq).trans ?_)) (by decide) rfl (by rw [ha, Bool.and_false])
    rw [if_neg (by rw [ht]; decide), if_pos hnotices]
    rfl
  case call =>
    rw [exec_sysc hq hl ha ht hroom, hpick]
    rfl
  case succ =>
    exact exec_succ hq hl ht (by rw [State.isRebuild, ht]; exact Option.isSome_eq_false_iff.mpr (by rw [hr]; rfl)) hn
  case rebuild =>
    exact Ordinary.exec_nothing {} hq hl ((slot_succ ..).trans (if_pos hr)) (pushesOf_nil rfl)

end Sys2Proof.Machine
end

section
/-! Trap entry and return (spec/09_traps.md R122 to R132; spec/07_scalar_control.md R98, R100). -/
namespace Sys2Proof.Machine

/-! ## Fields of a record -/

theorem leNat_lt : ∀ bs : List Byte, leNat bs < 2 ^ (8 * bs.length)
  | [] => by simp [leNat]
  | b :: r => by
    have hb : b.toNat < 2 ^ 8 := b.isLt
    have hr := leNat_lt r
    have hpow : 2 ^ (8 * (b :: r).length) = 256 * 2 ^ (8 * r.length) := by
      rw [List.length_cons, Nat.mul_succ, Nat.pow_add, Nat.mul_comm]
    rw [leNat, hpow]
    omega

theorem toNat_append_eq {m n : Nat} (x : BitVec m) (y : BitVec n) : (x ++ y).toNat = x.toNat * 2 ^ n + y.toNat := by
  rw [BitVec.toNat_append, ← Nat.shiftLeft_add_eq_or_of_lt y.isLt, Nat.shiftLeft_eq]

theorem loggedBits_toNat {n : Nat} {bs : List Byte} (h : 8 * bs.length ≤ n) : (loggedBits n bs).toNat = leNat bs := by
  rw [loggedBits, BitVec.toNat_ofNat, Nat.mod_eq_of_lt]
  exact (leNat_lt bs).trans_le (Nat.pow_le_pow_right (by decide) h)

theorem causeByte_toNat (c : Cause) (handler : Bool) :
    (causeByte c handler).toNat = c.code.toNat + (if handler then 128 else 0) := by
  cases c <;> cases handler <;> decide

/-- TRAPINFO of a request, as a number. -/
theorem trapInfo_toNat {r : TrapReq} (hlog : r.logged.length ≤ 47) (handler : Bool) (ret : Word) :
    (trapInfo r handler ret).toNat = infoNat r.logged (causeByte r.cause handler).toNat r.slot.toNat r.aux r.faddr r.pc ret := by
  unfold trapInfo infoNat
  simp only [toNat_append_eq]
  rw [loggedBits_toNat (by omega)]
  simp only [BitVec.toNat_setWidth, BitVec.ofNat_eq_ofNat, BitVec.toNat_ofNat, Nat.zero_mod,
    Nat.mod_eq_of_lt (show r.logged.length < 2 ^ 6 by omega)]
  ring

theorem pcOffset_toNat (pc code : Word) : (pcOffset pc code).toNat =
    if code.toNat ≤ pc.toNat ∧ pc.toNat - code.toNat ≤ 0xFFFFFE then pc.toNat - code.toNat else 0xFFFFFF := by
  simp only [pcOffset, BitVec.le_def]
  by_cases hle : code.toNat ≤ pc.toNat
  · have hsub : (pc - code).toNat = pc.toNat - code.toNat := BitVec.toNat_sub_of_le (BitVec.le_def.mpr hle)
    rw [hsub]
    split
    · rw [BitVec.toNat_setWidth, hsub]
      omega
    · rfl
  · rw [if_neg (by tauto), if_neg (by tauto)]
    rfl

/-- The trap record of a request, as a number. -/
theorem trapRecord_toNat {r : TrapReq} (hlog : r.logged.length ≤ 47) (handler : Bool) (code : Word) (c : CtxId)
    (seq : BitVec 32) (time : Word) : (trapRecord r handler code c seq time).toNat =
      recordNat r.logged (causeByte r.cause handler).toNat r.pc code c.core.toNat c.ctx.toNat seq.toNat time.toNat := by
  unfold trapRecord recordNat
  simp only [toNat_append_eq]
  rw [loggedBits_toNat (by omega), pcOffset_toNat]
  ring

/-! ## The record of a trap -/

theorem causeByte_eq_causeNat (c : Cause) (s : State) : (causeByte c s.cur.sys.handler).toNat = causeNat c s :=
  causeByte_toNat ..

/-- The record of a request stands in the trap log. -/
theorem writeRecord_eq {r : TrapReq} (hlog : r.logged.length ≤ 47) (s : State) :
    writeRecord r s = recorded r.logged (causeNat r.cause s) r.pc s := by
  have h := trapRecord_toNat hlog s.cur.sys.handler (codeAddr s) s.curId s.core.seq (BitVec.ofNat 64 s.timeNs)
  rw [causeByte_eq_causeNat, BitVec.toNat_ofNat] at h
  have hrec : trapRecord r s.cur.sys.handler (codeAddr s) s.curId s.core.seq (BitVec.ofNat 64 s.timeNs) =
      BitVec.ofNat 512 (recordNat r.logged (causeNat r.cause s) r.pc (codeAddr s) s.core.id.toNat s.core.sel.toNat
        s.core.seq.toNat (s.timeNs % 2 ^ 64)) := by
    rw [← BitVec.setWidth_eq (trapRecord ..), ← BitVec.ofNat_toNat]
    exact congrArg (BitVec.ofNat 512) h
  unfold recorded
  rw [← hrec]
  rfl

theorem endDelay_of_nil {s : State} (h : s.cur.sys.fmtDelay = []) : s.modSys SysCtx.endDelay = s := by
  have hy : SysCtx.endDelay s.cur.sys = s.cur.sys := by simp [SysCtx.endDelay, h]
  simp [State.modSys, State.modCtx, Ctx.modSys, hy]

/-! ## The delivery of a trap -/

theorem trapRetires_of_handled {c : Cause} {s : State} (h : handled c s = true) : s.cur.trapRetires c = false := by
  unfold handled at h
  unfold Ctx.trapRetires Cause.classX
  simp only [Bool.and_eq_true, decide_eq_true_eq, Bool.not_eq_true', bne_iff_ne] at h
  obtain ⟨⟨⟨hclass, hhandler⟩, htvec⟩, hpour⟩ := h
  have hx : ¬ (0x19 : BitVec 8) ≤ c.code := by rw [BitVec.le_def]; exact not_le.mpr hclass
  rw [decide_eq_false hx, hhandler, beq_eq_false_iff_ne.mpr htvec]
  exact hpour

theorem deliverTrap_handled {r : TrapReq} {s : State} (hd : s.cur.sys.fmtDelay = []) (hlog : r.logged.length ≤ 47)
    (hne : r.logged ≠ []) (h : handled r.cause s = true) : deliverTrap r s =
      entered (infoNat r.logged (causeNat r.cause s) r.slot.toNat r.aux r.faddr r.pc (r.ret.getD s.pc))
        (recorded r.logged (causeNat r.cause s) r.pc s) := by
  have hempty : (r.ret.isNone && r.logged.isEmpty) = false := by
    rw [List.isEmpty_eq_false_iff.mpr hne, Bool.and_false]
  have hdelay : (endWaits s).modSys SysCtx.endDelay = endWaits s := endDelay_of_nil hd
  have hretires : (recorded r.logged (causeNat r.cause s) r.pc (endWaits s).dropEnds).cur.trapRetires r.cause = false :=
    trapRetires_of_handled h
  have hinfo : trapInfo r s.cur.sys.handler (r.ret.getD s.pc) =
      BitVec.ofNat 640 (infoNat r.logged (causeNat r.cause s) r.slot.toNat r.aux r.faddr r.pc (r.ret.getD s.pc)) := by
    rw [← causeByte_eq_causeNat, ← trapInfo_toNat hlog, BitVec.ofNat_toNat, BitVec.setWidth_eq]
  have hrecord : writeRecord r (endWaits s).dropEnds = recorded r.logged (causeNat r.cause s) r.pc (endWaits s).dropEnds :=
    writeRecord_eq hlog _
  unfold deliverTrap entered
  simp only [hempty, Bool.false_eq_true, if_false]
  rw [hdelay, hrecord, hretires, ← hinfo]
  rfl

/-! ## A trap of a lone bundle -/

theorem slotBit_lt (i : Instr) : slotBit i < 8 := by
  unfold slotBit
  split
  · rename_i k _
    cases k <;> decide
  · decide

theorem logged_length (is : List Instr) : ((bundleBytes is).take 47).length ≤ 47 := List.length_take_le ..

theorem deliverTrap_bundleTrap {is : List Instr} {c : Cause} {slot : Nat} {s : State} (hd : s.cur.sys.fmtDelay = [])
    (hslot : slot < 8) (h : handled c s = true) (aux : BitVec 8) (faddr : Word) :
    let log := (bundleBytes is).take 47
    deliverTrap (bundleTrap is c aux faddr slot s) s =
      entered (infoNat log (causeNat c s) slot aux faddr s.pc s.pc) (recorded log (causeNat c s) s.pc s) := by
  have hdeliver := deliverTrap_handled (r := bundleTrap is c aux faddr slot s) hd (logged_length is) bundleBytes_length h
  simpa only [bundleTrap, BitVec.toNat_ofNat, Nat.reducePow, Nat.mod_eq_of_lt hslot, Option.getD_none] using hdeliver

theorem cycled_cur (s : State) : (cycled s).cur = s.cur := rfl

theorem settled_running {s : State} (hs : settled s = true) : s.cur.flow.residency = .running := by
  simp only [settled, Bool.and_eq_true, beq_iff_eq] at hs
  exact hs.2

/-- What a trap of the context in focus changes: the record, and the entry of the handler. -/
theorem traps_of_handled {i : Instr} {c : Cause} {s : State} (hq : quiet s = true) (hs : settled s = true)
    (h : handled c s = true) (aux : BitVec 8) (faddr : Word) :
    let log := (bundleBytes [i]).take 47
    traps i c aux faddr s =
      cycled (entered (infoNat log (causeNat c s) (slotBit i) aux faddr s.pc s.pc) (recorded log (causeNat c s) s.pc s)) := by
  intro log
  have hcalm := calm_quiet hq hs
  rw [traps, trapBundle, takeTrap_calm hcalm, deliverTrap_bundleTrap (quiet_delay hq) (slotBit_lt i) h,
    tick_calm (calm_entered hcalm ..)]
  exact settleCur_running (by rw [cycled_cur, entered_residency, recorded_cur, settled_running hs])

/-! ## `trap` -/

section
variable {code : BitVec 8} {s : State} (hq : quiet s = true) (hl : lone (.trap code) s = true)
include hq hl

/-- A software trap commits its bundle first. -/
theorem exec_softTrap : exec (.trap code) s = .next (softTrap [.trap code] code s.pc (passed [.trap code] s)) := by
  have hx : exec (.trap code) s = issueOne (.trap code) s := rfl
  have hheld := held_quiet (i := .trap code) hq
  have hcommit : commitBundle [.trap code] [(.trap code, .trap .softwareTrap code 0)] s =
      commitBundle [.trap code] [(.trap code, .ok id)] s := rfl
  rw [hx, issue_lone hq hl, slot_trap, slotTrap, deferTrap_free hheld, slotInOrder_free rfl]
  simp only [slotEnd, if_true, liveness_lone (i := .trap code) (s := s) rfl, Bool.false_eq_true, if_false]
  rw [hcommit, commit_plain (F := id) hq (moved_plain hq), id, moved_tick hq]
  rfl

end

theorem softTrap_of_handled {code : BitVec 8} {s : State} {is : List Instr} {pc : Word} (hcalm : Calm s)
    (hrun : s.cur.flow.residency = .running) (hd : s.cur.sys.fmtDelay = []) (h : handled .softwareTrap s = true) :
    let log := (bundleBytes is).take 47
    softTrap is code pc s =
      entered (infoNat log (causeNat .softwareTrap s) 0 code 0 pc (pc + BitVec.ofNat 64 (bundleBytes is).length))
        (recorded log (causeNat .softwareTrap s) pc s) := by
  intro log
  have hdeliver := deliverTrap_handled
    (r := { bundleTrap is .softwareTrap code 0 0 s with
      pc := pc, ret := some (pc + BitVec.ofNat 64 (bundleBytes is).length) }) hd (logged_length is) bundleBytes_length h
  simp only [bundleTrap, BitVec.toNat_ofNat, Nat.zero_mod, Option.getD_some] at hdeliver
  unfold softTrap
  simp only [bundleTrap]
  rw [takeTrap_calm hcalm, hdeliver]
  exact settleCur_running (by rw [entered_residency, recorded_cur, hrun])

/-! ## `eret` -/

theorem ret_eq (y : SysCtx) : y.ret = BitVec.ofNat 64 (y.trapinfo.toNat / 2 ^ 128 % 2 ^ 56) := by
  have h : (y.trapinfo.toNat / 2 ^ 128) % 2 ^ 56 < 2 ^ 64 := (Nat.mod_lt _ (by positivity)).trans (by norm_num)
  apply BitVec.eq_of_toNat_eq
  rw [SysCtx.ret, BitVec.toNat_setWidth, BitVec.extractLsb'_toNat, Nat.shiftRight_eq_div_pow, BitVec.toNat_ofNat]

theorem returnTrap_tick {i : Instr} {s : State} (hq : quiet s = true) :
    (returnTrap (moved i s)).tick = does i returnTrap s := by
  have hland : (returnTrap (moved i s)).cur.Landed := ⟨(landed_moved hq i).pend, (landed_moved hq i).queues⟩
  have hclock : (returnTrap (moved i s)).clockHere = s.clockHere := clockHere_congr rfl rfl rfl rfl
  rw [tick_of_clockHere hland hclock]
  rfl

theorem returnTrap_plain {i : Instr} {s : State} (hq : quiet s = true) : PlainCommit s (returnTrap (moved i s)) := by
  obtain ⟨hids, hfact, hdelay, hbeats, hparked⟩ := moved_plain (i := i) hq
  exact ⟨hids, hfact, hdelay, hbeats, hparked⟩

theorem returnTrap_eq {t : State} {kept : List Level} {ret : Word} (hk : t.cur.flow.kept = kept) (hr : t.cur.sys.ret = ret) :
    returnTrap t = (t.modSys (fun y => { y with handler := false })).modFlow (fun w =>
      { w with levels := kept, kept := [], pc := ret }) := by
  subst hk hr
  rfl

/-- The kept levels and the return point are those of the state before the bundle. -/
theorem returnTrap_passed (i : Instr) (s : State) : does i returnTrap s = does i (fun t =>
    (t.modSys (fun y => { y with handler := false })).modFlow (fun w =>
      { w with levels := s.cur.flow.kept, kept := [], pc := s.cur.sys.ret })) s :=
  returnTrap_eq (t := passed [i] s) rfl (congrArg SysCtx.ret rfl)

/-! ## Obligation O18 -/

/-- Settles O18: a trap with nothing left to drain enters its handler, and `eret` leaves it. -/
theorem trapEntryAndReturn : Obligations.TrapEntryAndReturn := by
  refine ⟨fun i c aux faddr s hq hs h => traps_of_handled hq hs h aux faddr,
    fun s hq => ⟨fun code hl hs h => ?softTrap, fun hl h => ?outside, fun hl h => ?inside⟩⟩
  case softTrap =>
    intro log
    rw [exec_softTrap hq hl, softTrap_of_handled (calm_passed (calm_quiet hq hs) _)]
    · rfl
    · exact settled_running hs
    · exact quiet_delay (s := s) hq
    · exact h
  case outside =>
    exact Ordinary.exec_trap {} hq hl ((slot_eret ..).trans (if_neg (by rw [h]; decide))) (by decide)
  case inside =>
    rw [← ret_eq, ← returnTrap_passed]
    exact Ordinary.exec_does {} hq hl ((slot_eret ..).trans (if_pos h)) (pushesOf_nil rfl) (returnTrap_plain hq)
      (returnTrap_tick hq)

end Sys2Proof.Machine
end

section
/-! `wdog` (spec/07_scalar_control.md R104). -/
namespace Sys2Proof.Machine

/-- Two entries stand for context 1 in the store of parked contexts, one free and one running: no canonical store is so.  The
core counts its own clock, 5, because of the running one. -/
def twiceParked : State :=
  let s := State.reset.modSys (fun y => { y with mode := .supervisor })
  let running := Ctx.reset.modFlow (fun w => { w with residency := .running })
  { s with
    cur := { s.cur with g := s.cur.g.set 2 1 }
    core := { s.core with now := 5, parked := [(1, Ctx.reset), (1, running)] } }

/-- The clock of the core in focus after a step. -/
def nowAfter : Host.Outcome State Fault Refusal → Nat
  | .next t => t.core.now
  | _ => 0

/-- Zeroing the watchdog of context 1 removes both entries before the cycle passes: no task runs on the core any more, and its
clock goes on from the package's, 0. -/
theorem wdog_twiceParked : nowAfter (exec (.wdogSetZero { reg := 2, port := 0 }) twiceParked) = 1 := by decide +kernel

/-! ## Obligation O20 -/

/-- Refutes O20: the statement lets the cycle pass before the action, while the model acts first.  The action writes the store
of parked contexts, and a write leaves one entry of its key.  Where a state holds two entries of the target, the second of them
running, the model's cycle passes on a core that runs no task (clock 0 + 1), the statement's on one that does (clock 5 + 1). -/
theorem not_watchdogActions : ¬ Obligations.WatchdogActions := by
  intro h
  have hq : quiet twiceParked = true := by decide +kernel
  have hl : lone (.wdogSetZero { reg := 2, port := 0 }) twiceParked = true := by decide +kernel
  obtain ⟨hzero, -, -, -⟩ := h { reg := 2, port := 0 } twiceParked hq
  have hnow := wdog_twiceParked.symm.trans (congrArg nowAfter (hzero hl))
  exact absurd hnow (by decide +kernel)

end Sys2Proof.Machine
end

section
/-! The retirement of a task (spec/09_traps.md R128, R129; spec/07_scalar_control.md R101). -/
namespace Sys2Proof.Machine

/-! ## The retirement -/

theorem pour_of_task {s : State} {k : TaskRef} (ht : s.cur.flow.task = some k) (hp : k.pour = false) : s.pour = none := by
  simp [State.pour, ht, hp]

theorem pourMates_of_task {s : State} {k : TaskRef} (ht : s.cur.flow.task = some k) (hp : k.pour = false) : pourMates s = [] := by
  simp [pourMates, ht, hp]

/-- What a retirement leaves of a state and what it changes there, of what decides whether the context becomes free. -/
structure Retired (failed : Bool) (k : TaskRef) (s t : State) : Prop where
  residency : t.cur.flow.residency = .retiring
  faulted : t.cur.flow.faulted = failed
  region : t.cur.flow.region = s.cur.flow.region
  slots : t.cur.flow.slots = s.cur.flow.slots
  task : t.cur.flow.task = s.cur.flow.task
  curId : t.curId = s.curId
  prefetch : t.core.prefetch = s.core.prefetch
  seq : t.core.seq = s.core.seq
  rings : t.die.rings = s.die.rings
  ops : t.die.ops.any (fun o => o.owner == s.curId && o.serial == k.serial) =
    s.die.ops.any (fun o => o.owner == s.curId && o.serial == k.serial)
  trapLog : t.die.trapLog = s.die.trapLog
  trapCount : t.die.trapCount = s.die.trapCount
  notices : t.die.queues.notices = s.die.queues.notices
  publications : t.die.queues.publications =
    s.die.queues.publications ++ [{ key := k.serial, owner := s.curId, ref := k, faulted := failed }]

/-- Whose an operation is does not change where it no longer posts. -/
theorem any_unposted (c : CtxId) (n : Nat) (ops : List Op) :
    (ops.map (fun o => if o.owner = c ∧ o.serial = n then o.unposted else o)).any (fun o => o.owner == c && o.serial == n) =
      ops.any (fun o => o.owner == c && o.serial == n) := by
  rw [List.any_map]
  congr 1
  funext o
  simp only [Function.comp_apply]
  split <;> rfl

theorem retire_landed (failed : Bool) (s : State) : (retire failed s).cur.Landed where
  pend := rfl
  queues r e he := by simp [retire, Ctx.queue] at he

/-- A task retires that is neither the service of a notice nor part of a pour. -/
theorem retire_retired {s : State} {k : TaskRef} (ht : s.cur.flow.task = some k) (hn : k.notice = false) (hp : k.pour = false)
    (failed : Bool) : Retired failed k s (retire failed s) := by
  have htask : ∀ f, (s.modDie f).cur.flow.task = some k := fun _ => ht
  have hpour : ∀ f, (s.modDie f).pour = none := fun f => pour_of_task (s := s.modDie f) ht hp
  have hmates : ∀ f, pourMates (s.modDie f) = [] := fun f => pourMates_of_task (s := s.modDie f) ht hp
  cases failed
  · simp only [retire, ht, hn, pourMates_of_task ht hp, pour_of_task ht hp, List.isEmpty_nil, Bool.false_eq_true, if_false,
      Bool.not_true, Bool.or_self]
    constructor <;> rfl
  · simp only [retire, ht, hn, htask, hmates, hpour, List.isEmpty_nil, Bool.false_eq_true, if_false, if_true, Bool.not_true,
      Bool.or_self]
    constructor
    case ops => exact any_unposted s.curId k.serial s.die.ops
    all_goals rfl

/-! ## What follows a retirement -/

theorem closeLanes_of_none {n : Nat} {s : State} (h : ∀ r ∈ s.die.rings, ∀ x ∈ r.owners, x.2 ≠ n) : closeLanes n s = s := by
  have hmine : ∀ r ∈ s.die.rings, r.owners.filter (fun x => x.2 == n && !laneBit x.1 r.closed) = [] := fun r hr => by
    rw [List.filter_eq_nil_iff]
    intro x hx
    simp [h r hr x hx]
  unfold closeLanes
  generalize s.die.rings = rings at hmine
  induction rings with
  | nil => rfl
  | cons r rs ih =>
    have hr := hmine r List.mem_cons_self
    have hrs := ih fun r' hr' => hmine r' (List.mem_cons_of_mem _ hr')
    simpa only [List.foldl_cons, hr, List.isEmpty_nil, if_true] using hrs

theorem freeSlots_of_unheld {c : Ctx} (h : c.flow.slots.all (fun (x : Slot) => !x.held) = true) : freeSlots c = 8 := by
  have hall : c.flow.slots.toList.filter (fun x => !x.held) = c.flow.slots.toList :=
    List.filter_eq_self.mpr fun x hx => Vector.all_eq_true_iff_forall_mem.mp h x (Vector.mem_toList_iff.mp hx)
  rw [freeSlots, hall, Vector.length_toList]

/-- Nothing keeps a context that retires. -/
theorem settleCur_vacates {s : State} {n : Nat} (hres : s.cur.flow.residency = .retiring) (hserial : s.cur.serial = n)
    (hregion : s.cur.flow.region = none) (hrings : ∀ r ∈ s.die.rings, ∀ x ∈ r.owners, x.2 ≠ n)
    (hslots : s.cur.flow.slots.all (fun (x : Slot) => !x.held) = true)
    (hops : (s.cur.flow.faulted && s.die.ops.any (fun o => o.owner == s.curId && o.serial == n)) = false)
    (hprefetch : s.core.prefetch = []) : settleCur s = vacate s := by
  have hleave : leaveAtRetire s.cur.flow.faulted s = s := by simp only [leaveAtRetire, hregion]
  have hnext : startNext (vacate s) = vacate s := if_pos (List.isEmpty_iff.mpr hprefetch)
  subst hserial
  unfold settleCur
  rw [if_neg (not_not.mpr hres)]
  simp only [hleave, closeLanes_of_none hrings, freeSlots_of_unheld hslots, hops, Bool.not_false, decide_true, Bool.and_self,
    if_true, hnext]

theorem serial_of_task {c : Ctx} {k : TaskRef} (ht : c.flow.task = some k) : c.serial = k.serial := by
  simp [Ctx.serial, ht]

theorem Retired.cycled {failed : Bool} {k : TaskRef} {s t : State} (h : Retired failed k s t) :
    Retired failed k s (cycled t) :=
  { h with }

/-- The context of a task that nothing keeps becomes free as the task retires. -/
theorem Retired.vacates {failed : Bool} {k : TaskRef} {s t : State} (h : Retired failed k s t) (ht : s.cur.flow.task = some k)
    (hregion : s.cur.flow.region = none) (hrings : ∀ r ∈ s.die.rings, ∀ x ∈ r.owners, x.2 ≠ k.serial)
    (hslots : s.cur.flow.slots.all (fun (x : Slot) => !x.held) = true) (hops : failed = true → s.taskOps = [])
    (hprefetch : s.core.prefetch = []) : settleCur t = vacate t := by
  apply settleCur_vacates h.residency (serial_of_task (h.task.trans ht))
  · exact h.region.trans hregion
  · rwa [h.rings]
  · rwa [h.slots]
  · rw [h.faulted, h.curId, h.ops]
    cases failed
    case false => rfl
    case true =>
      have hnone := List.filter_eq_nil_iff.mp (hops rfl)
      rw [serial_of_task ht] at hnone
      simpa using hnone
  · exact h.prefetch.trans hprefetch

/-! ## The retirement by a trap -/

theorem retireFaulted_eq {r : TrapReq} {s : State} {k : TaskRef} (ht : s.cur.flow.task = some k) (hp : k.pour = false) :
    retireFaulted r s = retire true (enqueueNotice 1 (causeByte r.cause s.cur.sys.handler)
      { a0 := s.lastRecord, a1 := 0, a2 := 0, a3 := 0, a4 := 0 } s.cur.flow.task (rankOf s.curId) s) := by
  simp only [retireFaulted, pour_of_task ht hp, Option.isSome_none, Bool.false_eq_true, if_false]

/-- SETID and the indices in the notice of a task (spec/21_tasks.md R320). -/
def noticeWho (t : Option TaskRef) : BitVec 32 × BitVec 16 × BitVec 16 × BitVec 16 :=
  match t with
  | some t => (if t.notice then (0 : BitVec 32) else pktSetid t.packet, t.x, t.y, t.z)
  | none => (0, 0, 0, 0)

/-- A notice that finds room stands last in the queue. -/
theorem enqueueNotice_room {s : State} (h : s.die.queues.notices.length < 4096) (kind cause : BitVec 8) (args : NoticeArgs)
    (t : Option TaskRef) (rank : BitVec 16) : enqueueNotice kind cause args t rank s =
      (let who := noticeWho t
      let n := mkNotice kind cause args who.1 who.2.1 who.2.2.1 who.2.2.2 rank s.die.queues.noticeSeq (BitVec.ofNat 64 s.timeNs)
      tellFirmware kind n (s.modQueues (fun q => { q with notices := q.notices ++ [n], noticeSeq := q.noticeSeq + 1 }))) := by
  have hroom : s.noticesFull = false := by
    rw [State.noticesFull, decide_eq_false_iff_not]
    omega
  unfold enqueueNotice
  rw [if_neg (by rw [hroom]; decide)]
  rfl

/-- KIND, cause and A0 of a notice. -/
theorem mkNotice_fields (kind cause : BitVec 8) (args : NoticeArgs) (setid : BitVec 32) (x y z rank seq : BitVec 16) (time : Word) :
    let n := mkNotice kind cause args setid x y z rank seq time
    noticeKind n = kind ∧ bits 64 8 n = cause ∧ bits 192 64 n = args.a0 := by
  refine ⟨?_, ?_, ?_⟩
  all_goals
    apply BitVec.eq_of_toNat_eq
    simp only [noticeKind, mkNotice, bits, BitVec.extractLsb'_toNat, toNat_append_eq, Nat.shiftRight_eq_div_pow]
    omega

/-! The record of a trap changes the trap log and its counts alone. -/

section
variable (b : BitVec 512) (l : List Byte) (c : Nat) (p : Word) (s : State)

theorem logs_queues : (logs b s).die.queues = s.die.queues := rfl
theorem logs_rings : (logs b s).die.rings = s.die.rings := rfl
theorem logs_trapCount : (logs b s).die.trapCount = s.die.trapCount + 1 := rfl
theorem logs_seq : (logs b s).core.seq = s.core.seq + 1 := rfl
theorem logs_prefetch : (logs b s).core.prefetch = s.core.prefetch := rfl
theorem logs_trapLog : (logs b s).die.trapLog = smSet 0 s.die.trapLog (s.die.trapCount % 65536) b := rfl

theorem recorded_queues : (recorded l c p s).die.queues = s.die.queues := by unfold recorded; exact logs_queues _ _
theorem recorded_rings : (recorded l c p s).die.rings = s.die.rings := by unfold recorded; exact logs_rings _ _
theorem recorded_trapCount : (recorded l c p s).die.trapCount = s.die.trapCount + 1 := by
  unfold recorded; exact logs_trapCount _ _
theorem recorded_seq : (recorded l c p s).core.seq = s.core.seq + 1 := by unfold recorded; exact logs_seq _ _
theorem recorded_prefetch : (recorded l c p s).core.prefetch = s.core.prefetch := by unfold recorded; exact logs_prefetch _ _

end

/-- Nor does it speak of what ends with the bundle's waits. -/
theorem recorded_endWaits_trapLog (l : List Byte) (c : Nat) (p : Word) (s : State) :
    (recorded l c p (endWaits s).dropEnds).die.trapLog = (recorded l c p s).die.trapLog := by
  unfold recorded
  rw [logs_trapLog, logs_trapLog]
  rfl

/-- The fault notice of a task that retires by a trap is enqueued. -/
def noticeFault (c : Cause) (s : State) : State :=
  enqueueNotice 1 (causeByte c s.cur.sys.handler) { a0 := s.lastRecord, a1 := 0, a2 := 0, a3 := 0, a4 := 0 } s.cur.flow.task
    (rankOf s.curId) s

/-- The state in which the task of a trap that goes to no handler retires: the record stands in the trap log, and the fault
notice in the notice queue. -/
def failedBy (r : TrapReq) (s : State) : State :=
  noticeFault r.cause (recorded r.logged (causeNat r.cause s) r.pc (endWaits s).dropEnds)

/-- The delivery of a trap that goes to no handler. -/
theorem deliverTrap_retires {r : TrapReq} {s : State} {k : TaskRef} (ht : s.cur.flow.task = some k) (hp : k.pour = false)
    (hd : s.cur.sys.fmtDelay = []) (hlog : r.logged.length ≤ 47) (hne : r.logged ≠ [])
    (hret : s.cur.trapRetires r.cause = true) : deliverTrap r s = retire true (failedBy r s) := by
  have hempty : (r.ret.isNone && r.logged.isEmpty) = false := by
    rw [List.isEmpty_eq_false_iff.mpr hne, Bool.and_false]
  have hdelay : (endWaits s).modSys SysCtx.endDelay = endWaits s := endDelay_of_nil hd
  have hrecord : writeRecord r (endWaits s).dropEnds = recorded r.logged (causeNat r.cause s) r.pc (endWaits s).dropEnds :=
    writeRecord_eq hlog _
  have htask : (recorded r.logged (causeNat r.cause s) r.pc (endWaits s).dropEnds).cur.flow.task = some k := by
    rw [recorded_cur]
    exact ht
  have hretires : (recorded r.logged (causeNat r.cause s) r.pc (endWaits s).dropEnds).cur.trapRetires r.cause = true := by
    rw [recorded_cur]
    exact hret
  unfold deliverTrap
  simp only [hempty, Bool.false_eq_true, if_false]
  rw [hdelay, hrecord, if_pos hretires, retireFaulted_eq htask hp]
  rfl

/-- The fault notice of R129. -/
structure FaultNotice (cause record : Nat) (n : BitVec 512) : Prop where
  kind : noticeKind n = 1
  cause : (bits 64 8 n : BitVec 8).toNat = cause
  record : (bits 192 64 n : BitVec 64).toNat = record

/-- What the fault notice leaves of a state and what it changes. -/
structure Noticed (c : Cause) (s t : State) : Prop where
  cur : t.cur = s.cur
  core : t.core = s.core
  rings : t.die.rings = s.die.rings
  ops : t.die.ops = s.die.ops
  trapLog : t.die.trapLog = s.die.trapLog
  trapCount : t.die.trapCount = s.die.trapCount
  publications : t.die.queues.publications = s.die.queues.publications
  notices : ∃ n, t.die.queues.notices = s.die.queues.notices ++ [n] ∧ FaultNotice (causeNat c s) s.lastRecord.toNat n

theorem noticeFault_noticed (c : Cause) {s : State} (hroom : s.die.queues.notices.length < 4096) :
    Noticed c s (noticeFault c s) := by
  obtain ⟨hkind, hcause, ha0⟩ := mkNotice_fields 1 (causeByte c s.cur.sys.handler)
    { a0 := s.lastRecord, a1 := 0, a2 := 0, a3 := 0, a4 := 0 } (noticeWho s.cur.flow.task).1 (noticeWho s.cur.flow.task).2.1
    (noticeWho s.cur.flow.task).2.2.1 (noticeWho s.cur.flow.task).2.2.2 (rankOf s.curId) s.die.queues.noticeSeq
    (BitVec.ofNat 64 s.timeNs)
  rw [noticeFault, enqueueNotice_room hroom]
  exact ⟨rfl, rfl, rfl, rfl, rfl, rfl, rfl, _, rfl, hkind, by rw [hcause, causeByte_eq_causeNat], congrArg BitVec.toNat ha0⟩

/-- What `failedBy` leaves and what it changes, of what the retirement speaks of. -/
structure Failed (r : TrapReq) (s u : State) : Prop where
  cur : u.cur = (endWaits s).cur
  curId : u.curId = s.curId
  prefetch : u.core.prefetch = s.core.prefetch
  seq : u.core.seq = s.core.seq + 1
  rings : u.die.rings = s.die.rings
  ops : u.die.ops = s.die.ops
  trapLog : u.die.trapLog = (recorded r.logged (causeNat r.cause s) r.pc s).die.trapLog
  trapCount : u.die.trapCount = s.die.trapCount + 1
  publications : u.die.queues.publications = s.die.queues.publications
  notices : ∃ n, u.die.queues.notices = s.die.queues.notices ++ [n] ∧
    FaultNotice (causeNat r.cause s) (s.die.trapCount % 65536) n

theorem lastRecord_toNat {s : State} {n : Nat} (h : s.die.trapCount = n + 1) : s.lastRecord.toNat = n % 65536 := by
  rw [State.lastRecord, BitVec.toNat_ofNat, h, Nat.add_sub_cancel]
  exact Nat.mod_eq_of_lt ((Nat.mod_lt _ (by decide)).trans (by decide))

theorem failedBy_failed {r : TrapReq} {s : State} (hroom : s.die.queues.notices.length < 4096) : Failed r s (failedBy r s) := by
  have hqueues := recorded_queues r.logged (causeNat r.cause s) r.pc (endWaits s).dropEnds
  have hcount := recorded_trapCount r.logged (causeNat r.cause s) r.pc (endWaits s).dropEnds
  have hcur := recorded_cur r.logged (causeNat r.cause s) r.pc (endWaits s).dropEnds
  have hid := recorded_curId r.logged (causeNat r.cause s) r.pc (endWaits s).dropEnds
  have hcause : causeNat r.cause (recorded r.logged (causeNat r.cause s) r.pc (endWaits s).dropEnds) = causeNat r.cause s := by
    rw [causeNat, hcur]
    rfl
  have h := noticeFault_noticed r.cause
    (s := recorded r.logged (causeNat r.cause s) r.pc (endWaits s).dropEnds) (by rw [hqueues]; exact hroom)
  obtain ⟨n, hnotices, hn⟩ := h.notices
  rw [hcause, lastRecord_toNat hcount] at hn
  rw [hqueues] at hnotices
  exact {
    cur := h.cur.trans hcur
    curId := by rw [State.curId, failedBy, h.core]; exact hid
    prefetch := by rw [failedBy, h.core]; exact recorded_prefetch ..
    seq := by rw [failedBy, h.core]; exact recorded_seq ..
    rings := h.rings.trans (recorded_rings ..)
    ops := h.ops.trans (recorded_ops ..)
    trapLog := h.trapLog.trans (recorded_endWaits_trapLog ..)
    trapCount := h.trapCount.trans hcount
    publications := h.publications.trans (congrArg Queues.publications hqueues)
    notices := ⟨n, hnotices, hn⟩ }

theorem trapRetires_of_cause {c : Cause} {x : Ctx} (h : 0x19 ≤ c.code.toNat ∨ x.sys.handler = true ∨ x.sys.tvec = 0) :
    x.trapRetires c = true := by
  unfold Ctx.trapRetires Cause.classX
  rcases h with hx | hhandler | htvec
  · rw [decide_eq_true (show (0x19 : BitVec 8) ≤ c.code from BitVec.le_def.mpr hx)]
    rfl
  · rw [hhandler, Bool.or_true]
    rfl
  · rw [htvec]
    simp

section
variable {s : State} {k : TaskRef} (ht : s.cur.flow.task = some k) (hn : k.notice = false) (hp : k.pour = false)
include ht hn hp

/-- A trap of the context in focus that goes to no handler. -/
theorem traps_retires (hq : quiet s = true) (hs : settled s = true) {i : Instr} {c : Cause} (aux : BitVec 8) (faddr : Word)
    (hret : s.cur.trapRetires c = true) (hregion : s.cur.flow.region = none)
    (hrings : ∀ r ∈ s.die.rings, ∀ x ∈ r.owners, x.2 ≠ k.serial) (hprefetch : s.core.prefetch = [])
    (hslots : s.cur.flow.slots.all (fun (x : Slot) => !x.held) = true) (hroom : s.die.queues.notices.length < 4096) :
    let r := bundleTrap [i] c aux faddr (slotBit i) s
    traps i c aux faddr s = vacate (cycled (retire true (failedBy r s))) := by
  intro r
  have hf : Failed r s (failedBy r s) := failedBy_failed hroom
  have htask : (failedBy r s).cur.flow.task = some k := by rw [hf.cur]; exact ht
  have hops : (failedBy r s).taskOps = s.taskOps := by
    rw [State.taskOps, State.taskOps, hf.ops, hf.curId, hf.cur]
    rfl
  have hnone : s.taskOps = [] := (calm_quiet hq hs).ops
  have hdeliver : deliverTrap r s = retire true (failedBy r s) :=
    deliverTrap_retires ht hp (quiet_delay hq) (logged_length [i]) bundleBytes_length hret
  rw [traps, trapBundle, takeTrap_calm (calm_quiet hq hs), hdeliver, tick_landed (retire_landed ..)]
  apply (retire_retired htask hn hp true).cycled.vacates htask
  · rw [hf.cur]; exact hregion
  · rwa [hf.rings]
  · rw [hf.cur]; exact hslots
  · exact fun _ => hops.trans hnone
  · exact hf.prefetch.trans hprefetch

end

/-! ## The retirement by `done` -/

/-- `done` has issued and waits. -/
abbrev doneWaits (s : State) : State := does .done (State.modFlow (fun w => { w with doneWait := true })) s

/-- Whether `done` holds its context is not for its own bundle to change. -/
theorem doneHeld_doneWaits (s : State) : (doneWaits s).doneHeld = s.doneHeld := rfl

theorem exec_done {s : State} (hq : quiet s = true) (hl : lone .done s = true) :
    exec .done s = .next (if s.doneHeld then doneWaits s else settleCur (retire false (doneWaits s))) := by
  rw [exec_ok (F := State.modFlow (fun w => { w with doneWait := true })) hq hl (slot_done ..) (overflows_none rfl) rfl
    (modFlow_plain (moved_plain hq) rfl), modFlow_tick hq (f := fun w => { w with doneWait := true }) (fun _ => rfl)]
  have hwait : (doneWaits s).cur.flow.doneWait = true := rfl
  simp only [afterCommit, retireDone, hwait, doneHeld_doneWaits, Bool.true_and]
  cases s.doneHeld <;> rfl

/-! ## Obligation O19 -/

/-- Settles O19: a task that nothing keeps leaves its context free as it retires. -/
theorem taskRetirement : Obligations.TaskRetirement := by
  refine ⟨fun i c aux faddr s k hq hs ht hn hp hcause hregion hrings hprefetch hslots hroom => ?trap,
    fun s k hq hl ht hn hp => ⟨fun hheld => ?held, fun hheld _ hregion hrings hprefetch hslots _ => ?done⟩⟩
  case trap =>
    intro t log
    have hf : Failed (bundleTrap [i] c aux faddr (slotBit i) s) s _ := failedBy_failed hroom
    have htask : (failedBy (bundleTrap [i] c aux faddr (slotBit i) s) s).cur.flow.task = some k := by rw [hf.cur]; exact ht
    have hr := retire_retired htask hn hp true
    have hvacate := traps_retires (i := i) ht hn hp hq hs aux faddr
      (trapRetires_of_cause hcause) hregion hrings hprefetch hslots hroom
    obtain ⟨n, hnotices, hn1, hn2, hn3⟩ := hf.notices
    simp only [t, hvacate]
    exact ⟨rfl, rfl, hr.trapLog.trans hf.trapLog, hr.trapCount.trans hf.trapCount, hr.seq.trans hf.seq,
      ⟨n, hr.notices.trans hnotices, hn1, hn2, hn3⟩, by rw [← hf.publications, ← hf.curId]; exact hr.publications⟩
  case held => rw [exec_done hq hl, if_pos hheld]
  case done =>
    have hr := retire_retired (s := doneWaits s) ht hn hp false
    have hvacate := hr.vacates ht hregion hrings hslots (fun h => absurd h (by decide)) hprefetch
    refine ⟨_, exec_done hq hl, ?_⟩
    rw [if_neg (by rw [hheld]; decide), hvacate]
    exact ⟨rfl, rfl, hr.publications, hr.notices, hr.trapCount⟩

end Sys2Proof.Machine
end

section
/-! `spawn` and `launch`: what they read and check (spec/07_scalar_control.md R103; spec/21_tasks.md R304). -/
namespace Sys2Proof.Machine

/-! ## The cause of a failed check -/

/-- A check that fails names another cause than the software trap. -/
def NotSoftware {α : Type} (x : Except (Cause × Word) α) : Prop := ∀ c, x = .error c → c.1 ≠ .softwareTrap

theorem notSoftware_ok {α : Type} (a : α) : NotSoftware (.ok a : Except (Cause × Word) α) := fun _ h => nomatch h

theorem notSoftware_error {α : Type} {c : Cause × Word} (h : c.1 ≠ .softwareTrap) :
    NotSoftware (.error c : Except (Cause × Word) α) := fun _ hc => by cases hc; exact h

theorem notSoftware_bind {α β : Type} {x : Except (Cause × Word) α} {f : α → Except (Cause × Word) β} (hx : NotSoftware x)
    (hf : ∀ a, NotSoftware (f a)) : NotSoftware (x >>= f) := by
  cases x with
  | error c => exact notSoftware_error (hx c rfl)
  | ok a => exact hf a

theorem notSoftware_map {α β : Type} {x : Except (Cause × Word) α} (f : α → β) (hx : NotSoftware x) :
    NotSoftware (x.map f) := by
  cases x with
  | error c => exact notSoftware_error (hx c rfl)
  | ok a => exact notSoftware_ok _

/-- A check between others. -/
theorem notSoftware_guard {α : Type} {b : Bool} {f : Unit → Except (Cause × Word) α} (hf : NotSoftware (f ())) :
    NotSoftware (if b then throw (.operandValue, 0) >>= f else f ()) := by
  cases b
  · exact hf
  · exact notSoftware_error (show Cause.operandValue ≠ .softwareTrap by decide)

theorem xlateCause_ne_softwareTrap (x : Xlate) : xlateCause x ≠ .softwareTrap := by
  cases x <;> simp [xlateCause]

theorem queueRead_notSoftware (asid : BitVec 16) (va n : Nat) (s : State) : NotSoftware (queueRead asid va n s) := by
  unfold queueRead
  split
  · exact notSoftware_ok _
  · exact notSoftware_error (xlateCause_ne_softwareTrap _)
  · exact notSoftware_error (show Cause.uncorrectable ≠ .softwareTrap by decide)

theorem launchCheck_notSoftware (p : BitVec 512) (spawn : Bool) (s : State) : NotSoftware (launchCheck p spawn s) := by
  unfold launchCheck
  refine notSoftware_guard (notSoftware_bind (queueRead_notSoftware _ _ _ _) fun tb =>
    notSoftware_guard (notSoftware_bind (notSoftware_map _ (queueRead_notSoftware _ _ _ _)) fun h =>
      notSoftware_guard (notSoftware_ok h)))

/-! ## The packet that is read -/

section
variable {r : GP} {s : State} (hq : quiet s = true)
include hq

theorem needPacket_quiet (key : Nat) (k : BitVec 512 → SlotRes) : needPacket key r s k =
    (if gTag r.reg s then .trapOf .poison
    else if bits 0 6 (gReg r.reg s) != 0 then .trapOf .misalignedOperand
    else
      match readVirtual s.cur.sys.asid s.user (gReg r.reg s).toNat 64 s with
      | .fail x va => xlateTrap x va
      | .poisoned => .trap .uncorrectable 0 (gReg r.reg s)
      | .ok bs => k (BitVec.ofNat 512 (leNat bs))) :=
  cleanG_quiet hq ..

theorem needPacket_ok {k : BitVec 512 → SlotRes} {bs : List Byte} (htag : gTag r.reg s = false)
    (hal : (bits 0 6 (gReg r.reg s) : BitVec 6) = 0)
    (hread : readVirtual s.cur.sys.asid s.user (gReg r.reg s).toNat 64 s = .ok bs) (key : Nat) :
    needPacket key r s k = k (BitVec.ofNat 512 (leNat bs)) := by
  rw [needPacket_quiet hq, htag, hal, hread]
  rfl

/-- What holds of both instructions before their packet has been read. -/
theorem Ordinary.exec_packet {i : Instr} (hi : Ordinary i) (hl : lone i s = true) {k : BitVec 512 → SlotRes}
    (hd : pushesOf (rptCount (rptOf [i])) i = [])
    (hslot : slotRes (s.nextPc [i]) none i s = if s.isRebuild then .nothing else needPacket keyC r s k) :
    let a := gReg r.reg s
    let read := readVirtual s.cur.sys.asid s.user a.toNat 64 s
    (s.isRebuild = true → exec i s = .next (passed [i] s)) ∧
      (s.isRebuild = false → gTag r.reg s = true → exec i s = .next (traps i .poison 0 0 s)) ∧
      (s.isRebuild = false → gTag r.reg s = false → (bits 0 6 a : BitVec 6) ≠ 0 →
        exec i s = .next (traps i .misalignedOperand 0 0 s)) ∧
      (s.isRebuild = false → gTag r.reg s = false → (bits 0 6 a : BitVec 6) = 0 → ∀ va,
        (read = .fail .translation va → exec i s = .next (traps i .translationFault 0 (BitVec.ofNat 64 va) s)) ∧
        (read = .fail .permission va → exec i s = .next (traps i .permissionFault 0 (BitVec.ofNat 64 va) s))) := by
  intro a read
  rw [needPacket_quiet hq] at hslot
  refine ⟨fun hb => ?_, fun hb ht => ?_, fun hb ht ha => ?_, fun hb ht ha va => ⟨fun hf => ?_, fun hf => ?_⟩⟩
  · exact hi.exec_nothing hq hl (by rw [hslot, hb]; rfl) hd
  · exact hi.exec_trap hq hl (by rw [hslot, hb, ht]; rfl) (by decide)
  · refine hi.exec_trap hq hl (c := .misalignedOperand) (aux := 0) (a := 0) ?_ (by decide)
    rw [hslot, hb, ht, if_neg (by decide), if_neg (by decide), if_pos (bne_iff_ne.mpr ha)]
    rfl
  · exact hi.exec_trap hq hl (by rw [hslot, hb, ht, ha, show readVirtual .. = _ from hf]; rfl) (by decide)
  · exact hi.exec_trap hq hl (by rw [hslot, hb, ht, ha, show readVirtual .. = _ from hf]; rfl) (by decide)

end

end Sys2Proof.Machine
end

section
/-! What the queue unit leaves of the sets that it knows, and of the contexts of the core in focus (spec/21_tasks.md R310 to
R315). -/
namespace Sys2Proof.Machine

/-! ## What leaves the core and the queue unit alone -/

/-- The core in focus, its context in focus and the queue unit are as before. -/
structure QueuesKept (s t : State) : Prop where
  cur : t.cur = s.cur
  core : t.core = s.core
  queues : t.die.queues = s.die.queues

namespace QueuesKept

theorem refl (s : State) : QueuesKept s s := ⟨rfl, rfl, rfl⟩

theorem trans {s t u : State} (h : QueuesKept s t) (h' : QueuesKept t u) : QueuesKept s u :=
  ⟨h'.cur.trans h.cur, h'.core.trans h.core, h'.queues.trans h.queues⟩

theorem foldl {α : Type} {f : State → α → State} (hf : ∀ s a, QueuesKept s (f s a)) :
    ∀ (l : List α) (s : State), QueuesKept s (l.foldl f s)
  | [], s => refl s
  | a :: l, s => (hf s a).trans (foldl hf l _)

theorem modPkg (f : Package → Package) (s : State) : QueuesKept s (s.modPkg f) := ⟨rfl, rfl, rfl⟩
theorem modDie {f : Die → Die} {s : State} (hf : (f s.die).queues = s.die.queues) : QueuesKept s (s.modDie f) := ⟨rfl, rfl, hf⟩
theorem modRouter (f : Router → Router) (s : State) : QueuesKept s (s.modRouter f) := ⟨rfl, rfl, rfl⟩

end QueuesKept

theorem leaveBy_kept (o : Option Nat) (n : Nat) (p : Packet) (s : State) : QueuesKept s (leaveBy o n p s) := by
  unfold leaveBy emit
  split
  · exact .modRouter _ s
  · exact QueuesKept.trans (.modRouter _ s) (.modRouter _ _)

theorem sendOn_kept (way : Option Nat) (p : Packet) (s : State) : QueuesKept s (sendOn way p s) := by
  cases way with
  | some n => exact leaveBy_kept none n p s
  | none => exact QueuesKept.modRouter (fun r => { r with outbox := r.outbox ++ [p] }) s

theorem sendClocked_kept (way : Option Nat) (p : Packet) (s : State) : QueuesKept s (sendClocked way p s) := by
  unfold sendClocked
  split
  · dsimp only
    split
    · exact (QueuesKept.modDie rfl).trans ((sendOn_kept ..).trans ((sendOn_kept ..).trans (sendOn_kept ..)))
    · exact (QueuesKept.modDie rfl).trans (sendOn_kept ..)
  · exact sendOn_kept ..

theorem sendPacket_kept (p : Packet) (s : State) : QueuesKept s (sendPacket p s) := by
  unfold sendPacket unrouted emit
  split
  · split
    · exact .modRouter _ s
    · exact .modRouter _ s
  · exact sendClocked_kept ..
  · exact sendClocked_kept ..

theorem physWrite_kept (k : Tier) (pa : Nat) (v : Byte) (s : State) : QueuesKept s (physWrite k pa v s) := by
  unfold physWrite
  split
  · exact .refl s
  · exact .modPkg _ s

theorem physPut_kept (p : Tier × Nat) (n v : Nat) (s : State) : QueuesKept s (physPut p n v s) :=
  QueuesKept.trans (.foldl (fun _ _ => physWrite_kept ..) _ s) ⟨rfl, rfl, rfl⟩

theorem askHost_kept (fn : BitVec 3) (w : AssistWork) (body : BitVec 512) (s : State) : QueuesKept s (askHost fn w body s).1 := by
  unfold askHost
  split
  · exact ⟨rfl, rfl, rfl⟩
  · exact ⟨rfl, rfl, rfl⟩

/-! ## What keeps the sets -/

/-- No beat has still to issue on the core in focus. -/
def Idle (s : State) : Prop := s.cur.flow.beats = [] ∧ ∀ p ∈ s.core.parked, p.2.flow.beats = []

/-- Every set that was known still is, with its packet, and marked as arrived where it was; a core without beats still has none. -/
structure SetsKept (s t : State) : Prop where
  idle : Idle s → Idle t
  sets : ∀ e ∈ s.die.queues.sets, ∃ e' ∈ t.die.queues.sets, e'.packet = e.packet ∧ (e.here = true → e'.here = true)

namespace SetsKept

theorem refl (s : State) : SetsKept s s := ⟨id, fun e he => ⟨e, he, rfl, id⟩⟩

theorem trans {s t u : State} (h : SetsKept s t) (h' : SetsKept t u) : SetsKept s u where
  idle := h'.idle ∘ h.idle
  sets e he := by
    obtain ⟨x, hx, hxp, hxh⟩ := h.sets e he
    obtain ⟨y, hy, hyp, hyh⟩ := h'.sets x hx
    exact ⟨y, hy, hyp.trans hxp, hyh ∘ hxh⟩

theorem foldl {α : Type} {f : State → α → State} (hf : ∀ s a, SetsKept s (f s a)) :
    ∀ (l : List α) (s : State), SetsKept s (l.foldl f s)
  | [], s => refl s
  | a :: l, s => (hf s a).trans (foldl hf l _)

/-- A change of the queue unit that leaves its sets alone. -/
theorem of_sets {s t : State} (hcur : t.cur = s.cur) (hcore : t.core = s.core) (hsets : t.die.queues.sets = s.die.queues.sets) :
    SetsKept s t where
  idle h := by rw [Idle, hcur, hcore]; exact h
  sets e he := ⟨e, hsets ▸ he, rfl, id⟩

theorem of_kept {s t : State} (h : QueuesKept s t) : SetsKept s t := of_sets h.cur h.core (congrArg Queues.sets h.queues)

/-- A change of each set. -/
theorem of_map {s t : State} {f : SetEntry → SetEntry} (hcur : t.cur = s.cur) (hcore : t.core = s.core)
    (hsets : t.die.queues.sets = s.die.queues.sets.map f)
    (hf : ∀ e, (f e).packet = e.packet ∧ (e.here = true → (f e).here = true)) : SetsKept s t where
  idle h := by rw [Idle, hcur, hcore]; exact h
  sets e he := ⟨f e, hsets ▸ List.mem_map_of_mem he, hf e⟩

end SetsKept

theorem modSet_kept (inst : Nat) {f : SetEntry → SetEntry} (hf : ∀ e, (f e).packet = e.packet ∧ (e.here = true → (f e).here = true))
    (s : State) : SetsKept s (modSet inst f s) := by
  refine .of_map rfl rfl rfl fun e => ?_
  split
  · exact hf e
  · exact ⟨rfl, id⟩

theorem modQueues_kept {f : Queues → Queues} (hf : ∀ q, (f q).sets = q.sets) (s : State) : SetsKept s (s.modQueues f) :=
  .of_sets rfl rfl (hf _)

theorem stepSerial_kept (s : State) : SetsKept s (stepSerial s) := .of_sets rfl rfl rfl

theorem tellDomain_kept (mk : Coord → State → Packet) (s : State) : SetsKept s (tellDomain mk s) :=
  .of_kept (.foldl (fun _ _ => sendPacket_kept ..) _ s)

theorem failNotice_kept (setid : BitVec 32) (die : Coord) (reason : Nat) (s : State) : SetsKept s (failNotice setid die reason s) := by
  unfold failNotice enqueueNotice
  split
  · exact .of_sets rfl rfl rfl
  · exact .of_sets rfl rfl rfl

/-! ## Changes of a context -/

theorem smSet_forall {α : Type} [DecidableEq α] {P : α → Prop} {d v : α} {m : SMap α} {k : Nat} (hm : ∀ p ∈ m, P p.2) (hv : P v) :
    ∀ p ∈ smSet d m k v, P p.2 := by
  have herase : ∀ p ∈ smErase k m, P p.2 := fun p hp => hm p (List.mem_of_mem_filter hp)
  unfold smSet
  split
  · exact herase
  · intro p hp
    rcases (mem_smInsert ..).mp hp with rfl | hp
    · exact hv
    · exact herase p hp

theorem smGet_of_forall {α : Type} {P : α → Prop} {d : α} {m : SMap α} (hm : ∀ p ∈ m, P p.2) (hd : P d) (k : Nat) :
    P (smGet d m k) := by
  unfold smGet
  cases h : m.lookup k with
  | none => exact hd
  | some v =>
    obtain ⟨l₁, l₂, rfl, -⟩ := List.lookup_eq_some_iff.mp h
    exact hm (k, v) (by simp)

theorem setCoreAt_die (id : BitVec 6) (c : Core) (s : State) : (setCoreAt id c s).die = s.die := by
  obtain ⟨-, -, -, hdie, -⟩ := setCoreAt_frame id c s
  exact hdie

theorem setCtxAt_die (id : CtxId) (c : Ctx) (s : State) : (setCtxAt id c s).die = s.die := by
  unfold setCtxAt
  split
  · rfl
  · exact setCoreAt_die ..

/-- A context of the core in focus has no beats where the core is idle. -/
theorem Idle.ctxAt {s : State} (h : Idle s) {id : CtxId} (hid : id.core = s.core.id) : (ctxAt id s).flow.beats = [] := by
  unfold Machine.ctxAt
  split
  · exact h.1
  · rw [hid, coreAt, if_pos rfl]
    exact smGet_of_forall (P := fun c : Ctx => c.flow.beats = []) h.2 rfl _

theorem modCtxAt_kept (id : CtxId) {f : Ctx → Ctx} (hf : ∀ c, (f c).flow.beats = c.flow.beats) (s : State) :
    SetsKept s (modCtxAt id f s) where
  sets e he := by
    rw [modCtxAt, setCtxAt_die]
    exact ⟨e, he, rfl, fun h => h⟩
  idle h := by
    unfold modCtxAt setCtxAt
    split
    next hid => exact ⟨(hf _).trans (h.ctxAt (congrArg CtxId.core hid)), h.2⟩
    next =>
      dsimp only
      unfold setCoreAt
      split
      next hid =>
        refine ⟨h.1, smSet_forall (P := fun c : Ctx => c.flow.beats = []) ?_ ((hf _).trans (h.ctxAt hid))⟩
        rw [hid, coreAt, if_pos rfl]
        exact h.2
      next => exact h

theorem modCoreAt_kept (id : BitVec 6) {f : Core → Core} (hf : ∀ k, (f k).parked = k.parked) (s : State) :
    SetsKept s (modCoreAt id f s) where
  sets e he := by
    rw [modCoreAt, setCoreAt_die]
    exact ⟨e, he, rfl, fun h => h⟩
  idle h := by
    unfold modCoreAt setCoreAt
    split
    next hid =>
      refine ⟨h.1, ?_⟩
      rw [hf, hid, coreAt, if_pos rfl]
      exact h.2
    next => exact h

theorem modSaved_kept (p : Saved → Bool) (f : Ctx → Ctx) (s : State) : SetsKept s (modSaved p f s) := .of_sets rfl rfl rfl

theorem raiseBoundary_kept (c : CtxId) (cause : Cause) (aux : BitVec 8) (faddr : Word) (log : Option (Word × List Byte))
    (s : State) : SetsKept s (raiseBoundary c cause aux faddr log s) := by
  unfold raiseBoundary
  split
  · refine modCtxAt_kept _ ?_ s
    exact fun _ => rfl
  · exact modSaved_kept ..
  · exact .refl s

/-! ## The failure of a set -/

theorem failWatches_kept (inst : Nat) (s : State) : SetsKept s (failWatches inst s) := by
  unfold failWatches
  refine SetsKept.trans (SetsKept.foldl (fun t c => ?_) _ s) (modQueues_kept ?_ _)
  · refine SetsKept.trans (raiseBoundary_kept ..) (modCtxAt_kept _ ?_ _)
    exact fun _ => rfl
  · exact fun _ => rfl

theorem removeQueued_kept (inst : Nat) (s : State) : SetsKept s (removeQueued inst s) := by
  unfold removeQueued
  refine SetsKept.trans (SetsKept.trans (SetsKept.foldl (fun t c => ?_) _ s) (modQueues_kept ?_ _)) (modSet_kept _ ?_ _)
  · split
    · refine modCoreAt_kept _ ?_ t
      exact fun _ => rfl
    · exact .refl t
  · exact fun _ => rfl
  · exact fun _ => ⟨rfl, id⟩

theorem failOne_kept (inst : Nat) (announce : Option (Nat × Coord)) (s : State) : SetsKept s (failOne inst announce s).1 := by
  unfold failOne
  split
  · exact .refl s
  · split
    · exact .refl s
    · have hfail : ∀ t, SetsKept s t → SetsKept s (failWatches inst (removeQueued inst t)) := fun t h =>
        h.trans ((removeQueued_kept ..).trans (failWatches_kept ..))
      dsimp only
      split
      · refine SetsKept.trans (hfail _ (modSet_kept _ ?_ s)) ((failNotice_kept ..).trans (tellDomain_kept ..))
        exact fun _ => ⟨rfl, id⟩
      · refine hfail _ (modSet_kept _ ?_ s)
        exact fun _ => ⟨rfl, id⟩

theorem failSets_kept : ∀ (n : Nat) (l : List (Nat × Option (Nat × Coord))) (s : State), SetsKept s (failSets n l s)
  | 0, _, s => .refl s
  | _ + 1, [], s => .refl s
  | n + 1, (i, a) :: _, s => (failOne_kept i a s).trans (failSets_kept n _ _)

theorem failSet_kept (inst reason : Nat) (die : Coord) (s : State) : SetsKept s (failSet inst reason die s) := failSets_kept ..

theorem checkPred_kept (inst : Nat) (s : State) : SetsKept s (checkPred inst s) := by
  unfold checkPred
  split
  · split
    · exact failSet_kept ..
    · exact .refl s
  · exact .refl s

/-! ## The distribution -/

theorem completeOwn_kept (inst : Nat) (s : State) : SetsKept s (completeOwn inst s) := by
  unfold completeOwn
  split
  · exact .refl s
  · split
    · refine SetsKept.trans (modSet_kept _ ?_ s) (tellDomain_kept ..)
      exact fun _ => ⟨rfl, id⟩
    · exact .refl s

theorem endDistribution_kept (inst : Nat) (s : State) : SetsKept s (endDistribution inst s) := by
  refine SetsKept.trans (modSet_kept _ ?_ s) (completeOwn_kept ..)
  exact fun _ => ⟨rfl, id⟩

theorem enqueueTask_kept (t : TaskRef) (bank : BitVec 4) (pri : BitVec 3) (s : State) : SetsKept s (enqueueTask t bank pri s) :=
  .of_sets rfl rfl rfl

theorem enqueueAt_kept (e : SetEntry) (x y z : BitVec 16) (s : State) : SetsKept s (enqueueAt e x y z s) := by
  refine SetsKept.trans (SetsKept.trans (stepSerial_kept s) (modSet_kept _ ?_ _)) (enqueueTask_kept ..)
  exact fun _ => ⟨rfl, id⟩

theorem visit_kept (inst : Nat) (s : State) : SetsKept s (visit inst s).1 := by
  have hcursor : ∀ c, SetsKept s (modSet inst (fun e => { e with cursor := c }) s) := fun c =>
    modSet_kept inst (f := fun e => { e with cursor := c }) (fun _ => ⟨rfl, id⟩) s
  have horder : ∀ o, SetsKept s (modSet inst (fun e => { e with order := o }) s) := fun o =>
    modSet_kept inst (f := fun e => { e with order := o }) (fun _ => ⟨rfl, id⟩) s
  unfold visit
  split
  · exact .refl s
  · split
    · exact .refl s
    · exact .refl s
    · exact endDistribution_kept ..
    · split
      · exact .refl s
      · exact (horder _).trans (enqueueAt_kept ..)
    · split
      · exact endDistribution_kept ..
      · split
        · exact .refl s
        · dsimp only
          split
          · exact failSet_kept ..
          · split
            · exact (hcursor _).trans (.of_sets rfl rfl rfl)
            · split
              · exact hcursor _
              · exact (hcursor _).trans (enqueueAt_kept ..)

theorem visits_kept : ∀ (n inst : Nat) (s : State), SetsKept s (visits n inst s)
  | 0, _, s => .refl s
  | n + 1, inst, s => by
    unfold visits
    dsimp only
    split
    · exact (visit_kept inst s).trans (visits_kept n inst _)
    · exact visit_kept inst s

theorem distributeAll_kept (s : State) : SetsKept s (distributeAll s) := by
  refine .foldl (fun t e => ?_) _ s
  unfold distribute
  split
  · exact .refl t
  · exact visits_kept ..

theorem askDist_kept (inst : Nat) (p : BitVec 512) (s : State) : SetsKept s (askDist inst p s) := by
  unfold askDist
  split
  · dsimp only
    split
    · refine SetsKept.trans (.of_kept (askHost_kept ..)) (modSet_kept _ ?_ _)
      exact fun _ => ⟨rfl, id⟩
    · exact .of_kept (askHost_kept ..)
  · exact .refl s

end Sys2Proof.Machine
end

section
/-! `spawn` and `launch`: what they make (spec/07_scalar_control.md R103; spec/21_tasks.md R305, R310). -/
namespace Sys2Proof.Machine

/-! ## A packet that this die takes -/

/-- The set of a packet is known, and marked as arrived. -/
def Arrived (p : BitVec 512) (s : State) : Prop := ∃ e ∈ s.die.queues.sets, e.packet = p ∧ e.here = true

theorem SetsKept.arrived {s t : State} (h : SetsKept s t) {p : BitVec 512} (hp : Arrived p s) : Arrived p t := by
  obtain ⟨e, he, hep, heh⟩ := hp
  obtain ⟨x, hx, hxp, hxh⟩ := h.sets e he
  exact ⟨x, hx, hxp.trans hep, hxh heh⟩

/-- A new set stands last, with the next number. -/
theorem knowSet_sets (e : SetEntry) (s : State) : ∃ l pred, (knowSet e s).die.queues.sets =
    l ++ [{ e with inst := nextSerial s, pred := pred }] :=
  ⟨_, _, rfl⟩

theorem lastInst_knowSet (e : SetEntry) (s : State) : lastInst (knowSet e s) = nextSerial s := rfl

theorem knowSet_kept (e : SetEntry) (s : State) : SetsKept s (knowSet e s) where
  idle h := h
  sets x hx := by
    refine ⟨_, List.mem_append_left _ (List.mem_map_of_mem hx), ?_⟩
    dsimp only
    split
    · exact ⟨rfl, id⟩
    · exact ⟨rfl, id⟩

/-- The set that a packet arrives for is known, and is one of that packet. -/
theorem arriveSet_mem (p : BitVec 512) (dmask : BitVec 64) (s : State) :
    ∃ e ∈ (arriveSet p dmask s).1.die.queues.sets, e.inst = (arriveSet p dmask s).2 ∧ e.packet = p := by
  unfold arriveSet
  split
  · dsimp only
    obtain ⟨l, pred, hsets⟩ := knowSet_sets (emptySet p dmask) s
    exact ⟨_, hsets ▸ List.mem_append_right _ (List.mem_singleton_self _), rfl, rfl⟩
  next e he =>
    have hmem := List.mem_of_find?_eq_some he
    have hpacket : e.packet = p := by
      have h := List.find?_some he
      simp only [Bool.and_eq_true, beq_iff_eq] at h
      exact h.1
    exact ⟨_, List.mem_map_of_mem hmem, by simp, by simpa using hpacket⟩

theorem arriveSet_kept (p : BitVec 512) (dmask : BitVec 64) (s : State) : SetsKept s (arriveSet p dmask s).1 := by
  unfold arriveSet
  split
  · exact knowSet_kept ..
  · refine modSet_kept _ ?_ s
    exact fun _ => ⟨rfl, id⟩

theorem modSet_mem {inst : Nat} {f : SetEntry → SetEntry} {s : State} {e : SetEntry} (he : e ∈ s.die.queues.sets)
    (hi : e.inst = inst) : f e ∈ (modSet inst f s).die.queues.sets := by
  have h := List.mem_map_of_mem (f := fun x : SetEntry => if x.inst = inst then f x else x) he
  rw [if_pos hi] at h
  exact h

/-- The packet has arrived, before its distribution begins. -/
def marked (p : BitVec 512) (dmask : BitVec 64) (s : State) : State :=
  let x := arriveSet p dmask s
  modSet x.2 (fun e => { e with here := true, cursor := if e.failed then none else some 0, copy := freeCopy x.1,
                                arrived := nextSerial x.1 }) (stepSerial x.1)

theorem takePacket_eq (p : BitVec 512) (dmask : BitVec 64) (s : State) : takePacket p dmask s =
    distributeAll (askDist (arriveSet p dmask s).2 p (checkPred (arriveSet p dmask s).2
      (keepCopy (freeCopy (arriveSet p dmask s).1) p (marked p dmask s)))) := rfl

theorem marked_arrived (p : BitVec 512) (dmask : BitVec 64) (s : State) : Arrived p (marked p dmask s) := by
  obtain ⟨e, he, hi, hp⟩ := arriveSet_mem p dmask s
  exact ⟨_, modSet_mem he hi, hp, rfl⟩

theorem marked_kept (p : BitVec 512) (dmask : BitVec 64) (s : State) : SetsKept s (marked p dmask s) := by
  unfold marked
  refine (arriveSet_kept ..).trans ((stepSerial_kept _).trans (modSet_kept _ ?_ _))
  exact fun _ => ⟨rfl, fun _ => rfl⟩

theorem keepCopy_kept (slot : Nat) (p : BitVec 512) (s : State) : QueuesKept s (keepCopy slot p s) := physPut_kept ..

/-- What follows the arrival. -/
theorem takePacket_marked (p : BitVec 512) (dmask : BitVec 64) (s : State) :
    SetsKept (marked p dmask s) (takePacket p dmask s) := by
  rw [takePacket_eq]
  exact SetsKept.trans (.of_kept (keepCopy_kept ..)) ((checkPred_kept ..).trans ((askDist_kept ..).trans (distributeAll_kept _)))

/-! ## A commit that issues no beat -/

theorem idle_moved {s : State} (hq : quiet s = true) (i : Instr) : Idle (moved i s) := by
  refine ⟨quiet_beats (s := s) hq, fun p hp => ?_⟩
  have hnone : s.core.parked.find? (fun p => !p.2.flow.beats.isEmpty) = none := Option.map_eq_none_iff.mp (quiet_parked hq)
  simpa using List.find?_eq_none.mp hnone p hp

theorem Idle.beatNow {s : State} (h : Idle s) : beatNow s.tick = s.tick := by
  have hnone : parkedBeats s = none := by
    refine Option.map_eq_none_iff.mpr (List.find?_eq_none.mpr fun p hp => ?_)
    rw [h.2 p hp]
    decide
  exact beatNow_none (by rw [State.tick_cur, land_flow]; exact h.1) (by rw [parkedBeats_tick, hnone])

theorem commitSlots_lone {i : Instr} {F : State → State} {s : State} (hq : quiet s = true) :
    commitSlots [i] [(i, .ok F)] s =
      (stampStarted [i] s.pc s.die.nextId s.core.fact.isNone (F (moved i s))).modSys SysCtx.stepDelay := by
  have hmoved : s.modFlow (fun w =>
      let w := advanceFlow (s.nextPc [i]) { w with levels := s.foundLevels }
      { w with beats := w.beats.map (dropKept (runOf [(i, SlotRes.ok F)])), firstOp := s.die.nextId }) = moved i s := by
    have hbeats : (advanceFlow (s.nextPc [i]) { s.cur.flow with levels := s.foundLevels }).beats = [] := quiet_beats hq
    simp only [State.modFlow, State.modCtx, Ctx.modFlow, hbeats, List.map_nil]
  unfold commitSlots
  rw [hmoved]
  rfl

/-- The stamp of what a bundle has started is not the queue unit's, nor does it start a beat. -/
theorem stampStarted_kept (is : List Instr) (pc : Word) (id : Nat) (fresh : Bool) (s : State) :
    (stampStarted is pc id fresh s).die.queues = s.die.queues ∧ (Idle s → Idle (stampStarted is pc id fresh s)) := by
  unfold stampStarted
  split
  · cases fresh
    · exact ⟨rfl, fun h => h⟩
    · exact ⟨rfl, fun h => h⟩
  · cases fresh
    · exact ⟨rfl, fun h => h⟩
    · exact ⟨rfl, fun h => h⟩

/-- A lone ordinary instruction whose commit leaves no beat to issue: the queue unit is as its commit leaves it. -/
theorem Ordinary.exec_queues {i : Instr} {s : State} {F : State → State} (hi : Ordinary i) (hq : quiet s = true)
    (hl : lone i s = true) (hr : slotRes (s.nextPc [i]) none i s = .ok F) (hd : pushesOf (rptCount (rptOf [i])) i = [])
    (hidle : Idle (F (moved i s))) :
    ∃ t, exec i s = .next t ∧ t.die.queues = (F (moved i s)).die.queues := by
  have hn : (inOrder i && s.acquireHeld) = false := by rw [hi.unordered, Bool.false_and]
  have ho : overflows [i] i s = false := overflows_none hd
  have hexec : exec i s = .next (commitBundle [i] [(i, .ok F)] s) := by
    rw [hi.issues, issue_lone hq hl, hr, slotInOrder_free hn]
    simp only [deferTrap, slotEnd, ho, liveness_lone (hi.serves s), Bool.false_eq_true, if_false]
  obtain ⟨hqueues, hstamped⟩ := stampStarted_kept [i] s.pc s.die.nextId s.core.fact.isNone (F (moved i s))
  have hcommitted : Idle (commitSlots [i] [(i, .ok F)] s) := by
    rw [commitSlots_lone hq]
    exact hstamped hidle
  refine ⟨_, hexec, ?_⟩
  rw [commitBundle, hi.serves, hi.after, passCycle, hcommitted.beatNow, commitSlots_lone hq]
  exact hqueues

/-! ## `launch` -/

/-- What `launch` commits: this die takes the packet where its mask names it, and the other dies of the mask are sent it. -/
def launches (p h : BitVec 512) (mine : Bool) (u : State) : State :=
  let u := if mine then takePacket p (platDmask h) u else u
  ((maskDies (platDmask h) u).filter (fun c => c != u.die.coord)).foldl (fun u c => sendPacket (launchPacketTo p c u) u) u

theorem sendPackets_kept (p : BitVec 512) (l : List Coord) (u : State) :
    QueuesKept u (l.foldl (fun u c => sendPacket (launchPacketTo p c u) u) u) :=
  .foldl (fun _ _ => sendPacket_kept ..) l u

theorem launches_elsewhere (p h : BitVec 512) (u : State) : QueuesKept u (launches p h false u) := sendPackets_kept ..

theorem launches_kept (p h : BitVec 512) (mine : Bool) (u : State) : SetsKept u (launches p h mine u) := by
  cases mine
  · exact .of_kept (launches_elsewhere ..)
  · exact (marked_kept ..).trans ((takePacket_marked ..).trans (.of_kept (sendPackets_kept ..)))

theorem launches_arrived (p h : BitVec 512) (u : State) : Arrived p (launches p h true u) :=
  ((takePacket_marked ..).trans (.of_kept (sendPackets_kept ..))).arrived (marked_arrived ..)

theorem ordinary_launch (r : GP) : Ordinary (.launch r) := {}

section
variable {r : GP} {s : State} {bs : List Byte} (hq : quiet s = true) (hl : lone (.launch r) s = true) (hb : s.isRebuild = false)
  (htag : gTag r.reg s = false) (hal : (bits 0 6 (gReg r.reg s) : BitVec 6) = 0)
  (hread : readVirtual s.cur.sys.asid s.user (gReg r.reg s).toNat 64 s = .ok bs)
include hq hb htag hal hread

theorem slot_launch_read (n : Word) : slotRes n none (.launch r) s =
    (let p := BitVec.ofNat 512 (leNat bs)
    match launchCheck p false s with
    | .error c => .trap c.1 0 c.2
    | .ok h =>
      let mine := ownInMask (platDmask h) s
      if mine && heldSet (pktSetid p) s then .trapOf .operandValue
      else if (mine && s.setsFull) || bankFull (pktBank p) s then .trapOf .queueFull
      else .ok (launches p h mine)) := by
  rw [slot_launch, slotLaunch, hb, if_neg (by decide), needPacket_ok hq htag hal hread]
  rfl

include hl

/-- What holds of `launch` once its packet has been read. -/
theorem exec_launch :
    let p := BitVec.ofNat 512 (leNat bs)
    let full := bankFull (pktBank p) s
    (∀ c, launchCheck p false s = .error c → exec (.launch r) s = .next (traps (.launch r) c.1 0 c.2 s)) ∧
    (∀ h, launchCheck p false s = .ok h →
      let mine := ownInMask (platDmask h) s
      let running := heldSet (pktSetid p) s
      (mine = true → running = true → exec (.launch r) s = .next (traps (.launch r) .operandValue 0 0 s)) ∧
      ((mine && running) = false → ((mine && s.setsFull) || full) = true →
        exec (.launch r) s = .next (traps (.launch r) .queueFull 0 0 s)) ∧
      (mine = true → running = false → (s.setsFull || full) = false → ∃ t, exec (.launch r) s = .next t ∧
        ∃ e ∈ t.die.queues.sets, e.packet = p ∧ e.here = true) ∧
      (mine = false → full = false → ∃ t, exec (.launch r) s = .next t ∧ t.die.queues = s.die.queues)) := by
  intro p full
  have hi := ordinary_launch r
  have hslot := slot_launch_read hq hb htag hal hread (s.nextPc [.launch r])
  refine ⟨fun c hc => ?failed, fun h hok => ?passed⟩
  case failed =>
    refine hi.exec_trap hq hl ?_ (launchCheck_notSoftware p false s c hc)
    rw [hslot]
    simp only [p, hc]
  case passed =>
    intro mine running
    have hslot' : slotRes (s.nextPc [.launch r]) none (.launch r) s =
        if mine && running then .trapOf .operandValue
        else if (mine && s.setsFull) || full then .trapOf .queueFull
        else .ok (launches p h mine) := by
      rw [hslot]
      simp only [p, hok]
      rfl
    have hidle := (launches_kept p h mine (moved (.launch r) s)).idle (idle_moved hq _)
    refine ⟨fun hm hr => ?running, fun hmr hf => ?full, fun hm hr hf => ?mine, fun hm hf => ?elsewhere⟩
    case running => exact hi.exec_trap hq hl (by rw [hslot', hm, hr]; rfl) (by decide)
    case full => exact hi.exec_trap hq hl (by rw [hslot', hmr, hf]; rfl) (by decide)
    case mine =>
      rw [hm] at hslot' hidle
      obtain ⟨t, ht, hqueues⟩ := hi.exec_queues hq hl (by rw [hslot', hr, Bool.true_and, Bool.true_and, hf]; rfl) rfl hidle
      refine ⟨t, ht, ?_⟩
      rw [hqueues]
      exact launches_arrived ..
    case elsewhere =>
      rw [hm] at hslot' hidle
      obtain ⟨t, ht, hqueues⟩ := hi.exec_queues hq hl (by rw [hslot', hf]; rfl) rfl hidle
      exact ⟨t, ht, hqueues.trans (launches_elsewhere ..).queues⟩

end

/-! ## `spawn` -/

/-- The task of a set that `spawn` makes, with its packet's copy in a slot. -/
def spawnedTask (p : BitVec 512) (i slot serial : Nat) : TaskRef :=
  { serial := serial, inst := i, packet := p, packetAddr := copyAddr slot, x := pktGx p, y := pktGy p, z := pktGz p, notice := false,
    rebuild := none, pour := pktPour p }

/-- The set counts one task more, and the task stands last in its bank. -/
def enrols (p : BitVec 512) (i slot : Nat) (u : State) : State :=
  let u := modSet i (fun e => { e with live := e.live + 1 }) (stepSerial u)
  enqueueTask (spawnedTask p i slot (lastInst u)) (pktBank p) (pktPri p) (keepCopy slot p u)

/-- The set of a spawned task, which its packet has made known. -/
def spawnedSet (p : BitVec 512) (u : State) : State :=
  knowSet { emptySet p (ownMask u) with here := true, copy := freeCopy u } u

/-- What `spawn` commits. -/
def spawns (p : BitVec 512) : Option SetEntry → State → State
  | some e, u => checkPred e.inst (enrols p e.inst (freeCopy u) u)
  | none, u => checkPred (lastInst (spawnedSet p u)) (enrols p (lastInst (spawnedSet p u)) (freeCopy u) (spawnedSet p u))

theorem enrols_kept (p : BitVec 512) (i slot : Nat) (u : State) : SetsKept u (enrols p i slot u) := by
  have hcount : SetsKept u (modSet i (fun e => { e with live := e.live + 1 }) (stepSerial u)) := by
    refine (stepSerial_kept u).trans (modSet_kept _ ?_ _)
    exact fun _ => ⟨rfl, id⟩
  exact hcount.trans (SetsKept.trans (.of_kept (keepCopy_kept slot p _)) (enqueueTask_kept ..))

theorem spawns_kept (p : BitVec 512) (known : Option SetEntry) (u : State) : SetsKept u (spawns p known u) := by
  cases known with
  | some e => exact (enrols_kept p e.inst (freeCopy u) u).trans (checkPred_kept e.inst _)
  | none =>
    have hknown : SetsKept u (spawnedSet p u) := knowSet_kept ..
    have henrolled := enrols_kept p (lastInst (spawnedSet p u)) (freeCopy u) (spawnedSet p u)
    exact hknown.trans (henrolled.trans (checkPred_kept (lastInst (spawnedSet p u)) _))

theorem enrols_queues (p : BitVec 512) (i slot : Nat) (u : State) :
    (enrols p i slot u).die.queues.sets = (modSet i (fun e => { e with live := e.live + 1 }) u).die.queues.sets ∧
    ∃ q, (enrols p i slot u).die.queues.tasks = u.die.queues.tasks ++ [q] ∧
      q.ref = spawnedTask p i slot (nextSerial u) ∧ q.bank = pktBank p ∧ q.pri = pktPri p := by
  have hcopy := fun t => (keepCopy_kept slot p t).queues
  unfold enrols enqueueTask
  dsimp only [State.modQueues, State.modDie]
  rw [hcopy]
  exact ⟨rfl, _, rfl, rfl, rfl, rfl⟩

theorem checkPred_of_none {i : Nat} {s : State} (h : ∀ e ∈ s.die.queues.sets, e.inst = i → e.pred = none) :
    checkPred i s = s := by
  have hpred : (findSet i s).bind (·.pred) = none := by
    rw [findSet]
    cases hfind : s.die.queues.sets.find? (fun e => e.inst == i) with
    | none => rfl
    | some e => exact h e (List.mem_of_find?_eq_some hfind) (by simpa using List.find?_some hfind)
  rw [checkPred, hpred]

theorem ite_pred_inst {c : Prop} [Decidable c] (x : SetEntry) (i : Option Nat) :
    (if c then { x with pred := i } else x : SetEntry).inst = x.inst := by
  split <;> rfl

/-- A set that a packet without predecessor makes known refers to none, and no other bears its number. -/
theorem spawnedSet_pred {p : BitVec 512} {u : State} (hpred : pktPredid p = 0)
    (hinst : ∀ x ∈ u.die.queues.sets, x.inst ≤ u.die.queues.serial) :
    ∀ e ∈ (spawnedSet p u).die.queues.sets, e.inst = lastInst (spawnedSet p u) → e.pred = none := by
  intro e he hi
  have hnext : e.inst = u.die.queues.serial + 1 := hi
  rcases List.mem_append.mp he with he | he
  · obtain ⟨x, hx, rfl⟩ := List.mem_map.mp he
    have hx : x.inst ≤ u.die.queues.serial := hinst x hx
    have hsame : x.inst = u.die.queues.serial + 1 := (ite_pred_inst ..).symm.trans hnext
    omega
  · rw [List.mem_singleton.mp he]
    exact if_pos hpred

/-- A spawned task whose set refers to no other does not fail with one. -/
theorem checkPred_enrols {p : BitVec 512} {i slot : Nat} {u : State} (h : ∀ e ∈ u.die.queues.sets, e.inst = i → e.pred = none) :
    checkPred i (enrols p i slot u) = enrols p i slot u := by
  obtain ⟨hsets, -⟩ := enrols_queues p i slot u
  refine checkPred_of_none fun e he hi => ?_
  rw [hsets] at he
  obtain ⟨x, hx, rfl⟩ := List.mem_map.mp he
  by_cases hxi : x.inst = i
  · rw [if_pos hxi]
    exact h x hx hxi
  · rw [if_neg hxi] at hi
    exact absurd hi hxi

theorem spawns_none (p : BitVec 512) (u : State) : spawns p none u =
    checkPred (lastInst (spawnedSet p u)) (enrols p (lastInst (spawnedSet p u)) (freeCopy u) (spawnedSet p u)) := rfl

/-- The task of a set that is not known yet stands last in its bank. -/
theorem spawns_tasks {p : BitVec 512} {u : State} (hpred : pktPredid p = 0)
    (hinst : ∀ x ∈ u.die.queues.sets, x.inst ≤ u.die.queues.serial) :
    ∃ q, (spawns p none u).die.queues.tasks = u.die.queues.tasks ++ [q] ∧ q.ref.packet = p ∧ q.ref.x = pktGx p ∧
      q.ref.y = pktGy p ∧ q.ref.z = pktGz p ∧ q.bank = pktBank p ∧ q.pri = pktPri p := by
  obtain ⟨-, q, htasks, href, hbank, hpri⟩ := enrols_queues p (lastInst (spawnedSet p u)) (freeCopy u) (spawnedSet p u)
  rw [spawns_none, checkPred_enrols (spawnedSet_pred hpred hinst)]
  exact ⟨q, htasks, by rw [href]; exact ⟨rfl, rfl, rfl, rfl, hbank, hpri⟩⟩

theorem ordinary_spawn (r : GP) : Ordinary (.spawn r) := {}

section
variable {r : GP} {s : State} {bs : List Byte} (hq : quiet s = true) (hl : lone (.spawn r) s = true) (hb : s.isRebuild = false)
  (htag : gTag r.reg s = false) (hal : (bits 0 6 (gReg r.reg s) : BitVec 6) = 0)
  (hread : readVirtual s.cur.sys.asid s.user (gReg r.reg s).toNat 64 s = .ok bs)
include hq hb htag hal hread

theorem slot_spawn_read {h : BitVec 512} {e : BitVec 64} (n : Word)
    (hok : launchCheck (BitVec.ofNat 512 (leNat bs)) true s = .ok h)
    (he : platEntry (BitVec.ofNat 512 (leNat bs)) h (pktGx (BitVec.ofNat 512 (leNat bs))).toNat
      (pktGy (BitVec.ofNat 512 (leNat bs))).toNat (pktGz (BitVec.ofNat 512 (leNat bs))).toNat s = .ok e) :
    slotRes n none (.spawn r) s =
    (let p := BitVec.ofNat 512 (leNat bs)
    if !entryOk e (platDmask h) s || entHome e ≠ s.die.coord then .trapOf .operandValue
    else if bankFull (pktBank p) s then .trapOf .queueFull
    else if (trackedSet (pktSetid p) s).isNone && s.setsFull then .trapOf .queueFull
    else .ok (spawns p (trackedSet (pktSetid p) s))) := by
  rw [slot_spawn, slotSpawn, hb, if_neg (by decide), needPacket_ok hq htag hal hread, hok]
  simp only [Except.bind, he, Except.map]
  cases trackedSet (pktSetid (BitVec.ofNat 512 (leNat bs))) s <;> rfl

include hl

/-- What holds of `spawn` once its descriptor and the entry of its coordinate have been read. -/
theorem exec_spawn {h : BitVec 512} {e : BitVec 64} (hok : launchCheck (BitVec.ofNat 512 (leNat bs)) true s = .ok h)
    (he : platEntry (BitVec.ofNat 512 (leNat bs)) h (pktGx (BitVec.ofNat 512 (leNat bs))).toNat
      (pktGy (BitVec.ofNat 512 (leNat bs))).toNat (pktGz (BitVec.ofNat 512 (leNat bs))).toNat s = .ok e) :
    let p := BitVec.ofNat 512 (leNat bs)
    let full := bankFull (pktBank p) s
    (entryOk e (platDmask h) s = false ∨ entHome e ≠ s.die.coord →
      exec (.spawn r) s = .next (traps (.spawn r) .operandValue 0 0 s)) ∧
    (entryOk e (platDmask h) s = true → entHome e = s.die.coord → full = true →
      exec (.spawn r) s = .next (traps (.spawn r) .queueFull 0 0 s)) ∧
    (entryOk e (platDmask h) s = true → entHome e = s.die.coord → full = false →
      ((trackedSet (pktSetid p) s).isSome = true ∨ s.setsFull = false) → ∃ t, exec (.spawn r) s = .next t ∧
      (trackedSet (pktSetid p) s = none → pktPredid p = 0 → (∀ x ∈ s.die.queues.sets, x.inst ≤ s.die.queues.serial) →
        ∃ q, t.die.queues.tasks = s.die.queues.tasks ++ [q] ∧ q.ref.packet = p ∧ q.ref.x = pktGx p ∧ q.ref.y = pktGy p ∧
          q.ref.z = pktGz p ∧ q.bank = pktBank p ∧ q.pri = pktPri p)) := by
  intro p full
  have hi := ordinary_spawn r
  have hslot := slot_spawn_read hq hb htag hal hread (s.nextPc [.spawn r]) hok he
  refine ⟨fun hbad => ?bad, fun hentry hhome hf => ?full, fun hentry hhome hf hroom => ?taken⟩
  case bad =>
    have hbad : (!entryOk e (platDmask h) s || entHome e ≠ s.die.coord) = true := by
      simpa using hbad
    exact hi.exec_trap hq hl (hslot.trans (if_pos hbad)) (by decide)
  all_goals
    have hgood : (!entryOk e (platDmask h) s || entHome e ≠ s.die.coord) = false := by
      simp [hentry, hhome]
    simp only [hgood, Bool.false_eq_true, if_false] at hslot
  case full => exact hi.exec_trap hq hl (hslot.trans (if_pos hf)) (by decide)
  case taken =>
    have hsets : ((trackedSet (pktSetid p) s).isNone && s.setsFull) = false := by
      rcases hroom with hknown | hsets
      · rw [Option.isNone_eq_false_iff.mpr hknown, Bool.false_and]
      · rw [hsets, Bool.and_false]
    have hidle := (spawns_kept p (trackedSet (pktSetid p) s) (moved (.spawn r) s)).idle (idle_moved hq _)
    obtain ⟨t, ht, hqueues⟩ := hi.exec_queues hq hl
      (hslot.trans ((if_neg (by rw [show bankFull .. = _ from hf]; decide)).trans (if_neg (by rw [hsets]; decide)))) rfl hidle
    refine ⟨t, ht, fun hnone hpred hinst => ?_⟩
    rw [hqueues, hnone]
    exact spawns_tasks (u := moved (.spawn r) s) hpred hinst

end

/-! ## Obligation O21 -/

/-- Settles O21: the sets of the queue unit stay known through whatever follows the arrival of a packet. -/
theorem spawnAndLaunch : Obligations.SpawnAndLaunch := by
  intro r s hq a read early
  exact ⟨fun hl => (ordinary_spawn r).exec_packet hq hl rfl (slot_spawn ..),
    fun hl => (ordinary_launch r).exec_packet hq hl rfl (slot_launch ..),
    fun bs hb htag hal hread => ⟨fun hl => exec_launch hq hl hb htag hal hread,
      fun hl h e hok he => exec_spawn hq hl hb htag hal hread hok he⟩⟩

end Sys2Proof.Machine
end

section
/-! The events of traps and errors (spec/09_traps.md R128, R146 to R149), and acts for the context in focus. -/
namespace Sys2Proof.Machine

/-! ## Acts for the context in focus -/

theorem focus_curId (s : State) : focus s.curId s = s := by
  simp [focus, focusCore, focusCtx, State.curId]

/-- An act for the context in focus that leaves the focus there needs no move. -/
theorem withFocus_curId {f : State → State} {s : State} (h : (f s).curId = s.curId) : withFocus s.curId f s = f s := by
  rw [withFocus, focus_curId]
  exact (congrArg (fun c => focus c (f s)) h.symm).trans (focus_curId (f s))

/-! ## Obligation O41 -/

/-- A task without operations retires on a core that is frozen. -/
def retiringFrozen : State :=
  (State.reset.modFlow (fun w => { w with residency := .retiring })).modCore (fun k => { k with frozenLeft := 24 })

/-- Nothing keeps its context. -/
theorem settleCur_retiringFrozen : settleCur retiringFrozen = vacate retiringFrozen := by
  refine settleCur_vacates (n := 0) rfl rfl rfl ?_ (by decide +kernel) rfl rfl
  intro r hr
  exact absurd hr List.not_mem_nil

/-- No trap waits for the drain, yet the event settles the retirement: the context becomes free. -/
theorem exec_trapDelivery_retiringFrozen :
    exec (.trapDelivery retiringFrozen.curId) retiringFrozen = .next (vacate retiringFrozen) := by
  have hnone : deliverTaking retiringFrozen = retiringFrozen := rfl
  have hsettled : settleCur (deliverTaking retiringFrozen) = vacate retiringFrozen := by rw [hnone, settleCur_retiringFrozen]
  refine congrArg Host.Outcome.next ((withFocus_curId (f := fun t => settleCur (deliverTaking t)) ?_).trans hsettled)
  rw [hsettled]
  rfl

/-- Refutes O41: its third part lets TRAP_DELIVERY change nothing in any state with a frozen core, while the model's event ends
by settling its context.  Where the task of the context retires and nothing holds the context, that frees it, frozen or not. -/
theorem not_trapAndErrorEvents : ¬ Obligations.TrapAndErrorEvents := by
  intro h
  obtain ⟨-, -, hfrozen, -⟩ := h
  have hsame := Host.Outcome.next.inj (exec_trapDelivery_retiringFrozen.symm.trans (hfrozen retiringFrozen (by decide)))
  exact absurd (congrArg (fun t : State => t.cur.flow.residency) hsame) (by decide)

end Sys2Proof.Machine
end

section
/-! The issue of a lone load or store (spec/03_bundles.md R25; spec/11_storage.md R165 to R167): its waits, its traps, and the
operation that it begins. -/
namespace Sys2Proof.Machine

/-! ## What nothing makes wait -/

section
variable {s : State} (hc : clear s = true)
include hc

theorem clear_taskOps : s.taskOps = [] := by
  simp only [clear, Bool.and_eq_true, List.isEmpty_iff] at hc
  exact hc.1.1

theorem clear_room : ¬ 256 ≤ s.coreOps := by
  simp only [clear, Bool.and_eq_true, decide_eq_true_eq] at hc
  exact Nat.not_le.mpr hc.1.2

theorem clear_acquireHeld : s.acquireHeld = false := by rw [State.acquireHeld, clear_taskOps hc]; rfl

theorem inOrder_clear (i : Instr) : (inOrder i && s.acquireHeld) = false := by rw [clear_acquireHeld hc, Bool.and_false]

theorem clear_orderHeld (release : Bool) : orderHeld release s = false := by
  have hvoted : s.cur.flow.region.any (fun m => m.voted) = false := by
    simp only [clear, Bool.and_eq_true, Bool.not_eq_true'] at hc
    exact hc.2
  have hreleased : s.releaseHeld = false := by rw [State.releaseHeld, clear_taskOps hc, hvoted]; rfl
  rw [orderHeld, clear_acquireHeld hc, hreleased, Bool.and_false, Bool.or_self]

theorem clear_conflicts (space : BitVec 3) (peer : Coord) (as : List Nat) : conflicts space peer as s = false := by
  rw [conflicts, clear_taskOps hc]; rfl

theorem interlockHeld_clear (hq : quiet s = true) (i : Instr) : interlockHeld i s = false := by
  have horder : orderWaits i s = false := by
    unfold orderWaits
    split
    · exact clear_orderHeld hc _
    · rfl
  simp [interlockHeld, quiet_owes hq, horder, clear_room hc]

end

/-! ## Outcomes of a slot -/

theorem trapsAsking_own (i : Instr) (c : Cause) (a : Word) (s : State) : trapsAsking i false c a s = traps i c 0 a s :=
  if_neg Bool.false_ne_true

/-- A load or store through a record, with the peer register that it names. -/
structure MemoryAccess (i : Instr) (n : BitVec 3) : Prop where
  issues : ∀ s, exec i s = issueOne i s := by exact fun _ => rfl
  remote : remoteSlot i = (n != 0) := by simp [remoteSlot, recordUse]
  noTree : treeUses i = [] := by rfl
  serves : ∀ s, servesNow [i] s = false := by exact fun _ => rfl
  after : ∀ pc t, afterCommit [i] pc false t = t := by exact fun _ _ => rfl

theorem memoryAccess_vld (f : LF) : MemoryAccess (.vld f) f.n := {}
theorem memoryAccess_sld (f : LF) : MemoryAccess (.sld f) f.n := {}
theorem memoryAccess_vst (f : LF) : MemoryAccess (.vst f) f.n := {}
theorem memoryAccess_sst (f : LF) : MemoryAccess (.sst f) f.n := {}

section
variable {i : Instr} {n : BitVec 3} {s : State} (hi : MemoryAccess i n) (hq : quiet s = true) (hc : clear s = true)
  (hl : lone i s = true)
include hi hq

theorem MemoryAccess.engineHeld_eq : engineHeld i s = (n != 0 && freeSlots s.cur == 0) := by
  have htree : treeWaits i s = false := by rw [treeWaits, hi.noTree]; rfl
  unfold engineHeld
  rw [htree, hi.remote, Bool.false_or, Bool.or_eq_right_iff_imp]
  intro hwaits
  obtain ⟨q, -, hwait⟩ := List.any_eq_true.mp hwaits
  have hl := quiet_queue hq q
  cases h : s.cur.queue q with
  | nil => simp [h] at hwait
  | cons e l => simp [h, hl e (by simp [h])] at hwait

include hc hl

theorem MemoryAccess.exec_engine (hr : slotRes (s.nextPc [i]) none i s = .engine) : exec i s = .next (waitEngine s) := by
  rw [hi.issues, issue_lone hq hl, slotInOrder_free (inOrder_clear hc i), hr]; rfl

theorem MemoryAccess.exec_hold (hr : slotRes (s.nextPc [i]) none i s = .hold) : exec i s = .next (holdCycle s) := by
  rw [hi.issues, issue_lone hq hl, slotInOrder_free (inOrder_clear hc i), hr]; rfl

theorem MemoryAccess.exec_fillWait {w : WalkArg} {asked : Bool} (hr : slotRes (s.nextPc [i]) none i s = fillWait w asked) :
    exec i s = .next (holdCycle (askOnce w asked s)) := by
  rw [hi.issues, issue_lone hq hl, slotInOrder_free (inOrder_clear hc i), hr]
  cases asked <;> rfl

theorem MemoryAccess.exec_stop {f : Fault} (hr : slotRes (s.nextPc [i]) none i s = .stop f) : exec i s = .fault f := by
  rw [hi.issues, issue_lone hq hl, slotInOrder_free (inOrder_clear hc i), hr]
  simp only [deferTrap, slotEnd, liveness_lone (hi.serves s), Bool.false_eq_true, if_false]

/-- A cause comes once a response slot is free where the access names a peer (R25). -/
theorem MemoryAccess.exec_trap {c : Cause} {a : Word} (hr : slotRes (s.nextPc [i]) none i s = .trap c 0 a)
    (hsoft : c ≠ .softwareTrap) : exec i s = .next (trapsAsking i (n != 0) c a s) := by
  rw [hi.issues, issue_lone hq hl, slotInOrder_free (inOrder_clear hc i), hr, trapsAsking]
  simp only [deferTrap, hi.engineHeld_eq hq, interlockHeld_clear hc hq, Bool.false_eq_true, if_false]
  cases n != 0 && freeSlots s.cur == 0
  · simp only [slotEnd, if_neg hsoft, liveness_lone (hi.serves s), Bool.false_eq_true, if_false]
    rfl
  · rfl

/-- What the slot commits, and the cycle of its issue. -/
theorem MemoryAccess.exec_ok {F : State → State} (hr : slotRes (s.nextPc [i]) none i s = .ok F)
    (ho : overflows [i] i s = false) : exec i s =
      .next (passCycle ((stampStarted [i] s.pc s.die.nextId s.core.fact.isNone (F (moved i s))).modSys SysCtx.stepDelay)) := by
  rw [hi.issues, issue_lone hq hl, slotInOrder_free (inOrder_clear hc i), hr]
  simp only [deferTrap, slotEnd, ho, liveness_lone (hi.serves s), Bool.false_eq_true, if_false]
  rw [commitBundle, hi.serves, hi.after, commitSlots_lone hq]

/-- A slot without an effect: the bundle passes. -/
theorem MemoryAccess.exec_nothing (hr : slotRes (s.nextPc [i]) none i s = .nothing) (ho : overflows [i] i s = false) :
    exec i s = .next (passed [i] s) := by
  have hok := Machine.exec_ok (F := id) hq hl hr ho (hi.serves s) (moved_plain hq) (inOrder_clear hc i) (hi.issues s)
  rw [hok, hi.after, id, tick_landed (landed_moved hq i)]
  rfl

/-- The end of an issue whose translation fails (R165). -/
theorem MemoryAccess.exec_xlateTrap {x : Xlate} {va : Nat} (hn : n = 0) (hr : slotRes (s.nextPc [i]) none i s = xlateTrap x va)
    (ho : overflows [i] i s = false) : exec i s = answersXlate i x va s := by
  have htrap : ∀ {c a}, slotRes (s.nextPc [i]) none i s = .trap c 0 a → c ≠ .softwareTrap →
      exec i s = .next (traps i c 0 a s) := fun hr hc' => by
    rw [hi.exec_trap hq hc hl hr hc', hn, show ((0 : BitVec 3) != 0) = false from rfl, trapsAsking_own]
  cases x with
  | ok k pa => exact hi.exec_nothing hq hc hl hr ho
  | translation => exact htrap hr (by decide)
  | permission => exact htrap hr (by decide)
  | poisoned => exact htrap hr (by decide)
  | pending w asked => exact hi.exec_fillWait hq hc hl hr
  | absent => exact hi.exec_stop hq hc hl hr

end

end Sys2Proof.Machine
end

section
/-! The operation that a load or store begins at its commit, with what it does beside (spec/11_storage.md R165 to R167;
spec/15_ordering.md R223). -/
namespace Sys2Proof.Machine

/-! ## The operations of the die -/

/-- The uncompleted operations of the die, and the number of the next one. -/
def setOps (l : List Op) (n : Nat) (s : State) : State := s.modDie (fun d => { d with ops := l, nextId := n })

/-- What is done beside the begin of an operation: to the scratchpad, to the die but its operations, and to the queues. -/
structure Beside where
  cluster : Cluster → Cluster
  die : Die → Die
  queues : Vector (List QEntry) 32 → Vector (List QEntry) 32
  ops : ∀ d l n, die { d with ops := l, nextId := n } = { die d with ops := l, nextId := n }

namespace Beside

/-- It is done. -/
def act (b : Beside) (s : State) : State :=
  { s with cluster := b.cluster s.cluster, die := b.die s.die, cur := { s.cur with q := b.queues s.cur.q } }

/-- Nothing. -/
def nothing : Beside := { cluster := id, die := id, queues := id, ops := fun _ _ _ => rfl }

/-- One after another. -/
def comp (a b : Beside) : Beside where
  cluster := a.cluster ∘ b.cluster
  die := a.die ∘ b.die
  queues := a.queues ∘ b.queues
  ops d l n := by rw [Function.comp_apply, b.ops, a.ops]; rfl

theorem act_comp (a b : Beside) (s : State) : (a.comp b).act s = a.act (b.act s) := rfl

theorem act_setOps (b : Beside) (l : List Op) (n : Nat) (s : State) : b.act (setOps l n s) = setOps l n (b.act s) := by
  exact congrArg (fun d => ({ s with cluster := b.cluster s.cluster, die := d, cur := { s.cur with q := b.queues s.cur.q } } : State))
    (b.ops s.die l n)

theorem ops_act (b : Beside) (s : State) : (b.act s).die.ops = s.die.ops ∧ (b.act s).die.nextId = s.die.nextId := by
  have h := b.ops s.die s.die.ops s.die.nextId
  change b.die s.die = _ at h
  simp only [act]
  rw [h]
  exact ⟨rfl, rfl⟩

end Beside

/-- The clocks of a die after a release performed at domain scope or above, as `bumps` tells (spec/15_ordering.md R230). -/
def bumpedDie (bumps : Bool) (d : Die) : Die :=
  if bumps then
    match d.domain.findIdx? (· == d.coord) with
    | some i => { d with clocks := { d.clocks with own := smSet 0 d.clocks.own i (smGet 0 d.clocks.own i + 1) } }
    | none => d
  else d

/-- The bump of the clock for an access. -/
def Beside.bump (release : Bool) (r : Record) (remote : Bool) : Beside where
  cluster := id
  die := bumpedDie (release && 4 ≤ accessScope r remote)
  queues := id
  ops d l n := by
    unfold bumpedDie
    split
    · dsimp only
      split
      · rfl
      · rfl
    · rfl

/-- Granules become full or empty. -/
def Beside.fill (gs : List Nat) (full : Bool) : Beside where
  cluster c := gs.foldl (fun c g => { c with full := smSet false c.full g full }) c
  die := id
  queues := id
  ops _ _ _ := rfl

/-- Bytes are stored in scratchpad. -/
def Beside.store (l : List (Option Nat)) (bs : List Byte) : Beside where
  cluster c := (l.zip bs).foldl (fun c x => match x.1 with | some a => { c with sp := memSet c.sp a x.2 } | none => c) c
  die := id
  queues := id
  ops _ _ _ := rfl

/-- A queue loses its head unless it is kept. -/
def Beside.pop (keep : Bool) (r : BitVec 5) : Beside where
  cluster := id
  die := id
  queues q := if keep then q else q.set r.toNat q[r.toNat].tail
  ops _ _ _ := rfl

/-- What the host answered for the access is forgotten. -/
def Beside.dropEnds : Beside where
  cluster := id
  die d := { d with fillEnds := [] }
  queues := id
  ops _ _ _ := rfl

theorem bumpFor_eq (release : Bool) (r : Record) (remote : Bool) (s : State) :
    bumpFor release r remote s = (Beside.bump release r remote).act s := by
  unfold bumpFor bumpAt bumpClock domainIndex
  simp only [Beside.act, Beside.bump, bumpedDie]
  cases release
  · rfl
  · by_cases h : 4 ≤ accessScope r remote
    · simp only [h, if_true, Bool.true_and, decide_true]
      cases s.die.domain.findIdx? (· == s.die.coord) <;> rfl
    · simp only [h, if_true, if_false, Bool.true_and, decide_false, Bool.false_eq_true]
      rfl

theorem setFullAll_eq (gs : List Nat) (full : Bool) (s : State) : setFullAll gs full s = (Beside.fill gs full).act s := by
  induction gs generalizing s with
  | nil => rfl
  | cons g gs ih => exact ih _

theorem writeScratch_eq (l : List (Option Nat)) (bs : List Byte) (s : State) :
    writeScratch l bs s = (Beside.store l bs).act s := by
  unfold writeScratch Beside.store
  generalize l.zip bs = z
  induction z generalizing s with
  | nil => rfl
  | cons x z ih =>
    obtain ⟨a, v⟩ := x
    cases a with
    | none => exact ih s
    | some a => exact ih (scratchWrite a v s)

theorem popUnless_eq (keep : Bool) (r : BitVec 5) (s : State) : popUnless keep r s = (Beside.pop keep r).act s := by
  cases keep <;> rfl

/-! ## The begin of an operation -/

/-- What the begin of an operation does not say of it: its number, and what R125 logs of its bundle. -/
def Op.blank (o : Op) : Op := { o with id := 0, pc := 0, logged := [] }

/-- The number and what R125 logs, of the operations that a bundle begins. -/
def Op.stamped (pc : Word) (logged : List Byte) (first : Nat) (o : Op) : Op :=
  if first ≤ o.id then { o with pc := pc, logged := logged } else o

/-- The operation numbered `n`. -/
def Op.numbered (n : Nat) (o : Op) : Op := { o with id := n }

/-- What two operations that agree so far have in common. -/
theorem blank_fields {o o' : Op} (h : o'.blank = o.blank) :
    o'.kind = o.kind ∧ o'.owner = o.owner ∧ o'.serial = o.serial ∧ o'.after = o.after ∧ o'.acquires = o.acquires :=
  ⟨show o'.blank.kind = o.blank.kind by rw [h], show o'.blank.owner = o.blank.owner by rw [h],
    show o'.blank.serial = o.blank.serial by rw [h], show o'.blank.after = o.blank.after by rw [h],
    show o'.blank.acquires = o.blank.acquires by rw [h]⟩

theorem stamped_congr {o o' : Op} (h : o'.blank = o.blank) {first n : Nat} (hn : first ≤ n) (pc : Word) (logged : List Byte) :
    (o'.numbered n).stamped pc logged first = (o.numbered n).stamped pc logged first := by
  have hset := congrArg (fun x : Op => { x with id := n, pc := pc, logged := logged }) h
  rw [Op.stamped, Op.stamped, if_pos (show first ≤ (o'.numbered n).id from hn), if_pos (show first ≤ (o.numbered n).id from hn)]
  exact hset

/-- An operation under the next number of the die, and the acquire that follows it where its record asks for one. -/
def begun (o : Op) (s : State) : List Op :=
  o.numbered s.die.nextId :: (if o.acquires then [acquireOp s.die.nextId s] else [])

/-- What an operation owes stands in its context, beside its flow and its system registers. -/
structure Owes (k : OpKind) (id : Nat) (f : Ctx → Ctx) : Prop where
  eq : ∀ s, oweFor k id s = s.modCtx f
  flow : ∀ c, (f c).flow = c.flow
  sys : ∀ c, (f c).sys = c.sys

/-- The entry that a vector load owes. -/
def Ctx.awaitsEntry (q : BitVec 5) (id : Nat) (c : Ctx) : Ctx :=
  c.setQueue q (c.queue q ++ [{ bits := 0, poison := false, landed := false, interlocked := true, due := 0, op := id }])

/-- The word that a scalar load owes; g0 is owed none. -/
def Ctx.awaitsWord (g : BitVec 5) (id : Nat) (c : Ctx) : Ctx :=
  if g = 0 then c
  else { c with pend := c.pend.map (fun p => if p.dest == .g g then { p with dest := .fstat } else p), owed := c.owed ++ [(.g g, id)] }

theorem owes_vecLoad (q : BitVec 5) (spec : Bool) (v : Option (BitVec 1024 × Bool)) (id : Nat) :
    Owes (.vecLoad q spec v) id (Ctx.awaitsEntry q id) := ⟨fun _ => rfl, fun _ => rfl, fun _ => rfl⟩

theorem owes_elemLoad (g : BitVec 5) (n : Nat) (signed spec : Bool) (v : Option (Word × Bool)) (id : Nat) :
    Owes (.elemLoad g n signed spec v) id (Ctx.awaitsWord g id) := by
  have hnone : g = 0 → Ctx.awaitsWord g id = fun c => c := fun hg => by funext c; rw [Ctx.awaitsWord, if_pos hg]
  have howed : g ≠ 0 → Ctx.awaitsWord g id = fun c => { c with
      pend := c.pend.map (fun p => if p.dest == .g g then { p with dest := .fstat } else p), owed := c.owed ++ [(.g g, id)] } :=
    fun hg => by funext c; rw [Ctx.awaitsWord, if_neg hg]
  by_cases hg : g = 0
  · rw [hnone hg]
    exact ⟨fun s => if_pos hg, fun _ => rfl, fun _ => rfl⟩
  · rw [howed hg]
    exact ⟨fun s => if_neg hg, fun _ => rfl, fun _ => rfl⟩

theorem owes_vecStore (data : BitVec 1024) (id : Nat) : Owes (.vecStore data) id (fun c => c) :=
  ⟨fun _ => rfl, fun _ => rfl, fun _ => rfl⟩

theorem owes_elemStore (n : Nat) (data : Word) (id : Nat) : Owes (.elemStore n data) id (fun c => c) :=
  ⟨fun _ => rfl, fun _ => rfl, fun _ => rfl⟩

/-! ## Its commit -/

theorem startOp_eq {o : Op} {s : State} (hnone : s.taskOps = []) (hafter : o.after = []) :
    startOp o s = setOps (s.die.ops ++ [o.numbered s.die.nextId]) (s.die.nextId + 1) s := by
  have hown : ownBefore o s = [] := by rw [ownBefore, hnone]; rfl
  rw [startOp, hown, ite_self, ← hafter]
  rfl

/-- An acquire waits for the one operation of its task that is uncompleted. -/
theorem beginAcquire_eq {o : Op} {s : State} {n : Nat} (h : s.taskOps = [o]) (hn : o.id = n) :
    beginAcquire (some n) s =
      setOps (s.die.ops ++ [{ mkOp (.acquire [n]) s with counted := false }]) (s.die.nextId + 1) s := by
  have hids : (s.taskOps.filter (fun x => x.isRead || some n == some x.id)).map (·.id) = [n] := by
    rw [h, List.filter_singleton, hn, beq_self_eq_true, Bool.or_true]
    exact congrArg (fun x => [x]) hn
  rw [beginAcquire, hids]
  rfl

/-- The number of an operation aside, only its task and what its context runs make an operation one of its context. -/
theorem mkOp_congr {s u : State} (k : OpKind) (hid : u.curId = s.curId) (hflow : u.cur.flow = s.cur.flow)
    (hsys : u.cur.sys = s.cur.sys) : mkOp k u = (mkOp k s).numbered u.die.nextId := by
  simp only [mkOp, Op.numbered, State.user, State.pc, Ctx.serial, hid, hflow, hsys]

section
variable {o : Op} {f : Ctx → Ctx} {s : State} (hf : Owes o.kind s.die.nextId f) (hnone : s.taskOps = [])
include hf hnone

theorem startOp_owing (hafter : o.after = []) : startOp o (oweFor o.kind s.die.nextId s) =
    setOps (s.die.ops ++ [o.numbered s.die.nextId]) (s.die.nextId + 1) (s.modCtx f) := by
  have hnone' : (s.modCtx f).taskOps = [] := by
    rw [State.taskOps, State.modCtx_cur, show (f s.cur).serial = s.cur.serial by rw [Ctx.serial, hf.flow]; rfl]
    exact hnone
  rw [hf.eq, startOp_eq hnone' hafter]
  rfl

variable (howner : o.owner = s.curId) (hserial : o.serial = s.cur.serial)
include howner hserial

/-- An operation that has just begun is the only one of its task, which had none. -/
theorem taskOps_begun : (setOps (s.die.ops ++ [o.numbered s.die.nextId]) (s.die.nextId + 1) (s.modCtx f)).taskOps =
    [o.numbered s.die.nextId] := by
  have hmine : (o.owner == s.curId && o.serial == s.cur.serial) = true := by simp [howner, hserial]
  have hserial' : (f s.cur).serial = s.cur.serial := by rw [Ctx.serial, hf.flow]; rfl
  change (s.die.ops ++ [o.numbered s.die.nextId]).filter
    (fun x : Op => x.owner == s.curId && x.serial == (f s.cur).serial) = _
  rw [hserial', List.filter_append, List.filter_singleton]
  change s.taskOps ++ (bif o.owner == s.curId && o.serial == s.cur.serial then _ else _) = _
  rw [hnone, hmine]
  rfl

/-- A local operation begins, with the acquire of its record. -/
theorem beginLocal_eq (hafter : o.after = []) :
    beginLocal o s = setOps (s.die.ops ++ begun o s) (s.die.nextId + (begun o s).length) (s.modCtx f) := by
  unfold beginLocal begun
  rw [startOp_owing hf hnone hafter]
  cases ha : o.acquires with
  | false => rfl
  | true =>
    have hacquire : acquireOp s.die.nextId s =
        { mkOp (.acquire [s.die.nextId]) (setOps (s.die.ops ++ [o.numbered s.die.nextId]) (s.die.nextId + 1) (s.modCtx f)) with
          counted := false } := by
      have hmk := mkOp_congr (s := s) (u := setOps (s.die.ops ++ [o.numbered s.die.nextId]) (s.die.nextId + 1) (s.modCtx f))
        (.acquire [s.die.nextId]) rfl (hf.flow s.cur) (hf.sys s.cur)
      rw [hmk, acquireOp, hnone]
      rfl
    have hown : (o.numbered s.die.nextId).id = s.die.nextId := rfl
    rw [if_pos rfl, if_pos rfl, beginAcquire_eq (taskOps_begun hf hnone howner hserial) hown, ← hacquire]
    change setOps ((s.die.ops ++ [_]) ++ [_]) _ _ = _
    rw [List.append_assoc]
    rfl

end

theorem begins_eq (i : Instr) {o : Op} {s : State} {f : Ctx → Ctx} (hf : Owes o.kind s.die.nextId f) :
    begins i o s = setOps ((s.die.ops ++ begun o s).map (Op.stamped s.pc ((bundleBytes [i]).take 47) s.die.nextId))
      (s.die.nextId + (begun o s).length) ((passed [i] s).modCtx f) := by
  unfold begins
  rw [hf.eq]
  rfl

/-- What R125 logs goes to the operations that are new. -/
theorem stampStarted_setOps {is : List Instr} {pc : Word} {id n : Nat} {fresh : Bool} {l : List Op} {s : State} (hn : n ≠ id)
    (hfact : fresh = true → s.core.fact = none) : stampStarted is pc id fresh (setOps l n s) =
      setOps (l.map (Op.stamped pc ((bundleBytes is).take 47) id)) n s := by
  have hcore : ∀ u : State, (fresh = true → u.core.fact = none) → (if fresh then u.modCore (fun k =>
      { k with fact := k.fact.map (fun f => { f with pc := pc, logged := (bundleBytes is).take 47 }) }) else u) = u := by
    intro u hu
    cases fresh
    · rfl
    · simp only [State.modCore, hu rfl, Option.map_none, if_true]
      rw [← hu rfl]
  have hnew : (setOps l n s).die.nextId ≠ id := hn
  unfold stampStarted
  simp only [if_neg hnew]
  exact hcore _ hfact

/-- The acquire of an access is the same wherever its bundle stands. -/
theorem begun_stamped {o o' : Op} {s u : State} (hsame : o'.blank = o.blank) (hnext : u.die.nextId = s.die.nextId)
    (hid : u.curId = s.curId) (htask : u.cur.flow.task = s.cur.flow.task) (hsys : u.cur.sys = s.cur.sys)
    (hnone : s.taskOps = []) (hnone' : u.taskOps = []) (pc : Word) (logged : List Byte) :
    (begun o' u).map (Op.stamped pc logged s.die.nextId) = (begun o s).map (Op.stamped pc logged s.die.nextId) := by
  obtain ⟨-, -, -, -, hacquires⟩ := blank_fields hsame
  have hfirst := stamped_congr hsame (le_refl s.die.nextId) pc logged
  have hsecond : (acquireOp s.die.nextId u).stamped pc logged s.die.nextId =
      (acquireOp s.die.nextId s).stamped pc logged s.die.nextId := by
    have hblank : (acquireOp s.die.nextId u).blank = (acquireOp s.die.nextId s).blank := by
      simp only [acquireOp, hnone, hnone', mkOp, Op.blank, State.user, Ctx.serial, hid, htask, hsys]
    exact stamped_congr (n := s.die.nextId + 1) hblank (Nat.le_succ _) pc logged
  simp only [begun, hacquires, hnext, List.map_cons, hfirst]
  cases o.acquires with
  | false => rfl
  | true => simp only [if_true, List.map_cons, List.map_nil, hsecond]

/-- In whatever cycle, nothing lands in the context. -/
def Ctx.Steady (c : Ctx) : Prop := ∀ n, c.land n = c

theorem Ctx.Landed.awaitsEntry {c : Ctx} (h : c.Landed) (q : BitVec 5) (id : Nat) : (c.awaitsEntry q id).Steady := by
  intro n
  refine land_eq_self (c := c.awaitsEntry q id) (fun p hp => ?_) fun r => ?_
  · have hp : p ∈ c.pend := hp
    rw [h.pend] at hp
    exact absurd hp List.not_mem_nil
  · have hqueue : (c.awaitsEntry q id).queue r = if r = q then _ else c.queue r := queue_setQueue ..
    rw [hqueue]
    split
    · rw [landQueue_append (h.queues q)]
      rfl
    · exact landQueue_landed n _ (h.queues r)

theorem Ctx.Landed.awaitsWord {c : Ctx} (h : c.Landed) (g : BitVec 5) (id : Nat) : (c.awaitsWord g id).Steady := by
  unfold Ctx.awaitsWord
  split
  · exact h.land
  · refine Ctx.Landed.land ⟨?_, h.queues⟩
    rw [h.pend]
    rfl

theorem Ctx.Landed.pop {c : Ctx} (h : c.Landed) (keep : Bool) (r : BitVec 5) :
    ({ c with q := (Beside.pop keep r).queues c.q } : Ctx).Landed := by
  cases keep with
  | true => exact h
  | false =>
    refine ⟨h.pend, fun x e he => ?_⟩
    have hqueue : (c.setQueue r (c.queue r).tail).queue x = if x = r then (c.queue r).tail else c.queue x := queue_setQueue ..
    change e ∈ (c.setQueue r (c.queue r).tail).queue x at he
    rw [hqueue] at he
    split at he
    · exact h.queues r e (List.mem_of_mem_tail he)
    · exact h.queues x e he

theorem tick_steady {s : State} (h : s.cur.Steady) : s.tick = cycled s := by
  simp only [State.tick, cycled, State.passClocks_cur]
  rw [h]
  rfl

/-- The cycle of the issue, after the act of an operation's begin on its context. -/
theorem cycled_owing (i : Instr) {k : OpKind} {id : Nat} {f : Ctx → Ctx} (hf : Owes k id f) (s : State) :
    cycled ((moved i s).modCtx f) = (passed [i] s).modCtx f := by
  have hruns : ((moved i s).modCtx f).coreRuns = s.coreRuns := by
    rw [State.coreRuns, State.modCtx_cur, hf.flow]
    rfl
  have hclock : ((moved i s).modCtx f).clockHere = s.clockHere := by
    rw [State.clockHere, hruns]
    rfl
  simp only [cycled, State.passClocks, hclock]
  rfl

section
variable {i : Instr} {n : BitVec 3} {s : State} (hi : MemoryAccess i n) (hq : quiet s = true) (hc : clear s = true)
  (hl : lone i s = true)
include hi hq hc hl

/-- A lone load or store that begins an operation, with what it does beside. -/
theorem MemoryAccess.exec_begins {F : State → State} {b : Beside} {o o' : Op} {f : Ctx → Ctx}
    (hr : slotRes (s.nextPc [i]) none i s = .ok F) (ho : overflows [i] i s = false)
    (hF : F (moved i s) = beginLocal o' (b.act (moved i s))) (hsame : o'.blank = o.blank) (howner : o.owner = s.curId)
    (hserial : o.serial = s.cur.serial) (hafter : o.after = []) (hf : Owes o.kind s.die.nextId f)
    (hcomm : ∀ u, (b.act u).modCtx f = b.act (u.modCtx f)) (hsteady : (f (b.act (moved i s)).cur).Steady) :
    exec i s = .next (b.act (begins i o s)) := by
  obtain ⟨hops, hnext⟩ : (b.act (moved i s)).die.ops = s.die.ops ∧ (b.act (moved i s)).die.nextId = s.die.nextId :=
    b.ops_act (moved i s)
  obtain ⟨hkind, howner', hserial', hafter', -⟩ := blank_fields hsame
  have hnone := clear_taskOps hc
  have hnone' : (b.act (moved i s)).taskOps = [] := by
    rw [State.taskOps, hops]
    exact hnone
  have hbegun := begun_stamped (s := s) (u := b.act (moved i s)) hsame hnext rfl rfl rfl hnone hnone' s.pc
    ((bundleBytes [i]).take 47)
  have hlength : (begun o' (b.act (moved i s))).length = (begun o s).length := by
    simpa only [List.length_map] using congrArg List.length hbegun
  have hlater : s.die.nextId + (begun o s).length ≠ s.die.nextId :=
    Nat.ne_of_gt (Nat.lt_add_of_pos_right (Nat.succ_pos _))
  have hbegin : F (moved i s) = setOps (s.die.ops ++ begun o' (b.act (moved i s))) (s.die.nextId + (begun o s).length)
      (b.act ((moved i s).modCtx f)) := by
    rw [hF, beginLocal_eq (f := f) (by rw [hkind, hnext]; exact hf) hnone' (howner'.trans howner) (hserial'.trans hserial)
      (hafter'.trans hafter), hops, hnext, hlength, hcomm]
  have hstamp : stampStarted [i] s.pc s.die.nextId s.core.fact.isNone (F (moved i s)) =
      setOps ((s.die.ops ++ begun o s).map (Op.stamped s.pc ((bundleBytes [i]).take 47) s.die.nextId))
        (s.die.nextId + (begun o s).length) (b.act ((moved i s).modCtx f)) := by
    have hfact : s.core.fact.isNone = true → (b.act ((moved i s).modCtx f)).core.fact = none := fun h =>
      (Option.isNone_iff_eq_none.mp h : s.core.fact = none)
    rw [hbegin, stampStarted_setOps hlater hfact, List.map_append, hbegun, ← List.map_append]
  have hcur : (b.act ((moved i s).modCtx f)).cur = f (b.act (moved i s)).cur := congrArg State.cur (hcomm (moved i s)).symm
  have hsys := congrArg Ctx.sys hcur
  rw [hf.sys] at hsys
  have hdelay : (b.act ((moved i s).modCtx f)).cur.sys.fmtDelay = [] := by
    rw [hsys]; exact quiet_delay (s := s) hq
  have htick : (b.act ((moved i s).modCtx f)).tick = b.act ((passed [i] s).modCtx f) := by
    rw [tick_steady (by rw [hcur]; exact hsteady), ← cycled_owing i hf]
    rfl
  have hcycle : ∀ l n, passCycle ((setOps l n (b.act ((moved i s).modCtx f))).modSys SysCtx.stepDelay) =
      setOps l n (b.act ((passed [i] s).modCtx f)) := by
    intro l n
    have hnow : (setOps l n (b.act ((moved i s).modCtx f))).tick = setOps l n (b.act ((passed [i] s).modCtx f)) :=
      congrArg (setOps l n) htick
    have hcur' : (b.act ((passed [i] s).modCtx f)).cur.flow.beats = [] := by
      rw [← hcomm, State.modCtx_cur, hf.flow]; exact quiet_beats (s := s) hq
    rw [modSys_stepDelay (s := setOps l n (b.act ((moved i s).modCtx f))) hdelay, passCycle, hnow]
    exact beatNow_none (s := setOps l n (b.act ((passed [i] s).modCtx f))) hcur' (quiet_parked (s := s) hq)
  rw [hi.exec_ok hq hc hl hr ho, hstamp, hcycle, begins_eq i hf, b.act_setOps]

end

end Sys2Proof.Machine
end

section
/-! Lone loads and stores that ask a peer (spec/11_storage.md R165; spec/23_fabric.md R343 to R349). -/
namespace Sys2Proof.Machine

/-! ## Packets leave the operations of the die alone -/

theorem leaveBy_ops (o : Option Nat) (n : Nat) (p : Packet) (s : State) : (leaveBy o n p s).die.ops = s.die.ops := by
  unfold leaveBy emit
  split
  · rfl
  · rfl

theorem sendOn_ops (way : Option Nat) (p : Packet) (s : State) : (sendOn way p s).die.ops = s.die.ops := by
  cases way with
  | some n => exact leaveBy_ops none n p s
  | none => rfl

theorem sendClocked_ops (way : Option Nat) (p : Packet) (s : State) : (sendClocked way p s).die.ops = s.die.ops := by
  unfold sendClocked
  dsimp only
  split
  · split
    · rw [sendOn_ops, sendOn_ops, sendOn_ops]
      rfl
    · rw [sendOn_ops]
      rfl
  · exact sendOn_ops ..

theorem sendPacket_ops (p : Packet) (s : State) : (sendPacket p s).die.ops = s.die.ops := by
  unfold sendPacket unrouted emit
  split
  · split
    · rfl
    · rfl
  · exact sendClocked_ops ..
  · exact sendClocked_ops ..

theorem sendAll_ops : ∀ (l : List Part) (s : State), (l.foldl (fun s p => sendPacket p.req s) s).die.ops = s.die.ops
  | [], _ => rfl
  | p :: l, s => (sendAll_ops l (sendPacket p.req s)).trans (sendPacket_ops p.req s)

/-! ## The operation of a request -/

/-- An operation like `o` in task is in flight under the number `n`, and the core has still its cycle and no more beats. -/
structure Asked (n : Nat) (o : Op) (u t : State) : Prop where
  op : ∃ x ∈ t.die.ops, x.id = n ∧ x.owner = o.owner ∧ x.serial = o.serial
  cycle : t.core.cycle = u.core.cycle
  parked : t.core.parked = u.core.parked
  flow : t.cur.flow.beats = u.cur.flow.beats

theorem startOp_asked (o : Op) (u : State) : Asked u.die.nextId o u (startOp o u) where
  op := ⟨_, List.mem_append_right _ (List.mem_singleton_self _), rfl, rfl, rfl⟩
  cycle := rfl
  parked := rfl
  flow := rfl

theorem sendParts_asked {n : Nat} {o p : Op} {u t : State} (h : Asked n o u t) : Asked n o u (sendParts p t) := by
  obtain ⟨hop, hcycle, hparked, hflow⟩ := h
  unfold sendParts
  split
  case h_2 => exact ⟨hop, hcycle, hparked, hflow⟩
  case h_1 r _ =>
    obtain ⟨hcur, hcore, -⟩ := QueuesKept.foldl (fun s (p : Part) => sendPacket_kept p.req s) r.parts t
    exact ⟨by rw [sendAll_ops]; exact hop, (congrArg Core.cycle hcore).trans hcycle, (congrArg Core.parked hcore).trans hparked,
      (congrArg (fun c => c.flow.beats) hcur).trans hflow⟩

/-- Where the context has a free response slot, the search finds one. -/
theorem freeSlot_some {c : Ctx} (h : freeSlots c ≠ 0) : (freeSlot c).isSome = true := by
  obtain ⟨x, hx⟩ := List.exists_mem_of_length_pos (Nat.pos_of_ne_zero h)
  obtain ⟨hmem, hfree⟩ := List.mem_filter.mp hx
  obtain ⟨k, hk, hget⟩ := List.mem_iff_getElem.mp hmem
  rw [freeSlot, List.find?_isSome]
  have hk8 : k < 8 := by simpa using hk
  refine ⟨k, List.mem_range.mpr hk8, ?_⟩
  have hat : c.flow.slots[k]? = some x := by
    rw [Vector.getElem?_eq_getElem hk8]
    exact congrArg some hget
  rw [hat]
  exact hfree

/-- The operation `p` starts, something is done in its context, and its requests leave unless they wait. -/
theorem startOp_sendParts_asked {o p : Op} {u : State} {g : Ctx → Ctx} (howner : p.owner = o.owner) (hserial : p.serial = o.serial)
    (hflow : (g u.cur).flow.beats = u.cur.flow.beats) (waits : Bool) : Asked u.die.nextId o u
      (if waits then (startOp p u).modCtx g else sendParts p ((startOp p u).modCtx g)) := by
  have hstart : Asked u.die.nextId o u ((startOp p u).modCtx g) :=
    ⟨⟨_, List.mem_append_right _ (List.mem_singleton_self _), rfl, howner, hserial⟩, rfl, rfl, hflow⟩
  cases waits with
  | true => exact hstart
  | false => exact sendParts_asked hstart

theorem startRemote_asked {o : Op} {dst : Coord} {reqs : List (Packet × Nat)} {u : State} (h : freeSlots u.cur ≠ 0) :
    Asked u.die.nextId o u (startRemote o dst reqs u) := by
  obtain ⟨k, hk⟩ := Option.isSome_iff_exists.mp (freeSlot_some h)
  unfold startRemote
  rw [hk]
  cases reqs with
  | nil => exact startOp_asked o u
  | cons q reqs => refine startOp_sendParts_asked ?_ ?_ ?_ _ <;> rfl

/-- Only the core's cycle and beats, and the operations of the die, tell whether an operation is in flight. -/
theorem Asked.of_more {n : Nat} {o : Op} {u t v : State} (h : Asked n o u t) (hops : ∀ x ∈ t.die.ops, x ∈ v.die.ops)
    (hcore : v.core = t.core) (hcur : v.cur = t.cur) : Asked n o u v := by
  obtain ⟨⟨x, hmem, hx⟩, hcycle, hparked, hflow⟩ := h
  exact ⟨⟨x, hops x hmem, hx⟩, hcore ▸ hcycle, hcore ▸ hparked, hcur ▸ hflow⟩

theorem beginAcquire_asked {n m : Nat} {o : Op} {u t : State} (h : Asked n o u t) : Asked n o u (beginAcquire (some m) t) := by
  unfold beginAcquire
  dsimp only
  split
  · exact h
  · exact h.of_more (fun _ hx => List.mem_append_left _ hx) rfl rfl

theorem beginRemote_asked {o : Op} {peer : Coord} {reqs : List (Packet × Nat)} {f : Ctx → Ctx} {u : State}
    (hf : Owes o.kind u.die.nextId f) (h : freeSlots u.cur ≠ 0) : Asked u.die.nextId o u (beginRemote o peer reqs u) := by
  unfold beginRemote
  rw [hf.eq]
  have hslots : freeSlots (u.modCtx f).cur ≠ 0 := by rw [freeSlots, State.modCtx_cur, hf.flow]; exact h
  obtain ⟨hop, hcycle, hparked, hflow⟩ := startRemote_asked (o := o) (dst := peer) (reqs := reqs) hslots
  have hstart : Asked u.die.nextId o u (startRemote o peer reqs (u.modCtx f)) :=
    ⟨hop, hcycle, hparked, hflow.trans (by rw [State.modCtx_cur, hf.flow])⟩
  dsimp only
  split
  · exact beginAcquire_asked hstart
  · exact hstart

/-! ## Its commit -/

theorem stampStarted_asked {n : Nat} {o : Op} {u t : State} (h : Asked n o u t) (is : List Instr) (pc : Word) (id : Nat)
    (fresh : Bool) : Asked n o u (stampStarted is pc id fresh t) := by
  have hstamped : Asked n o u (t.modDie (fun d => { d with ops := d.ops.map (Op.stamped pc ((bundleBytes is).take 47) id) })) := by
    obtain ⟨⟨x, hmem, hx⟩, hcycle, hparked, hflow⟩ := h
    refine ⟨⟨x.stamped pc ((bundleBytes is).take 47) id, List.mem_map_of_mem hmem, ?_⟩, hcycle, hparked, hflow⟩
    unfold Op.stamped
    split
    · exact hx
    · exact hx
  have hlogged : ∀ v : State, Asked n o u v → ∀ g : Core → Core, (∀ k, (g k).cycle = k.cycle ∧ (g k).parked = k.parked) →
      Asked n o u (if fresh then v.modCore g else v) := by
    intro v hv g hg
    split
    · exact ⟨hv.op, (hg _).1.trans hv.cycle, (hg _).2.trans hv.parked, hv.flow⟩
    · exact hv
  unfold stampStarted
  refine hlogged _ ?_ _ fun _ => ⟨rfl, rfl⟩
  split
  · exact h
  · exact hstamped

theorem passCycle_asked {n : Nat} {o : Op} {u t : State} (h : Asked n o u t) (hbeats : u.cur.flow.beats = [])
    (hparked : parkedBeats u = none) :
    (∃ x ∈ (passCycle t).die.ops, x.id = n ∧ x.owner = o.owner ∧ x.serial = o.serial) ∧
      (passCycle t).core.cycle = u.core.cycle + 1 := by
  obtain ⟨hop, hcycle, hpark, hflow⟩ := h
  have hbeats' : t.tick.cur.flow.beats = [] := by
    rw [← hbeats, ← hflow]
    exact congrArg FlowCtx.beats (land_flow ..)
  have hparked' : parkedBeats t.tick = none := by
    rw [← hparked, parkedBeats, parkedBeats, ← hpark]
    rfl
  rw [passCycle, beatNow_none hbeats' hparked']
  exact ⟨hop, congrArg (· + 1) hcycle⟩

/-- A lone load or store that asks a peer, with what it does beside. -/
theorem MemoryAccess.exec_asks {i : Instr} {n : BitVec 3} {s : State} (hi : MemoryAccess i n) (hq : quiet s = true)
    (hc : clear s = true) (hl : lone i s = true) {F : State → State} {b : Beside} {o : Op} {f : Ctx → Ctx}
    (hr : slotRes (s.nextPc [i]) none i s = .ok F) (ho : overflows [i] i s = false)
    (hF : ∃ peer reqs, F (moved i s) = beginRemote o peer reqs (b.act (moved i s))) (howner : o.owner = s.curId)
    (hserial : o.serial = s.cur.serial) (hf : Owes o.kind s.die.nextId f) (hfree : freeSlots s.cur ≠ 0) : asksPeer i s := by
  obtain ⟨peer, reqs, hF⟩ := hF
  have hnext : (b.act (moved i s)).die.nextId = s.die.nextId := (b.ops_act (moved i s)).2
  have hbegun := beginRemote_asked (o := o) (peer := peer) (reqs := reqs) (u := b.act (moved i s)) (hnext.symm ▸ hf) hfree
  rw [← hF, hnext] at hbegun
  obtain ⟨hop, hcycle, hparked, hflow⟩ := stampStarted_asked hbegun [i] s.pc s.die.nextId s.core.fact.isNone
  have hbeats : (b.act (moved i s)).cur.flow.beats = [] := (moved_plain (i := i) hq).beats
  obtain ⟨⟨x, hmem, hid, hown, hser⟩, hclock⟩ := passCycle_asked (t := State.modSys SysCtx.stepDelay _)
    ⟨hop, hcycle, hparked, hflow⟩ hbeats (quiet_parked (s := s) hq)
  exact ⟨_, hi.exec_ok hq hc hl hr ho, hclock, x, hmem, hid, hown.trans howner, hser.trans hserial⟩

end Sys2Proof.Machine
end

section
/-! Lone loads (spec/11_storage.md R165, R173). -/
namespace Sys2Proof.Machine

/-! ## The slot of a load or store with nothing to wait for -/

section
variable {s : State} (hq : quiet s = true) (hc : clear s = true)
include hc

theorem roomFor_clear (k : SlotRes) : roomFor s k = k := if_neg (clear_room hc)

theorem needBytes_clear {addrs : List (Option Nat)} (hheld : s.spHeld (named addrs) = false) (k : SlotRes) :
    needBytes addrs s k = k := by
  rw [needBytes, clear_conflicts hc, needScratch, hheld]
  rfl

/-- With no operation of the task under way, an access of scratchpad is performed when it issues. -/
theorem scratchAccess_moved (o : Op) (now early : State → State) (i : Instr) :
    scratchAccess o now early (moved i s) = now (moved i s) := by
  have hnone : (moved i s).taskOps = [] := clear_taskOps (s := s) hc
  rw [scratchAccess, ownBefore, hnone]
  rfl

include hq

theorem lRecord_clear (f : LF) (disp : Int) (k : Record → Int → SlotRes) : lRecord f disp s k =
    if gTag f.o s then .trapOf .poison else k s.cur.b[f.b.toNat] ((gReg f.o s).toInt + disp) := by
  rw [lRecord, roomFor_clear hc, needB_quiet hq, cleanG_quiet hq]

end

/-- Granules become full or empty where a qualifier of the access says so. -/
theorem setFullAll_when (p : Prop) [Decidable p] (gs : List Nat) (full : Bool) (s : State) :
    (if p then setFullAll gs full s else s) = (Beside.fill (if p then gs else []) full).act s := by
  rw [← setFullAll_eq]
  split
  · rfl
  · rfl

section
variable {s : State} (hc : clear s = true) {f : LF} (p : AccessPlan) (r : Record) (t : Int) (failed : Xlate → Nat → SlotRes)
include hc

/-- A translation of the access fails. -/
theorem issuePlan_fail (hn : f.n = 0) {x : Xlate} {va : Nat}
    (hcells : s.cells p.access (kindSpace r) (placeAddrs r (recRun r t p.count)) = .fail x va) :
    issuePlan p f r t s failed = failed x va := by
  simp only [issuePlan, clear_conflicts hc, hn, ne_eq, not_true_eq_false, Bool.false_eq_true, if_false, hcells]

/-- The own die as the target of an access outside scratchpad. -/
theorem issuePlan_own (hn : f.n = 0) {cs : List (Option PByte)}
    (hcells : s.cells p.access (kindSpace r) (placeAddrs r (recRun r t p.count)) = .ok cs) :
    issuePlan p f r t s failed = .ok (fun u =>
      let u := bumpFor p.release r false (p.also u)
      beginLocal { planOp p f r t u with cells := cs } u) := by
  simp only [issuePlan, clear_conflicts hc, hn, ne_eq, not_true_eq_false, Bool.false_eq_true, if_false, hcells]

/-- A peer as the target of an access. -/
theorem issuePlan_peer (hn : f.n ≠ 0) : issuePlan p f r t s failed =
      if freeSlots s.cur = 0 then .engine
      else .ok (fun u =>
        let u := bumpFor p.release r true (p.also u)
        let o := planOp p f r t u
        beginRemote o (s.readN f.n) (p.reqs (requestOf o (s.readN f.n) u) (heapBytes r (recRun r t p.count))) u) := by
  simp only [issuePlan, clear_conflicts hc, hn, ne_eq, not_false_eq_true, Bool.false_eq_true, if_false, if_true]

end

section
variable {i : Instr} {f : LF} {s : State} (hi : MemoryAccess i f.n) (hq : quiet s = true) (hc : clear s = true)
  (hl : lone i s = true) {p : AccessPlan} {r : Record} {t : Int} {failed : Xlate → Nat → SlotRes}
  (hr : slotRes (s.nextPc [i]) none i s = issuePlan p f r t s failed) (hn : f.n ≠ 0)
include hi hq hc hl hr hn

/-- An access of a peer waits for a free response slot. -/
theorem MemoryAccess.exec_unslotted (hfree : freeSlots s.cur = 0) : exec i s = .next (waitEngine s) := by
  rw [issuePlan_peer hc p r t _ hn, if_pos hfree] at hr
  exact hi.exec_engine hq hc hl hr

/-- An access of a peer asks it, with what the plan does beside. -/
theorem MemoryAccess.exec_peer (hfree : freeSlots s.cur ≠ 0) {b : Beside} (halso : ∀ u, p.also u = b.act u) {g : Ctx → Ctx}
    (hg : Owes p.kind s.die.nextId g) (ho : overflows [i] i s = false) : asksPeer i s := by
  rw [issuePlan_peer hc p r t _ hn, if_neg hfree] at hr
  have hacts : bumpFor p.release r true (p.also (moved i s)) = ((Beside.bump p.release r true).comp b).act (moved i s) := by
    rw [halso, bumpFor_eq, Beside.act_comp]
  exact hi.exec_asks (o := planOp p f r t (bumpFor p.release r true (p.also (moved i s)))) hq hc hl hr ho
    (by rw [← hacts]; exact ⟨_, _, rfl⟩) (by rw [hacts]; rfl) (by rw [hacts]; rfl) hg hfree

end

/-! ## Loads -/

/-- `vld` or `sld`. -/
def loadInstr (f : LF) (vec : Bool) : Instr := if vec then .vld f else .sld f

/-- Bytes that the load or store moves. -/
def accessSize (f : LF) (vec : Bool) : Nat := if vec then 128 else elemSize f

/-- The alignment that it asks for. -/
def accessAlign (f : LF) (vec : Bool) : Nat := if vec then 16 else elemSize f

/-- What a load from memory or from a peer is. -/
def loadPlan (f : LF) (vec : Bool) (r : Record) : AccessPlan :=
  { kind := loadKind f vec (lSpec f) none, count := accessSize f vec, access := .read, isRead := true, isWrite := false,
    release := isRelease r, reqs := readReqs, also := id }

/-- The slot of a load whose translation fails: a speculative one brings a poisoned value (R165). -/
def loadFailed (f : LF) (vec : Bool) (x : Xlate) (va : Nat) : SlotRes :=
  if lSpec f && (x == .translation || x == .permission) then loadPoisoned f vec else xlateTrap x va

/-- The slot of a load through the record `r` at the offset `t`, once it waits for nothing. -/
def loadAt (f : LF) (vec : Bool) (r : Record) (t : Int) (s : State) : SlotRes :=
  match accessFault r (f.n != 0) f.fe t (accessSize f vec) (accessAlign f vec) with
  | some (c, a) => if lSpec f then loadPoisoned f vec else .trap c 0 a
  | none =>
    if recSpace r = 2 then loadScratch f vec t (placeAddrs r (recRun r t (accessSize f vec))) r s
    else issuePlan (loadPlan f vec r) f r t s (loadFailed f vec)

/-- The faults known at issue are traps of the hardware. -/
theorem accessFault_cause {r : Record} {remote : Bool} {fe : BitVec 2} {t : Int} {n align : Nat} {c : Cause} {a : Word}
    (h : accessFault r remote fe t n align = some (c, a)) : c ≠ .softwareTrap := by
  have hcause : ∀ {c' : Cause} {a' : Word}, some (c', a') = some (c, a) → c' ≠ .softwareTrap → c ≠ .softwareTrap :=
    fun h hsoft => (Prod.mk.inj (Option.some.inj h)).1 ▸ hsoft
  unfold accessFault at h
  split at h
  · exact hcause h (by decide)
  · split at h
    · exact hcause h (by decide)
    · split at h
      · exact hcause h (by decide)
      · split at h
        · exact hcause h (by decide)
        · exact absurd h (by simp)

/-- What a load owes. -/
def loadOwes (f : LF) (vec : Bool) (id : Nat) : Ctx → Ctx := if vec then Ctx.awaitsEntry f.d id else Ctx.awaitsWord f.d id

theorem memoryAccess_load (f : LF) (vec : Bool) : MemoryAccess (loadInstr f vec) f.n := by
  cases vec with
  | true => exact memoryAccess_vld f
  | false => exact memoryAccess_sld f

theorem slot_load (f : LF) (vec : Bool) (next : Word) (s : State) :
    slotRes next none (loadInstr f vec) s = slotLoad f vec s := by
  cases vec with
  | true => rfl
  | false => rfl

theorem overflows_load {f : LF} {vec : Bool} {s : State} (hroom : vec = true → roomIn f.d [] s = true) :
    overflows [loadInstr f vec] (loadInstr f vec) s = false := by
  cases vec with
  | false => exact overflows_none (pushesOf_gDest (r := f.d) rfl)
  | true =>
    have hroom : (s.cur.queue f.d).length + 1 ≤ 4 := of_decide_eq_true (hroom rfl)
    have hpushes : ∀ n, pushesOf n (.vld f) = [f.d] := fun _ => rfl
    have hpops : ∀ n, ([Instr.vld f].flatMap (popsOf n)) = [] := fun _ => rfl
    simp only [overflows, loadInstr, if_true, hpushes, hpops, List.any_cons, List.any_nil, Bool.or_false, List.count_nil,
      List.count_singleton_self, decide_eq_false_iff_not]
    omega

theorem owes_load (f : LF) (vec spec : Bool) (v : Option (BitVec 1024 × Bool)) (id : Nat) :
    Owes (loadKind f vec spec v) id (loadOwes f vec id) := by
  cases vec with
  | true => exact owes_vecLoad ..
  | false => exact owes_elemLoad ..

theorem Ctx.Landed.loadOwes {c : Ctx} (h : c.Landed) (f : LF) (vec : Bool) (id : Nat) : (loadOwes f vec id c).Steady := by
  cases vec with
  | true => exact h.awaitsEntry f.d id
  | false => exact h.awaitsWord f.d id

/-! ## What the slot of a load answers -/

section
variable {f : LF} {vec : Bool} {s : State} (hq : quiet s = true) (hc : clear s = true)
include hq hc

theorem slotLoad_poison (h : gTag f.o s = true) : slotLoad f vec s = .trap .poison 0 0 := by
  rw [slotLoad, lRecord_clear hq hc, if_pos h]
  rfl

variable (h : gTag f.o s = false)
include h

theorem slotLoad_clean : slotLoad f vec s = loadAt f vec s.cur.b[f.b.toNat] ((gReg f.o s).toInt + lDisp f) s := by
  rw [slotLoad, lRecord_clear hq hc, h]
  simp only [clear_orderHeld hc, Bool.false_eq_true, if_false]
  cases vec with
  | true => rfl
  | false => exact destG_quiet hq f.d _

end

/-! ## What a lone load does -/

section
variable {f : LF} {vec : Bool} {s : State} (hq : quiet s = true) (hc : clear s = true) (hl : lone (loadInstr f vec) s = true)
  (hroom : vec = true → roomIn f.d [] s = true)
include hq hc hl hroom

/-- A load that begins an operation, with what it does beside, which leaves the queues alone. -/
theorem exec_load_begins {F : State → State} {b : Beside} {o o' : Op} {spec : Bool} {v : Option (BitVec 1024 × Bool)}
    (hslot : slotLoad f vec s = .ok F) (hF : F (moved (loadInstr f vec) s) = beginLocal o' (b.act (moved (loadInstr f vec) s)))
    (hsame : o'.blank = o.blank) (hkind : o.kind = loadKind f vec spec v) (howner : o.owner = s.curId)
    (hserial : o.serial = s.cur.serial) (hafter : o.after = []) (hqueues : b.queues = id) :
    exec (loadInstr f vec) s = .next (b.act (begins (loadInstr f vec) o s)) := by
  have hcomm : ∀ u, (b.act u).modCtx (loadOwes f vec s.die.nextId) = b.act (u.modCtx (loadOwes f vec s.die.nextId)) := by
    intro u
    simp only [Beside.act, hqueues, id]
    rfl
  have hlanded : (b.act (moved (loadInstr f vec) s)).cur.Landed := by
    simp only [Beside.act, hqueues, id]
    exact landed_moved hq _
  exact (memoryAccess_load f vec).exec_begins hq hc hl ((slot_load ..).trans hslot) (overflows_load hroom) hF hsame howner
    hserial hafter (hkind ▸ owes_load ..) hcomm (hlanded.loadOwes f vec _)

/-- A speculative load that would fault brings a poisoned value. -/
theorem exec_load_poisoned (hslot : slotLoad f vec s = loadPoisoned f vec) : exec (loadInstr f vec) s =
    .next (begins (loadInstr f vec) { mkOp (loadKind f vec true (some (Config.freeEntry s.die.nextId, true))) s with
      isRead := true } s).dropEnds :=
  exec_load_begins (b := .dropEnds) (o' := { mkOp (loadKind f vec true (some (Config.freeEntry s.die.nextId, true)))
    (moved (loadInstr f vec) s) with isRead := true }) hq hc hl hroom hslot rfl rfl rfl rfl rfl rfl rfl

section
variable {r : Record} {t : Int} {addrs : List (Option Nat)} (hslot : slotLoad f vec s = loadScratch f vec t addrs r s)
  (hheld : s.spHeld (named addrs) = false)
include hslot hheld

omit hroom in
/-- `.keep` and `.take` wait until every granule is full. -/
theorem exec_load_empty (hfe : f.fe ≠ 0) (hempty : (granulesOf (named addrs)).any (fun g => !isFull g s) = true) :
    exec (loadInstr f vec) s = .next (waitEngine s) := by
  have hwaits : slotLoad f vec s = .engine := by
    rw [hslot, loadScratch, needBytes_clear hc hheld]
    exact if_pos (by rw [accessGranules, hempty, decide_eq_true hfe]; rfl)
  exact (memoryAccess_load f vec).exec_engine hq hc hl ((slot_load ..).trans hwaits)

/-- A load from scratchpad brings what it reads when it issues; `.take` empties its granules. -/
theorem exec_load_scratch (hfull : f.fe = 0 ∨ (granulesOf (named addrs)).all (fun g => isFull g s) = true) :
    exec (loadInstr f vec) s = .next
      (let u := ordered r (begins (loadInstr f vec) { mkOp (loadKind f vec (lSpec f)
          (some (loadBits f vec (readScratch addrs s), scratchFault addrs s))) s with record := r, isRead := true } s)
        if f.fe = 2 then setFullAll (granulesOf (named addrs)) false u else u) := by
  have hready : ¬(f.fe ≠ 0 && (granulesOf (named addrs)).any (fun g => !isFull g s)) = true := by
    rcases hfull with hfe | hall
    · simp [hfe]
    · simp only [List.all_eq_true] at hall
      simpa using fun _ g hg => hall g hg
  rw [loadScratch, needBytes_clear hc hheld, accessGranules, if_neg hready] at hslot
  have hacts : ∀ u, (let u := ordered r u; if f.fe = 2 then setFullAll (granulesOf (named addrs)) false u else u) =
      ((Beside.bump (isRelease r) r false).comp (.fill (if f.fe = 2 then granulesOf (named addrs) else []) false)).act u := by
    intro u
    dsimp only
    rw [setFullAll_when, ordered, bumpFor_eq]
    rfl
  rw [hacts]
  refine exec_load_begins (o' := { mkOp (loadKind f vec (lSpec f)
    (some (loadBits f vec (readScratch addrs s), scratchFault addrs s))) (moved (loadInstr f vec) s) with
      record := r, isRead := true }) hq hc hl hroom hslot ?_ rfl rfl rfl rfl rfl rfl
  rw [scratchAccess_moved hc, bumpFor_eq, setFullAll_when]
  rfl

end

section
variable {r : Record} {t : Int} (hslot : slotLoad f vec s = issuePlan (loadPlan f vec r) f r t s (loadFailed f vec))
include hslot

/-- A load from memory whose translation fails. -/
theorem exec_load_untranslated (hn : f.n = 0) {x : Xlate} {va : Nat}
    (hcells : s.cells .read (kindSpace r) (placeAddrs r (recRun r t (accessSize f vec))) = .fail x va) :
    exec (loadInstr f vec) s = if lSpec f = true ∧ (x = .translation ∨ x = .permission) then
      .next (begins (loadInstr f vec) { mkOp (loadKind f vec true (some (Config.freeEntry s.die.nextId, true))) s with
        isRead := true } s).dropEnds
      else answersXlate (loadInstr f vec) x va s := by
  have hfails : slotLoad f vec s = loadFailed f vec x va := hslot.trans (issuePlan_fail hc _ r t _ hn hcells)
  by_cases hpoison : lSpec f = true ∧ (x = .translation ∨ x = .permission)
  · rw [if_pos hpoison]
    exact exec_load_poisoned hq hc hl hroom (hfails.trans (if_pos (by simpa using hpoison)))
  · rw [if_neg hpoison]
    have htrap : slotLoad f vec s = xlateTrap x va := hfails.trans (if_neg (by simpa using hpoison))
    exact (memoryAccess_load f vec).exec_xlateTrap hq hc hl hn ((slot_load ..).trans htrap) (overflows_load hroom)

/-- A load from memory begins an operation. -/
theorem exec_load_memory (hn : f.n = 0) {cs : List (Option PByte)}
    (hcells : s.cells .read (kindSpace r) (placeAddrs r (recRun r t (accessSize f vec))) = .ok cs) :
    exec (loadInstr f vec) s = .next (ordered r (begins (loadInstr f vec)
      { recOp (loadKind f vec (lSpec f) none) f r t (placeAddrs r (recRun r t (accessSize f vec))) s with
        isRead := true, cells := cs } s)) := by
  rw [issuePlan_own hc (loadPlan f vec r) r t _ hn hcells] at hslot
  rw [ordered, bumpFor_eq]
  refine exec_load_begins (o' := { recOp (loadKind f vec (lSpec f) none) f r t (placeAddrs r (recRun r t (accessSize f vec)))
    (moved (loadInstr f vec) s) with isRead := true, cells := cs }) hq hc hl hroom hslot ?_ rfl rfl rfl rfl rfl rfl
  rw [bumpFor_eq]
  rfl

end

end

/-! ## Obligation O30 -/

theorem setWidth_ofNat_of_lt {w x : Nat} (hw : w ≤ 64) (hx : x < 2 ^ w) : ((BitVec.ofNat 64 x).setWidth w).toNat = x := by
  rw [BitVec.toNat_setWidth, BitVec.toNat_ofNat, Nat.mod_eq_of_lt (Nat.lt_of_lt_of_le hx (Nat.pow_le_pow_right (by decide) hw)),
    Nat.mod_eq_of_lt hx]

theorem zext_ofNat {w x : Nat} (hw : w ≤ 64) (hx : x < 2 ^ w) : zext w (BitVec.ofNat 64 x) = BitVec.ofNat 64 x := by
  refine BitVec.eq_of_toNat_eq ?_
  rw [BitVec.toNat_setWidth, setWidth_ofNat_of_lt hw hx, BitVec.toNat_ofNat]

theorem sext_ofNat {w x : Nat} (hpos : 0 < w) (hw : w ≤ 64) (hx : x < 2 ^ w) :
    sext w (BitVec.ofNat 64 x) = BitVec.ofInt 64 (signedOf w x) := by
  have hhalf : 2 ^ w = 2 * 2 ^ (w - 1) := (mul_pow_sub_one (Nat.ne_of_gt hpos) 2).symm
  have hiff : 2 * x < 2 ^ w ↔ x < 2 ^ (w - 1) := by omega
  have hint : ((BitVec.ofNat 64 x).setWidth w).toInt = signedOf w x := by
    rw [BitVec.toInt_eq_toNat_cond, setWidth_ofNat_of_lt hw hx, signedOf]
    simp only [hiff, Nat.cast_pow, Nat.cast_ofNat]
  rw [sext, BitVec.signExtend, hint]

/-- A scalar load's value is the number that as many bytes as it reads stand for. -/
theorem loadValue_eq (f : LF) (isSigned : Bool) {bs : List Byte} (hlen : bs.length = elemSize f) :
    loadValue (elemSize f) isSigned bs =
      if isSigned then BitVec.ofInt 64 (signedOf (8 * elemSize f) (leNat bs)) else BitVec.ofNat 64 (leNat bs) := by
  have hlt : leNat bs < 2 ^ (8 * elemSize f) := hlen ▸ leNat_lt bs
  have hpos : 0 < 8 * elemSize f := Nat.mul_pos (by decide) (Nat.two_pow_pos _)
  have hcode : (bits 0 2 f.modf : BitVec 2).toNat ≤ 3 := Nat.le_of_lt_succ (BitVec.isLt _)
  have hle : 8 * elemSize f ≤ 64 := Nat.mul_le_mul_left 8 (Nat.pow_le_pow_right (by decide) hcode)
  rw [loadValue, List.take_of_length_le (Nat.le_of_eq hlen)]
  rw [zext_ofNat hle hlt, sext_ofNat hpos hle hlt]

theorem readScratch_length (r : Record) (t : Int) (n : Nat) (s : State) :
    (readScratch (placeAddrs r (recRun r t n)) s).length = n := by
  simp [readScratch, placeAddrs, recRun]

/-- Settles O30, by the cases of the slot once it waits for nothing: a fault known at issue, scratchpad, memory, a peer. -/
theorem loadIssue : Obligations.LoadIssue := by
  intro f vec s hq hc i hl hroom r t n spec addrs kind poisoned fault granules bytes stops value
  have hi : MemoryAccess (loadInstr f vec) f.n := memoryAccess_load f vec
  have hkind : kind = loadKind f vec spec := by
    funext v
    cases vec with
    | true => rfl
    | false => rfl
  have hstops : ∀ {c a}, slotLoad f vec s = .trap c 0 a → c ≠ .softwareTrap → stops c a := fun h hsoft =>
    hi.exec_trap hq hc hl ((slot_load ..).trans h) hsoft
  have hpoisoned : spec = true → poisoned = (begins (loadInstr f vec) { mkOp (loadKind f vec true
      (some (Config.freeEntry s.die.nextId, true))) s with isRead := true } s).dropEnds := fun hspec => by
    simp only [poisoned, hkind, hspec]
    rfl
  refine ⟨fun h => hstops (slotLoad_poison hq hc h) (by decide), fun h => ?_⟩
  have hslot : slotLoad f vec s = loadAt f vec r t s := slotLoad_clean hq hc h
  have halign : accessFault r (f.n != 0) f.fe t (accessSize f vec) (accessAlign f vec) = fault := by
    cases vec with
    | true => rfl
    | false => rfl
  rw [loadAt, halign] at hslot
  have hplan : fault = none → recSpace r ≠ 2 → slotLoad f vec s = issuePlan (loadPlan f vec r) f r t s (loadFailed f vec) :=
    fun hfault hspace => by
      rw [hslot, hfault]
      exact if_neg hspace
  refine ⟨fun c a hfault => ?_, fun hfault hspace hheld => ?_, fun hfault hspace hown => ?_, fun hfault hspace hpeer => ?_⟩
  · have hfaults : slotLoad f vec s = if lSpec f then loadPoisoned f vec else .trap c 0 a := by rw [hslot, hfault]
    refine ⟨fun hspec => ?_, fun hspec => ?_⟩
    · rw [hpoisoned hspec]
      exact exec_load_poisoned hq hc hl hroom (hfaults.trans (if_pos hspec))
    · exact hstops (hfaults.trans (if_neg (by rw [show lSpec f = false from hspec]; decide))) (accessFault_cause hfault)
  · have hscratch : slotLoad f vec s = loadScratch f vec t addrs r s := by
      rw [hslot, hfault]
      exact if_pos hspace
    have hvalue : value = loadBits f vec bytes := by
      cases vec with
      | true => exact (if_pos rfl).symm
      | false =>
        rw [loadBits, loadValue_eq f _ (readScratch_length r t n s)]
        rfl
    refine ⟨exec_load_empty hq hc hl hscratch hheld, fun hfull => ?_⟩
    rw [hkind, hvalue]
    exact exec_load_scratch hq hc hl hroom hscratch hheld hfull
  · refine ⟨fun x va hcells => ?_, fun cs hcells => ?_⟩
    · by_cases hpoison : spec = true ∧ (x = .translation ∨ x = .permission)
      · rw [if_pos hpoison, hpoisoned hpoison.1]
        exact (exec_load_untranslated hq hc hl hroom (hplan hfault hspace) hown hcells).trans (if_pos hpoison)
      · rw [if_neg hpoison]
        exact (exec_load_untranslated hq hc hl hroom (hplan hfault hspace) hown hcells).trans (if_neg hpoison)
    · rw [hkind]
      exact exec_load_memory hq hc hl hroom (hplan hfault hspace) hown hcells
  · have hr := (slot_load f vec (s.nextPc [loadInstr f vec]) s).trans (hplan hfault hspace)
    exact ⟨hi.exec_unslotted hq hc hl hr hpeer, fun hfree => hi.exec_peer (b := .nothing) hq hc hl hr hpeer hfree
      (fun _ => rfl) (owes_load ..) (overflows_load hroom)⟩

end Sys2Proof.Machine
end

section
/-! Lone stores (spec/11_storage.md R165, R173). -/
namespace Sys2Proof.Machine

/-! ## Stores -/

/-- `vst` or `sst`. -/
def storeInstr (f : LF) (vec : Bool) : Instr := if vec then .vst f else .sst f

/-- What the store writes, as its operation carries it. -/
def storeKind (f : LF) (vec : Bool) (s : State) : OpKind :=
  if vec then .vecStore (headBits f.d s) else .elemStore (elemSize f) (gReg f.d s)

/-- The bytes that the store writes. -/
def storeData (f : LF) (vec : Bool) (s : State) : List Byte :=
  if vec then leBytes 128 (headBits f.d s).toNat else leBytes (elemSize f) (gReg f.d s).toNat

/-- The tag of what the store writes. -/
def storeTag (f : LF) (vec : Bool) (s : State) : Bool := if vec then headTag f.d s else gTag f.d s

/-- The pop of a vector store. -/
def storePop (f : LF) (vec : Bool) : Beside := .pop (!vec || f.modf.getLsbD 0) f.d

/-- The slot of a store of a clean value through the record `r` at the offset `t`. -/
def storeAt (f : LF) (vec : Bool) (r : Record) (t : Int) (s : State) : SlotRes :=
  storeBytes f (storeKind f vec s) (accessAlign f vec) (storeData f vec s) (storePop f vec).act r t s

/-- What a store to memory or to a peer is. -/
def storePlan (f : LF) (vec : Bool) (r : Record) (s : State) : AccessPlan :=
  { kind := storeKind f vec s, count := accessSize f vec, access := .write, isRead := false, isWrite := true,
    release := isRelease r, reqs := fun q l => writeReqs q l (fun i => (storeData f vec s).getD i 0), also := (storePop f vec).act }

theorem storePop_act (f : LF) (vec : Bool) (s : State) :
    (storePop f vec).act s = if vec then popUnless (f.modf.getLsbD 0) f.d s else s := by
  cases vec with
  | true => exact (popUnless_eq ..).symm
  | false => rfl

theorem memoryAccess_store (f : LF) (vec : Bool) : MemoryAccess (storeInstr f vec) f.n := by
  cases vec with
  | true => exact memoryAccess_vst f
  | false => exact memoryAccess_sst f

theorem overflows_store (f : LF) (vec : Bool) (s : State) : overflows [storeInstr f vec] (storeInstr f vec) s = false := by
  cases vec with
  | true => exact overflows_none rfl
  | false => exact overflows_none rfl

theorem owes_store (f : LF) (vec : Bool) (s : State) (id : Nat) : Owes (storeKind f vec s) id (fun c => c) := by
  cases vec with
  | true => exact owes_vecStore ..
  | false => exact owes_elemStore ..

theorem leBytes_length : ∀ n v, (leBytes n v).length = n
  | 0, _ => rfl
  | n + 1, v => congrArg (· + 1) (leBytes_length n (v / 256))

theorem storeData_length (f : LF) (vec : Bool) (s : State) : (storeData f vec s).length = accessSize f vec := by
  cases vec with
  | true => exact leBytes_length ..
  | false => exact leBytes_length ..

/-! ## What the slot of a store answers -/

section
variable {f : LF} {vec : Bool} {s : State} (hq : quiet s = true) (hc : clear s = true) (next : Word)
include hq hc

theorem slot_store_poison (h : gTag f.o s = true) : slotRes next none (storeInstr f vec) s = .trap .poison 0 0 := by
  have hrecord : ∀ k, lRecord f (lDisp f) s k = .trap .poison 0 0 := fun k => by
    rw [lRecord_clear hq hc, if_pos h]
    rfl
  cases vec with
  | true => exact (hrecord _ : slotVst f s = _)
  | false => exact (hrecord _ : slotSst f s = _)

variable (h : gTag f.o s = false)
include h

theorem slot_store_underflow (hvec : vec = true) (hempty : s.cur.queue f.d = []) :
    slotRes next none (storeInstr f vec) s = .trap .queueUnderflow 0 0 := by
  subst hvec
  change slotVst f s = _
  rw [slotVst, lRecord_clear hq hc, h, needQ_quiet hq, if_pos hempty]
  rfl

/-- A poisoned value raises its trap once nothing else holds the store. -/
theorem slot_store (hfull : vec = true → s.cur.queue f.d ≠ []) : slotRes next none (storeInstr f vec) s =
    poisonLast (storeTag f vec s) (storeAt f vec s.cur.b[f.b.toNat] ((gReg f.o s).toInt + lDisp f) s) := by
  cases vec with
  | true =>
    change slotVst f s = _
    have hpop : popUnless (f.modf.getLsbD 0) f.d = (storePop f true).act := funext (popUnless_eq _ f.d)
    rw [slotVst, lRecord_clear hq hc, h, needQ_quiet hq, if_neg (hfull rfl), hpop, if_neg Bool.false_ne_true]
    rfl
  | false =>
    change slotSst f s = _
    have hpop : id = (storePop f false).act := rfl
    rw [slotSst, lRecord_clear hq hc, h, needG_quiet hq, hpop, if_neg Bool.false_ne_true]
    rfl

end

section
variable {f : LF} {vec : Bool} {r : Record} {t : Int} {s : State} (hc : clear s = true)
include hc

theorem storeAt_fault {c : Cause} {a : Word}
    (hfault : accessFault r (f.n != 0) f.fe t (accessSize f vec) (accessAlign f vec) = some (c, a)) :
    storeAt f vec r t s = .trap c 0 a := by
  simp only [storeAt, storeBytes, clear_orderHeld hc, storeData_length, hfault, Bool.false_eq_true, if_false]

variable (hfault : accessFault r (f.n != 0) f.fe t (accessSize f vec) (accessAlign f vec) = none)
include hfault

theorem storeAt_scratch (hspace : recSpace r = 2) : storeAt f vec r t s =
    storeScratch f (storeKind f vec s) (storeData f vec s) t (placeAddrs r (recRun r t (accessSize f vec))) r (storePop f vec).act
      s := by
  simp only [storeAt, storeBytes, clear_orderHeld hc, storeData_length, hfault, hspace, Bool.false_eq_true, if_false, if_true]

theorem storeAt_elsewhere (hspace : recSpace r ≠ 2) :
    storeAt f vec r t s = issuePlan (storePlan f vec r s) f r t s xlateTrap := by
  simp only [storeAt, storeBytes, clear_orderHeld hc, storeData_length, hfault, hspace, Bool.false_eq_true, if_false, storePlan]

end

/-! ## What a lone store does -/

theorem poisonLast_waits {p : Bool} {k : SlotRes} (h : k.waits = true) : poisonLast p k = k := by
  rw [poisonLast, h, Bool.not_true, Bool.and_false]
  rfl

theorem poisonLast_tagged {k : SlotRes} (h : k.waits = false) : poisonLast true k = .trap .poison 0 0 := by
  rw [poisonLast, h]
  rfl

/-- A translation that the host has answered holds nothing. -/
theorem xlateTrap_answered {x : Xlate} {va : Nat} (h : ∀ w asked, x ≠ .pending w asked) : (xlateTrap x va).waits = false := by
  cases x with
  | pending w asked => exact absurd rfl (h w asked)
  | ok | translation | permission | poisoned | absent => rfl

section
variable {f : LF} {vec : Bool} {s : State} (hq : quiet s = true) (hc : clear s = true) (hl : lone (storeInstr f vec) s = true)
include hq hc hl

/-- A store that begins an operation, with what it does beside, which is a pop in the queues. -/
theorem exec_store_begins {F : State → State} {b : Beside} {o o' : Op}
    (hr : slotRes (s.nextPc [storeInstr f vec]) none (storeInstr f vec) s = .ok F)
    (hF : F (moved (storeInstr f vec) s) = beginLocal o' (b.act (moved (storeInstr f vec) s)))
    (hsame : o'.blank = o.blank) (hkind : o.kind = storeKind f vec s) (howner : o.owner = s.curId)
    (hserial : o.serial = s.cur.serial) (hafter : o.after = []) (hqueues : b.queues = (storePop f vec).queues) :
    exec (storeInstr f vec) s = .next (b.act (begins (storeInstr f vec) o s)) := by
  have hlanded : (b.act (moved (storeInstr f vec) s)).cur.Landed := by
    simp only [Beside.act, hqueues]
    exact (landed_moved hq _).pop _ _
  exact (memoryAccess_store f vec).exec_begins (f := fun c => c) hq hc hl hr (overflows_store ..) hF hsame howner hserial hafter
    (hkind ▸ owes_store ..) (fun _ => rfl) hlanded.land

section
variable {r : Record} {t : Int} {addrs : List (Option Nat)}

/-- A store to scratchpad is performed when it issues. -/
theorem exec_store_scratch (hr : slotRes (s.nextPc [storeInstr f vec]) none (storeInstr f vec) s =
      storeScratch f (storeKind f vec s) (storeData f vec s) t addrs r (storePop f vec).act s)
    (hheld : s.spHeld (named addrs) = false)
    (hempty : ¬(f.fe = 2 && (granulesOf (named addrs)).any (fun g => isFull g s)) = true) : exec (storeInstr f vec) s = .next
      (let u := writeScratch addrs (storeData f vec s) ((storePop f vec).act (ordered r (begins (storeInstr f vec)
          { mkOp (storeKind f vec s) s with record := r, post := lPost f, isWrite := true } s)))
        if f.fe ≠ 0 then setFullAll (granulesOf (named addrs)) true u else u) := by
  rw [storeScratch, needBytes_clear hc hheld, accessGranules, if_neg hempty] at hr
  let b := (Beside.fill (if f.fe ≠ 0 then granulesOf (named addrs) else []) true).comp
    ((Beside.bump (isRelease r) r false).comp ((Beside.store addrs (storeData f vec s)).comp (storePop f vec)))
  have hissue : ∀ u, (let u := bumpFor (isRelease r) r false (writeScratch addrs (storeData f vec s) ((storePop f vec).act u))
      if f.fe ≠ 0 then setFullAll (granulesOf (named addrs)) true u else u) = b.act u := by
    intro u
    dsimp only
    rw [setFullAll_when, bumpFor_eq, writeScratch_eq]
    rfl
  have hstated : ∀ u, (let u := writeScratch addrs (storeData f vec s) ((storePop f vec).act (ordered r u))
      if f.fe ≠ 0 then setFullAll (granulesOf (named addrs)) true u else u) = b.act u := by
    intro u
    dsimp only
    rw [setFullAll_when, ordered, bumpFor_eq, writeScratch_eq]
    rfl
  rw [hstated]
  refine exec_store_begins (o' := { mkOp (storeKind f vec s) (moved (storeInstr f vec) s) with
    record := r, post := lPost f, isWrite := true }) hq hc hl hr ?_ rfl rfl rfl rfl rfl rfl
  rw [scratchAccess_moved hc]
  exact (congrArg (fun u : State => beginLocal { mkOp (storeKind f vec s) u with record := r, post := lPost f, isWrite := true } u)
    (hissue _))

/-- A store to memory begins an operation. -/
theorem exec_store_memory (hr : slotRes (s.nextPc [storeInstr f vec]) none (storeInstr f vec) s =
      issuePlan (storePlan f vec r s) f r t s xlateTrap) (hn : f.n = 0) {cs : List (Option PByte)}
    (hcells : s.cells .write (kindSpace r) (placeAddrs r (recRun r t (accessSize f vec))) = .ok cs) :
    exec (storeInstr f vec) s = .next ((storePop f vec).act (ordered r (begins (storeInstr f vec)
      { recOp (storeKind f vec s) f r t (placeAddrs r (recRun r t (accessSize f vec))) s with isWrite := true, cells := cs } s))) := by
  rw [issuePlan_own hc (storePlan f vec r s) r t _ hn hcells] at hr
  have hstated : ∀ u, (storePop f vec).act (ordered r u) = ((Beside.bump (isRelease r) r false).comp (storePop f vec)).act u := by
    intro u
    rw [ordered, bumpFor_eq]
    rfl
  rw [hstated]
  refine exec_store_begins (o' := { recOp (storeKind f vec s) f r t (placeAddrs r (recRun r t (accessSize f vec)))
    (moved (storeInstr f vec) s) with isWrite := true, cells := cs }) hq hc hl hr ?_ rfl rfl rfl rfl rfl rfl
  rw [bumpFor_eq]
  rfl

end

end

/-! ## Obligation O31 -/

/-- Settles O31, by the cases of the slot: a fault known at issue, scratchpad, memory, a peer; in each, a poisoned value is the
last of its causes. -/
theorem storeIssue : Obligations.StoreIssue := by
  intro f vec s hq hc i hl r t n addrs kind data pop post fault granules tagged stops
  have hi : MemoryAccess (storeInstr f vec) f.n := memoryAccess_store f vec
  have hstops : ∀ {c a}, slotRes (s.nextPc [i]) none (storeInstr f vec) s = .trap c 0 a → c ≠ .softwareTrap → stops c a :=
    fun h hsoft => hi.exec_trap hq hc hl h hsoft
  refine ⟨fun h => hstops (slot_store_poison hq hc _ h) (by decide),
    fun h hvec hempty => hstops (slot_store_underflow hq hc _ h hvec hempty) (by decide), ?_⟩
  intro h hhead full
  have hslot : slotRes (s.nextPc [i]) none (storeInstr f vec) s = poisonLast tagged (storeAt f vec r t s) :=
    slot_store hq hc _ h hhead
  have hkind : kind = storeKind f vec s := by
    cases vec with
    | true => rfl
    | false => rfl
  have hdata : data = storeData f vec s := by
    cases vec with
    | true => rfl
    | false => rfl
  have hpop : pop = (storePop f vec).act := funext fun u => (storePop_act f vec u).symm
  have halign : accessFault r (f.n != 0) f.fe t (accessSize f vec) (accessAlign f vec) = fault := by
    cases vec with
    | true => rfl
    | false => rfl
  rw [← halign]
  have hpoisons : ∀ {k}, storeAt f vec r t s = k → k.waits = false → tagged = true → stops .poison 0 := by
    intro k hk hwaits htag
    rw [hk, htag, poisonLast_tagged hwaits] at hslot
    exact hstops hslot (by decide)
  refine ⟨fun hfault htag => ?_, fun htag c a hfault => ?_, fun hfault hspace hheld => ?_, fun hfault hspace hown => ?_,
    fun hfault hspace hpeer => ?_⟩
  · obtain ⟨⟨c, a⟩, hfault⟩ := Option.isSome_iff_exists.mp hfault
    exact hpoisons (storeAt_fault hc hfault) rfl htag
  · rw [storeAt_fault hc hfault, htag] at hslot
    exact hstops hslot (accessFault_cause hfault)
  · have hscratch : storeAt f vec r t s =
        storeScratch f (storeKind f vec s) (storeData f vec s) t addrs r (storePop f vec).act s := storeAt_scratch hc hfault hspace
    have hready : (f.fe = 2 → ¬full) → ¬(f.fe = 2 && granules.any (fun g => isFull g s)) = true := by
      simp [full]
    refine ⟨fun hfe hfull => ?_, fun hfree htag => ?_, fun hfree htag => ?_⟩
    · have hhold : storeAt f vec r t s = .hold := by
        rw [hscratch, storeScratch, needBytes_clear hc hheld]
        exact if_pos (by rw [decide_eq_true hfe]; exact hfull)
      rw [hhold, poisonLast_waits rfl] at hslot
      exact hi.exec_hold hq hc hl hslot
    · rw [storeScratch, needBytes_clear hc hheld, accessGranules, if_neg (hready hfree)] at hscratch
      exact hpoisons hscratch rfl htag
    · rw [htag, hscratch] at hslot
      rw [hkind, hdata, hpop]
      exact exec_store_scratch hq hc hl hslot hheld (hready hfree)
  · have hplan := storeAt_elsewhere hc hfault hspace
    refine ⟨fun w asked va hcells => ?_, fun hanswered htag => ?_, fun htag => ⟨fun x va hcells => ?_, fun cs hcells => ?_⟩⟩
    · rw [hplan, issuePlan_fail hc _ r t _ hown hcells, poisonLast_waits (by cases asked <;> rfl)] at hslot
      exact hi.exec_fillWait hq hc hl hslot
    · cases hcells : s.cells .write (kindSpace r) addrs with
      | ok cs => exact hpoisons (hplan.trans (issuePlan_own hc _ r t _ hown hcells)) rfl htag
      | fail x va =>
        refine hpoisons (hplan.trans (issuePlan_fail hc _ r t _ hown hcells)) ?_ htag
        exact xlateTrap_answered fun w asked hx => hanswered w asked va (hx ▸ hcells)
    · rw [htag, hplan, issuePlan_fail hc _ r t _ hown hcells] at hslot
      exact hi.exec_xlateTrap hq hc hl hown hslot (overflows_store ..)
    · rw [htag, hplan] at hslot
      rw [hkind, hpop]
      exact exec_store_memory hq hc hl hslot hown hcells
  · have hplan := storeAt_elsewhere hc hfault hspace
    refine ⟨fun hfree => ?_, fun hfree htag => ?_, fun hfree htag => ?_⟩
    · rw [hplan, issuePlan_peer hc _ r t _ hpeer, if_pos hfree, poisonLast_waits rfl] at hslot
      exact hi.exec_engine hq hc hl hslot
    · exact hpoisons (hplan.trans ((issuePlan_peer hc _ r t _ hpeer).trans (if_neg hfree))) rfl htag
    · rw [htag, hplan] at hslot
      exact hi.exec_peer (b := storePop f vec) hq hc hl hslot hpeer hfree (fun _ => rfl) (owes_store ..) (overflows_store ..)

end Sys2Proof.Machine
end

section
/-! The end of a save, and the loss of a context that its bound or its held regions end (spec/09_traps.md R142 to R147). -/
namespace Sys2Proof.Machine

/-! ## What a retirement leaves alone -/

/-- The context in focus and its core, the saved contexts, the notices and the count of records are as before. -/
structure SavesKept (s t : State) : Prop where
  cur : t.cur = s.cur
  core : t.core = s.core
  saved : t.die.queues.saved = s.die.queues.saved
  notices : t.die.queues.notices = s.die.queues.notices
  trapCount : t.die.trapCount = s.die.trapCount

namespace SavesKept

theorem refl (s : State) : SavesKept s s := ⟨rfl, rfl, rfl, rfl, rfl⟩

theorem trans {s t u : State} (h : SavesKept s t) (h' : SavesKept t u) : SavesKept s u :=
  ⟨h'.cur.trans h.cur, h'.core.trans h.core, h'.saved.trans h.saved, h'.notices.trans h.notices, h'.trapCount.trans h.trapCount⟩

theorem foldl {α : Type} {f : State → α → State} (hf : ∀ s a, SavesKept s (f s a)) :
    ∀ (l : List α) (s : State), SavesKept s (l.foldl f s)
  | [], s => refl s
  | a :: l, s => (hf s a).trans (foldl hf l _)

end SavesKept

theorem physWrite_savesKept (k : Tier) (pa : Nat) (v : Byte) (s : State) : SavesKept s (physWrite k pa v s) := by
  unfold physWrite
  split
  · exact .refl s
  · exact ⟨rfl, rfl, rfl, rfl, rfl⟩

theorem physPut_savesKept (p : Tier × Nat) (n v : Nat) (s : State) : SavesKept s (physPut p n v s) :=
  SavesKept.trans (.foldl (fun _ _ => physWrite_savesKept ..) _ s) ⟨rfl, rfl, rfl, rfl, rfl⟩

theorem updateRing_savesKept (r : Ring) (s : State) : SavesKept s (updateRing r s) := by
  unfold updateRing writeBack putField
  exact SavesKept.trans (t := putRing r s) ⟨rfl, rfl, rfl, rfl, rfl⟩
    ((physPut_savesKept ..).trans ((physPut_savesKept ..).trans (physPut_savesKept ..)))

theorem closeLanes_savesKept (serial : Nat) (s : State) : SavesKept s (closeLanes serial s) := by
  refine .foldl (fun s r => ?_) s.die.rings s
  dsimp only
  split
  · exact .refl s
  · exact updateRing_savesKept ..

/-- The context in focus retires or is free already, and the saved contexts, the notices and the count of records are as
before. -/
structure Passes (s t : State) : Prop where
  residency : t.cur.flow.residency = .retiring ∨ t.cur.flow.residency = .free
  curId : t.curId = s.curId
  saved : t.die.queues.saved = s.die.queues.saved
  notices : t.die.queues.notices = s.die.queues.notices
  trapCount : t.die.trapCount = s.die.trapCount

theorem settleCur_passes {s : State} (hres : s.cur.flow.residency = .retiring) (hregion : s.cur.flow.region = none)
    (hprefetch : s.core.prefetch = []) : Passes s (settleCur s) := by
  have hleave : leaveAtRetire s.cur.flow.faulted s = s := by simp only [leaveAtRetire, hregion]
  obtain ⟨hcur, hcore, hsaved, hnotices, hcount⟩ := closeLanes_savesKept s.cur.serial s
  have hid : (closeLanes s.cur.serial s).curId = s.curId := by rw [State.curId, hcore]; rfl
  have hnext : startNext (vacate (closeLanes s.cur.serial s)) = vacate (closeLanes s.cur.serial s) :=
    if_pos (List.isEmpty_iff.mpr ((congrArg Core.prefetch hcore).trans hprefetch))
  unfold settleCur
  rw [if_neg (not_not.mpr hres)]
  dsimp only
  rw [hleave, hnext]
  split
  · exact ⟨.inr rfl, hid, hsaved, hnotices, hcount⟩
  · exact ⟨.inl ((congrArg (fun c => c.flow.residency) hcur).trans hres), hid, hsaved, hnotices, hcount⟩

/-- The retirement of a notice task. -/
theorem retire_notice_passes {s : State} {k : TaskRef} (htask : s.cur.flow.task = some k) (hnotice : k.notice = true)
    (hregion : s.cur.flow.region = none) (hprefetch : s.core.prefetch = []) : Passes s (settleCur (retire true s)) := by
  have htask' : ∀ f, (s.modDie f).cur.flow.task = some k := fun _ => htask
  have hretired : (retire true s).cur.flow.region = none ∧ (retire true s).core.prefetch = [] ∧ (retire true s).curId = s.curId ∧
      (retire true s).die.queues = s.die.queues ∧ (retire true s).die.trapCount = s.die.trapCount := by
    simp only [retire, if_true, htask', hnotice, Bool.true_or]
    exact ⟨hregion, hprefetch, rfl, rfl, rfl⟩
  obtain ⟨hregion', hprefetch', hid, hqueues, hcount⟩ := hretired
  obtain ⟨hres, hid', hsaved, hnotices, hcount'⟩ := settleCur_passes (s := retire true s) rfl hregion' hprefetch'
  exact ⟨hres, hid'.trans hid, hsaved.trans (congrArg Queues.saved hqueues), hnotices.trans (congrArg Queues.notices hqueues),
    hcount'.trans hcount⟩

/-- The retirement of a notice task by a trap whose record stands. -/
theorem retireFaulted_notice {r : TrapReq} {s : State} {k : TaskRef} (htask : s.cur.flow.task = some k)
    (hnotice : k.notice = true) (hregion : s.cur.flow.region = none) (hprefetch : s.core.prefetch = []) :
    ∃ t, settleCur (retireFaulted r s) = t ∧ (t.cur.flow.residency = .retiring ∨ t.cur.flow.residency = .free) ∧
      t.curId = s.curId ∧ t.die.queues.saved = s.die.queues.saved ∧ t.die.trapCount = s.die.trapCount := by
  have hpasses : ∀ w : State, w.cur = s.cur → w.core = s.core → w.die.queues.saved = s.die.queues.saved →
      w.die.trapCount = s.die.trapCount → ∃ t, settleCur (retire true w) = t ∧
        (t.cur.flow.residency = .retiring ∨ t.cur.flow.residency = .free) ∧ t.curId = s.curId ∧
        t.die.queues.saved = s.die.queues.saved ∧ t.die.trapCount = s.die.trapCount := by
    intro w hcur hcore hsaved hcount
    obtain ⟨hres, hid, hsaved', -, hcount'⟩ := retire_notice_passes (s := w) (hcur ▸ htask) hnotice (hcur ▸ hregion)
      (hcore ▸ hprefetch)
    exact ⟨_, rfl, hres, hid.trans (by rw [State.curId, hcore]; rfl), hsaved'.trans hsaved, hcount'.trans hcount⟩
  unfold retireFaulted
  split
  · unfold stopPour
    split
    · exact hpasses s rfl rfl rfl rfl
    · split
      · exact hpasses s rfl rfl rfl rfl
      · exact hpasses _ rfl rfl rfl rfl
  · unfold enqueueNotice
    split
    · exact hpasses _ rfl rfl rfl rfl
    · exact hpasses _ rfl rfl rfl rfl

/-! ## The end of a save -/

/-- A search finds the same element under one more condition, which the element meets. -/
theorem find?_and_of_find? {α : Type} {p q : α → Bool} {a : α} {l : List α} (h : l.find? p = some a) (ha : q a = true) :
    l.find? (fun x => p x && q x) = some a := by
  obtain ⟨hp, as, bs, hl, has⟩ := List.find?_eq_some_iff_append.mp h
  refine List.find?_eq_some_iff_append.mpr ⟨by rw [hp, ha]; rfl, as, bs, hl, fun x hx => ?_⟩
  have hx := has x hx
  rw [Bool.not_eq_true'] at hx ⊢
  rw [hx, Bool.false_and]

/-- The ranges held in a cluster are within their bound: the save writes none of them out. -/
theorem excessHeld_nil {s : State} (h : heldRanges s ≤ 64) (owner : Nat) : excessHeld owner s = [] := by
  rw [excessHeld, Nat.sub_eq_zero_of_le h, List.take_zero]

/-- A pre-empted task as it stands in the queue unit. -/
def savedTask (v : Saved) (k : TaskRef) (s : State) : QTask :=
  { ref := k, bank := if k.notice then 0 else pktBank k.packet, pri := if k.notice then 7 else pktPri k.packet,
    since := s.pkg.clocks, parked := none, watching := false, saved := some v.index }

theorem queueSaved_task {v : Saved} {k : TaskRef} (htask : v.ctx.flow.task = some k) (s : State) :
    queueSaved v s = s.modQueues (fun q => { q with tasks := savedTask v k s :: q.tasks }) := by
  simp only [queueSaved, htask]
  rfl

/-- The state with the record of a context that is declared lost. -/
def lossRecorded (s : State) : State :=
  writeRecord { cause := .saveOverrun, aux := 0, faddr := 0, slot := 0, pc := s.pc, logged := [], ret := none,
                cycle := s.core.cycle } s

/-- The notice of a lost context, with the place of its save block. -/
def lossNotice (block : Word) (s : State) : BitVec 512 :=
  let who := noticeWho s.cur.flow.task
  mkNotice 7 (causeByte .saveOverrun false) { a0 := block, a1 := 0, a2 := 0, a3 := 0, a4 := 0 } who.1 who.2.1 who.2.2.1 who.2.2.2
    (rankOf s.curId) s.die.queues.noticeSeq (BitVec.ofNat 64 s.timeNs)

theorem lossNotice_fields (block : Word) (s : State) : noticeKind (lossNotice block s) = 7 ∧
    (bits 64 8 (lossNotice block s) : BitVec 8) = 0x1B ∧ bits 192 64 (lossNotice block s) = block :=
  mkNotice_fields ..

/-- The record and the notice of a lost context. -/
def lossDeclared (block : Word) (s : State) : State :=
  tellFirmware 7 (lossNotice block s) ((lossRecorded s).modQueues (fun q =>
    { q with notices := q.notices ++ [lossNotice block s], noticeSeq := q.noticeSeq + 1 }))

/-- Of a notice task outside any region, the loss has a record and a notice alone: no version is lost with it. -/
theorem declareContext_notice {k : TaskRef} {s : State} (htask : s.cur.flow.task = some k) (hnotice : k.notice = true)
    (hregion : s.cur.flow.region = none) (hroom : s.die.queues.notices.length < 4096) (block : Word) :
    declareContext block s = lossDeclared block s := by
  have hnoticed : enqueueNotice 7 (causeByte .saveOverrun false) { a0 := block, a1 := 0, a2 := 0, a3 := 0, a4 := 0 }
      (lossRecorded s).cur.flow.task (rankOf (lossRecorded s).curId) (lossRecorded s) = lossDeclared block s :=
    enqueueNotice_room (s := lossRecorded s) hroom ..
  have hregion' : (lossDeclared block s).cur.flow.region = none := hregion
  have htask' : (lossDeclared block s).cur.flow.task = some k := htask
  unfold declareContext
  unfold lossRecorded at hnoticed
  simp only [hnoticed, hregion', htask', hnotice, Bool.true_or, if_true]

section
variable {v : Saved} {k : TaskRef} {s : State} (hsaved : savedOf s.curId s = some v) (hprefetch : s.core.prefetch = [])
  (htask : v.ctx.flow.task = some k)
include hsaved hprefetch

section
variable (hregion : v.ctx.flow.region = none) (hnotice : k.notice = true) (hcur : s.cur.flow.task = some k)
include hregion hnotice hcur

/-- The expiry that a save has latched retires the task (R147). -/
theorem endSave_expired (hres : s.cur.flow.residency = .saving) (hover : saveOver v s = false)
    (hexpired : (v.expired || s.cur.wdOver s.core.cycle) = true) : ∃ t, endSave s = t ∧ t.curId = s.curId ∧
      (t.cur.flow.residency = .retiring ∨ t.cur.flow.residency = .free) ∧
      t.die.queues.saved = s.die.queues.saved.filter (fun x => x.index != v.index) ∧ t.die.trapCount = s.die.trapCount + 1 := by
  obtain ⟨t, ht, hpassed, hid, hkept, hcount⟩ := retireFaulted_notice (k := k) (s := writeRecord
    { cause := .watchdog, aux := 0, faddr := 0, slot := 0, pc := s.pc, logged := [], ret := none, cycle := s.core.cycle }
    (dropSave v s)) hcur hnotice hregion hprefetch
  refine ⟨t, ?_, hid, hpassed, hkept, hcount⟩
  unfold endSave
  rw [hsaved]
  dsimp only
  rw [if_neg (not_not.mpr hres), if_neg (by rw [hover]; decide), if_pos hexpired]
  exact ht

omit hsaved in
/-- The context is declared lost: the record, the notice with the place of the save block, and the retirement (R145). -/
theorem contextLost_dropSave (hroom : s.die.queues.notices.length < 4096) : ∃ t n,
    contextLost (saveBlock v.index) (dropSave v s) = t ∧ t.curId = s.curId ∧
      (t.cur.flow.residency = .retiring ∨ t.cur.flow.residency = .free) ∧
      t.die.queues.saved = s.die.queues.saved.filter (fun x => x.index != v.index) ∧ n ∈ t.die.queues.notices ∧
      noticeKind n = 7 ∧ (bits 64 8 n : BitVec 8) = 0x1B ∧ bits 192 64 n = saveBlock v.index ∧
      t.die.trapCount = s.die.trapCount + 1 := by
  have hdeclared := declareContext_notice (s := dropSave v s) hcur hnotice hregion hroom (saveBlock v.index)
  obtain ⟨hpassed, hid, hkept, hnotices, hcount⟩ := retire_notice_passes (s := lossDeclared (saveBlock v.index) (dropSave v s))
    hcur hnotice hregion hprefetch
  obtain ⟨hkind, hcause, harg⟩ := lossNotice_fields (saveBlock v.index) (dropSave v s)
  refine ⟨_, _, congrArg (fun x => settleCur (retire true x)) hdeclared, hid, hpassed, hkept, ?_, hkind, hcause, harg, hcount⟩
  rw [hnotices]
  exact List.mem_append_right _ (List.mem_singleton_self _)

end

/-- The save block with the watchdog's count, and the queued task (R142, R146). -/
def saveCompleted (v : Saved) (s : State) : State :=
  queueSaved v (vacate (s.modQueues (fun q => { q with saved := q.saved.map (fun x =>
    if x.index = v.index then { x with saving := false, ctx := countSave s x.ctx } else x) })))

/-- A save that completes in its time frees the context. -/
theorem endSave_completes (hres : s.cur.flow.residency = .saving) (hover : saveOver v s = false)
    (hexpired : (v.expired || s.cur.wdOver s.core.cycle) = false) (hranges : heldRanges s ≤ 64) :
    endSave s = saveCompleted v s := by
  have hclear : limitClear v.ctx.serial s = true := by rw [limitClear, excessHeld_nil hranges]; rfl
  have hnone : limitHeld v.ctx.serial s = s := by rw [limitHeld, excessHeld_nil hranges]; rfl
  have hnext : ∀ u : State, u.core.prefetch = [] → startNext u = u := fun u hu => if_pos (List.isEmpty_iff.mpr hu)
  unfold endSave
  rw [hsaved]
  dsimp only
  rw [if_neg (not_not.mpr hres), if_neg (by rw [hover]; decide), if_neg (by rw [hexpired]; decide),
    if_neg (by rw [hclear]; decide), hnone]
  refine hnext _ ?_
  unfold queueSaved
  split
  · exact hprefetch
  · exact hprefetch

omit hprefetch in
/-- A save within its bound, whose held regions are all written out, is not lost. -/
theorem loseSave_early (hlate : (saveOver v s || s.core.held.any (fun h => h.owner == v.ctx.serial)) = false) :
    loseSave s = s := by
  unfold loseSave
  rw [hsaved]
  exact if_neg (by rw [hlate]; decide)

omit hprefetch in
theorem loseSave_late (hlate : (saveOver v s || s.core.held.any (fun h => h.owner == v.ctx.serial)) = true) :
    loseSave s = contextLost (saveBlock v.index) (dropSave v s) := by
  unfold loseSave
  rw [hsaved]
  exact if_pos hlate

end

theorem exec_saveComplete {s t : State} (h : endSave s = t) (hid : t.curId = s.curId) : exec (.saveComplete s.curId) s = .next t :=
  congrArg Host.Outcome.next ((withFocus_curId (h ▸ hid)).trans h)

theorem exec_saveOverrun {s t : State} (h : loseSave s = t) (hid : t.curId = s.curId) : exec (.saveOverrun s.curId) s = .next t :=
  congrArg Host.Outcome.next ((withFocus_curId (h ▸ hid)).trans h)

/-! ## The write-out of a held region -/

theorem writeOutAt_held {i : Nat} {h : Held} {s : State} (hheld : s.core.held[i]? = some h) :
    writeOutAt i s = if heldBusy s.core.id h s then s else writeOut h s := by
  unfold writeOutAt
  rw [hheld]

theorem exec_heldRegionWriteout {i : Nat} {s t : State} (h : writeOutAt i s = t) (hid : t.curId = s.curId) :
    exec (.heldRegionWriteout s.core.id i) s = .next t := by
  have hsel : (coreAt s.core.id s).sel = s.core.sel := by rw [coreAt, if_pos rfl]
  change Host.Outcome.next (withFocus { core := s.core.id, ctx := (coreAt s.core.id s).sel } (writeOutAt i) s) = _
  rw [hsel]
  exact congrArg Host.Outcome.next ((withFocus_curId (s := s) (h ▸ hid)).trans h)

end Sys2Proof.Machine
end

section
/-! The return of a pre-empted task to the context that it left (spec/09_traps.md R144). -/
namespace Sys2Proof.Machine

/-! ## What the undefined regions of a restored context leave alone -/

/-- The die, the focus and what is held of its core are as before. -/
structure FocusKept (s t : State) : Prop where
  die : t.die = s.die
  curId : t.curId = s.curId
  held : t.core.held = s.core.held

namespace FocusKept

theorem refl (s : State) : FocusKept s s := ⟨rfl, rfl, rfl⟩

theorem trans {s t u : State} (h : FocusKept s t) (h' : FocusKept t u) : FocusKept s u :=
  ⟨h'.die.trans h.die, h'.curId.trans h.curId, h'.held.trans h.held⟩

theorem foldl {α : Type} {f : State → α → State} (hf : ∀ s a, FocusKept s (f s a)) :
    ∀ (l : List α) (s : State), FocusKept s (l.foldl f s)
  | [], s => refl s
  | a :: l, s => (hf s a).trans (foldl hf l _)

end FocusKept

theorem scrubRegion_kept (ix : Nat) (k : HeldKind) (s : State) : FocusKept s (scrubRegion ix k s) := by
  cases k with
  | plane i => exact ⟨rfl, rfl, rfl⟩
  | tree i => exact ⟨rfl, rfl, rfl⟩
  | cope a l => exact ⟨rfl, rfl, rfl⟩
  | scratch a l =>
    exact FocusKept.trans (t := s.modCluster _) ⟨rfl, rfl, rfl⟩
      (.foldl (f := fun s j => setFull (4 * a + j) ((Config.freeCell ix (0x4000000 + 4 * a + j)).getLsbD 0) s)
        (fun _ _ => ⟨rfl, rfl, rfl⟩) _ _)

theorem scrubTag_kept (ix : Nat) (k : HeldKind) (s : State) : FocusKept s (scrubTag ix k s) := by
  cases k with
  | plane i => exact .refl s
  | tree i => exact .refl s
  | cope a l => exact ⟨rfl, rfl, rfl⟩
  | scratch a l => exact ⟨rfl, rfl, rfl⟩

/-! ## The restore -/

/-- A context comes back with nothing to read back: its registers and its flow are those of its save block. -/
structure Restored (v : Saved) (s t : State) : Prop where
  curId : t.curId = s.curId
  residency : t.cur.flow.residency = .running
  pc : t.cur.flow.pc = v.ctx.flow.pc
  g : t.cur.g = v.ctx.g
  k : t.cur.k = v.ctx.k
  q : t.cur.q = v.ctx.q
  levels : t.cur.flow.levels = v.ctx.flow.levels
  task : t.cur.flow.task = v.ctx.flow.task
  held : t.core.held = s.core.held.filter (fun h => h.owner != v.ctx.serial)
  tasks : t.die.queues.tasks = s.die.queues.tasks
  sets : t.die.queues.sets = s.die.queues.sets
  saved : t.die.queues.saved = s.die.queues.saved.filter (fun x => x.index != v.index)

/-- The regions of a save block that is empty are all still held: nothing is read back. -/
theorem restored_of_kept {v : Saved} {s u : State} (hdie : u.die = s.die) (hid : u.curId = s.curId)
    (hheld : u.core.held = s.core.held.filter (fun h => h.owner != v.ctx.serial)) (y : SysCtx) (planes : BitVec 4)
    (trees : BitVec 8) : Restored v s (dropSaved v.index (u.modCtx (fun c => { v.ctx with
      sys := y
      flow := { v.ctx.flow with
        residency := .running, slots := c.flow.slots, blankPlanes := planes, blankTrees := trees } }))) where
  curId := hid
  residency := rfl
  pc := rfl
  g := rfl
  k := rfl
  q := rfl
  levels := rfl
  task := rfl
  held := hheld
  tasks := congrArg (fun d => d.queues.tasks) hdie
  sets := congrArg (fun d => d.queues.sets) hdie
  saved := congrArg (fun d => d.queues.saved.filter (fun x => x.index != v.index)) hdie

/-- The clock of a core that stands still is brought up to date. -/
theorem clocked_kept (s : State) :
    FocusKept s (if s.coreRuns then s else s.modCore (fun k => { k with now := s.pkg.clocks })) := by
  split
  · exact .refl s
  · exact ⟨rfl, rfl, rfl⟩

/-- What is undefined after a restore is so in regions alone. -/
theorem scrubbed_kept (ix : Nat) (regions tags : List HeldKind) (s : State) :
    FocusKept s (tags.foldl (fun s k => scrubTag ix k s) (regions.foldl (fun s k => scrubRegion ix k s)
      { s with freeCount := ix + 1 })) :=
  FocusKept.trans (t := { s with freeCount := ix + 1 }) ⟨rfl, rfl, rfl⟩
    ((FocusKept.foldl (fun s k => scrubRegion_kept ix k s) regions _).trans
      (FocusKept.foldl (fun s k => scrubTag_kept ix k s) tags _))

theorem restoreSaved_restored {v : Saved} (hstore : v.store = []) (s : State) : Restored v s (restoreSaved v s) := by
  obtain ⟨hdie, hid, hheld⟩ := clocked_kept s
  have hkept : ∀ {u : State}, FocusKept ((if s.coreRuns then s else s.modCore (fun k => { k with now := s.pkg.clocks })).modCore
      (fun k => { k with held := k.held.filter (fun h => h.owner != v.ctx.serial) })) u → ∀ y planes trees,
      Restored v s (dropSaved v.index (u.modCtx (fun c => { v.ctx with
        sys := y
        flow := { v.ctx.flow with
          residency := .running, slots := c.flow.slots, blankPlanes := planes, blankTrees := trees } }))) := by
    intro u hu y planes trees
    exact restored_of_kept (v := v) (hu.die.trans hdie) (hu.curId.trans hid)
      (hu.held.trans (congrArg (List.filter (fun h : Held => h.owner != v.ctx.serial)) hheld)) y planes trees
  unfold restoreSaved
  rw [hstore]
  refine hkept ?_ _ _ _
  cases v.ctx.flow.task with
  | none => exact .refl _
  | some k => exact scrubbed_kept ..

/-! ## The queued task that comes back -/

theorem distributeAll_idle {s : State} (h : ∀ e ∈ s.die.queues.sets, e.cursor = none) : distributeAll s = s := by
  have hnone : s.die.queues.sets.filter (fun e => e.cursor.isSome) = [] :=
    List.filter_eq_nil_iff.mpr fun e he => by rw [h e he]; decide
  rw [distributeAll, distributing, hnone, List.mergeSort_nil]
  rfl

/-- A task leaves the queue unit while no distribution is under way. -/
theorem leaveQueue_idle {s : State} (h : ∀ e ∈ s.die.queues.sets, e.cursor = none) (q : QTask) :
    leaveQueue q s = s.modQueues (fun x => { x with
      tasks := x.tasks.filter (fun y => !(y.ref.serial == q.ref.serial && y.saved == q.saved)), lastBank := q.bank }) :=
  distributeAll_idle h

/-- The task of a save block with nothing to read back is placed where it ran. -/
theorem placeTask_saved {v : Saved} {q : QTask} {s : State} (hq : q.saved = some v.index) (hstore : v.store = [])
    (hfind : s.die.queues.saved.find? (fun x => x.index == v.index) = some v) :
    placeTask q s = some (leaveQueue q (withFocus v.home (restoreSaved v) s)) := by
  unfold placeTask
  rw [hq]
  dsimp only
  rw [hfind]
  dsimp only
  rw [hstore]
  rfl

theorem exec_contextRestore {v : Saved} {q : QTask} {s : State} (hfree : s.cur.flow.residency = .free)
    (hstore : v.store = []) (hhome : v.home = s.curId)
    (hfind : s.die.queues.saved.find? (fun x => x.index == v.index) = some v) (hsets : ∀ e ∈ s.die.queues.sets, e.cursor = none)
    (htask : s.die.queues.tasks.find? (fun t => match t.saved with
      | some i => s.die.queues.saved.any (fun x => x.index == i && x.home == s.curId)
      | none => false) = some q) (hq : q.saved = some v.index) :
    exec (.contextRestore s.curId) s = .next ((restoreSaved v s).modQueues (fun x => { x with
      tasks := x.tasks.filter (fun y => !(y.ref.serial == q.ref.serial && y.saved == q.saved)), lastBank := q.bank })) := by
  have hrestored := restoreSaved_restored hstore s
  have hplaced := placeTask_saved hq hstore hfind
  rw [hhome, withFocus_curId hrestored.curId, leaveQueue_idle (fun e he => hsets e (hrestored.sets ▸ he))] at hplaced
  have hrestore : restoreAt s.curId s = (placeTask q s).getD s := by
    unfold restoreAt
    rw [ctxAt_cur, if_neg (not_not.mpr hfree)]
    exact congrArg (fun x : Option QTask => match x with | some t => (placeTask t s).getD s | none => s) htask
  exact congrArg Host.Outcome.next (hrestore.trans (by rw [hplaced]; rfl))

end Sys2Proof.Machine
end

section
/-! The abort of an atomic region at its home (spec/19_trees_regions.md R288, R298). -/
namespace Sys2Proof.Machine

/-! ## Fields of an object -/

section
variable {n lo w v : Nat} {x : BitVec n}

theorem getLsbD_putBits (i : Nat) : (putBits lo w v x).getLsbD i =
    (decide (i < n) && if lo ≤ i ∧ i < lo + w then v.testBit (i - lo) else x.getLsbD i) := by
  have hmask : ((2 ^ w - 1) * 2 ^ lo).testBit i = decide (lo ≤ i ∧ i < lo + w) := by
    rw [Nat.testBit_mul_two_pow, Nat.testBit_two_pow_sub_one, ← Bool.decide_and]
    exact decide_eq_decide.mpr (by omega)
  have hvalue : (v % 2 ^ w * 2 ^ lo).testBit i = (decide (lo ≤ i ∧ i < lo + w) && v.testBit (i - lo)) := by
    rw [Nat.testBit_mul_two_pow, Nat.testBit_mod_two_pow, ← Bool.and_assoc, ← Bool.decide_and]
    refine congrArg (· && _) (decide_eq_decide.mpr (by omega))
  rw [putBits, BitVec.getLsbD_or, BitVec.getLsbD_and, BitVec.getLsbD_not, BitVec.getLsbD_ofNat, BitVec.getLsbD_ofNat, hmask, hvalue]
  by_cases hi : i < n
  · by_cases hin : lo ≤ i ∧ i < lo + w
    · simp [hi, hin]
    · simp [hi, hin]
  · simp [hi]

/-- A field that is replaced holds the value. -/
theorem bits_putBits (h : lo + w ≤ n) : (bits lo w (putBits lo w v x) : BitVec w) = BitVec.ofNat w v := by
  refine BitVec.eq_of_getLsbD_eq fun i hi => ?_
  rw [BitVec.getLsbD_extractLsb', getLsbD_putBits, if_pos ⟨Nat.le_add_right lo i, Nat.add_lt_add_left hi lo⟩,
    Nat.add_sub_cancel_left, BitVec.getLsbD_ofNat, decide_eq_true (Nat.lt_of_lt_of_le (Nat.add_lt_add_left hi lo) h), Bool.true_and]

/-- A field beside it is as before. -/
theorem bits_putBits_other {l m : Nat} (h : l + m ≤ lo ∨ lo + w ≤ l) :
    (bits l m (putBits lo w v x) : BitVec m) = bits l m x := by
  refine BitVec.eq_of_getLsbD_eq fun i hi => ?_
  rw [BitVec.getLsbD_extractLsb', BitVec.getLsbD_extractLsb', getLsbD_putBits, if_neg (by omega)]
  by_cases hn : l + i < n
  · rw [decide_eq_true hn, Bool.true_and]
  · rw [BitVec.getLsbD_of_ge x _ (Nat.not_lt.mp hn), Bool.and_false]

end

/-! ## Bytes of memory -/

theorem leNat_leBytes : ∀ n v, leNat (leBytes n v) = v % 2 ^ (8 * n)
  | 0, v => by rw [Nat.mul_zero, Nat.pow_zero, Nat.mod_one]; rfl
  | n + 1, v => by
    have hpow : 2 ^ (8 * (n + 1)) = 256 * 2 ^ (8 * n) := by rw [Nat.mul_succ, Nat.pow_add, Nat.mul_comm]
    rw [leBytes, leNat, leNat_leBytes n, hpow, Nat.mod_mul, BitVec.toNat_ofNat]

/-- The bytes of a tier. -/
def State.memoryOf (k : Tier) (s : State) : Memory :=
  match k with
  | .hbm => s.pkg.hbm
  | .second => s.pkg.tier2

theorem memoryOf_congr {s t : State} (h : t.pkg = s.pkg) (k : Tier) : t.memoryOf k = s.memoryOf k := by
  unfold State.memoryOf
  rw [h]

/-- Beside the bytes, a write clears marks of poison alone. -/
theorem writeCells_memory (k : Tier) (cells : List (PByte × Byte)) (s : State) : (writeCells cells s).memoryOf k =
    (cells.foldl (fun s c => physWrite c.1.1 c.1.2 c.2 s) s).memoryOf k := by
  cases k with
  | hbm => rfl
  | second => rfl

/-- Outside the pages that firmware keeps, a read gives the byte of its tier. -/
theorem physRead_memory {k : Tier} {pa : Nat} (h : devicePa k pa = false) (s : State) :
    physRead k pa s = memGet (s.memoryOf k) pa := by
  cases k with
  | second => rfl
  | hbm =>
    simp only [devicePa, beq_self_eq_true, Bool.true_and, Bool.or_eq_false_iff, beq_eq_false_iff_ne] at h
    obtain ⟨⟨hinfo, hdevice⟩, hsensor⟩ := h
    simp only [physRead, if_neg hinfo, if_neg hdevice, if_neg hsensor]
    rfl

theorem physWrite_memory {k : Tier} {pa : Nat} (h : devicePa k pa = false) (b : Byte) (s : State) :
    (physWrite k pa b s).memoryOf k = memSet (s.memoryOf k) pa b := by
  rw [physWrite, if_neg (by rw [h]; decide)]
  cases k with
  | second => rfl
  | hbm => rfl

/-- Bytes written one after another. -/
theorem physWrites_memory (k : Tier) : ∀ (bs : List Byte) (a : Nat) (s : State),
    (∀ i < bs.length, devicePa k (a + i) = false) →
    ((bs.mapIdx (fun i b => ((k, a + i), b))).foldl (fun s c => physWrite c.1.1 c.1.2 c.2 s) s).memoryOf k =
      memWrite (s.memoryOf k) a bs
  | [], _, _, _ => rfl
  | b :: bs, a, s, h => by
    have hhead : devicePa k a = false := h 0 (Nat.succ_pos _)
    have htail : ∀ i < bs.length, devicePa k (a + 1 + i) = false := fun i hi => by
      rw [Nat.add_right_comm, Nat.add_assoc]
      exact h (i + 1) (Nat.succ_lt_succ hi)
    have hshift : (fun (i : Nat) (b : Byte) => ((k, a + (i + 1)), b)) = fun i b => ((k, a + 1 + i), b) := by
      funext i b
      rw [Nat.add_right_comm, Nat.add_assoc]
    rw [List.mapIdx_cons, List.foldl_cons, hshift, physWrites_memory k bs (a + 1) _ htail]
    exact congrArg (memWrite · (a + 1) bs) (physWrite_memory hhead b s)

/-- An object that stands in a block of its own reads as it was written, whatever else has changed. -/
theorem readObj_writeObj {p : Tier × Nat} {o : BitVec 512} {s t : State} (hdevice : devicePa p.1 p.2 = false)
    (haligned : p.2 % 64 = 0) (hpkg : t.pkg = (writeObj p o s).pkg) : readObj p t = o := by
  obtain ⟨k, a⟩ := p
  have hpage : ∀ i < 64, devicePa k (a + i) = false := fun i hi => by
    have hsame : (a + i) / 4096 = a / 4096 := by
      have : a % 64 = 0 := haligned
      omega
    rw [devicePa, hsame]
    exact hdevice
  have hlength : (leBytes 64 o.toNat).length = 64 := leBytes_length ..
  have hmemory : t.memoryOf k = memWrite (s.memoryOf k) a (leBytes 64 o.toNat) := by
    rw [memoryOf_congr hpkg, writeObj, physPut, writeCells_memory]
    exact physWrites_memory k (leBytes 64 o.toNat) a s (by rw [hlength]; exact hpage)
  have hbytes : (List.range 64).map (fun i => physRead k (a + i) t) = leBytes 64 o.toNat := by
    refine List.ext_getElem (by rw [List.length_map, List.length_range, hlength]) fun i hi hi' => ?_
    have hi64 : i < 64 := by simpa using hi
    rw [List.getElem_map, List.getElem_range, physRead_memory (hpage i hi64), hmemory, memGet_memWrite,
      if_pos ⟨Nat.le_add_right a i, by rw [hlength]; exact Nat.add_lt_add_left hi64 a⟩, Nat.add_sub_cancel_left,
      List.getD_eq_getElem _ _ hi']
  rw [readObj, physNum, hbytes, leNat_leBytes, Nat.mod_eq_of_lt o.isLt, BitVec.ofNat_toNat, BitVec.setWidth_eq]

end Sys2Proof.Machine
end

section
/-! The abort of an atomic region, and what reaches its members (spec/19_trees_regions.md R298, R299). -/
namespace Sys2Proof.Machine

/-! ## What the delivery of an abort leaves alone -/

/-- The package, and the regions and the lines that the die keeps of them, are as before. -/
structure RegionsKept (s t : State) : Prop where
  pkg : t.pkg = s.pkg
  regions : t.die.regions = s.die.regions
  shard : t.die.shard = s.die.shard

namespace RegionsKept

theorem refl (s : State) : RegionsKept s s := ⟨rfl, rfl, rfl⟩

theorem trans {s t u : State} (h : RegionsKept s t) (h' : RegionsKept t u) : RegionsKept s u :=
  ⟨h'.pkg.trans h.pkg, h'.regions.trans h.regions, h'.shard.trans h.shard⟩

theorem foldl {α : Type} {f : State → α → State} (hf : ∀ s a, RegionsKept s (f s a)) :
    ∀ (l : List α) (s : State), RegionsKept s (l.foldl f s)
  | [], s => refl s
  | a :: l, s => (hf s a).trans (foldl hf l _)

theorem modDie {f : Die → Die} {s : State} (hr : (f s.die).regions = s.die.regions) (hs : (f s.die).shard = s.die.shard) :
    RegionsKept s (s.modDie f) := ⟨rfl, hr, hs⟩
theorem modQueues (f : Queues → Queues) (s : State) : RegionsKept s (s.modQueues f) := ⟨rfl, rfl, rfl⟩
theorem modRouter (f : Router → Router) (s : State) : RegionsKept s (s.modRouter f) := ⟨rfl, rfl, rfl⟩

end RegionsKept

theorem setCtxAt_regionsKept (id : CtxId) (c : Ctx) (s : State) : RegionsKept s (setCtxAt id c s) := by
  unfold setCtxAt
  split
  · exact ⟨rfl, rfl, rfl⟩
  · obtain ⟨-, -, -, hdie, hpkg⟩ := setCoreAt_frame id.core
      { coreAt id.core s with parked := smSet Ctx.reset (coreAt id.core s).parked id.ctx.toNat c } s
    exact ⟨hpkg, congrArg Die.regions hdie, congrArg Die.shard hdie⟩

theorem raiseBoundary_regionsKept (c : CtxId) (cause : Cause) (aux : BitVec 8) (faddr : Word) (log : Option (Word × List Byte))
    (s : State) : RegionsKept s (raiseBoundary c cause aux faddr log s) := by
  unfold raiseBoundary
  dsimp only
  split
  · exact setCtxAt_regionsKept ..
  · exact .modQueues _ s
  · exact .refl s

theorem abortMember_regionsKept (c : CtxId) (s : State) : RegionsKept s (abortMember c s) := by
  unfold abortMember
  split
  · exact (raiseBoundary_regionsKept ..).trans (setCtxAt_regionsKept ..)
  · exact .refl s

theorem deliverAborts_regionsKept (n : RegionName) (s : State) : RegionsKept s (deliverAborts n s) :=
  (RegionsKept.foldl (fun s c => abortMember_regionsKept c s) (membersHere n s) s).trans ⟨rfl, rfl, rfl⟩

theorem sendOn_regionsKept (way : Option Nat) (p : Packet) (s : State) : RegionsKept s (sendOn way p s) := by
  cases way with
  | none => exact RegionsKept.modRouter (fun r => { r with outbox := r.outbox ++ [p] }) s
  | some n =>
    change RegionsKept s (leaveBy none n p s)
    unfold leaveBy
    split
    · exact .modRouter _ s
    · exact RegionsKept.trans (.modRouter _ s) (.modRouter _ _)

theorem sendPacket_regionsKept (p : Packet) (s : State) : RegionsKept s (sendPacket p s) := by
  have hclocked : ∀ way, RegionsKept s (sendClocked way p s) := by
    intro way
    unfold sendClocked
    dsimp only
    split
    · split
      · exact (RegionsKept.modDie rfl rfl).trans ((sendOn_regionsKept ..).trans ((sendOn_regionsKept ..).trans
          (sendOn_regionsKept ..)))
      · exact (RegionsKept.modDie rfl rfl).trans (sendOn_regionsKept ..)
    · exact sendOn_regionsKept ..
  unfold sendPacket unrouted
  split
  · split
    · exact .modRouter _ s
    · exact .modRouter _ s
  · exact hclocked _
  · exact hclocked _

theorem tellAbort_regionsKept (n : RegionName) (s : State) : RegionsKept s (tellAbort n s) :=
  .foldl (fun _ _ => sendPacket_regionsKept ..) (otherDies s) s

/-! ## The abort at the home -/

/-- The object of a region that is aborted with a cause at some time. -/
def abortedObj (o : BitVec 512) (cause time : Nat) : BitVec 512 := putBits 0 3 4 (putBits 72 8 cause (putBits 384 64 time o))

theorem abortedObj_state (o : BitVec 512) (cause time : Nat) : (bits 0 3 (abortedObj o cause time) : BitVec 3) = 4 :=
  bits_putBits (by decide)

theorem abortedObj_cause (o : BitVec 512) (cause time : Nat) :
    (bits 72 8 (abortedObj o cause time) : BitVec 8) = BitVec.ofNat 8 cause :=
  (bits_putBits_other (by decide)).trans (bits_putBits (by decide))

/-- What a home does with a region that ends, once its object says so. -/
def endRegion (n : RegionName) (s : State) : State := tellAbort n (deliverAborts n (freeLines n (dropRegion n s)))

theorem endRegion_kept (n : RegionName) (s : State) : RegionsKept (freeLines n (dropRegion n s)) (endRegion n s) :=
  (deliverAborts_regionsKept ..).trans (tellAbort_regionsKept ..)

theorem endRegion_pkg (n : RegionName) (s : State) : (endRegion n s).pkg = s.pkg := (endRegion_kept n s).pkg

theorem endRegion_find (n : RegionName) (s : State) : findRegion n (endRegion n s) = none := by
  rw [findRegion, (endRegion_kept n s).regions, List.find?_eq_none]
  intro x hx
  simpa using (List.mem_filter.mp hx).2

theorem endRegion_shard (n : RegionName) (s : State) : ∀ l ∈ (endRegion n s).die.shard, l.region ≠ n := by
  intro l hl
  rw [(endRegion_kept n s).shard] at hl
  simpa using (List.mem_filter.mp hl).2

/-- An open region is aborted: its object records it, and the home ends it. -/
theorem abortRegion_open {r : RegionHome} {cause : Nat} {s : State} (hfind : findRegion r.name s = some r)
    (hopen : objState (readObj r.place s) = 1) (hgen : objGen (readObj r.place s) = r.name.gen) :
    abortRegion r.name cause s =
      endRegion r.name (writeObj r.place (abortedObj (readObj r.place s) cause s.timeNs) s) := by
  unfold abortRegion
  rw [hfind]
  exact if_neg (by rw [hopen, hgen]; simp)

theorem deadline_found {obj : BitVec 40} {r : RegionHome} {s : State}
    (hfind : s.die.regions.find? (fun x => x.name.obj == (bits 6 34 obj : BitVec 34)) = some r) :
    deadline obj s = expireRegion r s := by
  unfold deadline
  rw [hfind]

/-- The first region of an object is the first of its own name. -/
theorem findRegion_of_obj {obj : BitVec 34} {r : RegionHome} {s : State}
    (hfind : s.die.regions.find? (fun x => x.name.obj == obj) = some r) : findRegion r.name s = some r := by
  obtain ⟨hobj, as, bs, hl, has⟩ := List.find?_eq_some_iff_append.mp hfind
  refine List.find?_eq_some_iff_append.mpr ⟨beq_self_eq_true r.name, as, bs, hl, fun x hx => ?_⟩
  have hother := has x hx
  rw [Bool.not_eq_true', beq_eq_false_iff_ne] at hother ⊢
  exact fun hname => hother (hname ▸ eq_of_beq hobj)

/-! ## Contexts wherever they are -/

/-- A core changed in place is the core read, and the others are as before. -/
theorem coreAt_modCoreAt (id j : BitVec 6) {f : Core → Core} (hf : ∀ k, (f k).id = k.id) (s : State) :
    coreAt j (modCoreAt id f s) = if j = id then f (coreAt j s) else coreAt j s := by
  unfold modCoreAt
  by_cases hi : id = s.core.id
  · have hhere : setCoreAt id (f (coreAt id s)) s = { s with core := f s.core } := by
      rw [setCoreAt, coreAt, if_pos hi, if_pos hi]
    rw [hhere, coreAt, coreAt, hf, hi]
    by_cases hj : j = s.core.id
    · simp only [if_pos hj]
    · simp only [if_neg hj]
  · have hthere : setCoreAt id (f (coreAt id s)) s =
        { s with cores := smSet (Core.reset id) s.cores id.toNat (f (coreAt id s)) } := if_neg hi
    rw [hthere, coreAt]
    dsimp only
    by_cases hj : j = id
    · rw [if_neg (hj ▸ hi), if_pos hj, hj, smGet_smSet_same]
    · rw [if_neg hj, smGet_smSet_other _ _ _ _ _ _ (toNat_ne hj)]
      rfl

theorem curId_modCoreAt (id : BitVec 6) {f : Core → Core} (hf : ∀ k, (f k).id = k.id ∧ (f k).sel = k.sel) (s : State) :
    (modCoreAt id f s).curId = s.curId := by
  unfold modCoreAt setCoreAt
  split
  next hi =>
    rw [coreAt, if_pos hi]
    exact congrArg₂ CtxId.mk (hf s.core).1 (hf s.core).2
  next => rfl

theorem cur_modCoreAt (id : BitVec 6) (f : Core → Core) (s : State) : (modCoreAt id f s).cur = s.cur :=
  (setCoreAt_frame ..).1

/-- A core after one of its contexts that are not in focus is written. -/
def Core.park (x : BitVec 2) (c : Ctx) (k : Core) : Core := { k with parked := smSet Ctx.reset k.parked x.toNat c }

/-- A context that is not in focus stands among the parked ones of its core. -/
theorem setCtxAt_parked {id : CtxId} {s : State} (h : id ≠ s.curId) (c : Ctx) :
    setCtxAt id c s = modCoreAt id.core (Core.park id.ctx c) s := if_neg h

theorem curId_park (id : CtxId) (c : Ctx) (s : State) : (modCoreAt id.core (Core.park id.ctx c) s).curId = s.curId :=
  curId_modCoreAt id.core (f := Core.park id.ctx c) (fun _ => ⟨rfl, rfl⟩) s

theorem coreAt_park (id : CtxId) (j : BitVec 6) (c : Ctx) (s : State) : coreAt j (modCoreAt id.core (Core.park id.ctx c) s) =
    if j = id.core then (coreAt j s).park id.ctx c else coreAt j s :=
  coreAt_modCoreAt id.core j (f := Core.park id.ctx c) (fun _ => rfl) s

theorem ctxAt_setCtxAt_same (id : CtxId) (c : Ctx) (s : State) : ctxAt id (setCtxAt id c s) = c := by
  by_cases h : id = s.curId
  · rw [h, setCtxAt_cur]
    exact ctxAt_cur { s with cur := c }
  · rw [setCtxAt_parked h, ctxAt, curId_park, if_neg h, coreAt_park, if_pos rfl]
    exact smGet_smSet_same ..

theorem ctxAt_setCtxAt_other {id j : CtxId} (hj : j ≠ id) (c : Ctx) (s : State) : ctxAt j (setCtxAt id c s) = ctxAt j s := by
  by_cases h : id = s.curId
  · have hj' : j ≠ s.curId := h ▸ hj
    have hcur : setCtxAt id c s = { s with cur := c } := if_pos h
    rw [hcur]
    exact (if_neg hj').trans (if_neg hj').symm
  · rw [setCtxAt_parked h, ctxAt, ctxAt, curId_park, cur_modCoreAt, coreAt_park]
    by_cases hcore : j.core = id.core
    · have hctx : j.ctx ≠ id.ctx := fun hctx => hj (by
        obtain ⟨jc, jx⟩ := j
        obtain ⟨ic, ix⟩ := id
        exact congrArg₂ CtxId.mk hcore hctx)
      rw [if_pos hcore, Core.park, smGet_smSet_other _ _ _ _ _ _ (toNat_ne hctx)]
    · rw [if_neg hcore]

/-! ## The delivery to a member -/

/-- The membership has ended, and the trap of it is due beside what was due before. -/
def Reached (old : List TrapReq) (c : Ctx) : Prop := c.flow.region = none ∧ dueMore old c.flow.due .regionAborted 0 0

theorem raiseBoundary_other {c d : CtxId} (h : c ≠ d) (cause : Cause) (aux : BitVec 8) (faddr : Word)
    (log : Option (Word × List Byte)) (s : State) : ctxAt c (raiseBoundary d cause aux faddr log s) = ctxAt c s := by
  unfold raiseBoundary
  dsimp only
  split
  · exact ctxAt_setCtxAt_other h ..
  · rfl
  · rfl

theorem abortMember_other {c d : CtxId} (h : c ≠ d) (s : State) : ctxAt c (abortMember d s) = ctxAt c s := by
  unfold abortMember
  split
  · exact (ctxAt_setCtxAt_other h ..).trans (raiseBoundary_other h ..)
  · rfl

/-- A running member has the boundary trap of R299 due. -/
theorem abortMember_running {c : CtxId} {s : State} (hregion : (ctxAt c s).flow.region.isSome = true)
    (hres : (ctxAt c s).flow.residency = .running) : Reached (ctxAt c s).flow.due (ctxAt c (abortMember c s)) := by
  have hraised : ctxAt c (raiseBoundary c .regionAborted 0 0 none s) =
      (ctxAt c s).addDue (boundaryReq .regionAborted 0 0 none (coreAt c.core s).cycle (ctxAt c s)) := by
    unfold raiseBoundary
    rw [hres]
    exact ctxAt_setCtxAt_same ..
  rw [abortMember, if_pos hregion, modCtxAt, ctxAt_setCtxAt_same, hraised]
  exact ⟨rfl, _, rfl, rfl, rfl, rfl⟩

/-- One that has been reached is no member any more, and nothing more reaches it. -/
theorem abortMember_reached {old : List TrapReq} {c : CtxId} {s : State} (h : Reached old (ctxAt c s)) (d : CtxId) :
    Reached old (ctxAt c (abortMember d s)) := by
  by_cases hd : c = d
  · rw [← hd, abortMember, if_neg (by rw [h.1]; decide)]
    exact h
  · rw [abortMember_other hd]
    exact h

theorem abortMembers_reached {old : List TrapReq} {c : CtxId} : ∀ (l : List CtxId) {s : State}, Reached old (ctxAt c s) →
    Reached old (ctxAt c (l.foldl (fun s d => abortMember d s) s))
  | [], _, h => h
  | d :: l, _, h => abortMembers_reached l (abortMember_reached h d)

/-- Among the members is the one that runs in a context. -/
theorem abortMembers_running {c : CtxId} {x : Ctx} (hregion : x.flow.region.isSome = true) (hres : x.flow.residency = .running)
    (l : List CtxId) {s : State} (hmem : c ∈ l) (hx : ctxAt c s = x) :
    Reached x.flow.due (ctxAt c (l.foldl (fun s d => abortMember d s) s)) := by
  induction l generalizing s with
  | nil => exact absurd hmem List.not_mem_nil
  | cons d l ih =>
    rw [List.foldl_cons]
    by_cases hd : c = d
    · rw [← hd]
      refine abortMembers_reached l ?_
      rw [← hx] at hregion hres ⊢
      exact abortMember_running hregion hres
    · exact ih (List.mem_of_ne_of_mem hd hmem) ((abortMember_other hd s).trans hx)

theorem mem_allCtxs (c : CtxId) : c ∈ allCtxs := by
  obtain ⟨core, ctx⟩ := c
  have hcore : core.toNat < 64 := core.isLt
  have hctx : ctx.toNat < 4 := ctx.isLt
  refine List.mem_map.mpr ⟨4 * core.toNat + ctx.toNat, List.mem_range.mpr (by omega), ?_⟩
  have hdiv : (4 * core.toNat + ctx.toNat) / 4 = core.toNat := by omega
  have hmod : (4 * core.toNat + ctx.toNat) % 4 = ctx.toNat := by omega
  rw [hdiv, hmod, BitVec.ofNat_toNat, BitVec.ofNat_toNat, BitVec.setWidth_eq, BitVec.setWidth_eq]

theorem abortReaches_member {c : CtxId} {m : Member} {s : State} (hregion : (ctxAt c s).flow.region = some m)
    (hres : (ctxAt c s).flow.residency = .running)
    (hended : ¬(m.region.home = s.die.coord ∧ (findRegion m.region s).isSome = true)) :
    Reached (ctxAt c s).flow.due (ctxAt c (abortReaches c s)) := by
  have hmem : c ∈ membersHere m.region s := List.mem_filter.mpr ⟨mem_allCtxs c, by rw [memberIs, hregion]; exact beq_self_eq_true _⟩
  have hreaches : abortReaches c s = deliverAborts m.region s := by
    unfold abortReaches
    rw [hregion]
    exact if_neg hended
  rw [hreaches]
  exact abortMembers_running (hregion ▸ rfl) hres (membersHere m.region s) hmem rfl

/-! ## Obligation O42 -/

/-- Settles O42: the end and the loss of a save, a write-out, a restore, the abort of a region at its home, and its delivery. -/
theorem saveRestoreAndAbortEvents : Obligations.SaveRestoreAndAbortEvents := by
  refine ⟨?_, ?_, ?_, ?_, ?_⟩
  · intro v k s hfind hres hsaving hprefetch htask late y counts expired
    have hsaved : savedOf s.curId s = some v := find?_and_of_find? hfind hsaving
    have hexpired : (v.expired || s.cur.wdOver s.core.cycle) = true ↔ expired := by
      simp only [expired, y, Ctx.wdOver, Bool.or_eq_true, Bool.and_eq_true, bne_iff_ne, decide_eq_true_eq]
    have hlate : (saveOver v s || s.core.held.any (fun h => h.owner == v.ctx.serial)) = true ↔ late := by
      rw [Bool.or_eq_true]
    refine ⟨fun he hover hregion hnotice hcur => ?_, fun he hover hranges => ?_, fun hl => ?_, fun hl hroom hregion hnotice hcur => ?_⟩
    · obtain ⟨t, ht, hid, hpassed, hkept, hcount⟩ :=
        endSave_expired hsaved hprefetch hregion hnotice hcur hres hover (hexpired.mpr he)
      exact ⟨t, exec_saveComplete ht hid, hpassed, hkept, hcount⟩
    · have hends := endSave_completes hsaved hprefetch hres hover (Bool.eq_false_iff.mpr (mt hexpired.mp he)) hranges
      rw [saveCompleted, queueSaved_task htask] at hends
      exact ⟨_, savedTask v k s, exec_saveComplete hends rfl, rfl, rfl, rfl, rfl, rfl⟩
    · exact exec_saveOverrun (loseSave_early hsaved (Bool.eq_false_iff.mpr (mt hlate.mp hl))) rfl
    · obtain ⟨t, n, ht, hid, hlost⟩ := contextLost_dropSave hprefetch hregion hnotice hcur hroom
      exact ⟨t, n, exec_saveOverrun ((loseSave_late hsaved (hlate.mpr hl)).trans ht) hid, hlost⟩
  · intro i h s hheld
    have hwritten := writeOutAt_held hheld
    refine ⟨fun hbusy => exec_heldRegionWriteout (hwritten.trans (if_pos hbusy)) rfl, fun hfree => ?_⟩
    exact ⟨_, exec_heldRegionWriteout (hwritten.trans (if_neg (by rw [hfree]; decide))) rfl, rfl, rfl, rfl⟩
  · intro v q s hfree hstore hhome hfind hsets htask hq
    have hback := restoreSaved_restored hstore s
    refine ⟨_, exec_contextRestore hfree hstore hhome hfind hsets htask hq, hback.residency, hback.pc, hback.g, hback.k, hback.q,
      hback.levels, hback.task, hback.held, hback.saved, fun hmem => ?_⟩
    exact absurd (List.mem_filter.mp hmem).2 (by simp)
  · intro obj r s hfind o
    have hexec : exec (.regionDeadline obj) s = .next (expireRegion r s) := congrArg Host.Outcome.next (deadline_found hfind)
    refine ⟨fun hcome hopen hgen hdevice haligned => ?_, fun hearly => ?_⟩
    · have habort := abortRegion_open (cause := 3) (findRegion_of_obj hfind) (congrArg BitVec.toNat hopen) hgen
      have hobj := readObj_writeObj (o := abortedObj o 3 s.timeNs) (s := s) hdevice haligned (endRegion_pkg r.name _)
      have hexpired : expireRegion r s = _ := (if_pos hcome).trans habort
      refine ⟨_, hexec.trans (congrArg Host.Outcome.next hexpired), ?_, ?_, endRegion_find _ _, endRegion_shard _ _⟩
      · rw [hobj]
        exact abortedObj_state ..
      · rw [hobj]
        exact abortedObj_cause ..
    · exact hexec.trans (congrArg Host.Outcome.next (if_neg (Nat.not_le.mpr hearly)))
  · intro c m s hregion hres hended
    obtain ⟨hnone, hdue⟩ := abortReaches_member hregion hres hended
    exact ⟨_, rfl, hnone, hdue⟩

end Sys2Proof.Machine
end

section
/-! Buffer records: what their fields say, where an offset leads, and the faults of an access that are known at issue
(spec/11_storage.md R156 to R158, R165, R173). -/
namespace Sys2Proof.Machine

/-! ## Fields of a record -/

theorem bits_toNat {n : Nat} (l w : Nat) (v : BitVec n) : (bits l w v).toNat = v.toNat / 2 ^ l % 2 ^ w := by
  rw [BitVec.extractLsb'_toNat, Nat.shiftRight_eq_div_pow]

theorem bitVec_eq_iff_toNat {n : Nat} (v : BitVec n) {k : Nat} (hk : k < 2 ^ n) : v = BitVec.ofNat n k ↔ v.toNat = k := by
  rw [← BitVec.toNat_inj, BitVec.toNat_ofNat, Nat.mod_eq_of_lt hk]

theorem recBase_toNat (r : Record) : (recBase r).toNat = r.toNat % 2 ^ 64 := bits_zero_toNat 64 r

theorem recExtent_toNat (r : Record) : (recExtent r).toNat = r.toNat / 2 ^ 64 % 2 ^ 40 := bits_toNat 64 40 r

theorem recBounds_toNat (r : Record) : (recBounds r).toNat = r.toNat / 2 ^ 176 % 8 := bits_toNat 176 3 r

theorem recSpace_toNat (r : Record) : (recSpace r).toNat = r.toNat / 2 ^ 184 % 4 := bits_toNat 184 2 r

theorem recSpace_eq_iff (r : Record) {k : Nat} (hk : k < 4) : recSpace r = BitVec.ofNat 2 k ↔ r.toNat / 2 ^ 184 % 4 = k := by
  rw [bitVec_eq_iff_toNat _ hk, recSpace_toNat]

theorem recBounds_eq_iff (r : Record) {k : Nat} (hk : k < 8) : recBounds r = BitVec.ofNat 3 k ↔ r.toNat / 2 ^ 176 % 8 = k := by
  rw [bitVec_eq_iff_toNat _ hk, recBounds_toNat]

/-! ## Where an offset leads -/

theorem recPlace_inside {r : Record} {t : Int} (h : 0 ≤ t ∧ t < (recExtent r).toNat) : recPlace r t = .byte t.toNat := if_pos h

theorem recPlace_outside {r : Record} {t : Int} (h : ¬(0 ≤ t ∧ t < (recExtent r).toNat)) (hmode : recBounds r = 0) :
    recPlace r t = .outside t := by
  rw [recPlace, if_neg h, if_pos hmode]

theorem recPlace_clamped {r : Record} {t : Int} (h : ¬(0 ≤ t ∧ t < (recExtent r).toNat)) (hmode : recBounds r = 1) :
    recPlace r t = .clamped := by
  rw [recPlace, if_neg h, if_neg (by rw [hmode]; decide), if_pos hmode]

theorem recPlace_wrapped {r : Record} {t : Int} (h : ¬(0 ≤ t ∧ t < (recExtent r).toNat)) (hmode : recBounds r = 2) :
    recPlace r t = .byte (t % (recExtent r).toNat).toNat := by
  rw [recPlace, if_neg h, if_neg (by rw [hmode]; decide), if_neg (by rw [hmode]; decide)]

/-- A wrapped offset is the remainder of the offset by the extent. -/
theorem wrapped_offset (t : Int) {e : Nat} (he : 0 < e) :
    (t % (e : Int)).toNat < e ∧ ∃ q : Int, t = q * e + (t % (e : Int)).toNat := by
  have hpos : (0 : Int) < e := Int.natCast_pos.mpr he
  have hnonneg : 0 ≤ t % (e : Int) := Int.emod_nonneg t hpos.ne'
  refine ⟨(Int.toNat_lt hnonneg).mpr (Int.emod_lt_of_pos t hpos), t / e, ?_⟩
  rw [Int.toNat_of_nonneg hnonneg, Int.mul_comm, Int.mul_ediv_add_emod]

/-- Only the mode that traps leads an offset outside, to itself. -/
theorem recPlace_eq_outside_iff {r : Record} {t x : Int} :
    recPlace r t = .outside x ↔ x = t ∧ recBounds r = 0 ∧ ¬(0 ≤ t ∧ t < (recExtent r).toNat) := by
  unfold recPlace
  by_cases h : 0 ≤ t ∧ t < (recExtent r).toNat
  · simp [h]
  · by_cases hmode : recBounds r = 0
    · simp [h, hmode, eq_comm]
    · by_cases hclamp : recBounds r = 1
      · simp [h, hclamp]
      · rw [if_neg h, if_neg hmode, if_neg hclamp]
        exact iff_of_false (by simp) fun hx => hmode hx.2.1

/-! ## The first offset outside -/

theorem firstOutside_append (r : Record) (l m : List Place) (h : firstOutside r l = none) :
    firstOutside r (l ++ m) = firstOutside r m := by
  induction l with
  | nil => rfl
  | cons p l ih =>
    cases p with
    | byte off => exact ih h
    | clamped => exact ih h
    | outside x => exact absurd h (by simp [firstOutside])

theorem firstOutside_none {r : Record} {l : List Place} (h : ∀ p ∈ l, ∀ x, p ≠ .outside x) : firstOutside r l = none := by
  induction l with
  | nil => rfl
  | cons p l ih =>
    have hrest := ih fun q hq => h q (List.mem_cons_of_mem _ hq)
    cases p with
    | byte off => exact hrest
    | clamped => exact hrest
    | outside x => exact absurd rfl (h _ List.mem_cons_self x)

theorem recRun_eq (r : Record) (t : Int) (n : Nat) : recRun r t n = (List.range n).map (fun i : Nat => recPlace r (t + i)) := by
  simp [recRun, ← List.map_eq_flatMap]

theorem recRun_none {r : Record} {t : Int} {n : Nat}
    (h : ¬(recBounds r = 0 ∧ ∃ i : Nat, i < n ∧ ¬(0 ≤ t + i ∧ t + i < (recExtent r).toNat))) :
    firstOutside r (recRun r t n) = none := by
  refine firstOutside_none fun p hp x hx => ?_
  rw [recRun_eq] at hp
  obtain ⟨i, hi, rfl⟩ := List.mem_map.mp hp
  obtain ⟨-, hmode, hout⟩ := recPlace_eq_outside_iff.mp hx
  exact h ⟨hmode, i, List.mem_range.mp hi, hout⟩

/-- In the mode that traps, the first offset outside is the first of the run, or the extent where the run starts inside. -/
theorem recRun_some {r : Record} {t : Int} {n : Nat} (hmode : recBounds r = 0)
    (h : ∃ i : Nat, i < n ∧ ¬(0 ≤ t + i ∧ t + i < (recExtent r).toNat)) : firstOutside r (recRun r t n) =
      some (BitVec.ofInt 64 ((recAddr r 0 : Nat) +
        if 0 ≤ t ∧ t < (recExtent r).toNat then ((recExtent r).toNat : Int) else t)) := by
  obtain ⟨i, hi, hout⟩ := h
  set k : Nat := if 0 ≤ t ∧ t < (recExtent r).toNat then ((recExtent r).toNat - t).toNat else 0 with hk
  have hkn : k < n := by
    rw [hk]
    split
    · omega
    · omega
  have hbefore : ∀ p ∈ (List.range k).map (fun j : Nat => recPlace r (t + j)), ∀ x, p ≠ .outside x := by
    intro p hp x hx
    obtain ⟨j, hj, rfl⟩ := List.mem_map.mp hp
    obtain ⟨-, -, hnot⟩ := recPlace_eq_outside_iff.mp hx
    have hjk := List.mem_range.mp hj
    split at hk
    · omega
    · omega
  have hat : recPlace r (t + k) =
      .outside (if 0 ≤ t ∧ t < (recExtent r).toNat then ((recExtent r).toNat : Int) else t) := by
    refine recPlace_eq_outside_iff.mpr ⟨?_, hmode, ?_⟩
    · split at hk
      · omega
      · omega
    · split at hk
      · omega
      · omega
  obtain ⟨m, rfl⟩ : ∃ m, n = k + (m + 1) := ⟨n - k - 1, by omega⟩
  rw [recRun_eq, List.range_add, List.map_append, firstOutside_append _ _ _ (firstOutside_none hbefore), List.range_succ_eq_map,
    List.map_cons, List.map_cons, Nat.add_zero, hat]
  rfl

/-! ## The checks of a record -/

theorem recordOk_iff (r : Record) (remote : Bool) : recordOk r remote = true ↔
    r.toNat / 2 ^ 220 = 0 ∧ r.toNat / 2 ^ 186 % 4 ≠ 3 ∧ r.toNat / 2 ^ 179 % 8 < 6 ∧ r.toNat / 2 ^ 176 % 8 < 3 ∧
      r.toNat / 2 ^ 168 % 256 < 14 ∧ r.toNat % 2 ^ 64 < 2 ^ 56 ∧
      (r.toNat / 2 ^ 184 % 4 = 2 → r.toNat % 2 ^ 64 + r.toNat / 2 ^ 64 % 2 ^ 40 ≤ 2 ^ 25) ∧
      (r.toNat / 2 ^ 184 % 4 = 3 → r.toNat % 2 ^ 64 + r.toNat / 2 ^ 64 % 2 ^ 40 ≤ 2 ^ 40) ∧
      (r.toNat / 2 ^ 176 % 8 = 2 → r.toNat / 2 ^ 64 % 2 ^ 40 ≠ 0) ∧ (remote = true → r.toNat / 2 ^ 184 % 4 = 3) := by
  have htop : (bits 220 36 r : BitVec 36) = 0 ↔ r.toNat / 2 ^ 220 = 0 := by
    have hlt := r.isLt
    rw [← BitVec.toNat_inj, bits_toNat, Nat.mod_eq_of_lt (by omega)]
    rfl
  have hpolicy : recPolicy r = 3 ↔ r.toNat / 2 ^ 186 % 4 = 3 := by
    rw [show r.toNat / 2 ^ 186 % 4 = (recPolicy r).toNat from (bits_toNat 186 2 r).symm]
    exact bitVec_eq_iff_toNat _ (by decide)
  have hscope : recScope r < 6 ↔ r.toNat / 2 ^ 179 % 8 < 6 := by
    rw [show r.toNat / 2 ^ 179 % 8 = (recScope r).toNat from (bits_toNat 179 3 r).symm]
    exact BitVec.lt_def
  have hbounds : recBounds r < 3 ↔ r.toNat / 2 ^ 176 % 8 < 3 := by
    rw [← recBounds_toNat]
    exact BitVec.lt_def
  have hfmt : recFmt r < 14 ↔ r.toNat / 2 ^ 168 % 256 < 14 := by
    rw [show r.toNat / 2 ^ 168 % 256 = (recFmt r).toNat from (bits_toNat 168 8 r).symm]
    exact BitVec.lt_def
  have hhigh : (bits 56 8 (recBase r) : BitVec 8) = 0 ↔ r.toNat % 2 ^ 64 < 2 ^ 56 := by
    rw [← BitVec.toNat_inj, bits_toNat, recBase_toNat]
    change _ = 0 ↔ _
    omega
  have hextent : recExtent r = 0 ↔ r.toNat / 2 ^ 64 % 2 ^ 40 = 0 := by
    rw [← recExtent_toNat]
    exact bitVec_eq_iff_toNat _ (by decide)
  have hspace2 := recSpace_eq_iff r (k := 2) (by decide)
  have hspace3 := recSpace_eq_iff r (k := 3) (by decide)
  have hmode2 := recBounds_eq_iff r (k := 2) (by decide)
  change recSpace r = 2 ↔ _ at hspace2
  change recSpace r = 3 ↔ _ at hspace3
  change recBounds r = 2 ↔ _ at hmode2
  simp only [recordOk, Bool.and_eq_true, Bool.or_eq_true, bne_iff_ne, beq_iff_eq, decide_eq_true_eq, Bool.not_eq_true',
    ne_eq, htop, hpolicy, hscope, hbounds, hfmt, hhigh, hextent, hspace2, hspace3, hmode2, recBase_toNat, recExtent_toNat,
    ← imp_iff_not_or, and_assoc]
  cases remote <;> simp

/-! ## Obligation O29 -/

theorem accessFault_eq (r : Record) (remote : Bool) (fe : BitVec 2) (t : Int) (n align : Nat) :
    accessFault r remote fe t n align =
      if recordOk r remote = false then some (.operandValue, 0)
      else if t % align ≠ 0 then some (.misalignedOperand, 0)
      else if fe ≠ 0 ∧ recSpace r ≠ 2 then some (.operandValue, 0)
      else if recBounds r = 0 ∧ ∃ i : Nat, i < n ∧ ¬(0 ≤ t + i ∧ t + i < (recExtent r).toNat) then
        some (.bounds, BitVec.ofInt 64 ((recAddr r 0 : Nat) +
          if 0 ≤ t ∧ t < (recExtent r).toNat then ((recExtent r).toNat : Int) else t))
      else none := by
  unfold accessFault
  simp only [Bool.not_eq_true']
  by_cases h : recBounds r = 0 ∧ ∃ i : Nat, i < n ∧ ¬(0 ≤ t + i ∧ t + i < (recExtent r).toNat)
  · rw [recRun_some h.1 h.2, if_pos h]
  · rw [recRun_none h, if_neg h]

/-- Settles O29, from where an offset leads, the checks of a record field by field, and the first offset outside. -/
theorem recordChecksAndBounds : Obligations.RecordChecksAndBounds := by
  intro r t remote fe n align _ base extent mode space
  have hextent : (recExtent r).toNat = extent := recExtent_toNat r
  have hmode : ∀ {k : Nat}, k < 8 → mode = k → recBounds r = BitVec.ofNat 3 k := fun hk h => (recBounds_eq_iff r hk).mpr h
  refine ⟨fun h0 h1 => recPlace_inside (by rw [hextent]; exact ⟨h0, h1⟩), fun hout => ?_, recordOk_iff r remote, ?_⟩
  · rw [← hextent] at hout ⊢
    refine ⟨fun h => recPlace_outside hout (hmode (by decide) h), fun h => recPlace_clamped hout (hmode (by decide) h),
      fun h hpos => ?_⟩
    obtain ⟨hlt, hq⟩ := wrapped_offset t hpos
    exact ⟨_, recPlace_wrapped hout (hmode (by decide) h), hlt, hq⟩
  · have hspace2 : recSpace r = 2 ↔ space = 2 := recSpace_eq_iff r (by decide)
    have hspace3 : recSpace r = 3 ↔ space = 3 := recSpace_eq_iff r (by decide)
    have hmode0 : recBounds r = 0 ↔ mode = 0 := recBounds_eq_iff r (by decide)
    have haddr : ((recAddr r 0 : Nat) : Int) = base + if space = 3 then (Config.heapBase : Int) else 0 := by
      simp only [recAddr, hspace3, recBase_toNat, base]
      split <;> simp
    rw [accessFault_eq, haddr, hextent]
    simp only [ne_eq, hspace2, hmode0]

end Sys2Proof.Machine
end

section
/-! What a lone bundle of the L or the S slot does at its commit, where the cycle that passes does not tell (spec/03_bundles.md
R25, R46; spec/11_storage.md R182). -/
namespace Sys2Proof.Machine

/-! ## Acts of a commit -/

/-- An act on a state that does not depend on the cycle of its issue, brings nothing that has still to land, starts no beat and
no factorisation, and begins no operation. -/
structure Act (G : State → State) : Prop where
  cycled : ∀ u, cycled (G u) = G (cycled u) := by exact fun _ => rfl
  landed : ∀ u, u.cur.Landed → (G u).cur.Landed := by exact fun _ h => h
  delay : ∀ u, (G u).cur.sys.fmtDelay = u.cur.sys.fmtDelay := by exact fun _ => rfl
  beats : ∀ u, (G u).cur.flow.beats = u.cur.flow.beats := by exact fun _ => rfl
  parked : ∀ u, parkedBeats (G u) = parkedBeats u := by exact fun _ => rfl
  ids : ∀ u, (G u).die.nextId = u.die.nextId := by exact fun _ => rfl
  fact : ∀ u, (G u).core.fact = u.core.fact := by exact fun _ => rfl

namespace Act

theorem nothing : Act id := {}

theorem comp {G H : State → State} (hG : Act G) (hH : Act H) : Act (G ∘ H) where
  cycled u := by rw [Function.comp_apply, hG.cycled, hH.cycled]; rfl
  landed u h := hG.landed _ (hH.landed _ h)
  delay u := (hG.delay _).trans (hH.delay u)
  beats u := (hG.beats _).trans (hH.beats u)
  parked u := (hG.parked _).trans (hH.parked u)
  ids u := (hG.ids _).trans (hH.ids u)
  fact u := (hG.fact _).trans (hH.fact u)

/-- The flags and the waiters of the core in focus are written. -/
theorem flags (f : Core → Vector (BitVec 16) 32) (w : Core → List Waiter) (hf : ∀ k n c, f { k with now := n, cycle := c } = f k)
    (hw : ∀ k n c, w { k with now := n, cycle := c } = w k) :
    Act (State.modCore (fun k => { k with f := f k, waiters := w k })) where
  cycled u := by
    have hf := hf u.core
    have hw := hw u.core
    simp only [Machine.cycled, State.passClocks, State.modCore, hf, hw]
    rfl

/-- The flow of the context in focus is written, its beats and the residency of its task aside. -/
theorem flow {f : FlowCtx → FlowCtx} (hf : ∀ w, (f w).residency = w.residency ∧ (f w).beats = w.beats) :
    Act (State.modFlow f) where
  cycled u := by
    have hruns : (u.modFlow f).coreRuns = u.coreRuns := by
      simp only [State.coreRuns, State.modFlow_cur, Ctx.modFlow_flow, (hf _).1, State.modFlow_core]
    have hclock : (u.modFlow f).clockHere = u.clockHere := by
      simp only [State.clockHere, hruns, State.modFlow_core, State.modFlow_pkg]
    unfold Machine.cycled State.passClocks
    rw [hclock]
    rfl
  landed u h := h.modFlow f
  beats u := (hf _).2

/-- The cluster of the core in focus is written. -/
theorem cluster (f : Cluster → Cluster) : Act (State.modCluster f) := {}

end Act

/-! ## Its bundle -/

section
variable {i : Instr} {s : State} {G : State → State} (hG : Act G) (hq : quiet s = true)
include hG hq

theorem Act.plain : PlainCommit s (G (moved i s)) where
  ids := hG.ids _
  fact h := (hG.fact _).trans h
  delay := (hG.delay _).trans (quiet_delay (s := s) hq)
  beats := (hG.beats _).trans (moved_plain hq).beats
  parked := (hG.parked _).trans (quiet_parked (s := s) hq)

theorem Act.tick : (G (moved i s)).tick = does i G s := by
  rw [tick_landed (hG.landed _ (landed_moved hq i)), hG.cycled, ← tick_landed (landed_moved hq i), moved_tick hq]
  rfl

omit hG hq in
/-- What the slot of a lone bundle commits, and the cycle of its issue. -/
theorem exec_commits {F : State → State} (hq : quiet s = true) (hl : lone i s = true)
    (hr : slotRes (s.nextPc [i]) none i s = .ok F) (ho : overflows [i] i s = false) (hs : servesNow [i] s = false)
    (ha : ∀ pc t, afterCommit [i] pc false t = t) (hn : (inOrder i && s.acquireHeld) = false) (hx : exec i s = issueOne i s) :
    exec i s = .next
      (passCycle ((stampStarted [i] s.pc s.die.nextId s.core.fact.isNone (F (moved i s))).modSys SysCtx.stepDelay)) := by
  rw [hx, issue_lone hq hl, slotInOrder_free hn, hr]
  simp only [deferTrap, slotEnd, ho, liveness_lone hs, Bool.false_eq_true, if_false]
  rw [commitBundle, hs, ha, commitSlots_lone hq]

omit hG in
/-- The cycle of a commit that leaves operations of the die. -/
theorem passCycle_setOps (l : List Op) (n : Nat) :
    passCycle ((setOps l n (moved i s)).modSys SysCtx.stepDelay) = setOps l n (passed [i] s) := by
  have htick : (setOps l n (moved i s)).tick = setOps l n (passed [i] s) := congrArg (setOps l n) (moved_tick hq i)
  rw [modSys_stepDelay (s := setOps l n (moved i s)) (quiet_delay (s := s) hq), passCycle, htick]
  exact beatNow_none (s := setOps l n (passed [i] s)) (quiet_beats (s := s) hq) (quiet_parked (s := s) hq)

/-- The slot of a lone bundle acts, and nothing follows its commit. -/
theorem Act.exec {F : State → State} (hl : lone i s = true) (hr : slotRes (s.nextPc [i]) none i s = .ok F)
    (hF : F (moved i s) = G (moved i s)) (hd : pushesOf (rptCount (rptOf [i])) i = []) (hs : servesNow [i] s = false)
    (ha : ∀ pc t, afterCommit [i] pc false t = t) (hn : (inOrder i && s.acquireHeld) = false)
    (hx : exec i s = issueOne i s) : exec i s = .next (does i G s) := by
  rw [exec_ok hq hl hr (overflows_none hd) hs (by rw [hF]; exact hG.plain hq) hn hx, ha, hF, hG.tick hq]

end

end Sys2Proof.Machine
end

section
/-! Flags and barriers of the S slot (spec/11_storage.md R182, R183; spec/15_ordering.md R236). -/
namespace Sys2Proof.Machine

/-! ## What the instructions of the S slot share -/

/-- `wflag`, `pflag`, `bar` and `rsync`: a lone one pushes nothing, and nothing follows its commit. -/
structure InSSlot (i : Instr) : Prop where
  issues : ∀ s, exec i s = issueOne i s := by exact fun _ => rfl
  noRecord : recordUse i = none := by rfl
  notL : inLSlot i = false := by rfl
  noTree : treeUses i = [] := by rfl
  noPush : ∀ n, pushesOf n i = [] := by exact fun _ => rfl
  serves : ∀ s, servesNow [i] s = false := by exact fun _ => rfl
  after : ∀ pc t, afterCommit [i] pc false t = t := by exact fun _ _ => rfl

section
variable {i : Instr} {s : State} (hi : InSSlot i) (hq : quiet s = true) (ha : s.acquireHeld = false) (hl : lone i s = true)
include hi hq ha hl

theorem InSSlot.exec_act {F G : State → State} (hr : slotRes (s.nextPc [i]) none i s = .ok F) (hG : Act G)
    (hF : F (moved i s) = G (moved i s)) : exec i s = .next (does i G s) :=
  hG.exec hq hl hr hF (hi.noPush _) (hi.serves s) hi.after (by rw [ha, Bool.and_false]) (hi.issues s)

theorem InSSlot.exec_arrive {F : State → State} (hr : slotRes (s.nextPc [i]) none i s = .arrive F) :
    exec i s = .next (waitEngine (F s)) := by
  rw [hi.issues, issue_lone hq hl, slotInOrder_free (by rw [ha, Bool.and_false]), hr]
  rfl

theorem InSSlot.exec_trap {c : Cause} (hr : slotRes (s.nextPc [i]) none i s = .trapOf c) (hc : c ≠ .softwareTrap) :
    exec i s = .next (traps i c 0 0 s) :=
  Machine.exec_trap hq hl hr hc (hi.serves s) (by rw [ha, Bool.and_false]) (held_quiet hq hi.noRecord hi.notL hi.noTree)
    (hi.issues s)

end

/-! ## Posts -/

/-- A flag of the core in focus holds `v`. -/
def setFlag (f : BitVec 5) (v : BitVec 16) (s : State) : State := s.modCore (fun k => { k with f := k.f.set f.toNat v })

theorem act_setFlag (f : BitVec 5) (v : BitVec 16) : Act (setFlag f v) :=
  Act.flags (fun k => k.f.set f.toNat v) (fun k => k.waiters) (fun _ _ _ => rfl) (fun _ _ _ => rfl)

theorem post_eq_setFlag (f : BitVec 5) (n : Nat) (s : State) :
    s.modCore (Core.post f n) = setFlag f (BitVec.ofNat 16 (min (s.core.f[f.toNat].toNat + n) 65535)) s := rfl

/-- With no acquire before it, a post is made at once. -/
theorem postInOrder_unheld {s : State} (h : s.acquireHeld = false) (f : BitVec 5) (n : Nat) :
    postInOrder f n s = s.modCore (Core.post f n) := by
  have hnone : s.fences = [] := by
    rw [State.fences, List.map_eq_nil_iff, List.filter_eq_nil_iff]
    exact fun o ho => List.any_eq_false.mp h o ho
  rw [postInOrder, hnone]
  rfl

/-! ## Waits for a flag -/

theorem sCount_toNat (f : SF) : (BitVec.ofNat 16 (sCount f)).toNat = sCount f := by
  have hlt := f.count.isLt
  rw [BitVec.toNat_ofNat, Nat.mod_eq_of_lt]
  unfold sCount
  split
  · decide
  · omega

section
variable {flag : BitVec 5} {n : Nat} {s : State} (hgrant : s.cur.flow.flagGrant ≠ some s.pc)
  (hnone : s.core.waiters.all (fun w => w.flag != flag) = true)
include hnone

theorem no_waiter {w : Waiter} (hw : w ∈ s.core.waiters) : (w.flag == flag) = false := by
  simpa using List.all_eq_true.mp hnone w hw

theorem firstWaiter_none : s.core.firstWaiter flag = none :=
  List.find?_eq_none.mpr fun _ hw => Bool.eq_false_iff.mp (no_waiter hnone hw)

theorem flagMet_iff (x : BitVec 2) (hn : (BitVec.ofNat 16 n).toNat = n) :
    s.core.flagMet x flag (BitVec.ofNat 16 n) = true ↔ n ≤ s.core.f[flag.toNat].toNat := by
  rw [Core.flagMet, firstWaiter_none hnone]
  simp [BitVec.le_def, hn]

/-- The count of a wait leaves a flag for which nothing waits. -/
theorem serveFlag_eq_setFlag (x : BitVec 2) (hn : (BitVec.ofNat 16 n).toNat = n) :
    s.modCore (Core.serveFlag x flag (BitVec.ofNat 16 n)) =
      setFlag flag (BitVec.ofNat 16 (s.core.f[flag.toNat].toNat - n)) s := by
  have hkept : s.core.waiters.filter (fun w => !(w.ctx == x && w.flag == flag)) = s.core.waiters :=
    List.filter_eq_self.mpr fun w hw => by rw [no_waiter hnone hw, Bool.and_false]; rfl
  simp only [State.modCore, Core.serveFlag, hkept, hn]
  rfl

theorem addWaiter_eq (x : BitVec 2) (c : BitVec 16) : s.modCore (Core.addWaiter x flag c) =
    s.modCore (fun k => { k with waiters := k.waiters ++ [{ ctx := x, flag := flag, count := c }] }) := by
  have hnot : s.core.waiters.any (fun w => w.ctx == x && w.flag == flag) = false :=
    List.any_eq_false.mpr fun w hw => by
      rw [no_waiter hnone hw, Bool.and_false]
      exact Bool.false_ne_true
  simp only [State.modCore, Core.addWaiter, hnot]
  rfl

include hgrant

/-- A wait with no earlier waiter is served at once where the flag holds its count, and enters the queue else. -/
theorem waitFlag_first (hn : (BitVec.ofNat 16 n).toNat = n) : waitFlag flag n s =
    if n ≤ s.core.f[flag.toNat].toNat then
      .ok (fun t => t.modCore (Core.serveFlag s.core.sel flag (BitVec.ofNat 16 n)))
    else .arrive (State.modCore (Core.addWaiter s.core.sel flag (BitVec.ofNat 16 n))) := by
  have hnot : s.core.waiters.any (fun w => w.ctx == s.core.sel && w.flag == flag) = false :=
    List.any_eq_false.mpr fun w hw => by
      rw [no_waiter hnone hw, Bool.and_false]
      exact Bool.false_ne_true
  simp only [waitFlag, if_neg hgrant, flagMet_iff hnone s.core.sel hn, hnot, Bool.false_eq_true, if_false]

end

/-! ## The barrier -/

/-- What a release of the barrier does in a context that waits. -/
def Ctx.barReleased (c : Ctx) : Ctx := c.modFlow (fun w => { w with barGrant := w.barWaiting, barWaiting := none })

/-- An act on one context after another, each at most once. -/
theorem ctxAt_foldl_modCtxAt (f : Ctx → Ctx) (y : CtxId) : ∀ (l : List CtxId) (_ : l.Nodup) (s : State),
    ctxAt y (l.foldl (fun s c => modCtxAt c f s) s) = if y ∈ l then f (ctxAt y s) else ctxAt y s
  | [], _, s => by simp
  | c :: l, hl, s => by
    obtain ⟨hc, hl⟩ := List.nodup_cons.mp hl
    rw [List.foldl_cons, ctxAt_foldl_modCtxAt f y l hl]
    by_cases hy : y = c
    · rw [hy, if_neg hc, if_pos List.mem_cons_self, modCtxAt, ctxAt_setCtxAt_same]
    · rw [modCtxAt, ctxAt_setCtxAt_other hy]
      simp [hy]

/-- What an act on contexts leaves of a state before its cycle: the operations of the die, the factorisation of the core in
focus, the delay of FMT, and which context is in focus. -/
structure CtxActs (s t : State) : Prop where
  die : t.die = s.die
  fact : t.core.fact = s.core.fact
  delay : t.cur.sys.fmtDelay = s.cur.sys.fmtDelay
  curId : t.curId = s.curId
  idle : Idle s → Idle t

theorem CtxActs.refl (s : State) : CtxActs s s := ⟨rfl, rfl, rfl, rfl, id⟩

theorem CtxActs.trans {s t u : State} (h : CtxActs s t) (h' : CtxActs t u) : CtxActs s u :=
  ⟨h'.die.trans h.die, h'.fact.trans h.fact, h'.delay.trans h.delay, h'.curId.trans h.curId, h'.idle ∘ h.idle⟩

theorem ctxActs_modCtxAt (id : CtxId) {f : Ctx → Ctx} (hf : ∀ c, (f c).sys = c.sys ∧ (f c).flow.beats = c.flow.beats)
    (s : State) : CtxActs s (modCtxAt id f s) := by
  have hidle := (modCtxAt_kept id (fun c => (hf c).2) s).idle
  unfold modCtxAt at hidle ⊢
  by_cases h : id = s.curId
  · rw [h, setCtxAt_cur, ctxAt_cur] at hidle ⊢
    exact ⟨rfl, rfl, congrArg SysCtx.fmtDelay (hf s.cur).1, rfl, hidle⟩
  · rw [setCtxAt_parked h] at hidle ⊢
    have hfact : (modCoreAt id.core (Core.park id.ctx (f (ctxAt id s))) s).core.fact = s.core.fact := by
      unfold modCoreAt setCoreAt
      split
      next hid =>
        rw [coreAt, if_pos hid]
        rfl
      next => rfl
    exact ⟨setCoreAt_die .., hfact, by rw [cur_modCoreAt], curId_park .., hidle⟩

theorem ctxActs_foldl {f : Ctx → Ctx} (hf : ∀ c, (f c).sys = c.sys ∧ (f c).flow.beats = c.flow.beats) :
    ∀ (l : List CtxId) (s : State), CtxActs s (l.foldl (fun s c => modCtxAt c f s) s)
  | [], s => .refl s
  | c :: l, s => (ctxActs_modCtxAt c hf s).trans (ctxActs_foldl hf l _)

theorem ctxActs_releaseBarrier (b : Barrier) (s : State) : CtxActs s (releaseBarrier b s) := by
  obtain ⟨hdie, hfact, hdelay, hid, hidle⟩ := ctxActs_foldl (f := Ctx.barReleased) (fun _ => ⟨rfl, rfl⟩) b.arrived.dedup s
  exact ⟨hdie, hfact, hdelay, hid, hidle⟩

theorem ctxAt_releaseBarrier (b : Barrier) {y : CtxId} (hy : y ∈ b.arrived) (s : State) :
    ctxAt y (releaseBarrier b s) = (ctxAt y s).barReleased := by
  have h := ctxAt_foldl_modCtxAt Ctx.barReleased y b.arrived.dedup b.arrived.nodup_dedup s
  rw [if_pos (List.mem_dedup.mpr hy)] at h
  exact h

/-- A context that is not in focus is as it was before a change of what is in focus. -/
theorem ctxAt_congr {y : CtxId} {s t : State} (hid : t.curId = s.curId) (hparked : t.core.parked = s.core.parked)
    (hcores : t.cores = s.cores) (hy : y ≠ s.curId) : ctxAt y t = ctxAt y s := by
  have hcore : t.core.id = s.core.id := congrArg CtxId.core hid
  unfold ctxAt coreAt
  rw [hid, hcore, hcores, if_neg hy, if_neg hy]
  split
  · rw [hparked]
  · rfl

theorem CtxActs.plain {i : Instr} {s t : State} (hq : quiet s = true) (h : CtxActs (moved i s) t) : PlainCommit s t := by
  obtain ⟨hdie, hfact, hdelay, -, hidle⟩ := h
  obtain ⟨hbeats, hparked⟩ := hidle (idle_moved hq i)
  refine ⟨congrArg Die.nextId hdie, fun hnone => hfact.trans hnone, hdelay.trans (quiet_delay (s := s) hq), hbeats, ?_⟩
  refine Option.map_eq_none_iff.mpr (List.find?_eq_none.mpr fun p hp => ?_)
  rw [hparked p hp]
  decide

/-- The barrier of the cluster, or the one that an arrival with the count `n` begins. -/
def barrierFor (n : Nat) (s : State) : Barrier := s.cluster.barrier.getD { count := n, arrived := [] }

/-- What `bar` does once its context neither has its release nor waits at it. -/
theorem slotBar_arrives {f : SF} {s : State} (hgrant : s.cur.flow.barGrant ≠ some s.pc)
    (hwaits : s.cur.flow.barWaiting ≠ some s.pc) : slotBar f s =
      if (barrierFor (sCount f) s).count ≠ sCount f then .trapOf .operandValue
      else if sCount f ≤ (barrierFor (sCount f) s).arrived.length + 1 then .ok (releaseBarrier (barrierFor (sCount f) s))
      else .arrive (arriveBarrier (sCount f)) := by
  rw [slotBar, if_neg hgrant, if_neg hwaits]
  rfl

theorem inSSlot_bar (f : SF) : InSSlot (.bar f) := {}

/-- The last arrival of a generation releases those that wait. -/
theorem exec_bar_release {f : SF} {s : State} (hq : quiet s = true) (ha : s.acquireHeld = false) (hl : lone (.bar f) s = true)
    {b : Barrier} (hr : slotBar f s = .ok (releaseBarrier b)) : ∃ t, exec (.bar f) s = .next t ∧ t.cluster.barrier = none ∧
      ∀ y ∈ b.arrived, y ≠ s.curId → ctxAt y t = (ctxAt y s).barReleased := by
  have hacts := ctxActs_releaseBarrier b (moved (.bar f) s)
  have hexec := exec_ok hq hl hr (overflows_none rfl) rfl (hacts.plain hq) (by rw [ha, Bool.and_false])
  refine ⟨_, hexec, rfl, fun y hy hother => ?_⟩
  have hticked : ctxAt y (releaseBarrier b (moved (.bar f) s)).tick = ctxAt y (releaseBarrier b (moved (.bar f) s)) :=
    ctxAt_congr rfl rfl rfl (by rw [hacts.curId]; exact hother)
  have hmoved : ctxAt y (moved (.bar f) s) = ctxAt y s := ctxAt_congr rfl rfl rfl hother
  exact hticked.trans ((ctxAt_releaseBarrier b hy _).trans (congrArg Ctx.barReleased hmoved))

/-! ## `rsync` -/

/-- The operations that an `rsync` waits for. -/
def rsyncIds (s : State) : List Nat := (s.taskOps.filter (fun o => o.counted || o.isFence)).map (·.id)

/-- The post that follows the operations before it. -/
def rsyncOp (f : SF) (ids : List Nat) (s : State) : Op :=
  { mkOp (.rsync f.flag (BitVec.ofNat 16 (sCount f)) ids) s with counted := false, post := some f.flag }

theorem startRsync_eq (f : SF) (s : State) : startRsync f.flag (sCount f) s =
    if rsyncIds s = [] then s.modCore (Core.post f.flag (sCount f))
    else setOps (s.die.ops ++ [(rsyncOp f (rsyncIds s) s).numbered s.die.nextId]) (s.die.nextId + 1) s := by
  simp only [startRsync, rsyncIds, List.isEmpty_iff]
  rfl

/-- An operation through no record asks for no acquire. -/
theorem isAcquire_zero : isAcquire 0 = false := by decide

/-- A lone `rsync` with operations to wait for begins its own. -/
theorem exec_rsync_begins {f : SF} {s : State} (hq : quiet s = true) (ha : s.acquireHeld = false)
    (hl : lone (.rsync f) s = true) (hids : rsyncIds s ≠ []) :
    exec (.rsync f) s = .next (begins (.rsync f) (rsyncOp f (rsyncIds s) s) s) := by
  let i : Instr := .rsync f
  have hstarts : startRsync f.flag (sCount f) (moved i s) =
      setOps (s.die.ops ++ [(rsyncOp f (rsyncIds s) (moved i s)).numbered s.die.nextId]) (s.die.nextId + 1) (moved i s) :=
    (startRsync_eq f (moved i s)).trans (if_neg hids)
  have hnew : s.die.nextId + 1 ≠ s.die.nextId := Nat.succ_ne_self _
  have hstamp := stampStarted_setOps (is := [i]) (pc := s.pc) (l := s.die.ops ++
      [(rsyncOp f (rsyncIds s) (moved i s)).numbered s.die.nextId]) (fresh := s.core.fact.isNone) (s := moved i s) hnew
    (fun h => (Option.isNone_iff_eq_none.mp h : s.core.fact = none))
  have howes : Owes (rsyncOp f (rsyncIds s) s).kind s.die.nextId (fun c => c) := ⟨fun _ => rfl, fun _ => rfl, fun _ => rfl⟩
  have hbegun : begun (rsyncOp f (rsyncIds s) s) s = [(rsyncOp f (rsyncIds s) s).numbered s.die.nextId] := by
    have hplain : (rsyncOp f (rsyncIds s) s).acquires = false := (Bool.or_false _).trans isAcquire_zero
    rw [begun, hplain]
    rfl
  have hsame : (rsyncOp f (rsyncIds s) (moved i s)).blank = (rsyncOp f (rsyncIds s) s).blank := rfl
  rw [exec_commits hq hl (F := startRsync f.flag (sCount f)) rfl (overflows_none rfl) rfl (fun _ _ => rfl)
    (by rw [ha, Bool.and_false]) rfl, hstarts, hstamp, passCycle_setOps hq, begins_eq i howes, hbegun,
    List.map_append, List.map_append, List.map_singleton, List.map_singleton, stamped_congr hsame (le_refl _)]
  rfl

/-! ## Obligation O22 -/

theorem inSSlot_pflag (f : SF) : InSSlot (.pflag f) := {}

theorem inSSlot_wflag (f : SF) : InSSlot (.wflag f) := {}

theorem inSSlot_rsync (f : SF) : InSSlot (.rsync f) := {}

/-- Settles O22, by the cases of each slot: a grant that has come, a wait that is met or enters its queue, the generations of a
barrier, and the operations that an `rsync` has to wait for. -/
theorem flagAndBarrierInstructions : Obligations.FlagAndBarrierInstructions := by
  intro f s hq ha c x value post
  have hpost : post = setFlag f.flag (BitVec.ofNat 16 (min (value.toNat + c) 65535)) := rfl
  refine ⟨fun hl => ?_, fun hl hgrant => ?_, fun hl hgrant hnone => ?_, fun hl hgrant => ?_, fun hl hgrant hwaits => ?_,
    fun hl => ?_⟩
  · rw [hpost]
    exact (inSSlot_pflag f).exec_act hq ha hl rfl (act_setFlag ..) (postInOrder_unheld (s := moved (.pflag f) s) ha f.flag c)
  · exact (inSSlot_wflag f).exec_act hq ha hl (if_pos hgrant) (.flow fun _ => ⟨rfl, rfl⟩) rfl
  · have hslot : slotRes (s.nextPc [.wflag f]) none (.wflag f) s = _ := waitFlag_first hgrant hnone (sCount_toNat f)
    refine ⟨fun hmet => ?_, fun hshort => ?_⟩
    · exact (inSSlot_wflag f).exec_act hq ha hl (hslot.trans (if_pos hmet)) (act_setFlag ..)
        (serveFlag_eq_setFlag (s := moved (.wflag f) s) hnone _ (sCount_toNat f))
    · rw [← addWaiter_eq hnone]
      exact (inSSlot_wflag f).exec_arrive hq ha hl (hslot.trans (if_neg (Nat.not_le.mpr hshort)))
  · exact (inSSlot_bar f).exec_act hq ha hl (if_pos hgrant) (.flow fun _ => ⟨rfl, rfl⟩) rfl
  · intro b
    have hb : barrierFor (sCount f) s = b := by
      simp only [barrierFor, b]
      cases s.cluster.barrier with
      | none => rfl
      | some b => rfl
    have hslot : slotRes (s.nextPc [.bar f]) none (.bar f) s = _ := slotBar_arrives hgrant hwaits
    rw [hb] at hslot
    refine ⟨fun hcount => ?_, fun hcount hearly => ?_, fun hcount hlast => ?_⟩
    · exact (inSSlot_bar f).exec_trap hq ha hl (hslot.trans (if_pos hcount)) (by decide)
    · have harrive := (inSSlot_bar f).exec_arrive hq ha hl
        (hslot.trans ((if_neg (not_not.mpr hcount)).trans (if_neg (Nat.not_le.mpr hearly))))
      rw [arriveBarrier, ← barrierFor, hb] at harrive
      exact harrive
    · obtain ⟨t, hexec, hnone, hreleased⟩ := exec_bar_release hq ha hl
        (hslot.trans ((if_neg (not_not.mpr hcount)).trans (if_pos hlast)))
      refine ⟨t, hexec, hnone, fun y hy hother _ => ?_⟩
      rw [hreleased y hy hother]
      exact ⟨rfl, rfl⟩
  · intro ids
    refine ⟨fun hnone => ?_, fun hsome => exec_rsync_begins hq ha hl hsome⟩
    rw [hpost]
    exact (inSSlot_rsync f).exec_act hq ha hl rfl (act_setFlag ..) ((startRsync_eq f (moved (.rsync f) s)).trans (if_pos hnone))

end Sys2Proof.Machine
end

section
/-! A translation fence for the domain's other dies while a task runs on another core (spec/11_storage.md R181). -/
namespace Sys2Proof.Machine

/-- `tfence.all` at domain scope. -/
def fenceAllFar : LF :=
  { guard := 0, b := 0, n := 0, o := 0, oport := 0, d := 0, dport := 0, imm := 4, f := 0, fr := false, fe := 0, modf := 2 }

/-- A supervisor on core 0 of a die whose domain has other dies; a task runs on core 1. -/
def busyElsewhere : State :=
  let s := State.reset.modSys (fun y => { y with mode := .supervisor })
  let running := Ctx.reset.modFlow (fun w => { w with residency := .running })
  { s with cores := [(1, { Core.reset 1 with parked := [(0, running)] })] }

/-- The context in focus after a step waits for an answer of other dies. -/
def asksAfter : Host.Outcome State Fault Refusal → Bool
  | .next t => t.cur.flow.homeAnswer.isSome
  | _ => false

/-- The invalidation leaves for the other dies, no unit has an act to take, and in the same cycle core 1 takes the focus, whose
context has asked nothing. -/
theorem tfenceAll_busyElsewhere : asksAfter (exec (.tfenceAll fenceAllFar) busyElsewhere) = false := by decide +kernel

/-! ## Obligation O33 -/

/-- Refutes O33: in the cycle in which a translation fence asks the other dies, its statement finds the context that asks still in
focus, while the model passes a cycle without an issue, in which a unit may act and else another core on which a task runs takes
the focus. -/
theorem not_tagsGranulesAndFences : ¬ Obligations.TagsGranulesAndFences := by
  intro h
  obtain ⟨h, -⟩ := h
  have hq : quiet busyElsewhere = true := by decide +kernel
  have hc : clear busyElsewhere = true := by decide +kernel
  have hl : lone (.tfenceAll fenceAllFar) busyElsewhere = true := by decide +kernel
  obtain ⟨-, -, -, -, -, -, -, -, hinvalidates⟩ := h fenceAllFar busyElsewhere hq hc
  obtain ⟨-, -, hall, -⟩ := hinvalidates (by decide +kernel) rfl
  obtain ⟨-, hasks⟩ := (hall hl).2 ⟨by decide, 0x0200, by decide +kernel, by decide, by decide⟩
  obtain ⟨t, hexec, hanswer, -⟩ := hasks (by decide +kernel)
  have hlost := tfenceAll_busyElsewhere
  rw [hexec, asksAfter, hanswer] at hlost
  exact absurd hlost (by decide)

end Sys2Proof.Machine
end

section
/-! The release of a flag wait, the post of a watch, and the end of a table walk (spec/11_storage.md R163, R178, R183). -/
namespace Sys2Proof.Machine

/-! ## Cores and contexts beside each other -/

/-- An act on a context leaves the flags, the waiters and the translations of every core alone. -/
theorem coreAt_modCtxAt {α : Type} (p : Core → α) (hp : ∀ x c k, p (Core.park x c k) = p k) (id : CtxId) (f : Ctx → Ctx)
    (j : BitVec 6) (s : State) : p (coreAt j (modCtxAt id f s)) = p (coreAt j s) := by
  unfold modCtxAt
  by_cases h : id = s.curId
  · rw [h, setCtxAt_cur]
    rfl
  · rw [setCtxAt_parked h, coreAt_park]
    split
    · exact hp ..
    · rfl

/-- An act on a core that leaves its parked contexts alone leaves every context alone. -/
theorem ctxAt_modCoreAt (id : BitVec 6) {f : Core → Core}
    (hf : ∀ k, (f k).id = k.id ∧ (f k).sel = k.sel ∧ (f k).parked = k.parked)
    (c : CtxId) (s : State) : ctxAt c (modCoreAt id f s) = ctxAt c s := by
  unfold ctxAt
  rw [curId_modCoreAt id (fun k => ⟨(hf k).1, (hf k).2.1⟩), cur_modCoreAt, coreAt_modCoreAt id c.core (fun k => (hf k).1)]
  split
  · rfl
  · split
    · rw [(hf _).2.2]
    · rfl

theorem modCoreAt_shared (id : BitVec 6) (f : Core → Core) (s : State) :
    (modCoreAt id f s).die = s.die ∧ (modCoreAt id f s).pkg = s.pkg := by
  obtain ⟨-, -, -, hdie, hpkg⟩ := setCoreAt_frame id (f (coreAt id s)) s
  exact ⟨hdie, hpkg⟩

theorem modCtxAt_shared (id : CtxId) (f : Ctx → Ctx) (s : State) :
    (modCtxAt id f s).die = s.die ∧ (modCtxAt id f s).pkg = s.pkg := by
  unfold modCtxAt
  by_cases h : id = s.curId
  · rw [h, setCtxAt_cur]
    exact ⟨rfl, rfl⟩
  · rw [setCtxAt_parked h]
    exact modCoreAt_shared ..

/-! ## A flag's first waiter -/

section
variable {core : BitVec 6} {flag : BitVec 5} {s : State} {w : Waiter}

theorem releaseWait_none (h : (coreAt core s).firstWaiter flag = none) : releaseWait core flag s = s := by
  simp only [releaseWait, h]

variable (h : (coreAt core s).firstWaiter flag = some w)
include h

/-- The first waiter waits for the count alone. -/
theorem flagMet_firstWaiter : (coreAt core s).flagMet w.ctx flag w.count = decide (w.count ≤ (coreAt core s).f[flag.toNat]) := by
  rw [Core.flagMet, h]
  dsimp only
  rw [beq_self_eq_true, Bool.true_and]

theorem releaseWait_unmet (hcount : (coreAt core s).f[flag.toNat].toNat < w.count.toNat) : releaseWait core flag s = s := by
  have hunmet : ¬w.count ≤ (coreAt core s).f[flag.toNat] := by
    rw [BitVec.le_def]
    exact Nat.not_le.mpr hcount
  simp only [releaseWait, h, flagMet_firstWaiter h, hunmet, decide_false, Bool.false_eq_true, if_false]

/-- Where the flag holds the count, it leaves the flag, the waiter its queue, and the context has its grant. -/
theorem releaseWait_met (hcount : w.count.toNat ≤ (coreAt core s).f[flag.toNat].toNat) : releaseWait core flag s =
    modCtxAt { core := core, ctx := w.ctx } (Ctx.modFlow (fun f => { f with flagGrant := some f.pc }))
      (modCoreAt core (Core.serveFlag w.ctx flag w.count) s) := by
  have hmet : w.count ≤ (coreAt core s).f[flag.toNat] := BitVec.le_def.mpr hcount
  simp only [releaseWait, h, flagMet_firstWaiter h, hmet, decide_true, if_true]

end

theorem ofNat_toNat_sub {n : Nat} {a b : BitVec n} (h : b.toNat ≤ a.toNat) : BitVec.ofNat n (a.toNat - b.toNat) = a - b := by
  refine BitVec.eq_of_toNat_eq ?_
  rw [BitVec.toNat_sub_of_le (BitVec.le_def.mpr h), BitVec.toNat_ofNat, Nat.mod_eq_of_lt (Nat.lt_of_le_of_lt (Nat.sub_le ..) a.isLt)]

/-! ## Watches -/

/-- The watches of the task in context stand first. -/
theorem watchesOf_getElem? {c : CtxId} {n : Nat} {w : Watch} {s : State} (h : (ctxAt c s).flow.watches[n]? = some w) :
    (watchesOf c s)[n]? = some (none, n, w) := by
  have hlt : n < (ctxAt c s).flow.watches.length := (List.getElem?_eq_some_iff.mp h).1
  rw [watchesOf, List.getElem?_append_left (by rw [List.length_mapIdx]; exact hlt), List.getElem?_mapIdx, h]
  rfl

/-- A word that is watched has come to its value. -/
theorem wordMet_scratch (as : List (Option Nat)) (v : Word) (s : State) :
    wordMet (.scratch as v) s = decide (v.toNat ≤ leNat (readScratch as s)) := rfl

theorem wordMet_memory (cs : List (Option PByte)) (v : Word) (s : State) :
    wordMet (.memory cs v) s = (!cellsPoison cs s && decide (v.toNat ≤ leNat (readCells cs s))) := by
  simp only [wordMet, watchValue]
  cases cellsPoison cs s with
  | true => rfl
  | false => rfl

theorem wordMet_scratch_iff (as : List (Option Nat)) (v : Word) (s : State) :
    wordMet (.scratch as v) s = true ↔ v.toNat ≤ leNat (readScratch as s) := by
  rw [wordMet_scratch, decide_eq_true_eq]

theorem wordMet_memory_iff (cs : List (Option PByte)) (v : Word) (s : State) :
    wordMet (.memory cs v) s = true ↔ cellsPoison cs s = false ∧ v.toNat ≤ leNat (readCells cs s) := by
  rw [wordMet_memory, Bool.and_eq_true, Bool.not_eq_true', decide_eq_true_eq]

section
variable {c : CtxId} {n : Nat} {w : Watch} {s : State} (h : (ctxAt c s).flow.watches[n]? = some w)
include h

theorem postWatch_unmet (hmet : watchMet c (watchInst c none s) w s = false) : postWatch c n s = s := by
  simp only [postWatch, watchesOf_getElem? h, hmet, Bool.false_eq_true, if_false]

theorem postWatch_met (hmet : watchMet c (watchInst c none s) w s = true) :
    postWatch c n s = modCoreAt c.core (Core.post w.flag 1)
      (modCtxAt c (Ctx.modFlow (fun f => { f with watches := f.watches.eraseIdx n })) s) := by
  simp only [postWatch, watchesOf_getElem? h, hmet, if_true]
  rfl

end

/-! ## Translations -/

/-- An entry enters a TLB in place of one for the same page. -/
def Core.translates (n : TlbEntry) (k : Core) : Core :=
  { k with tlb := n :: k.tlb.filter (fun t => !(t.asid == n.asid && t.page == n.page)) }

/-! ## Obligation O38 -/

/-- Settles O38, by what each event leaves of the core and the context that it names. -/
theorem flagWatchAndWalkEvents : Obligations.FlagWatchAndWalkEvents := by
  refine ⟨fun core flag s => ?_, fun c n w s hw => ?_, fun core w root s hroot => ?_⟩
  · refine ⟨fun w hfirst => ⟨fun hcount => ?_, fun hcount => ?_⟩, fun hnone => ?_⟩
    · have hserve : ∀ k : Core, (k.serveFlag w.ctx flag w.count).id = k.id ∧ (k.serveFlag w.ctx flag w.count).sel = k.sel ∧
          (k.serveFlag w.ctx flag w.count).parked = k.parked := fun _ => ⟨rfl, rfl, rfl⟩
      have hserved := coreAt_modCoreAt core core (fun k => (hserve k).1) s
      rw [if_pos rfl] at hserved
      refine ⟨_, congrArg Host.Outcome.next (releaseWait_met hfirst hcount), ?_, ?_, ?_, ?_, ?_⟩
      · rw [coreAt_modCtxAt Core.f (fun _ _ _ => rfl), hserved, Core.serveFlag, ofNat_toNat_sub hcount]
      · rw [coreAt_modCtxAt Core.waiters (fun _ _ _ => rfl), hserved]
        rfl
      · rw [modCtxAt, ctxAt_setCtxAt_same, ctxAt_modCoreAt core hserve]
        rfl
      · exact (modCtxAt_shared ..).1.trans (modCoreAt_shared ..).1
      · exact (modCtxAt_shared ..).2.trans (modCoreAt_shared ..).2
    · exact congrArg Host.Outcome.next (releaseWait_unmet hfirst hcount)
    · exact congrArg Host.Outcome.next (releaseWait_none hnone)
  · intro met
    have hmet : watchMet c (watchInst c none s) w s = true ↔ met := by
      simp only [met, watchMet]
      cases w.kind with
      | scratch as v => exact wordMet_scratch_iff ..
      | memory cs v => exact wordMet_memory_iff ..
      | never => exact Bool.false_eq_true.to_iff
      | set k => exact Iff.rfl
    refine ⟨fun h => ?_, fun h => congrArg Host.Outcome.next (postWatch_unmet hw (Bool.eq_false_iff.mpr (mt hmet.mp h)))⟩
    have hpost : ∀ k : Core, (k.post w.flag 1).id = k.id ∧ (k.post w.flag 1).sel = k.sel ∧ (k.post w.flag 1).parked = k.parked :=
      fun _ => ⟨rfl, rfl, rfl⟩
    refine ⟨_, congrArg Host.Outcome.next (postWatch_met hw (hmet.mpr h)), ?_, ?_, ?_, ?_⟩
    · rw [ctxAt_modCoreAt c.core hpost, modCtxAt, ctxAt_setCtxAt_same]
      rfl
    · rw [coreAt_modCoreAt c.core c.core (fun k => (hpost k).1), if_pos rfl, Core.post]
      dsimp only
      rw [coreAt_modCtxAt Core.f (fun _ _ _ => rfl)]
      rfl
    · exact (modCoreAt_shared ..).1.trans (modCtxAt_shared ..).1
    · exact (modCoreAt_shared ..).2.trans (modCtxAt_shared ..).2
  · intro kept
    refine ⟨fun e size hleaf => ?_, fun hfault => ?_⟩
    · intro page
      refine ⟨fun hva hallows => ?_, fun hallows => ?_⟩
      · have hfills : fillTlb core w s = modCoreAt core
            (Core.translates { asid := w.asid, page := page, size := size, pte := e }) s := by
          simp only [fillTlb, hroot, hleaf]
          exact if_pos ⟨hva, hallows⟩
        refine ⟨_, congrArg Host.Outcome.next hfills, cur_modCoreAt .., (modCoreAt_shared ..).1, (modCoreAt_shared ..).2, ?_⟩
        exact (coreAt_modCoreAt core core (f := Core.translates _) (fun _ => rfl) s).trans (if_pos rfl)
      · refine congrArg Host.Outcome.next ?_
        simp only [fillTlb, hroot, hleaf, hallows, Bool.false_eq_true, and_false, if_false]
    · refine congrArg Host.Outcome.next ?_
      simp only [fillTlb, hroot, hfault]

end Sys2Proof.Machine
end

section
/-! Lone instructions of the L slot with nothing to wait for, beside loads and stores (spec/03_bundles.md R25; spec/11_storage.md
R165 to R167). -/
namespace Sys2Proof.Machine

/-! ## Acts beside an operation -/

/-- What is done beside an operation, the queues aside, is an act of a commit. -/
theorem Act.beside {b : Beside} (hqueues : b.queues = id) : Act b.act where
  landed u h := by
    simp only [Beside.act, hqueues]
    exact h
  ids u := (b.ops_act u).2

theorem act_ordered (r : Record) : Act (ordered r) := by
  have heq : ordered r = (Beside.bump (isRelease r) r false).act := funext fun s => bumpFor_eq ..
  rw [heq]
  exact .beside rfl

/-- Without operations of the task, an acquire of a record has nothing to wait for. -/
theorem beginAcquire_idle {s : State} (h : s.taskOps = []) : beginAcquire none s = s := by
  rw [beginAcquire, h]
  rfl

/-- What is done beside an operation, the queues aside, is no operation. -/
theorem Beside.taskOps_act (b : Beside) (s : State) : (b.act s).taskOps = s.taskOps := by
  rw [State.taskOps, (b.ops_act s).1]
  rfl

/-- With no operations of the task, the acquire that follows an act of a bundle has nothing to wait for. -/
theorem acquire_moved {s : State} (hc : clear s = true) {i : Instr} {G : State → State}
    (hops : (G (moved i s)).taskOps = (moved i s).taskOps) (p : Bool) :
    (if p = true then beginAcquire none (G (moved i s)) else G (moved i s)) = G (moved i s) := by
  have hnone : (G (moved i s)).taskOps = [] := hops.trans (clear_taskOps (s := s) hc)
  rw [beginAcquire_idle hnone, ite_self]

/-! ## What a lone bundle does -/

section
variable {i : Instr} {n : BitVec 3} {s : State} (hi : MemoryAccess i n) (hq : quiet s = true) (hc : clear s = true)
  (hl : lone i s = true)
include hi hq hc hl

theorem MemoryAccess.exec_act {F G : State → State} (hr : slotRes (s.nextPc [i]) none i s = .ok F) (hG : Act G)
    (hF : F (moved i s) = G (moved i s)) (hd : pushesOf (rptCount (rptOf [i])) i = []) : exec i s = .next (does i G s) :=
  hG.exec hq hl hr hF hd (hi.serves s) hi.after (inOrder_clear hc i) (hi.issues s)

omit hi in
/-- A cause of an instruction that names no peer. -/
theorem MemoryAccess.exec_trap_own {c : Cause} {a : Word} (hi : MemoryAccess i 0)
    (hr : slotRes (s.nextPc [i]) none i s = .trap c 0 a) (hsoft : c ≠ .softwareTrap) : exec i s = .next (traps i c 0 a s) :=
  (hi.exec_trap hq hc hl hr hsoft).trans (congrArg Host.Outcome.next (trapsAsking_own ..))

/-- A lone bundle that begins an operation, with what it does beside, the queues aside. -/
theorem MemoryAccess.exec_starts_owing {F : State → State} {b : Beside} {o o' : Op} {g : Ctx → Ctx} (hqueues : b.queues = id)
    (hg : Owes o.kind s.die.nextId g) (hsteady : ∀ c : Ctx, c.Landed → (g c).Steady)
    (hr : slotRes (s.nextPc [i]) none i s = .ok F) (ho : overflows [i] i s = false)
    (hF : F (moved i s) = beginLocal o' (b.act (moved i s))) (hsame : o'.blank = o.blank)
    (howner : o.owner = s.curId := by rfl) (hserial : o.serial = s.cur.serial := by rfl) (hafter : o.after = [] := by rfl) :
    exec i s = .next (b.act (begins i o s)) := by
  have hlanded : (b.act (moved i s)).cur.Landed := (Act.beside hqueues).landed _ (landed_moved hq i)
  have hcomm : ∀ u, (b.act u).modCtx g = b.act (u.modCtx g) := by
    intro u
    simp only [Beside.act, hqueues, id]
    rfl
  exact hi.exec_begins hq hc hl hr ho hF hsame howner hserial hafter hg hcomm (hsteady _ hlanded)

/-- One that owes nothing. -/
theorem MemoryAccess.exec_starts {F : State → State} {b : Beside} {o o' : Op} (hqueues : b.queues = id)
    (hfree : ∀ id s, oweFor o.kind id s = s) (hr : slotRes (s.nextPc [i]) none i s = .ok F)
    (ho : overflows [i] i s = false) (hF : F (moved i s) = beginLocal o' (b.act (moved i s))) (hsame : o'.blank = o.blank)
    (howner : o.owner = s.curId := by rfl) (hserial : o.serial = s.cur.serial := by rfl) (hafter : o.after = [] := by rfl) :
    exec i s = .next (b.act (begins i o s)) :=
  hi.exec_starts_owing (g := fun c => c) hq hc hl hqueues ⟨fun s => hfree _ s, fun _ => rfl, fun _ => rfl⟩
    (fun _ h => h.land) hr ho hF hsame howner hserial hafter

end

/-! ## What a lone access of memory or of scratchpad begins -/

/-- What an operation may owe: nothing, or the word of a general register. -/
structure OwesWord (k : OpKind) (id : Nat) (g : Ctx → Ctx) : Prop where
  owes : Owes k id g
  steady : ∀ c : Ctx, c.Landed → (g c).Steady

theorem owesWord_nothing {k : OpKind} (h : ∀ id s, oweFor k id s = s) (id : Nat) : OwesWord k id (fun c => c) :=
  ⟨⟨fun s => h id s, fun _ => rfl, fun _ => rfl⟩, fun _ h => h.land⟩

theorem owesWord_elemLoad (g : BitVec 5) (n : Nat) (signed spec : Bool) (v : Option (Word × Bool)) (id : Nat) :
    OwesWord (.elemLoad g n signed spec v) id (Ctx.awaitsWord g id) :=
  ⟨owes_elemLoad .., fun _ h => h.awaitsWord g id⟩

section
variable {i : Instr} {f : LF} {s : State} (hi : MemoryAccess i f.n) (hq : quiet s = true) (hc : clear s = true)
  (hl : lone i s = true) (ho : overflows [i] i s = false) {r : Record} {t : Int}
include hi hq hc hl ho

/-- An access of memory of the own die begins its operation, as a release first where it is one. -/
theorem MemoryAccess.exec_own {p : AccessPlan} {failed : Xlate → Nat → SlotRes} {g : Ctx → Ctx}
    (hg : OwesWord p.kind s.die.nextId g) (halso : p.also = id)
    (hr : slotRes (s.nextPc [i]) none i s = issuePlan p f r t s failed) (hn : f.n = 0) {cs : List (Option PByte)}
    (hcells : s.cells p.access (kindSpace r) (placeAddrs r (recRun r t p.count)) = .ok cs) : exec i s =
      .next (bumpFor p.release r false (begins i { planOp p f r t s with cells := cs } s)) := by
  rw [bumpFor_eq]
  refine hi.exec_starts_owing (o := { planOp p f r t s with cells := cs }) (o' := { planOp p f r t (moved i s) with cells := cs })
    hq hc hl rfl hg.owes hg.steady (hr.trans (issuePlan_own hc p r t _ hn hcells)) ho ?_ rfl
  rw [halso, bumpFor_eq]
  rfl

/-- An access whose translation fails. -/
theorem MemoryAccess.exec_untranslated {p : AccessPlan} (hr : slotRes (s.nextPc [i]) none i s = issuePlan p f r t s xlateTrap)
    (hn : f.n = 0) {x : Xlate} {va : Nat}
    (hcells : s.cells p.access (kindSpace r) (placeAddrs r (recRun r t p.count)) = .fail x va) :
    exec i s = answersXlate i x va s :=
  hi.exec_xlateTrap hq hc hl hn (hr.trans (issuePlan_fail hc p r t _ hn hcells)) ho

end

end Sys2Proof.Machine
end

section
/-! Records and watches (spec/11_storage.md R176, R178). -/
namespace Sys2Proof.Machine

/-! ## Fields that are replaced -/

/-- A number is made of what lies below a field, the field, and what lies above it. -/
theorem split_field (x lo w : Nat) : x = x % 2 ^ lo + x / 2 ^ lo % 2 ^ w * 2 ^ lo + x / 2 ^ (lo + w) * 2 ^ (lo + w) := by
  have hlow := Nat.div_add_mod x (2 ^ lo)
  have hmid := Nat.div_add_mod (x / 2 ^ lo) (2 ^ w)
  rw [pow_add, ← Nat.div_div_eq_div_mul]
  generalize x / 2 ^ lo / 2 ^ w = c at hmid ⊢
  generalize x / 2 ^ lo % 2 ^ w = b at hmid ⊢
  generalize x % 2 ^ lo = a at hlow ⊢
  rw [← hlow, ← hmid]
  ring

theorem putBits_eq {n lo w : Nat} (h : lo + w ≤ n) (v : Nat) (x : BitVec n) : putBits lo w v x =
    BitVec.ofNat n (x.toNat - x.toNat / 2 ^ lo % 2 ^ w * 2 ^ lo + v % 2 ^ w * 2 ^ lo) := by
  set y := putBits lo w v x with hy
  have hbelow : y.toNat % 2 ^ lo = x.toNat % 2 ^ lo := by
    have hbits := congrArg BitVec.toNat (bits_putBits_other (lo := lo) (w := w) (v := v) (x := x) (l := 0) (m := lo) (by omega))
    rwa [bits_zero_toNat, bits_zero_toNat] at hbits
  have hin : y.toNat / 2 ^ lo % 2 ^ w = v % 2 ^ w := by
    have hbits := congrArg BitVec.toNat (bits_putBits (v := v) (x := x) h)
    rwa [bits_toNat, BitVec.toNat_ofNat] at hbits
  have habove : y.toNat / 2 ^ (lo + w) = x.toNat / 2 ^ (lo + w) := by
    have hbits := congrArg BitVec.toNat
      (bits_putBits_other (lo := lo) (w := w) (v := v) (x := x) (l := lo + w) (m := n) (by omega))
    have hlt : ∀ z : BitVec n, z.toNat / 2 ^ (lo + w) < 2 ^ n := fun z => Nat.lt_of_le_of_lt (Nat.div_le_self ..) z.isLt
    rwa [bits_toNat, bits_toNat, Nat.mod_eq_of_lt (hlt _), Nat.mod_eq_of_lt (hlt _)] at hbits
  have hsplit := split_field x.toNat lo w
  have hvalue : y.toNat = x.toNat - x.toNat / 2 ^ lo % 2 ^ w * 2 ^ lo + v % 2 ^ w * 2 ^ lo := by
    rw [split_field y.toNat lo w, hbelow, hin, habove]
    omega
  exact BitVec.eq_of_toNat_eq (by rw [BitVec.toNat_ofNat, ← hvalue, Nat.mod_eq_of_lt y.isLt])

/-- The upper bits of a word are clear where the word is short. -/
theorem upper_zero_iff {lo w : Nat} (h : lo + w = 64) (v : Word) : (bits lo w v : BitVec w) = 0 ↔ v.toNat < 2 ^ lo := by
  have hlt : v.toNat / 2 ^ lo < 2 ^ w := by
    rw [Nat.div_lt_iff_lt_mul (Nat.two_pow_pos lo), ← pow_add, Nat.add_comm, h]
    exact v.isLt
  rw [← BitVec.toNat_inj, bits_toNat, Nat.mod_eq_of_lt hlt]
  exact Nat.div_eq_zero_iff_lt (Nat.two_pow_pos lo)

/-! ## `recld` and `recst` -/

section
variable {s : State} (hq : quiet s = true) (hc : clear s = true) {f : LF} (ho : gTag f.o s = false)
include hq hc ho

theorem recAddress_clear (k : Word → SlotRes) : recAddress f s k =
    if (gReg f.o s + f.imm.signExtend 64).toNat % 32 ≠ 0 then .trapOf .misalignedOperand
    else k (gReg f.o s + f.imm.signExtend 64) := by
  rw [recAddress, roomFor_clear hc, cleanG_quiet hq, ho]
  rfl

omit hq ho in
theorem issueRec_fail {kind : OpKind} {load : Bool} {a : Word} {x : Xlate} {va : Nat}
    (h : s.cells (if load then .read else .write) none ((List.range 32).map (fun i => some (a.toNat + i))) = .fail x va) :
    issueRec f kind load a s = xlateTrap x va := by
  have hcells : s.cells (if load then .read else .write) none (((List.range 32).map (fun i => a.toNat + i)).map some) = .fail x va := by
    rw [List.map_map]
    exact h
  simp only [issueRec, clear_acquireHeld hc, clear_conflicts hc, hcells, Bool.or_self, Bool.false_eq_true, if_false]

omit hq ho in
theorem issueRec_cells {kind : OpKind} {load : Bool} {a : Word} {cs : List (Option PByte)}
    (h : s.cells (if load then .read else .write) none ((List.range 32).map (fun i => some (a.toNat + i))) = .ok cs) :
    issueRec f kind load a s =
      if load && cellsPoison cs s then .trap .uncorrectable 0 a
      else .ok (fun u => beginLocal { mkOp kind u with
        cells := cs, post := lPost f, space := 0, lo := a.toNat, hi := a.toNat + 32, isRead := load, isWrite := !load } u) := by
  have hcells : s.cells (if load then .read else .write) none (((List.range 32).map (fun i => a.toNat + i)).map some) = .ok cs := by
    rw [List.map_map]
    exact h
  simp only [issueRec, clear_acquireHeld hc, clear_conflicts hc, hcells, Bool.or_self, Bool.false_eq_true, if_false]

end

/-- The record that a load of one owes. -/
def Ctx.awaitsRecord (b : BitVec 4) (id : Nat) (c : Ctx) : Ctx := { c with owed := c.owed ++ [(.b b, id)] }

theorem owes_recLoad (b : BitVec 4) (id : Nat) : Owes (.recLoad b) id (Ctx.awaitsRecord b id) :=
  ⟨fun _ => rfl, fun _ => rfl, fun _ => rfl⟩

theorem Ctx.Landed.awaitsRecord {c : Ctx} (h : c.Landed) (b : BitVec 4) (id : Nat) : (c.awaitsRecord b id).Steady :=
  Ctx.Landed.land ⟨h.pend, h.queues⟩

/-- `recld` or `recst`. -/
def recordInstr (f : LF) (load : Bool) : Instr := if load then .recld f else .recst f

/-- What it is as an operation. -/
def recordKind (f : LF) (load : Bool) (s : State) : OpKind := if load then .recLoad f.b else .recStore s.cur.b[f.b.toNat]

/-- The operation on the 32 bytes from `a`. -/
def recordOp (f : LF) (load : Bool) (a : Word) (cs : List (Option PByte)) (s : State) : Op :=
  { mkOp (recordKind f load s) s with
    cells := cs, post := lPost f, space := 0, lo := a.toNat, hi := a.toNat + 32, isRead := load, isWrite := !load }

theorem memoryAccess_record (f : LF) (load : Bool) : MemoryAccess (recordInstr f load) 0 := by
  cases load with
  | true => exact ({} : MemoryAccess (.recld f) 0)
  | false => exact ({} : MemoryAccess (.recst f) 0)

theorem overflows_record (f : LF) (load : Bool) (s : State) : overflows [recordInstr f load] (recordInstr f load) s = false := by
  cases load with
  | true => exact overflows_none rfl
  | false => exact overflows_none rfl

section
variable {s : State} (hq : quiet s = true) (hc : clear s = true) {f : LF} (ho : gTag f.o s = false) {load : Bool}
include hq hc ho

theorem slot_record (next : Word) : slotRes next none (recordInstr f load) s =
    if (gReg f.o s + f.imm.signExtend 64).toNat % 32 ≠ 0 then .trapOf .misalignedOperand
    else issueRec f (recordKind f load s) load (gReg f.o s + f.imm.signExtend 64) s := by
  cases load with
  | true =>
    change slotRecld f s = _
    rw [slotRecld, quiet_owes hq, if_neg Bool.false_ne_true, recAddress_clear hq hc ho]
    rfl
  | false =>
    change slotRecst f s = _
    rw [slotRecst, needB_quiet hq, recAddress_clear hq hc ho]
    rfl

variable (hl : lone (recordInstr f load) s = true) (ha : (gReg f.o s + f.imm.signExtend 64).toNat % 32 = 0)
include hl

theorem exec_record_misaligned (ha : (gReg f.o s + f.imm.signExtend 64).toNat % 32 ≠ 0) :
    exec (recordInstr f load) s = .next (traps (recordInstr f load) .misalignedOperand 0 0 s) :=
  (memoryAccess_record f load).exec_trap_own hq hc hl ((slot_record hq hc ho _).trans (if_pos ha)) (by decide)

include ha

theorem exec_record_untranslated {x : Xlate} {va : Nat} (h : s.cells (if load then .read else .write) none
      ((List.range 32).map (fun i => some ((gReg f.o s + f.imm.signExtend 64).toNat + i))) = .fail x va) :
    exec (recordInstr f load) s = answersXlate (recordInstr f load) x va s :=
  (memoryAccess_record f load).exec_xlateTrap hq hc hl rfl
    ((slot_record hq hc ho _).trans ((if_neg (not_not.mpr ha)).trans (issueRec_fail hc h))) (overflows_record ..)

variable {cs : List (Option PByte)} (h : s.cells (if load then .read else .write) none
      ((List.range 32).map (fun i => some ((gReg f.o s + f.imm.signExtend 64).toNat + i))) = .ok cs)
include h

theorem exec_record_poisoned (hload : load = true) (hpoison : cellsPoison cs s = true) : exec (recordInstr f load) s =
    .next (traps (recordInstr f load) .uncorrectable 0 (gReg f.o s + f.imm.signExtend 64) s) :=
  (memoryAccess_record f load).exec_trap_own hq hc hl ((slot_record hq hc ho _).trans ((if_neg (not_not.mpr ha)).trans
    ((issueRec_cells hc h).trans (if_pos (by rw [hload, hpoison]; rfl))))) (by decide)

theorem exec_record_begins (hclean : load = true → cellsPoison cs s = false) : exec (recordInstr f load) s =
    .next (begins (recordInstr f load) (recordOp f load (gReg f.o s + f.imm.signExtend 64) cs s) s) := by
  have hnot : (load && cellsPoison cs s) = false := by
    cases load with
    | true => exact hclean rfl
    | false => rfl
  have hslot := (slot_record hq hc ho (load := load) (s.nextPc [recordInstr f load])).trans ((if_neg (not_not.mpr ha)).trans
    ((issueRec_cells hc h).trans (if_neg (Bool.eq_false_iff.mp hnot))))
  have hi := memoryAccess_record f load
  cases load with
  | true =>
    exact hi.exec_begins (b := .nothing) (o := recordOp f true (gReg f.o s + f.imm.signExtend 64) cs s) hq hc hl hslot
      (overflows_record ..) rfl rfl rfl rfl rfl (owes_recLoad ..) (fun _ => rfl) ((landed_moved hq _).awaitsRecord _ _)
  | false =>
    exact hi.exec_starts (b := .nothing) (o := recordOp f false (gReg f.o s + f.imm.signExtend 64) cs s) hq hc hl rfl
      (fun _ _ => rfl) hslot (overflows_record ..) rfl rfl

end

/-! ## `recmk` -/

section
variable (r : Record) (v : Word)

/-- A field of a record is replaced by the low bits of a number. -/
def Record.put (lo w n : Nat) (x : Record) : Record :=
  BitVec.ofNat 256 (x.toNat - x.toNat / 2 ^ lo % 2 ^ w * 2 ^ lo + n % 2 ^ w * 2 ^ lo)

theorem putBits_eq_put {lo w : Nat} (h : lo + w ≤ 256) (n : Nat) (x : Record) : putBits lo w n x = Record.put lo w n x :=
  putBits_eq h n x

theorem put_congr {lo w m n : Nat} (h : m % 2 ^ w = n % 2 ^ w) (x : Record) : Record.put lo w m x = Record.put lo w n x := by
  rw [Record.put, Record.put, h]

theorem recmkValue_cut (h : v.toNat ≤ r.toNat / 2 ^ 64 % 2 ^ 40) : recmkValue 0 r v =
    some (Record.put 64 40 (r.toNat / 2 ^ 64 % 2 ^ 40 - v.toNat) (Record.put 0 64 (r.toNat % 2 ^ 64 + v.toNat) r)) := by
  have hbase : Record.put 0 64 (recBase r + v).toNat r = Record.put 0 64 (r.toNat % 2 ^ 64 + v.toNat) r :=
    put_congr (by rw [BitVec.toNat_add, recBase_toNat, Nat.mod_mod]) r
  rw [← recExtent_toNat] at h
  rw [← hbase, ← recExtent_toNat, ← putBits_eq_put (lo := 0) (by decide), ← putBits_eq_put (lo := 64) (by decide)]
  exact if_neg (Nat.not_lt.mpr h)

theorem recmkValue_cut_none (h : ¬v.toNat ≤ r.toNat / 2 ^ 64 % 2 ^ 40) : recmkValue 0 r v = none := by
  rw [← recExtent_toNat] at h
  exact if_pos (Nat.not_le.mp h)

theorem recmkValue_extent (h : v.toNat < 2 ^ 40) : recmkValue 1 r v = some (Record.put 64 40 v.toNat r) := by
  rw [← putBits_eq_put (by decide)]
  exact if_neg (by rw [(upper_zero_iff (lo := 40) (w := 24) rfl v).mpr h]; decide)

theorem recmkValue_extent_none (h : ¬v.toNat < 2 ^ 40) : recmkValue 1 r v = none :=
  if_pos (bne_iff_ne.mpr (mt (upper_zero_iff (lo := 40) (w := 24) rfl v).mp h))

/-- The low half of a word as a field. -/
theorem putBits_low32 {lo : Nat} (h : lo + 32 ≤ 256) : putBits lo 32 (v.setWidth 32).toNat r = Record.put lo 32 v.toNat r := by
  rw [putBits_eq_put h]
  exact put_congr (by rw [BitVec.toNat_setWidth, Nat.mod_mod]) r

theorem recmkValue_stride0 (h : sext 32 v = v) : recmkValue 2 r v = some (Record.put 104 32 v.toNat r) := by
  rw [← putBits_low32 r v (by decide)]
  exact if_neg (by rw [h, bne_self_eq_false]; decide)

theorem recmkValue_stride0_none (h : ¬sext 32 v = v) : recmkValue 2 r v = none := if_pos (bne_iff_ne.mpr h)

theorem recmkValue_stride1 (h : sext 32 v = v) : recmkValue 3 r v = some (Record.put 136 32 v.toNat r) := by
  rw [← putBits_low32 r v (by decide)]
  exact if_neg (by rw [h, bne_self_eq_false]; decide)

theorem recmkValue_stride1_none (h : ¬sext 32 v = v) : recmkValue 3 r v = none := if_pos (bne_iff_ne.mpr h)

theorem recmkValue_scale (h : v.toNat < 2 ^ 32) : recmkValue 4 r v = some (Record.put 188 32 v.toNat r) := by
  rw [← putBits_eq_put (by decide)]
  exact if_neg (by rw [(upper_zero_iff (lo := 32) (w := 32) rfl v).mpr h]; decide)

theorem recmkValue_scale_none (h : ¬v.toNat < 2 ^ 32) : recmkValue 4 r v = none :=
  if_pos (bne_iff_ne.mpr (mt (upper_zero_iff (lo := 32) (w := 32) rfl v).mp h))

theorem recmkValue_codes (n : Nat) (h : v.toNat < 2 ^ 20) : recmkValue (n + 5) r v = some (Record.put 168 20 v.toNat r) := by
  rw [← putBits_eq_put (by decide)]
  exact if_neg (by rw [(upper_zero_iff (lo := 20) (w := 44) rfl v).mpr h]; decide)

theorem recmkValue_codes_none (n : Nat) (h : ¬v.toNat < 2 ^ 20) : recmkValue (n + 5) r v = none :=
  if_pos (bne_iff_ne.mpr (mt (upper_zero_iff (lo := 20) (w := 44) rfl v).mp h))

end

/-- `recmk` writes the record that its value makes. -/
theorem slotRecmk_quiet {f : LF} {s : State} (hq : quiet s = true) (ho : gTag f.o s = false) : slotRecmk f s =
    match recmkValue (bits 0 3 f.modf : BitVec 3).toNat s.cur.b[(f.imm.setWidth 4 : BitVec 4).toNat] (gReg f.o s) with
    | none => .trapOf .operandValue
    | some r => .ok (State.writeB f.b r) := by
  rw [slotRecmk, quiet_owes hq, if_neg Bool.false_ne_true, needB_quiet hq, cleanG_quiet hq, ho]
  rfl

theorem memoryAccess_recmk (f : LF) : MemoryAccess (.recmk f) 0 := {}

theorem act_writeB (b : BitVec 4) (r : Record) : Act (State.writeB b r) where
  landed _ h := ⟨h.pend, h.queues⟩

section
variable {f : LF} {s : State} (hq : quiet s = true) (hc : clear s = true) (hl : lone (.recmk f) s = true) (ho : gTag f.o s = false)
include hq hc hl ho

theorem exec_recmk {r : Record} (h : recmkValue (bits 0 3 f.modf : BitVec 3).toNat
    s.cur.b[(f.imm.setWidth 4 : BitVec 4).toNat] (gReg f.o s) = some r) :
    exec (.recmk f) s = .next (does (.recmk f) (State.writeB f.b r) s) :=
  (memoryAccess_recmk f).exec_act hq hc hl ((slotRecmk_quiet hq ho).trans (by rw [h])) (act_writeB ..) rfl rfl

theorem exec_recmk_fault (h : recmkValue (bits 0 3 f.modf : BitVec 3).toNat
    s.cur.b[(f.imm.setWidth 4 : BitVec 4).toNat] (gReg f.o s) = none) :
    exec (.recmk f) s = .next (traps (.recmk f) .operandValue 0 0 s) :=
  (memoryAccess_recmk f).exec_trap_own hq hc hl ((slotRecmk_quiet hq ho).trans (by rw [h]; rfl)) (by decide)

end

/-! ## `swait` and `wvis` -/

/-- What arming a watch leaves, or the post at once, the flag then holding `v`. -/
def armed (w : Watch) (met : Bool) (v : BitVec 16) (t : State) : State :=
  if met then setFlag w.flag v t else t.modFlow (fun x => { x with watches := x.watches ++ [w] })

theorem act_armed (w : Watch) (met : Bool) (v : BitVec 16) : Act (armed w met v) := by
  cases met with
  | true => exact act_setFlag w.flag v
  | false => exact .flow (f := fun x => { x with watches := x.watches ++ [w] }) fun _ => ⟨rfl, rfl⟩

theorem armWatch_eq (w : Watch) (met : Bool) (t : State) :
    armWatch w met t = armed w met (BitVec.ofNat 16 (min (t.core.f[w.flag.toNat].toNat + 1) 65535)) t := rfl

theorem armed_ordered (w : Watch) (met : Bool) (v : BitVec 16) (r : Record) (t : State) :
    armed w met v (ordered r t) = ordered r (armed w met v t) := by
  rw [ordered, ordered, bumpFor_eq, bumpFor_eq]
  cases met with
  | true => rfl
  | false => rfl

theorem armed_taskOps (w : Watch) (met : Bool) (v : BitVec 16) (t : State) : (armed w met v t).taskOps = t.taskOps := by
  cases met with
  | true => rfl
  | false => rfl

/-- Passing on to the next bundle changes no memory. -/
theorem sameMemory_moved (i : Instr) (s : State) : SameMemory (moved i s) s := ⟨rfl, rfl, rfl, rfl, rfl, rfl⟩

theorem readCells_moved (i : Instr) (cs : List (Option PByte)) (s : State) : readCells cs (moved i s) = readCells cs s := by
  refine List.map_congr_left fun c _ => ?_
  cases c with
  | none => rfl
  | some p => exact physRead_congr (sameMemory_moved i s) ..

theorem memoryAccess_swait (f : LF) : MemoryAccess (.swait f) 0 := {}

theorem memoryAccess_wvis (f : LF) : MemoryAccess (.wvis f) 0 := {}

/-- A watch of a word is armed, or its post is made, in the order that its record asks for. -/
def arms (f : LF) (r : Record) (k : WatchKind) (u : State) : State :=
  let u := armWatch { kind := k, flag := f.f } (wordMet k u) (bumpFor (isRelease r) r false u)
  if isAcquire r then beginAcquire none u else u

/-- In a commit with nothing to wait for, the watch is armed beside what its record's ORDER does. -/
theorem arms_moved {f : LF} {s : State} (hc : clear s = true) (i : Instr) (r : Record) (k : WatchKind) :
    arms f r k (moved i s) = ordered r (armed { kind := k, flag := f.f } (wordMet k (moved i s))
      (BitVec.ofNat 16 (min (s.core.f[f.f.toNat].toNat + 1) 65535)) (moved i s)) := by
  have hcore : (ordered r (moved i s)).core = s.core := by
    rw [ordered, bumpFor_eq]
    rfl
  have harm : armWatch { kind := k, flag := f.f } (wordMet k (moved i s)) (ordered r (moved i s)) =
      ordered r (armed { kind := k, flag := f.f } (wordMet k (moved i s))
        (BitVec.ofNat 16 (min (s.core.f[f.f.toNat].toNat + 1) 65535)) (moved i s)) := by
    rw [armWatch_eq, hcore, armed_ordered]
  have hops : (ordered r (armed { kind := k, flag := f.f } (wordMet k (moved i s))
      (BitVec.ofNat 16 (min (s.core.f[f.f.toNat].toNat + 1) 65535)) (moved i s))).taskOps = (moved i s).taskOps := by
    rw [ordered, bumpFor_eq, Beside.taskOps_act, armed_taskOps]
  rw [arms]
  change (if isAcquire r then beginAcquire none (armWatch _ _ (ordered r (moved i s))) else armWatch _ _ (ordered r (moved i s))) = _
  rw [harm]
  exact acquire_moved hc (G := fun u => ordered r (armed _ _ _ u)) hops _

section
variable {f : LF} {s : State} (hq : quiet s = true) (hc : clear s = true) (ho : gTag f.o s = false) (hd : gTag f.d s = false)
include hq hc ho hd

theorem slotSwait_clear : slotSwait f s =
    match accessFault s.cur.b[f.b.toNat] false 0 ((gReg f.o s).toInt + f.imm.toInt) 8 8 with
    | some (c, a) => .trap c 0 a
    | none =>
      if 8 ≤ s.cur.flow.watches.countP Watch.isWord then .trapOf .operandValue
      else
        let r := s.cur.b[f.b.toNat]
        let addrs := placeAddrs r (recRun r ((gReg f.o s).toInt + f.imm.toInt) 8)
        if recSpace r = 2 then needBytes addrs s (.ok (arms f r (.scratch addrs (gReg f.d s))))
        else
          match s.cells .read (kindSpace r) addrs with
          | .fail x va => xlateTrap x va
          | .ok cs => .ok (arms f r (.memory cs (gReg f.d s))) := by
  rw [slotSwait, needB_quiet hq, cleanG_quiet hq, ho, needG_quiet hq, hd]
  simp only [clear_orderHeld hc, clear_conflicts hc, Bool.false_eq_true, if_false, poisonLast, Bool.false_and]
  rfl

omit ho hd in
/-- A watch of a word begins, or posts at once. -/
theorem exec_swait_arms (hl : lone (.swait f) s = true) {r : Record} {k : WatchKind} (hslot : slotSwait f s = .ok (arms f r k)) :
    exec (.swait f) s = .next (ordered r (does (.swait f) (armed { kind := k, flag := f.f } (wordMet k (moved (.swait f) s))
      (BitVec.ofNat 16 (min (s.core.f[f.f.toNat].toNat + 1) 65535))) s)) :=
  (memoryAccess_swait f).exec_act hq hc hl hslot ((act_ordered r).comp (act_armed ..)) (arms_moved hc ..) rfl

end

theorem exec_wvis_arms {f : LF} {s : State} (hq : quiet s = true) (hc : clear s = true) (hl : lone (.wvis f) s = true)
    (hok : recordOk s.cur.b[f.b.toNat] false = true) : exec (.wvis f) s = .next (does (.wvis f)
      (armed { kind := .set (recScope s.cur.b[f.b.toNat]), flag := f.f }
        (match s.cur.flow.task with | some t => t.notice || predDone t.inst s | none => true)
        (BitVec.ofNat 16 (min (s.core.f[f.f.toNat].toNat + 1) 65535))) s) := by
  have hslot : slotWvis f s = .ok (fun u => armWatch { kind := .set (recScope s.cur.b[f.b.toNat]), flag := f.f }
      (match u.cur.flow.task with | some t => t.notice || predDone t.inst u | none => true) u) := by
    rw [slotWvis, needB_quiet hq, hok]
    rfl
  exact (memoryAccess_wvis f).exec_act hq hc hl hslot (act_armed ..) rfl rfl

/-! ## Obligation O34 -/

/-- Settles O34, by the cases of each slot. -/
theorem recordsAndWatches : Obligations.RecordsAndWatches := by
  intro f s hq hc ho v a at32 post op record r src put fits made extent counted watches
  have hrecord : ∀ load, record (recordInstr f load) (if load then .read else .write) (recordKind f load s) load := by
    intro load hl
    exact ⟨exec_record_misaligned hq hc ho hl, fun ha => ⟨fun x va h => exec_record_untranslated hq hc ho hl ha h,
      fun cs h hclean => exec_record_begins hq hc ho hl ha h hclean,
      fun hload cs h hpoison => exec_record_poisoned hq hc ho hl ha h hload hpoison⟩⟩
  refine ⟨hrecord true, hrecord false, fun hl => ?_, fun hl hd => ?_, fun hl => ?_⟩
  · have hmade : ∀ (ok : Prop) (x : Record), (ok → recmkValue (bits 0 3 f.modf : BitVec 3).toNat src v = some x) →
        (¬ok → recmkValue (bits 0 3 f.modf : BitVec 3).toNat src v = none) → made ok x := fun ok x hsome hnone =>
      ⟨fun h => exec_recmk hq hc hl ho (hsome h), fun h => exec_recmk_fault hq hc hl ho (hnone h)⟩
    generalize (bits 0 3 f.modf : BitVec 3).toNat = mode at hmade
    match mode with
    | 0 => exact hmade _ _ (recmkValue_cut src v) (recmkValue_cut_none src v)
    | 1 => exact hmade _ _ (recmkValue_extent src v) (recmkValue_extent_none src v)
    | 2 => exact hmade _ _ (recmkValue_stride0 src v) (recmkValue_stride0_none src v)
    | 3 => exact hmade _ _ (recmkValue_stride1 src v) (recmkValue_stride1_none src v)
    | 4 => exact hmade _ _ (recmkValue_scale src v) (recmkValue_scale_none src v)
    | n + 5 => exact hmade _ _ (recmkValue_codes src v n) (recmkValue_codes_none src v n)
  · intro t addrs limit
    have hi := memoryAccess_swait f
    have hslot : slotRes (s.nextPc [.swait f]) none (.swait f) s = _ := slotSwait_clear hq hc ho hd
    refine ⟨fun c x hfault => ?_, fun hfault => ⟨fun hfull => ?_, fun hroom => ⟨fun hspace hheld => ?_, fun hspace =>
      ⟨fun x va hcells => ?_, fun cs hcells => ?_⟩⟩⟩⟩
    · exact hi.exec_trap_own hq hc hl (hslot.trans (by rw [hfault])) (accessFault_cause hfault)
    · rw [hfault] at hslot
      exact hi.exec_trap_own hq hc hl (hslot.trans (if_pos hfull)) (by decide)
    · rw [hfault] at hslot
      have harms := hslot.trans ((if_neg (Nat.not_le.mpr hroom)).trans ((if_pos hspace).trans (needBytes_clear hc hheld _)))
      exact exec_swait_arms hq hc hl harms
    · rw [hfault] at hslot
      have hfails := hslot.trans ((if_neg (Nat.not_le.mpr hroom)).trans ((if_neg hspace).trans (by rw [hcells])))
      exact hi.exec_xlateTrap hq hc hl rfl hfails (overflows_none rfl)
    · rw [hfault] at hslot
      have harms := hslot.trans ((if_neg (Nat.not_le.mpr hroom)).trans ((if_neg hspace).trans (by rw [hcells])))
      have hmet : wordMet (.memory cs limit) (moved (.swait f) s) =
          (!cellsPoison cs s && decide (limit.toNat ≤ leNat (readCells cs s))) := by
        rw [wordMet_memory, readCells_moved]
        rfl
      rw [exec_swait_arms hq hc hl harms, hmet]
      rfl
  · refine ⟨fun hbad => ?_, fun hok => exec_wvis_arms hq hc hl hok⟩
    have hslot : slotWvis f s = .trapOf .operandValue := by
      rw [slotWvis, needB_quiet hq, hbad]
      rfl
    exact (memoryAccess_wvis f).exec_trap_own hq hc hl hslot (by decide)

end Sys2Proof.Machine
end

section
/-! Atomics and signals (spec/11_storage.md R177, R178; spec/15_ordering.md R223; spec/21_tasks.md R334). -/
namespace Sys2Proof.Machine

/-! ## What an atomic leaves in its word -/

theorem signedOf_eq_toInt {w x : Nat} (hpos : 0 < w) (hx : x < 2 ^ w) : signedOf w x = (BitVec.ofNat w x).toInt := by
  have hhalf : 2 ^ w = 2 * 2 ^ (w - 1) := (mul_pow_sub_one (Nat.ne_of_gt hpos) 2).symm
  have hiff : 2 * x < 2 ^ w ↔ x < 2 ^ (w - 1) := by omega
  rw [BitVec.toInt_eq_toNat_cond, BitVec.toNat_ofNat, Nat.mod_eq_of_lt hx, signedOf]
  simp only [hiff, Nat.cast_pow, Nat.cast_ofNat]

/-- The order in which an atomic compares. -/
def wordLess (un : Bool) (w x y : Nat) : Bool :=
  if un then decide (x < y) else (BitVec.ofNat w x).slt (BitVec.ofNat w y)

theorem wordLess_iff {un : Bool} {w x y : Nat} (hpos : 0 < w) (hx : x < 2 ^ w) (hy : y < 2 ^ w) :
    wordLess un w x y = true ↔ if un then x < y else signedOf w x < signedOf w y := by
  cases un with
  | true => exact decide_eq_true_iff
  | false => rw [signedOf_eq_toInt hpos hx, signedOf_eq_toInt hpos hy]; exact BitVec.slt_iff_toInt_lt

theorem amoValue_eq {op : BitVec 3} {un : Bool} {w old a : Nat} (hpos : 0 < w) (ho : old < 2 ^ w) (ha : a < 2 ^ w)
    (hop : op.toNat < 6) : amoValue op un w old a = match op.toNat with
      | 0 => (old + a) % 2 ^ w
      | 1 => if wordLess un w old a then old else a
      | 2 => if wordLess un w old a then a else old
      | 3 => a
      | 4 => (BitVec.ofNat w old &&& BitVec.ofNat w a).toNat
      | _ => (BitVec.ofNat w old ||| BitVec.ofNat w a).toNat := by
  have hless := wordLess_iff (un := un) hpos ho ha
  have hand : (BitVec.ofNat w old &&& BitVec.ofNat w a).toNat = old &&& a := by
    rw [BitVec.toNat_and, BitVec.toNat_ofNat, BitVec.toNat_ofNat, Nat.mod_eq_of_lt ho, Nat.mod_eq_of_lt ha]
  have hor : (BitVec.ofNat w old ||| BitVec.ofNat w a).toNat = old ||| a := by
    rw [BitVec.toNat_or, BitVec.toNat_ofNat, BitVec.toNat_ofNat, Nat.mod_eq_of_lt ho, Nat.mod_eq_of_lt ha]
  unfold amoValue
  generalize op.toNat = n at hop ⊢
  match n, hop with
  | 0, _ => rfl
  | 1, _ => exact if_congr hless.symm rfl rfl
  | 2, _ => exact if_congr hless.symm rfl rfl
  | 3, _ => rfl
  | 4, _ => exact hand.symm
  | 5, _ => exact hor.symm

theorem eight_mul_amoBytes (wide : Bool) : 8 * amoBytes wide = if wide then 64 else 32 := by
  cases wide with
  | true => rfl
  | false => rfl

/-! ## Atomics -/

/-- `amo` or `amoc`. -/
def atomicInstr (f : LF) (amo : Bool) : Instr := if amo then .amo f else .amoc f

/-- The instruction brings no value. -/
def atomicSilent (f : LF) (amo : Bool) : Bool := amo && f.modf.getLsbD 5

def atomicKind (f : LF) (amo : Bool) (s : State) : OpKind :=
  if amo then .amo f.d (bits 0 3 f.modf) (f.modf.getLsbD 3) (f.modf.getLsbD 4) (atomicSilent f amo) (gReg f.d s)
  else .amoc f.d (f.modf.getLsbD 4) (gReg f.d s) (gReg (f.imm.setWidth 5) s)

/-- What completes where the word has been read at issue. -/
def atomicLanding (f : LF) (amo : Bool) (old : Nat) : OpKind :=
  if atomicSilent f amo then .posted else .elemLoad f.d 8 false false (some (BitVec.ofNat 64 old, false))

/-- The requests of an atomic to a peer. -/
def atomicRequests (f : LF) (amo : Bool) (s : State) (q : Packet) : List (Nat × Nat) → List (Packet × Nat) :=
  if amo then
    atomicReqs { q with
      type := 3, opa := gReg f.d s,
      aux := (if atomicSilent f amo then 0x80 else 0) ||| (if f.modf.getLsbD 3 then 0x40 else 0) |||
        (if f.modf.getLsbD 4 then 0x20 else 0) ||| (bits 0 3 f.modf : BitVec 3).setWidth 8 } (amoBytes (f.modf.getLsbD 4))
  else
    atomicReqs { q with
      type := 4, opa := gReg f.d s, opb := gReg (f.imm.setWidth 5) s,
      aux := if f.modf.getLsbD 4 then 0x20 else 0 } (amoBytes (f.modf.getLsbD 4))

/-- What an atomic on memory or of a peer is. -/
def atomicPlan (f : LF) (amo : Bool) (r : Record) (s : State) : AccessPlan :=
  { kind := atomicKind f amo s, count := amoBytes (f.modf.getLsbD 4), access := .atomic, isRead := true, isWrite := true,
    release := isRelease r, reqs := atomicRequests f amo s, also := id }

/-- The slot of an atomic through the record `r` at the offset `t`, once it waits for nothing. -/
def atomicAt (f : LF) (amo : Bool) (r : Record) (t : Int) (s : State) : SlotRes :=
  match accessFault r (f.n != 0) 0 t (amoBytes (f.modf.getLsbD 4)) (amoBytes (f.modf.getLsbD 4)) with
  | some (c, a) => .trap c 0 a
  | none =>
    let addrs := placeAddrs r (recRun r t (amoBytes (f.modf.getLsbD 4)))
    if amoClamped addrs then atomicNothing (atomicLanding f amo 0) f r (f.n != 0)
    else if recSpace r = 2 then
      atomicScratch f (atomicKind f amo s) (atomicLanding f amo (scratchNum addrs s)) t addrs r (isRelease r) (scratchNum addrs s) s
    else issuePlan (atomicPlan f amo r s) f r t s xlateTrap

theorem poisonLast_clean (k : SlotRes) : poisonLast false k = k := rfl

theorem slot_atomic {f : LF} {amo : Bool} {s : State} (hq : quiet s = true) (hc : clear s = true) (ho : gTag f.o s = false)
    (hd : gTag f.d s = false) (hnew : amo = false → gTag (f.imm.setWidth 5) s = false) (next : Word) :
    slotRes next none (atomicInstr f amo) s =
      atomicAt f amo s.cur.b[f.b.toNat] ((gReg f.o s).toInt + if amo then f.imm.toInt else 0) s := by
  cases amo with
  | true =>
    change slotAmo f s = _
    rw [slotAmo, lRecord_clear hq hc, ho, needG_quiet hq, hd, poisonLast_clean]
    simp only [clear_orderHeld hc, Bool.false_eq_true, if_false]
    rfl
  | false =>
    change slotAmoc f s = _
    rw [slotAmoc, lRecord_clear hq hc, ho, needG_quiet hq, hd, needG_quiet hq, hnew rfl, Bool.or_self, poisonLast_clean]
    simp only [clear_orderHeld hc, Bool.false_eq_true, if_false]
    rfl

theorem memoryAccess_atomic (f : LF) (amo : Bool) : MemoryAccess (atomicInstr f amo) f.n := by
  cases amo with
  | true => exact ({} : MemoryAccess (.amo f) f.n)
  | false => exact ({} : MemoryAccess (.amoc f) f.n)

theorem overflows_atomic (f : LF) (amo : Bool) (s : State) : overflows [atomicInstr f amo] (atomicInstr f amo) s = false := by
  cases amo with
  | true =>
    by_cases hsilent : f.modf.getLsbD 5 = true
    · exact overflows_none (pushesOf_nil (if_pos hsilent))
    · exact overflows_none (pushesOf_gDest (r := f.d) (if_neg hsilent))
  | false => exact overflows_none (pushesOf_gDest (r := f.d) rfl)

/-- What an atomic owes. -/
def atomicOwes (f : LF) (amo : Bool) (id : Nat) : Ctx → Ctx := if atomicSilent f amo then fun c => c else Ctx.awaitsWord f.d id

theorem owesWord_landing (f : LF) (amo : Bool) (old id : Nat) : OwesWord (atomicLanding f amo old) id (atomicOwes f amo id) := by
  unfold atomicLanding atomicOwes
  cases atomicSilent f amo with
  | true => exact owesWord_nothing (k := .posted) (fun _ _ => rfl) id
  | false => exact owesWord_elemLoad ..

/-- An atomic owes what a load of its register does. -/
theorem owesWord_atomic (f : LF) (amo : Bool) (s : State) (id : Nat) :
    OwesWord (atomicKind f amo s) id (atomicOwes f amo id) := by
  have hland := owesWord_landing f amo 0 id
  have heq : ∀ t, oweFor (atomicKind f amo s) id t = oweFor (atomicLanding f amo 0) id t := by
    intro t
    cases amo with
    | true =>
      unfold atomicKind atomicLanding
      cases atomicSilent f true with
      | true => rfl
      | false => rfl
    | false => rfl
  obtain ⟨⟨howes, hflow, hsys⟩, hsteady⟩ := hland
  exact ⟨⟨fun t => (heq t).trans (howes t), hflow, hsys⟩, hsteady⟩

/-! ## What a lone atomic on scratchpad does -/

/-- The operation that stands for an atomic performed when it issues. -/
def landingOp (k : OpKind) (f : LF) (r : Record) (s : State) : Op :=
  { mkOp k s with record := r, post := lPost f, isRead := true, isWrite := true }

/-- The bytes that an atomic leaves are stored, where it leaves any. -/
def Beside.leaves (addrs : List (Option Nat)) : Option (List Byte) → Beside
  | some bs => .store addrs bs
  | none => .nothing

theorem leaves_queues (addrs : List (Option Nat)) (o : Option (List Byte)) : (Beside.leaves addrs o).queues = id := by
  cases o with
  | some bs => rfl
  | none => rfl

theorem leaves_eq (addrs : List (Option Nat)) (o : Option (List Byte)) (s : State) :
    (match o with | some bs => writeScratch addrs bs s | none => s) = (Beside.leaves addrs o).act s := by
  cases o with
  | some bs => exact writeScratch_eq ..
  | none => rfl

section
variable {i : Instr} {n : BitVec 3} {s : State} (hi : MemoryAccess i n) (hq : quiet s = true) (hc : clear s = true)
  (hl : lone i s = true) (ho : overflows [i] i s = false) {f : LF} {r : Record} {landing : OpKind} {g : Ctx → Ctx}
  (hg : OwesWord landing s.die.nextId g)
include hi hq hc hl ho hg

/-- An atomic on scratchpad is performed when it issues. -/
theorem exec_atomicScratch {kind : OpKind} {t : Int} {addrs : List (Option Nat)} {release : Bool} {old : Nat}
    (hr : slotRes (s.nextPc [i]) none i s = atomicScratch f kind landing t addrs r release old s)
    (hheld : s.spHeld (named addrs) = false) : exec i s = .next
      (let u := bumpFor release r false (begins i (landingOp landing f r s) s)
       match atomicBytes kind old with | some bs => writeScratch addrs bs u | none => u) := by
  let b := (Beside.leaves addrs (atomicBytes kind old)).comp (.bump release r false)
  have hacts : ∀ u, (let u := bumpFor release r false u
      match atomicBytes kind old with | some bs => writeScratch addrs bs u | none => u) = b.act u := by
    intro u
    dsimp only
    rw [leaves_eq, bumpFor_eq]
    rfl
  have hqueues : b.queues = id := congrArg (· ∘ id) (leaves_queues ..)
  rw [atomicScratch, needBytes_clear hc hheld] at hr
  rw [hacts]
  refine hi.exec_starts_owing (o := landingOp landing f r s) (o' := landingOp landing f r (b.act (moved i s))) hq hc hl hqueues
    hg.owes hg.steady hr ho ?_ rfl
  rw [scratchAccess_moved hc]
  exact congrArg (fun u => beginLocal (landingOp landing f r u) u) (hacts (moved i s))

/-- An atomic of which a part is clamped away touches nothing. -/
theorem exec_atomicNothing {remote : Bool} (hr : slotRes (s.nextPc [i]) none i s = atomicNothing landing f r remote) :
    exec i s = .next (bumpFor (isRelease r) r remote (begins i (landingOp landing f r s) s)) := by
  rw [bumpFor_eq]
  refine hi.exec_starts_owing (o := landingOp landing f r s) (o' := landingOp landing f r (moved i s)) hq hc hl rfl hg.owes
    hg.steady hr ho ?_ rfl
  rw [bumpFor_eq]
  rfl

end

/-- An access that names a peer is none of scratchpad. -/
theorem accessFault_peer {r : Record} {n : BitVec 3} {fe : BitVec 2} {t : Int} {k align : Nat}
    (h : accessFault r (n != 0) fe t k align = none) (hn : n ≠ 0) : recSpace r ≠ 2 := by
  intro hspace
  have hok : recordOk r (n != 0) = true := by
    by_contra hbad
    rw [accessFault_eq, if_pos (Bool.eq_false_iff.mpr hbad)] at h
    exact Option.some_ne_none _ h
  obtain ⟨-, -, -, -, -, -, -, -, -, hheap⟩ := (recordOk_iff r _).mp hok
  have hthree := (recSpace_eq_iff r (k := 3) (by decide)).mpr (hheap (bne_iff_ne.mpr hn))
  rw [hspace] at hthree
  exact absurd hthree (by decide)

/-! ## Signals -/

/-- What a signal on memory or of a peer is. -/
def signalPlan (f : LF) (s : State) : AccessPlan :=
  { kind := .signal (f.modf.getLsbD 0) (gReg f.d s), count := 8, access := .write, isRead := false, isWrite := true,
    release := true, also := id,
    reqs := fun q => atomicReqs { q with type := if f.modf.getLsbD 0 then 6 else 5, opa := gReg f.d s } 8 }

theorem slot_signal {f : LF} {s : State} (hq : quiet s = true) (hc : clear s = true) (ho : gTag f.o s = false)
    (hd : gTag f.d s = false) : slotSsig f s =
      if s.isRebuild then .ok (fun u => beginLocal { mkOp .posted u with post := lPost f, isWrite := true } u)
      else
        match accessFault s.cur.b[f.b.toNat] (f.n != 0) 0 ((gReg f.o s).toInt + f.imm.toInt) 8 8 with
        | some (c, a) => .trap c 0 a
        | none =>
          let r := s.cur.b[f.b.toNat]
          let addrs := placeAddrs r (recRun r ((gReg f.o s).toInt + f.imm.toInt) 8)
          if recSpace r = 2 then
            atomicScratch f (.signal (f.modf.getLsbD 0) (gReg f.d s)) .posted ((gReg f.o s).toInt + f.imm.toInt) addrs r true
              (scratchNum addrs s) s
          else issuePlan (signalPlan f s) f r ((gReg f.o s).toInt + f.imm.toInt) s xlateTrap := by
  rw [slotSsig, lRecord_clear hq hc, ho, needG_quiet hq, hd, poisonLast_clean]
  simp only [clear_orderHeld hc, Bool.false_eq_true, if_false]
  rfl

theorem memoryAccess_ssig (f : LF) : MemoryAccess (.ssig f) f.n := {}

theorem overflows_ssig (f : LF) (s : State) : overflows [.ssig f] (.ssig f) s = false := overflows_none rfl

theorem owesWord_signal (add : Bool) (v : Word) (id : Nat) : OwesWord (.signal add v) id (fun c => c) :=
  owesWord_nothing (fun _ _ => rfl) id

/-! ## Obligation O35 -/

/-- Settles O35, by the cases of each slot once it waits for nothing: a fault known at issue, bytes that are clamped away or a
rebuild, scratchpad, memory, a peer; and by the operations of an atomic. -/
theorem atomicsAndSignals : Obligations.AtomicsAndSignals := by
  refine ⟨fun f s amo hq hc ho hd hnew => ?_, fun f s hq hc ho hd hl => ?_, fun g op un wide nr arg cmp new old => ?_⟩
  · intro i hl r t wide n silent kind addrs old landing post fault clamped nothing
    have hi : MemoryAccess i f.n := memoryAccess_atomic f amo
    have hover : overflows [i] i s = false := overflows_atomic f amo s
    have hkind : kind = atomicKind f amo s := by
      cases amo with
      | true => rfl
      | false => rfl
    have hslot : slotRes (s.nextPc [i]) none i s = atomicAt f amo r t s := slot_atomic hq hc ho hd hnew _
    have hfaults : accessFault r (f.n != 0) 0 t (amoBytes (f.modf.getLsbD 4)) (amoBytes (f.modf.getLsbD 4)) = fault := rfl
    rw [atomicAt, hfaults] at hslot
    have hwhole : fault = none → clamped = false → slotRes (s.nextPc [i]) none i s =
        if recSpace r = 2 then atomicScratch f (atomicKind f amo s) (atomicLanding f amo old) t addrs r (isRelease r) old s
        else issuePlan (atomicPlan f amo r s) f r t s xlateTrap := fun hfault hclamped => by
      rw [hfault] at hslot
      exact hslot.trans (if_neg (Bool.eq_false_iff.mp hclamped))
    have hplan : fault = none → clamped = false → recSpace r ≠ 2 →
        slotRes (s.nextPc [i]) none i s = issuePlan (atomicPlan f amo r s) f r t s xlateTrap := fun hfault hclamped hspace =>
      (hwhole hfault hclamped).trans (if_neg hspace)
    refine ⟨fun c a hfault => ?_, fun hfault hclamped => ?_, fun hfault hclamped hspace hheld => ?_,
      fun hfault hclamped hspace hown => ⟨fun x va hcells => ?_, fun cs hcells => ?_⟩, fun hfault hclamped hpeer => ?_⟩
    · rw [hfault] at hslot
      exact hi.exec_trap hq hc hl hslot (accessFault_cause hfault)
    · rw [hfault] at hslot
      exact exec_atomicNothing hi hq hc hl hover (owesWord_landing f amo 0 _) (hslot.trans (if_pos hclamped))
    · rw [hkind]
      exact exec_atomicScratch hi hq hc hl hover (owesWord_landing f amo _ _)
        ((hwhole hfault hclamped).trans (if_pos hspace)) hheld
    · exact hi.exec_untranslated hq hc hl hover (hplan hfault hclamped hspace) hown hcells
    · rw [hkind]
      exact hi.exec_own hq hc hl hover (owesWord_atomic f amo s _) rfl (hplan hfault hclamped hspace) hown hcells
    · have hspace : recSpace r ≠ 2 := fun hspace => accessFault_peer hfault hpeer hspace
      exact ⟨hi.exec_unslotted hq hc hl (hplan hfault hclamped hspace) hpeer,
        fun hfree => hi.exec_peer (b := .nothing) hq hc hl (hplan hfault hclamped hspace) hpeer hfree (fun _ => rfl)
          (owesWord_atomic f amo s _).owes hover⟩
  · intro r t addrs add post fault
    have hi := memoryAccess_ssig f
    have hover := overflows_ssig f s
    have hslot : slotRes (s.nextPc [.ssig f]) none (.ssig f) s = _ := slot_signal hq hc ho hd
    have hfaults : accessFault s.cur.b[f.b.toNat] (f.n != 0) 0 ((gReg f.o s).toInt + f.imm.toInt) 8 8 = fault := rfl
    rw [hfaults] at hslot
    have hplain := fun hrebuild : s.isRebuild = false => hslot.trans (if_neg (Bool.eq_false_iff.mp hrebuild))
    have hscratch : fault = none → s.isRebuild = false → recSpace r = 2 → slotRes (s.nextPc [.ssig f]) none (.ssig f) s =
        atomicScratch f (.signal add (gReg f.d s)) .posted t addrs r true (scratchNum addrs s) s :=
      fun hfault hrebuild hspace => (hplain hrebuild).trans (by
        rw [hfault]
        exact if_pos hspace)
    have hplan : fault = none → s.isRebuild = false → recSpace r ≠ 2 →
        slotRes (s.nextPc [.ssig f]) none (.ssig f) s = issuePlan (signalPlan f s) f r t s xlateTrap :=
      fun hfault hrebuild hspace => (hplain hrebuild).trans (by
        rw [hfault]
        exact if_neg hspace)
    refine ⟨fun hrebuild c a hfault => ?_, fun hrebuild => ?_, fun hfault hrebuild hspace hheld => ?_,
      fun hfault hrebuild hspace hown => ⟨fun x va hcells => ?_, fun cs hcells => ?_⟩, fun hfault hrebuild hpeer => ?_⟩
    · refine hi.exec_trap hq hc hl ((hplain hrebuild).trans ?_) (accessFault_cause hfault)
      rw [hfault]
    · exact hi.exec_starts (b := .nothing) (o := { mkOp .posted s with post := lPost f, isWrite := true }) hq hc hl rfl
        (fun _ _ => rfl) (hslot.trans (if_pos hrebuild)) hover rfl rfl
    · exact exec_atomicScratch hi hq hc hl hover (owesWord_nothing (k := .posted) (fun _ _ => rfl) _)
        (hscratch hfault hrebuild hspace) hheld
    · exact hi.exec_untranslated hq hc hl hover (hplan hfault hrebuild hspace) hown hcells
    · exact hi.exec_own hq hc hl hover (owesWord_signal ..) rfl (hplan hfault hrebuild hspace) hown hcells
    · have hspace : recSpace r ≠ 2 := fun hspace => accessFault_peer hfault hpeer hspace
      exact ⟨hi.exec_unslotted hq hc hl (hplan hfault hrebuild hspace) hpeer,
        fun hfree => hi.exec_peer (b := .nothing) hq hc hl (hplan hfault hrebuild hspace) hpeer hfree (fun _ => rfl)
          (owesWord_signal ..).owes hover⟩
  · intro w a less hold hop
    have hw : 8 * amoBytes wide = w := eight_mul_amoBytes wide
    have hpos : 0 < w := by
      rw [← hw]
      cases wide with
      | true => decide
      | false => decide
    refine ⟨?_, ?_⟩
    · have hvalue := amoValue_eq (un := un) hpos hold (Nat.mod_lt arg.toNat (Nat.two_pow_pos w)) hop
      rw [atomicBytes]
      rw [hw, hvalue]
      rfl
    · rw [atomicBytes]
      rw [hw]
      rfl

end Sys2Proof.Machine
end

section
/-! Tile, row and block transfers (spec/11_storage.md R165, R169 to R172). -/
namespace Sys2Proof.Machine

/-! ## The issue of an engine operation -/

/-- The operation that an engine plan begins. -/
def engineOp (p : EnginePlan) (f : LF) (r : Record) (t : Int) (s : State) : Op :=
  { recOp p.kind f r t (placeAddrs r p.places) s with isRead := p.isRead, isWrite := p.isWrite }

/-- A line is tagged. -/
def Beside.tag (e : Nat) (v : BitVec 64) : Beside where
  cluster c := { c with tags := smSet 0 c.tags e v }
  die := id
  queues := id
  ops _ _ _ := rfl

section
variable {s : State} (hc : clear s = true) {p : EnginePlan} {f : LF} {r : Record}
  (hheld : s.spHeld (p.scratch ++ if recSpace r = 2 then named (placeAddrs r p.places) else []) = false) (t : Int)
include hc hheld

theorem issueEngine_own (hn : f.n = 0) : issueEngine p f r t s = .ok (fun u =>
    let u := bumpFor (isRelease r) r false (p.also u)
    beginLocal { engineOp p f r t u with alt := copyRange (engineOp p f r t u) } u) := by
  simp only [issueEngine, clear_conflicts hc, hheld, hn, ne_eq, not_true_eq_false, decide_false, Bool.false_and,
    Bool.false_eq_true, if_false]
  rfl

theorem issueEngine_peer (hn : f.n ≠ 0) : issueEngine p f r t s =
    if freeSlots s.cur = 0 then .engine
    else .ok (fun u =>
      let u := bumpFor (isRelease r) r true (p.also u)
      let o := engineOp p f r t u
      beginRemote o (s.readN f.n) (p.reqs (requestOf o (s.readN f.n) u) (heapBytes r p.places)) u) := by
  simp only [issueEngine, clear_conflicts hc, hheld, ne_eq, hn, not_false_eq_true, decide_true, Bool.true_and, decide_eq_true_eq,
    Bool.false_eq_true, if_false, if_true]
  rw [show (f.n != 0) = true from bne_iff_ne.mpr hn]
  rfl

/-- A slot that an engine plan ends waits for a response slot alone, or for nothing. -/
theorem issueEngine_waits (h : (issueEngine p f r t s).waits = true) : f.n ≠ 0 ∧ freeSlots s.cur = 0 := by
  by_cases hn : f.n = 0
  · rw [issueEngine_own hc hheld t hn] at h
    exact absurd h (by simp [SlotRes.waits])
  · refine ⟨hn, ?_⟩
    rw [issueEngine_peer hc hheld t hn] at h
    by_contra hfree
    rw [if_neg hfree] at h
    exact absurd h (by simp [SlotRes.waits])

end

/-- An operation that copies no memory of the own die keeps no alternative range. -/
theorem engineOp_alt {p : EnginePlan} {f : LF} {r : Record} {t : Int} {s : State} (h : copyRange (engineOp p f r t s) = none) :
    { engineOp p f r t s with alt := copyRange (engineOp p f r t s) } = engineOp p f r t s := by
  rw [h]
  rfl

section
variable {i : Instr} {f : LF} {s : State} (hi : MemoryAccess i f.n) (hq : quiet s = true) (hc : clear s = true)
  (hl : lone i s = true) {p : EnginePlan} {r : Record} {t : Int}
  (hheld : s.spHeld (p.scratch ++ if recSpace r = 2 then named (placeAddrs r p.places) else []) = false)
include hi hq hc hl hheld

/-- How a lone engine operation issues: from the own die it begins, a peer is asked once a response slot is free. -/
theorem MemoryAccess.exec_engineOp (hr : slotRes (s.nextPc [i]) none i s = issueEngine p f r t s)
    (ho : overflows [i] i s = false) (hfree : ∀ id s, oweFor p.kind id s = s) {b : Beside} (hqueues : b.queues = id)
    (halso : p.also (moved i s) = b.act (moved i s)) :
    ((f.n != 0) = false → exec i s = .next (ordered r (b.act (begins i
      { engineOp p f r t s with alt := copyRange (engineOp p f r t s) } s)))) ∧
    ((f.n != 0) = true → freeSlots s.cur = 0 → exec i s = .next (waitEngine s)) ∧
    ((f.n != 0) = true → freeSlots s.cur ≠ 0 → asksPeer i s) := by
  have hacts : ∀ remote, bumpFor (isRelease r) r remote (p.also (moved i s)) =
      ((Beside.bump (isRelease r) r remote).comp b).act (moved i s) := by
    intro remote
    rw [halso, bumpFor_eq, Beside.act_comp]
  refine ⟨fun hn => ?_, fun hn hslots => ?_, fun hn hslots => ?_⟩
  · have hn := bne_eq_false_iff_eq.mp hn
    rw [ordered, bumpFor_eq, ← Beside.act_comp]
    refine hi.exec_starts (b := (Beside.bump (isRelease r) r false).comp b)
      (o' := { engineOp p f r t (moved i s) with alt := copyRange (engineOp p f r t (moved i s)) }) hq hc hl
      (congrArg (id ∘ ·) hqueues) hfree (hr.trans (issueEngine_own hc hheld t hn)) ho ?_ rfl
    dsimp only
    rw [hacts]
    rfl
  · rw [issueEngine_peer hc hheld t (bne_iff_ne.mp hn), if_pos hslots] at hr
    exact hi.exec_engine hq hc hl hr
  · rw [issueEngine_peer hc hheld t (bne_iff_ne.mp hn), if_neg hslots] at hr
    exact hi.exec_asks (b := (Beside.bump (isRelease r) r true).comp b) (f := fun c => c)
      (o := engineOp p f r t (bumpFor (isRelease r) r true (p.also (moved i s)))) hq hc hl hr ho
      (by rw [← hacts]; exact ⟨_, _, rfl⟩) (by rw [hacts]; rfl) (by rw [hacts]; rfl)
      ⟨fun s => hfree _ s, fun _ => rfl, fun _ => rfl⟩ hslots

/-- A poisoned source of an engine operation traps once the slot waits for nothing. -/
theorem MemoryAccess.exec_engine_poisoned (hr : slotRes (s.nextPc [i]) none i s = poisonLast true (issueEngine p f r t s)) :
    exec i s = .next (trapsAsking i (f.n != 0) .poison 0 s) := by
  cases hwaits : (issueEngine p f r t s).waits with
  | false =>
    rw [poisonLast_tagged hwaits] at hr
    exact hi.exec_trap hq hc hl hr (by decide)
  | true =>
    obtain ⟨hn, hslots⟩ := issueEngine_waits hc hheld t hwaits
    rw [poisonLast_waits hwaits, issueEngine_peer hc hheld t hn, if_pos hslots] at hr
    rw [hi.exec_engine hq hc hl hr, trapsAsking, hslots, bne_iff_ne.mpr hn]
    rfl

end

/-! ## How a lone transfer ends -/

/-- The lone transfer traps, once a response slot is free where it names a peer. -/
def Stops (i : Instr) (n : BitVec 3) (c : Cause) (a : Word) (s : State) : Prop :=
  lone i s = true → exec i s = .next (trapsAsking i (n != 0) c a s)

/-- The lone transfer leads to `after` on the own die, and asks a peer once a response slot is free. -/
def Answers (i : Instr) (n : BitVec 3) (after s : State) : Prop :=
  lone i s = true → ((n != 0) = false → exec i s = .next after) ∧
    ((n != 0) = true → freeSlots s.cur = 0 → exec i s = .next (waitEngine s)) ∧
    ((n != 0) = true → freeSlots s.cur ≠ 0 → asksPeer i s)

section
variable {i : Instr} {f : LF} {s : State} (hi : MemoryAccess i f.n) (hq : quiet s = true) (hc : clear s = true)
include hi hq hc

theorem MemoryAccess.stops {c : Cause} {a : Word} (hr : slotRes (s.nextPc [i]) none i s = .trap c 0 a) (hsoft : c ≠ .softwareTrap) :
    Stops i f.n c a s := fun hl => hi.exec_trap hq hc hl hr hsoft

variable {p : EnginePlan} {r : Record} {t : Int}
  (hheld : s.spHeld (p.scratch ++ if recSpace r = 2 then named (placeAddrs r p.places) else []) = false)
include hheld

/-- An engine operation without an alternative range and without anything beside. -/
theorem MemoryAccess.answers (hr : slotRes (s.nextPc [i]) none i s = issueEngine p f r t s) (ho : overflows [i] i s = false)
    (hfree : ∀ id s, oweFor p.kind id s = s) (halso : p.also = id) (halt : copyRange (engineOp p f r t s) = none) :
    Answers i f.n (ordered r (begins i (engineOp p f r t s) s)) s := by
  intro hl
  obtain ⟨hown, hasks⟩ := hi.exec_engineOp (b := .nothing) hq hc hl hheld hr ho hfree rfl (congrFun halso _)
  rw [engineOp_alt halt] at hown
  exact ⟨hown, hasks⟩

end

/-! ## The slots of tile transfers -/

theorem memoryAccess_tld (f : LF) : MemoryAccess (.tld f) f.n := {}
theorem memoryAccess_tst (f : LF) : MemoryAccess (.tst f) f.n := {}

theorem spOk_iff (sp : Word) (n : Nat) : spOk sp n = true ↔ sp.toNat % 16 = 0 ∧ sp.toNat + n ≤ 2 ^ 25 := by
  simp only [spOk, Bool.and_eq_true, beq_iff_eq, decide_eq_true_eq]

/-- What the checks of the record and the bounds say of the places of a tile. -/
def placesFault (r : Record) (remote : Bool) (ps : List Place) : Option (Cause × Word) :=
  if !recordOk r remote then some (.operandValue, 0)
  else match firstOutside r ps with | some a => some (.bounds, a) | none => none

/-- What `tld` of a tile of `n` bytes is. -/
def tldPlan (f : LF) (r : Record) (t : Int) (sp n : Nat) : EnginePlan :=
  { kind := .tileLoad (lSpec f) sp f.imm, places := tilePlaces r t f.imm, isRead := true, isWrite := false, reqs := readReqs,
    also := id, scratch := named (scratchRun sp n) }

/-- The operation of `tld.sp` whose checks fail. -/
def doomedTile (f : LF) (r : Record) (t : Int) (sp : Nat) (s : State) : Op :=
  { mkOp (.tileLoad true sp f.imm) s with record := r, offset := t, post := lPost f, isRead := true, doomed := true }

/-- What `tst` of a tile of `n` bytes is. -/
def tstPlan (f : LF) (r : Record) (t : Int) (sp n : Nat) (s : State) : EnginePlan :=
  { kind := .tileStore sp f.imm, places := tilePlaces r t f.imm, isRead := false, isWrite := true,
    scratch := named (scratchRun sp n), reqs := fun q l => writeReqs q l (fun i => scratchRead (sp + i) s), also := id }

section
variable {f : LF} {s : State} (hq : quiet s = true) (hc : clear s = true)
include hq hc

/-- A slot of the L slot with two operands, of which one is poisoned. -/
theorem lRecord_poison (h : (gTag f.o s || gTag f.d s) = true) (k : Record → Int → Word → SlotRes) :
    lRecord f 0 s (fun r t => cleanG (keyL + 1) f.d s (k r t)) = .trap .poison 0 0 := by
  rw [lRecord_clear hq hc]
  simp only [cleanG_quiet hq]
  cases ho : gTag f.o s with
  | true => rfl
  | false =>
    rw [ho, Bool.false_or] at h
    rw [h]
    rfl

theorem slotTld_poison (h : (gTag f.o s || gTag f.d s) = true) : slotTld f s = .trap .poison 0 0 := by
  rw [slotTld]
  exact lRecord_poison hq hc h _

theorem slotTst_poison (h : (gTag f.o s || gTag f.d s) = true) : slotTst f s = .trap .poison 0 0 := by
  rw [slotTst]
  exact lRecord_poison hq hc h _

theorem slotTprf_poison (h : (gTag f.o s || gTag f.d s) = true) : slotTprf f s = .trap .poison 0 0 := by
  rw [slotTprf]
  exact lRecord_poison hq hc h _

/-- One with neither poisoned. -/
theorem lRecord_clean (ho : gTag f.o s = false) (hd : gTag f.d s = false) (k : Record → Int → Word → SlotRes) :
    lRecord f 0 s (fun r t => cleanG (keyL + 1) f.d s (k r t)) = k s.cur.b[f.b.toNat] (gReg f.o s).toInt (gReg f.d s) := by
  rw [lRecord_clear hq hc, ho, Int.add_zero]
  simp only [cleanG_quiet hq, hd, Bool.false_eq_true, if_false]

variable (ho : gTag f.o s = false) (hd : gTag f.d s = false)
include ho hd

theorem slotTld_shapeless (h : tileShape s.cur.b[f.b.toNat] f.imm = none) : slotTld f s = .trap .operandValue 0 0 := by
  rw [slotTld, lRecord_clean hq hc ho hd, h]
  rfl

theorem slotTst_shapeless (h : tileShape s.cur.b[f.b.toNat] f.imm = none) : slotTst f s = .trap .operandValue 0 0 := by
  rw [slotTst, lRecord_clean hq hc ho hd, h]
  rfl

variable {rows w : Nat} (hshape : tileShape s.cur.b[f.b.toNat] f.imm = some (rows, w))
include hshape

theorem slotTld_shaped : slotTld f s =
    if !spOk (gReg f.d s) (rows * w) then .trapOf .operandValue
    else match placesFault s.cur.b[f.b.toNat] (f.n != 0) (tilePlaces s.cur.b[f.b.toNat] (gReg f.o s).toInt f.imm) with
      | some (c, a) =>
        if lSpec f = true then
          .ok (fun u => beginLocal (doomedTile f s.cur.b[f.b.toNat] (gReg f.o s).toInt (gReg f.d s).toNat u) u)
        else .trap c 0 a
      | none =>
        issueEngine (tldPlan f s.cur.b[f.b.toNat] (gReg f.o s).toInt (gReg f.d s).toNat (rows * w)) f s.cur.b[f.b.toNat]
          (gReg f.o s).toInt s := by
  rw [slotTld, lRecord_clean hq hc ho hd, hshape]
  simp only [clear_orderHeld hc, Bool.false_eq_true, if_false]
  cases hspec : lSpec f with
  | true => simp only [tldPlan, hspec]; rfl
  | false => simp only [tldPlan, hspec]; rfl

theorem slotTst_shaped : slotTst f s =
    if !spOk (gReg f.d s) (rows * w) || !recordOk s.cur.b[f.b.toNat] (f.n != 0) then .trapOf .operandValue
    else match firstOutside s.cur.b[f.b.toNat] (tilePlaces s.cur.b[f.b.toNat] (gReg f.o s).toInt f.imm) with
      | some a => .trap .bounds 0 a
      | none =>
        poisonLast (scratchFault (scratchRun (gReg f.d s).toNat (rows * w)) s) <|
        issueEngine (tstPlan f s.cur.b[f.b.toNat] (gReg f.o s).toInt (gReg f.d s).toNat (rows * w) s) f s.cur.b[f.b.toNat]
          (gReg f.o s).toInt s := by
  rw [slotTst, lRecord_clean hq hc ho hd, hshape]
  simp only [clear_orderHeld hc, Bool.false_eq_true, if_false]
  rfl

end

section
variable {f : LF} {s : State} (hq : quiet s = true) (hc : clear s = true) (ho : gTag f.o s = false) (hd : gTag f.d s = false)
  {rows w : Nat} (hshape : tileShape s.cur.b[f.b.toNat] f.imm = some (rows, w))
include hq hc ho hd hshape

/-- How `tld` of a tile ends. -/
theorem tld_ends :
    let r := s.cur.b[f.b.toNat]
    let t := (gReg f.o s).toInt
    let sp := gReg f.d s
    let ps := tilePlaces r t f.imm
    let fits := sp.toNat % 16 = 0 ∧ sp.toNat + rows * w ≤ 2 ^ 25
    (¬fits → Stops (.tld f) f.n .operandValue 0 s) ∧
    (fits → f.modf.getLsbD 7 = true → (recordOk r (f.n != 0) = false ∨ (firstOutside r ps).isSome = true) → lone (.tld f) s = true →
      exec (.tld f) s = .next (begins (.tld f) (doomedTile f r t sp.toNat s) s)) ∧
    (fits → f.modf.getLsbD 7 = false → recordOk r (f.n != 0) = false → Stops (.tld f) f.n .operandValue 0 s) ∧
    (fits → f.modf.getLsbD 7 = false → recordOk r (f.n != 0) = true → ∀ a, firstOutside r ps = some a →
      Stops (.tld f) f.n .bounds a s) ∧
    (fits → recordOk r (f.n != 0) = true → firstOutside r ps = none →
      s.spHeld (named (scratchRun sp.toNat (rows * w)) ++ if recSpace r = 2 then named (placeAddrs r ps) else []) = false →
      Answers (.tld f) f.n (ordered r (begins (.tld f) (engineOp (tldPlan f r t sp.toNat (rows * w)) f r t s) s)) s) := by
  intro r t sp ps fits
  have hi := memoryAccess_tld f
  have hslot : slotRes (s.nextPc [.tld f]) none (.tld f) s = _ := slotTld_shaped hq hc ho hd hshape
  have hfits : fits → spOk sp (rows * w) = true := (spOk_iff sp (rows * w)).mpr
  have hplaced : fits → slotRes (s.nextPc [.tld f]) none (.tld f) s = match placesFault r (f.n != 0) ps with
      | some (c, a) => if lSpec f then .ok (fun u => beginLocal (doomedTile f r t sp.toNat u) u) else .trap c 0 a
      | none => issueEngine (tldPlan f r t sp.toNat (rows * w)) f r t s := fun h => by
    rw [hslot, hfits h]
    rfl
  have hrecord : recordOk r (f.n != 0) = false → placesFault r (f.n != 0) ps = some (.operandValue, 0) := fun h => by
    rw [placesFault, h]
    rfl
  have hbounds : recordOk r (f.n != 0) = true → ∀ a, firstOutside r ps = some a →
      placesFault r (f.n != 0) ps = some (.bounds, a) := fun h a ha => by
    rw [placesFault, h, ha]
    rfl
  refine ⟨fun h => ?_, fun h hspec hbad hl => ?_, fun h hspec hbad => ?_, fun h hspec hok a ha => ?_, fun h hok hin hheld => ?_⟩
  · refine hi.stops hq hc (hslot.trans (if_pos ?_)) (by decide)
    rw [Bool.not_eq_true', ← Bool.not_eq_true, spOk_iff]
    exact h
  · have hsome : ∃ x, placesFault r (f.n != 0) ps = some x := by
      cases hok : recordOk r (f.n != 0) with
      | false => exact ⟨_, hrecord hok⟩
      | true =>
        obtain ⟨a, ha⟩ := Option.isSome_iff_exists.mp (hbad.resolve_left (by rw [hok]; decide))
        exact ⟨_, hbounds hok a ha⟩
    obtain ⟨x, hx⟩ := hsome
    have hdoomed := hplaced h
    rw [hx] at hdoomed
    exact hi.exec_starts (b := .nothing) (o := doomedTile f r t sp.toNat s)
      (o' := doomedTile f r t sp.toNat (moved (.tld f) s)) hq hc hl rfl (fun _ _ => rfl)
      (hdoomed.trans (if_pos hspec)) (overflows_none rfl) rfl rfl
  · have hbad := hrecord hbad
    have htrap := hplaced h
    rw [hbad] at htrap
    exact hi.stops hq hc (htrap.trans (if_neg (Bool.eq_false_iff.mp hspec))) (by decide)
  · have htrap := hplaced h
    rw [hbounds hok a ha] at htrap
    exact hi.stops hq hc (htrap.trans (if_neg (Bool.eq_false_iff.mp hspec))) (by decide)
  · have hnone : placesFault r (f.n != 0) ps = none := by
      rw [placesFault, hok, hin]
      rfl
    have hissue := hplaced h
    rw [hnone] at hissue
    exact hi.answers hq hc hheld hissue (overflows_none rfl) (fun _ _ => rfl) rfl rfl

/-- How `tst` of a tile ends. -/
theorem tst_ends :
    let r := s.cur.b[f.b.toNat]
    let t := (gReg f.o s).toInt
    let sp := gReg f.d s
    let ps := tilePlaces r t f.imm
    let pad := scratchRun sp.toNat (rows * w)
    let fits := sp.toNat % 16 = 0 ∧ sp.toNat + rows * w ≤ 2 ^ 25
    let free := s.spHeld (named pad ++ if recSpace r = 2 then named (placeAddrs r ps) else []) = false
    (¬(fits ∧ recordOk r (f.n != 0) = true) → Stops (.tst f) f.n .operandValue 0 s) ∧
    (fits → recordOk r (f.n != 0) = true → ∀ a, firstOutside r ps = some a → Stops (.tst f) f.n .bounds a s) ∧
    (fits → recordOk r (f.n != 0) = true → firstOutside r ps = none → free → scratchFault pad s = true →
      Stops (.tst f) f.n .poison 0 s) ∧
    (fits → recordOk r (f.n != 0) = true → firstOutside r ps = none → scratchFault pad s = false → free →
      Answers (.tst f) f.n (ordered r (begins (.tst f) (engineOp (tstPlan f r t sp.toNat (rows * w) s) f r t s) s)) s) := by
  intro r t sp ps pad fits free
  have hi := memoryAccess_tst f
  have hslot : slotRes (s.nextPc [.tst f]) none (.tst f) s = _ := slotTst_shaped hq hc ho hd hshape
  have hpassed : fits → recordOk r (f.n != 0) = true → slotRes (s.nextPc [.tst f]) none (.tst f) s =
      match firstOutside r ps with
      | some a => .trap .bounds 0 a
      | none => poisonLast (scratchFault pad s) (issueEngine (tstPlan f r t sp.toNat (rows * w) s) f r t s) := fun h hok => by
    rw [hslot, (spOk_iff sp (rows * w)).mpr h, hok]
    rfl
  refine ⟨fun h => ?_, fun h hok a ha => ?_, fun h hok hin hheld hbad => ?_, fun h hok hin hgood hheld => ?_⟩
  · refine hi.stops hq hc (hslot.trans (if_pos ?_)) (by decide)
    rw [← Bool.not_and, Bool.not_eq_true', ← Bool.not_eq_true, Bool.and_eq_true, spOk_iff]
    exact h
  · have htrap := hpassed h hok
    rw [ha] at htrap
    exact hi.stops hq hc htrap (by decide)
  · have hpoisoned := hpassed h hok
    rw [hin, hbad] at hpoisoned
    exact fun hl => hi.exec_engine_poisoned hq hc hl hheld hpoisoned
  · have hissue := hpassed h hok
    rw [hin, hgood] at hissue
    exact hi.answers hq hc hheld hissue (overflows_none rfl) (fun _ _ => rfl) rfl rfl

end

/-! ## The slots of row transfers -/

theorem memoryAccess_tldn (f : LF) : MemoryAccess (.tldn f) f.n := {}
theorem memoryAccess_tstn (f : LF) : MemoryAccess (.tstn f) f.n := {}

/-- What `tldn` under the descriptor `d` is. -/
def tldnPlan (r : Record) (t : Int) (sp : Nat) (d : BitVec 512) : EnginePlan :=
  { kind := .rowsLoad sp d, places := rowPlaces r t d, isRead := true, isWrite := false, reqs := readReqs,
    scratch := named (rowScratch sp d), also := id }

/-- What `tstn` under the descriptor `d` is. -/
def tstnPlan (r : Record) (t : Int) (sp : Nat) (d : BitVec 512) (s : State) : EnginePlan :=
  { kind := .rowsStore sp d, places := rowPlaces r t d, isRead := false, isWrite := true, scratch := named (rowScratch sp d),
    reqs := fun q l => writeReqs q l (fun i => (readScratch (rowScratch sp d) s).getD i 0), also := id }

/-- The bytes of the descriptor that a row transfer names. -/
def descBytesAt (f : LF) : List Nat := named (scratchRun (512 * f.imm.toNat) 64)

section
variable {f : LF} {s : State} (hq : quiet s = true) (hc : clear s = true)
include hq hc

theorem slotRows_poison (h : (gTag f.o s || gTag f.d s) = true) (htable : s.spHeld (descBytesAt f) = false) (load : Bool) :
    slotRows f load s = .trap .poison 0 0 := by
  have hneed : ∀ k, needScratch (named (scratchRun (512 * f.imm.toNat) 64)) s k = k := fun _ =>
    if_neg (Bool.eq_false_iff.mp htable)
  simp only [slotRows, hneed]
  exact lRecord_poison hq hc h _

variable (ho : gTag f.o s = false)
include ho

theorem slotRows_held (htable : s.spHeld (descBytesAt f) = true) (load : Bool) : slotRows f load s = .engine := by
  have hneed : ∀ k, needScratch (named (scratchRun (512 * f.imm.toNat) 64)) s k = .engine := fun _ => if_pos htable
  simp only [slotRows, hneed]
  rw [lRecord_clear hq hc, ho]
  rfl

theorem slotRows_clean (hd : gTag f.d s = false) (htable : s.spHeld (descBytesAt f) = false) (load : Bool) : slotRows f load s =
    if !recordOk s.cur.b[f.b.toNat] (f.n != 0) || !descOk (readDesc f.imm s) (gReg f.d s) then .trapOf .operandValue
    else match firstOutside s.cur.b[f.b.toNat] (rowPlaces s.cur.b[f.b.toNat] (gReg f.o s).toInt (readDesc f.imm s)) with
      | some a => .trap .bounds 0 a
      | none =>
        if load then
          issueEngine (tldnPlan s.cur.b[f.b.toNat] (gReg f.o s).toInt (gReg f.d s).toNat (readDesc f.imm s)) f s.cur.b[f.b.toNat]
            (gReg f.o s).toInt s
        else
          poisonLast (scratchFault (rowScratch (gReg f.d s).toNat (readDesc f.imm s)) s) <|
          issueEngine (tstnPlan s.cur.b[f.b.toNat] (gReg f.o s).toInt (gReg f.d s).toNat (readDesc f.imm s) s) f s.cur.b[f.b.toNat]
            (gReg f.o s).toInt s := by
  have hneed : ∀ k, needScratch (named (scratchRun (512 * f.imm.toNat) 64)) s k = k := fun _ =>
    if_neg (Bool.eq_false_iff.mp htable)
  simp only [slotRows, hneed]
  rw [lRecord_clean hq hc ho hd]
  simp only [clear_orderHeld hc, Bool.false_eq_true, if_false]
  rfl

end

section
variable {f : LF} {s : State} (hq : quiet s = true) (hc : clear s = true) (ho : gTag f.o s = false) (hd : gTag f.d s = false)
  (htable : s.spHeld (descBytesAt f) = false)
include hq hc ho hd htable

/-- How a row transfer ends, once its descriptor is at hand. -/
theorem rows_end :
    let r := s.cur.b[f.b.toNat]
    let t := (gReg f.o s).toInt
    let sp := gReg f.d s
    let d := readDesc f.imm s
    let ps := rowPlaces r t d
    let pad := rowScratch sp.toNat d
    (recordOk r (f.n != 0) = true → descOk d sp = true → firstOutside r ps = none →
      s.spHeld (named pad ++ if recSpace r = 2 then named (placeAddrs r ps) else []) = false →
      Answers (.tldn f) f.n (ordered r (begins (.tldn f) (engineOp (tldnPlan r t sp.toNat d) f r t s) s)) s ∧
      (scratchFault pad s = false →
        Answers (.tstn f) f.n (ordered r (begins (.tstn f) (engineOp (tstnPlan r t sp.toNat d s) f r t s) s)) s) ∧
      (scratchFault pad s = true → Stops (.tstn f) f.n .poison 0 s)) ∧
    (recordOk r (f.n != 0) = true → descOk d sp = true → ∀ a, firstOutside r ps = some a →
      Stops (.tldn f) f.n .bounds a s ∧ Stops (.tstn f) f.n .bounds a s) ∧
    ((recordOk r (f.n != 0) = false ∨ descOk d sp = false) →
      Stops (.tldn f) f.n .operandValue 0 s ∧ Stops (.tstn f) f.n .operandValue 0 s) := by
  intro r t sp d ps pad
  have hload := memoryAccess_tldn f
  have hstore := memoryAccess_tstn f
  have hslots := slotRows_clean hq hc ho hd htable
  have hpassed : recordOk r (f.n != 0) = true → descOk d sp = true → ∀ load, slotRows f load s = match firstOutside r ps with
      | some a => .trap .bounds 0 a
      | none =>
        if load then issueEngine (tldnPlan r t sp.toNat d) f r t s
        else poisonLast (scratchFault pad s) (issueEngine (tstnPlan r t sp.toNat d s) f r t s) := fun hok hdesc load => by
    rw [hslots, hok, hdesc]
    rfl
  refine ⟨fun hok hdesc hin hheld => ?_, fun hok hdesc a ha => ?_, fun hbad => ?_⟩
  · have hissue := hpassed hok hdesc
    rw [hin] at hissue
    refine ⟨hload.answers hq hc hheld (hissue true) (overflows_none rfl) (fun _ _ => rfl) rfl rfl, fun hgood => ?_,
      fun hpoison => ?_⟩
    · rw [hgood] at hissue
      exact hstore.answers hq hc hheld (hissue false) (overflows_none rfl) (fun _ _ => rfl) rfl rfl
    · rw [hpoison] at hissue
      exact fun hl => hstore.exec_engine_poisoned hq hc hl hheld (hissue false)
  · have htrap := hpassed hok hdesc
    rw [ha] at htrap
    exact ⟨hload.stops hq hc (htrap true) (by decide), hstore.stops hq hc (htrap false) (by decide)⟩
  · have hfails : (!recordOk r (f.n != 0) || !descOk d sp) = true := by
      rw [← Bool.not_and, Bool.not_eq_true', Bool.and_eq_false_iff]
      exact hbad
    exact ⟨hload.stops hq hc ((hslots true).trans (if_pos hfails)) (by decide),
      hstore.stops hq hc ((hslots false).trans (if_pos hfails)) (by decide)⟩

end

/-! ## The slot of the line prefetch -/

/-- The prefetch names no peer. -/
theorem memoryAccess_tprf {f : LF} {s : State} (hl : lone (.tprf f) s = true) : MemoryAccess (.tprf f) f.n := by
  have hn : f.n = 0 := by
    rw [lone, legal] at hl
    simp only [Bool.and_eq_true, List.all_cons, wellFormed, beq_iff_eq] at hl
    tauto
  rw [hn]
  exact ({} : MemoryAccess (.tprf f) 0)

/-- The granules of a line. -/
def lineGranules (e : Nat) : List Nat := (List.range 256).map (fun i => e * 256 + i)

/-- What `tprf` of the block at `va` into the line `e` is. -/
def tprfPlan (r : Record) (va : Word) (e : Nat) : EnginePlan :=
  { kind := .lineFill e, places := blockPlaces r va, isRead := true, isWrite := false, reqs := readReqs,
    scratch := named (scratchRun (e * 4096) 4096),
    also := fun u => setFullAll (lineGranules e) false (setTag e (tagFor va u.cur.sys.asid) u) }

/-- An engine plan issues where its places are within bounds. -/
def issueWithin (p : EnginePlan) (f : LF) (r : Record) (t : Int) (s : State) : SlotRes :=
  match firstOutside r p.places with
  | some a => .trap .bounds 0 a
  | none => issueEngine p f r t s

theorem issueWithin_outside {p : EnginePlan} {f : LF} {r : Record} {t : Int} {s : State} {a : Word}
    (h : firstOutside r p.places = some a) : issueWithin p f r t s = .trap .bounds 0 a := by
  rw [issueWithin, h]

theorem issueWithin_inside {p : EnginePlan} {f : LF} {r : Record} {t : Int} {s : State} (h : firstOutside r p.places = none) :
    issueWithin p f r t s = issueEngine p f r t s := by
  rw [issueWithin, h]

theorem tprfPlan_places (r : Record) (va : Word) (e : Nat) : (tprfPlan r va e).places = blockPlaces r va := by
  simp only [tprfPlan]

theorem tprfPlan_scratch (r : Record) (va : Word) (e : Nat) :
    (tprfPlan r va e).scratch = named (scratchRun (e * 4096) 4096) := by
  simp only [tprfPlan]

theorem engineOp_tprfPlan (f : LF) (r : Record) (t : Int) (va : Word) (e : Nat) (s : State) :
    engineOp (tprfPlan r va e) f r t s =
      { recOp (.lineFill e) f r t (placeAddrs r (blockPlaces r va)) s with isRead := true, isWrite := false } := by
  simp only [engineOp, tprfPlan]

/-- The line is tagged and its granules are emptied. -/
def tprfBeside (va : Word) (e : Nat) (asid : BitVec 16) : Beside := (Beside.fill (lineGranules e) false).comp (.tag e (tagFor va asid))

theorem tprfBeside_act (va : Word) (e : Nat) (asid : BitVec 16) (u : State) :
    (tprfBeside va e asid).act u = setFullAll (lineGranules e) false (setTag e (tagFor va asid) u) := by
  rw [setFullAll_eq, tprfBeside, Beside.act_comp]
  rfl

/-- A release bumps the clock whatever else is done, the die aside. -/
theorem ordered_act {b : Beside} (hdie : b.die = id) (r : Record) (u : State) : ordered r (b.act u) = b.act (ordered r u) := by
  rw [ordered, ordered, bumpFor_eq, bumpFor_eq]
  simp only [Beside.act, hdie]
  rfl

theorem tprfPlan_also (r : Record) (va : Word) (e : Nat) (u : State) :
    (tprfPlan r va e).also u = (tprfBeside va e u.cur.sys.asid).act u := by
  simp only [tprfPlan, tprfBeside_act]

section
variable {f : LF} {s : State} (hq : quiet s = true) (hc : clear s = true) (ho : gTag f.o s = false) (hd : gTag f.d s = false)
include hq hc ho hd

theorem slotTprf_clean : slotTprf f s =
    if !recordOk s.cur.b[f.b.toNat] false || decide (recSpace s.cur.b[f.b.toNat] = 2) ||
        !ttagOk (gReg f.d s) (tprfVa s.cur.b[f.b.toNat] (gReg f.o s).toInt) s then .trapOf .operandValue
    else
      issueWithin (tprfPlan s.cur.b[f.b.toNat] (tprfVa s.cur.b[f.b.toNat] (gReg f.o s).toInt) (gReg f.d s).toNat) f
        s.cur.b[f.b.toNat] (gReg f.o s).toInt s := by
  rw [slotTprf, lRecord_clean hq hc ho hd]
  cases hfirst : firstOutside s.cur.b[f.b.toNat] (blockPlaces s.cur.b[f.b.toNat] (tprfVa s.cur.b[f.b.toNat] (gReg f.o s).toInt)) with
  | some a =>
    simp only [clear_orderHeld hc, Bool.false_eq_true, if_false, hfirst, issueWithin, tprfPlan, lineGranules]
  | none =>
    simp only [clear_orderHeld hc, Bool.false_eq_true, if_false, hfirst, issueWithin, tprfPlan, lineGranules]

/-- How a prefetch ends. -/
theorem tprf_ends :
    let r := s.cur.b[f.b.toNat]
    let t := (gReg f.o s).toInt
    let sp := gReg f.d s
    let va := tprfVa r t
    let line := sp.toNat
    (¬(recordOk r false = true ∧ recSpace r ≠ 2 ∧ ttagOk sp va s = true) → Stops (.tprf f) f.n .operandValue 0 s) ∧
    (recordOk r false = true → recSpace r ≠ 2 → ttagOk sp va s = true →
      (∀ a, firstOutside r (blockPlaces r va) = some a → Stops (.tprf f) f.n .bounds a s) ∧
      (firstOutside r (blockPlaces r va) = none → s.spHeld (named (scratchRun (line * 4096) 4096)) = false →
        Answers (.tprf f) f.n (setFullAll (lineGranules line) false (setTag line (tagFor va s.cur.sys.asid)
          (ordered r (begins (.tprf f) (engineOp (tprfPlan r va line) f r t s) s)))) s)) := by
  intro r t sp va line
  have hslot : slotRes (s.nextPc [.tprf f]) none (.tprf f) s = _ := slotTprf_clean hq hc ho hd
  refine ⟨fun hbad hl => ?_, fun hok hspace htag => ?_⟩
  · refine (memoryAccess_tprf hl).stops hq hc (hslot.trans (if_pos ?_)) (by decide) hl
    simp only [Bool.or_eq_true, Bool.not_eq_true', decide_eq_true_eq]
    by_contra hgood
    simp only [not_or, Bool.not_eq_false] at hgood
    exact hbad ⟨hgood.1.1, hgood.1.2, hgood.2⟩
  · have hpassed : slotRes (s.nextPc [.tprf f]) none (.tprf f) s = issueWithin (tprfPlan r va line) f r t s := hslot.trans (if_neg (by
      rw [hok, decide_eq_false hspace, htag]
      decide))
    refine ⟨fun a ha hl => ?_, fun hin hheld hl => ?_⟩
    · have hbounds := hpassed.trans (issueWithin_outside ((tprfPlan_places r va line).symm ▸ ha))
      exact (memoryAccess_tprf hl).stops hq hc hbounds (by decide) hl
    · have hfree : s.spHeld ((tprfPlan r va line).scratch ++
          if recSpace r = 2 then named (placeAddrs r (tprfPlan r va line).places) else []) = false := by
        rw [if_neg hspace, List.append_nil, tprfPlan_scratch, hheld]
      obtain ⟨hown, hasks⟩ := (memoryAccess_tprf hl).exec_engineOp hq hc hl hfree
        (hpassed.trans (issueWithin_inside ((tprfPlan_places r va line).symm ▸ hin))) (overflows_none rfl) (fun _ _ => rfl)
        (b := tprfBeside va line s.cur.sys.asid) rfl (tprfPlan_also ..)
      rw [engineOp_alt rfl, ordered_act rfl, tprfBeside_act] at hown
      exact ⟨hown, hasks⟩

end

/-! ## The slot of block transfers -/

theorem memoryAccess_bxf (f : LF) : MemoryAccess (.bxf f) f.n := {}

/-- The source record of a block transfer. -/
def bxfRecord (f : LF) (s : State) : Record := s.cur.b[(bits 0 4 f.modf : BitVec 4).toNat]

/-- The fields under which a block transfer issues: one that posts on the die that n names posts nothing here. -/
def bxfFields (f : LF) : LF := { f with modf := if f.fr then f.modf &&& 0x3F else f.modf }

/-- The addresses of the source of a block transfer. -/
def bxfAddrs (src : Record) : List (Option Nat) := placeAddrs src (bxfSource src)

/-- What a block transfer from `src` is; `reqs` are its requests to a peer. -/
def bxfPlan (f : LF) (r src : Record) (t : Int) (reqs : Packet → List (Nat × Nat) → List (Packet × Nat)) : EnginePlan :=
  { kind := .blockCopy src (bxfFlag f), places := recRun r t (bxfLen src), isRead := false, isWrite := true,
    scratch := if recSpace src = 2 then named (bxfAddrs src) else [], reqs := reqs, also := bumpFor (isRelease src) src false }

/-- The slot of a block transfer, once its checks pass and its source can be read. -/
def bxfIssue (f : LF) (r src : Record) (t : Int) (s : State) : SlotRes :=
  if f.n ≠ 0 then
    match bxfBytes src s with
    | .error e => .ok (fun u => beginLocal (doomedCopy (.blockCopy src (bxfFlag f)) e u) u)
    | .ok bs => issueEngine (bxfPlan f r src t (bxfReqs f bs)) (bxfFields f) r t s
  else issueEngine (bxfPlan f r src t (fun _ _ => [])) (bxfFields f) r t s

section
variable {f : LF} {s : State} (hq : quiet s = true) (hc : clear s = true) (ho : gTag f.o s = false)
include hq hc

theorem slotBxf_poison (h : gTag f.o s = true) : slotBxf f s = .trap .poison 0 0 := by
  rw [slotBxf, lRecord_clear hq hc, h]
  rfl

include ho

theorem slotBxf_clean : slotBxf f s =
    if !recordOk s.cur.b[f.b.toNat] (f.n != 0) || !recordOk (bxfRecord f s) false || decide (bxfLen (bxfRecord f s) = 0) ||
        decide (bxfLen (bxfRecord f s) % 16 ≠ 0) then .trapOf .operandValue
    else if 2 ^ 32 < bxfLen (bxfRecord f s) then .trapOf .operandValue
    else match firstOutside s.cur.b[f.b.toNat] (recRun s.cur.b[f.b.toNat] (gReg f.o s).toInt (bxfLen (bxfRecord f s))) with
      | some a => .trap .bounds 0 a
      | none =>
        poisonLast (recSpace (bxfRecord f s) = 2 && scratchFault (bxfAddrs (bxfRecord f s)) s) <|
        bxfIssue f s.cur.b[f.b.toNat] (bxfRecord f s) (gReg f.o s).toInt s := by
  rw [slotBxf, lRecord_clear hq hc, ho, Int.add_zero, needB_quiet hq]
  simp only [clear_orderHeld hc, clear_conflicts hc, Bool.false_eq_true, if_false]
  rfl

end

/-- The checks of a block transfer. -/
theorem bxfChecks_iff (r src : Record) (remote : Bool) :
    (¬(!recordOk r remote || !recordOk src false || decide (bxfLen src = 0) || decide (bxfLen src % 16 ≠ 0)) = true ∧
      ¬2 ^ 32 < bxfLen src) ↔
    recordOk r remote = true ∧ recordOk src false = true ∧ bxfLen src ≠ 0 ∧ bxfLen src % 16 = 0 ∧ bxfLen src ≤ 2 ^ 32 := by
  simp only [Bool.or_eq_true, Bool.not_eq_true', decide_eq_true_eq, not_or, Bool.not_eq_false, not_not, Nat.not_lt, and_assoc,
    ne_eq]

theorem bxfIssue_eq {f : LF} {src : Record} {s : State} (h : (f.n != 0) = true → (bxfBytes src s).toOption.isSome = true)
    (r : Record) (t : Int) :
    ∃ reqs, bxfIssue f r src t s = issueEngine (bxfPlan f r src t reqs) (bxfFields f) r t s := by
  by_cases hn : f.n = 0
  · exact ⟨_, if_neg (not_not_intro hn)⟩
  · have hbytes := h (bne_iff_ne.mpr hn)
    rw [bxfIssue, if_pos hn]
    cases hb : bxfBytes src s with
    | error e =>
      rw [hb] at hbytes
      exact absurd hbytes (by simp [Except.toOption])
    | ok bs => exact ⟨_, rfl⟩

/-- A source in scratchpad can be read. -/
theorem bxfBytes_scratch {src : Record} {s : State} (h : recSpace src = 2) : (bxfBytes src s).toOption.isSome = true := by
  rw [bxfBytes, if_pos h]
  rfl

theorem lPost_bxfFields (f : LF) : lPost (bxfFields f) = if f.modf.getLsbD 6 = true ∧ f.fr = false then some f.f else none := by
  cases hfr : f.fr with
  | true => simp [lPost, bxfFields, hfr]
  | false => simp [lPost, bxfFields, hfr]

theorem bxfFlag_eq (f : LF) : bxfFlag f =
    if f.modf.getLsbD 6 = true ∧ f.fr = true then some (f.imm.setWidth 6, f.f) else none := by
  simp only [bxfFlag, Bool.and_eq_true]

/-- The operation that a block transfer begins on the own die. -/
def bxfOp (f : LF) (r src : Record) (t : Int) (s : State) : Op :=
  { recOp (.blockCopy src (if f.modf.getLsbD 6 = true ∧ f.fr = true then some (f.imm.setWidth 6, f.f) else none)) f r t
      (placeAddrs r (recRun r t (bxfLen src))) s with
    isWrite := true, post := if f.modf.getLsbD 6 = true ∧ f.fr = false then some f.f else none,
    alt := some ((recSpace src).setWidth 3, recAddr src 0, recAddr src 0 + bxfLen src) }

theorem bxfOp_eq (f : LF) (r src : Record) (t : Int) (reqs : Packet → List (Nat × Nat) → List (Packet × Nat)) (s : State) :
    { engineOp (bxfPlan f r src t reqs) (bxfFields f) r t s with
      alt := copyRange (engineOp (bxfPlan f r src t reqs) (bxfFields f) r t s) } = bxfOp f r src t s := by
  have heq : engineOp (bxfPlan f r src t reqs) (bxfFields f) r t s =
      { recOp (.blockCopy src (bxfFlag f)) f r t (placeAddrs r (recRun r t (bxfLen src))) s with
        isWrite := true, post := lPost (bxfFields f) } := rfl
  rw [heq, lPost_bxfFields, bxfFlag_eq]
  rfl

section
variable {f : LF} {s : State} (hq : quiet s = true) (hc : clear s = true) (ho : gTag f.o s = false)
include hq hc ho

/-- How a block transfer ends. -/
theorem bxf_ends :
    let r := s.cur.b[f.b.toNat]
    let t := (gReg f.o s).toInt
    let src := bxfRecord f s
    let len := bxfLen src
    let taken := recordOk r (f.n != 0) = true ∧ recordOk src false = true ∧ len ≠ 0 ∧ len % 16 = 0 ∧ len ≤ 2 ^ 32
    let free := fun (own : List Nat) =>
      s.spHeld (own ++ if recSpace r = 2 then named (placeAddrs r (recRun r t len)) else []) = false
    (¬taken → Stops (.bxf f) f.n .operandValue 0 s) ∧
    (taken → ∀ a, firstOutside r (recRun r t len) = some a → Stops (.bxf f) f.n .bounds a s) ∧
    (taken → firstOutside r (recRun r t len) = none →
      (recSpace src = 2 → scratchFault (bxfAddrs src) s = true → free (named (bxfAddrs src)) →
        Stops (.bxf f) f.n .poison 0 s) ∧
      ((recSpace src ≠ 2 ∨ scratchFault (bxfAddrs src) s = false) → free (if recSpace src = 2 then named (bxfAddrs src) else []) →
        ((f.n != 0) = true → (bxfBytes src s).toOption.isSome = true) →
        Answers (.bxf f) f.n (ordered r (ordered src (begins (.bxf f) (bxfOp f r src t s) s))) s)) := by
  intro r t src len taken free
  have hi : MemoryAccess (.bxf f) (bxfFields f).n := memoryAccess_bxf f
  have hslot : slotRes (s.nextPc [.bxf f]) none (.bxf f) s = _ := slotBxf_clean hq hc ho
  have hpassed : taken → slotRes (s.nextPc [.bxf f]) none (.bxf f) s = match firstOutside r (recRun r t len) with
      | some a => .trap .bounds 0 a
      | none => poisonLast (recSpace src = 2 && scratchFault (bxfAddrs src) s) (bxfIssue f r src t s) := fun h => by
    obtain ⟨hchecks, hsmall⟩ := (bxfChecks_iff r src (f.n != 0)).mpr h
    rw [hslot, if_neg hchecks, if_neg hsmall]
  refine ⟨fun h => ?_, fun h a ha => ?_, fun h hin => ⟨fun hspace hbad hheld => ?_, fun hgood hheld hbytes => ?_⟩⟩
  · have htrap : slotRes (s.nextPc [.bxf f]) none (.bxf f) s = .trapOf .operandValue := by
      rw [hslot]
      split
      · rfl
      · next hchecks => exact if_pos (by_contra fun hsmall => h ((bxfChecks_iff r src (f.n != 0)).mp ⟨hchecks, hsmall⟩))
    exact hi.stops hq hc htrap (by decide)
  · have htrap := hpassed h
    rw [ha] at htrap
    exact hi.stops hq hc htrap (by decide)
  · have hpoisoned := hpassed h
    obtain ⟨reqs, hissue⟩ := bxfIssue_eq (f := f) (src := src) (s := s) (fun _ => bxfBytes_scratch hspace) r t
    rw [hin, hbad, decide_eq_true hspace, hissue] at hpoisoned
    exact fun hl => hi.exec_engine_poisoned hq hc hl (by
      simp only [bxfPlan, if_pos hspace]
      exact hheld) hpoisoned
  · have hissued := hpassed h
    obtain ⟨reqs, hissue⟩ := bxfIssue_eq hbytes r t
    have hclean : (decide (recSpace src = 2) && scratchFault (bxfAddrs src) s) = false := by
      rw [Bool.and_eq_false_iff, decide_eq_false_iff_not]
      exact hgood
    rw [hin, hclean, poisonLast_clean, hissue] at hissued
    intro hl
    obtain ⟨hown, hasks⟩ := hi.exec_engineOp hq hc hl hheld hissued (overflows_none rfl) (fun _ _ => rfl)
      (b := .bump (isRelease src) src false) rfl (bumpFor_eq ..)
    rw [bxfOp_eq, ← bumpFor_eq] at hown
    exact ⟨hown, hasks⟩

end

/-! ## Obligation O32 -/

theorem bxfLen_eq (src : Record) : src.toNat / 2 ^ 64 % 2 ^ 40 = bxfLen src := (recExtent_toNat src).symm

theorem tprfVa_eq (r : Record) (t : Int) : BitVec.ofInt 64 ((recBase r).toNat + t) &&& ~~~(0xFFF : Word) = tprfVa r t := by
  rw [tprfVa, BitVec.ofInt_add, BitVec.ofInt_natCast, BitVec.ofNat_toNat, BitVec.setWidth_eq]

/-- Settles O32, instruction by instruction: the slot's checks in their order, then the issue of its engine operation. -/
theorem tileRowAndBlockTransfers : Obligations.TileRowAndBlockTransfers := by
  intro f s hq hc r t sp peer post stops table own free answers d src len
  refine ⟨fun h => ?_, fun h => ?_, fun ho hd => ?_, fun ho => ?_⟩
  · have hrows := fun htable : table = true => slotRows_poison hq hc h ((Bool.not_eq_true' _).mp htable)
    exact ⟨(memoryAccess_tld f).stops hq hc (slotTld_poison hq hc h) (by decide),
      (memoryAccess_tst f).stops hq hc (slotTst_poison hq hc h) (by decide),
      fun htable => ⟨(memoryAccess_tldn f).stops hq hc (hrows htable true) (by decide),
        (memoryAccess_tstn f).stops hq hc (hrows htable false) (by decide)⟩,
      fun hl => (memoryAccess_tprf hl).stops hq hc (slotTprf_poison hq hc h) (by decide) hl⟩
  · exact (memoryAccess_bxf f).stops hq hc (slotBxf_poison hq hc h) (by decide)
  · have hends := fun htable : table = true => rows_end hq hc ho hd ((Bool.not_eq_true' _).mp htable)
    obtain ⟨hrefused, htagged⟩ := tprf_ends hq hc ho hd
    refine ⟨fun h => ⟨(memoryAccess_tld f).stops hq hc (slotTld_shapeless hq hc ho hd h) (by decide),
        (memoryAccess_tst f).stops hq hc (slotTst_shapeless hq hc ho hd h) (by decide)⟩,
      fun rows w hshape => ?_, fun htable => (hends htable).1, fun htable => ?_, fun htable => (hends htable).2.1,
      fun htable => (hends htable).2.2, ?_⟩
    · obtain ⟨hunfit, hdoomed, hrecord, hbounds, hload⟩ := tld_ends hq hc ho hd hshape
      obtain ⟨hchecks, houtside, hpoison, hstore⟩ := tst_ends hq hc ho hd hshape
      exact ⟨hunfit, hdoomed, hrecord, hbounds, hload, hchecks, houtside, hpoison, hstore⟩
    · have hheld := slotRows_held hq hc ho ((Bool.not_eq_false' _).mp htable)
      exact ⟨fun hl => (memoryAccess_tldn f).exec_engine hq hc hl (hheld true),
        fun hl => (memoryAccess_tstn f).exec_engine hq hc hl (hheld false)⟩
    · rw [tprfVa_eq]
      refine ⟨fun hbad _ => hrefused hbad, fun hok hspace htag _ => ⟨(htagged hok hspace htag).1, fun hin hfree => ?_⟩⟩
      have hfree' : s.spHeld (named (scratchRun (sp.toNat * 4096) 4096) ++
          if recSpace r = 2 then named (placeAddrs r []) else []) = false := hfree
      rw [if_neg hspace, List.append_nil] at hfree'
      have hissue := (htagged hok hspace htag).2 hin hfree'
      rw [engineOp_tprfPlan, lineGranules] at hissue
      exact hissue
  · rw [show len = _ from bxfLen_eq src]
    obtain ⟨hrefused, houtside, hissue⟩ := bxf_ends hq hc ho
    exact ⟨hrefused, houtside, hissue⟩

end Sys2Proof.Machine
end

section
/-! The load of a tile into the cope store (spec/17_matrix.md R257 to R259). -/
namespace Sys2Proof.Machine

/-! ## An operation begun beside an act of the commit -/

section
variable {i : Instr} {n : BitVec 3} {s : State} (hi : MemoryAccess i n) (hq : quiet s = true) (hc : clear s = true)
  (hl : lone i s = true) {F G : State → State} (hG : Act G) (hr : slotRes (s.nextPc [i]) none i s = .ok F)
  (ho : overflows [i] i s = false) {o o' : Op} (hfree : ∀ id s, oweFor o.kind id s = s) (howner : o.owner = s.curId)
  (hserial : o.serial = s.cur.serial)
include hi hq hc hl hG hr ho hfree howner hserial

/-- A lone bundle whose slot acts and begins an operation that owes nothing. -/
theorem MemoryAccess.exec_acts_begins (hops : ∀ l n u, G (setOps l n u) = setOps l n (G u)) (hcur : ∀ u, (G u).cur = u.cur)
    (hid : ∀ u, (G u).curId = u.curId) (hlist : ∀ u, (G u).die.ops = u.die.ops)
    (hF : F (moved i s) = beginLocal o' (G (moved i s))) (hsame : o'.blank = o.blank) (hafter : o.after = []) :
    exec i s = .next (G (begins i o s)) := by
  have hops' : (G (moved i s)).die.ops = s.die.ops := hlist (moved i s)
  have hnext : (G (moved i s)).die.nextId = s.die.nextId := hG.ids (moved i s)
  have hid' : (G (moved i s)).curId = s.curId := hid (moved i s)
  have hcur' : (G (moved i s)).cur = (moved i s).cur := hcur (moved i s)
  obtain ⟨hkind, howner', hserial', hafter', -⟩ := blank_fields hsame
  have hnone := clear_taskOps hc
  have hnone' : (G (moved i s)).taskOps = [] := by
    rw [State.taskOps, hops', hid', hcur']
    exact hnone
  have howes : ∀ m, Owes o.kind m (fun c => c) := fun m => ⟨fun s => hfree m s, fun _ => rfl, fun _ => rfl⟩
  have hbegun := begun_stamped (s := s) (u := G (moved i s)) hsame hnext hid' (by rw [hcur']; rfl) (by rw [hcur']; rfl) hnone hnone'
    s.pc ((bundleBytes [i]).take 47)
  have hlength : (begun o' (G (moved i s))).length = (begun o s).length := by
    simpa only [List.length_map] using congrArg List.length hbegun
  have hlater : s.die.nextId + (begun o s).length ≠ s.die.nextId :=
    Nat.ne_of_gt (Nat.lt_add_of_pos_right (Nat.succ_pos _))
  have hserials : s.cur.serial = (G (moved i s)).cur.serial := by
    rw [hcur']
    rfl
  have hbegin : F (moved i s) = setOps (s.die.ops ++ begun o' (G (moved i s))) (s.die.nextId + (begun o s).length) (G (moved i s)) := by
    rw [hF, beginLocal_eq (f := fun c => c) (by rw [hkind]; exact howes _) hnone' ((howner'.trans howner).trans hid'.symm)
      ((hserial'.trans hserial).trans hserials) (hafter'.trans hafter), hops', hnext, hlength]
    rfl
  have hfact : s.core.fact.isNone = true → (G (moved i s)).core.fact = none := fun h =>
    (hG.fact _).trans (Option.isNone_iff_eq_none.mp h : s.core.fact = none)
  have hpass : ∀ l n, passCycle ((setOps l n (G (moved i s))).modSys SysCtx.stepDelay) = G (setOps l n (passed [i] s)) := by
    intro l n
    have hplain := hG.plain (i := i) hq
    have htick : (setOps l n (G (moved i s))).tick = setOps l n (G (passed [i] s)) := congrArg (setOps l n) (hG.tick hq)
    rw [modSys_stepDelay (s := setOps l n (G (moved i s))) hplain.delay, passCycle, htick, hops]
    exact beatNow_none (s := setOps l n (G (passed [i] s))) ((hG.beats _).trans (quiet_beats (s := s) hq))
      ((hG.parked _).trans (quiet_parked (s := s) hq))
  rw [hi.exec_ok hq hc hl hr ho, hbegin, stampStarted_setOps hlater hfact, List.map_append, hbegun, ← List.map_append, hpass,
    begins_eq i (howes _)]
  rfl

/-- One whose slot acts and asks a peer. -/
theorem MemoryAccess.exec_acts_asks (hF : ∃ peer reqs, F (moved i s) = beginRemote o peer reqs (G (moved i s)))
    (hslots : freeSlots (G (moved i s)).cur ≠ 0) (hcycle : (G (moved i s)).core.cycle = s.core.cycle) : asksPeer i s := by
  obtain ⟨peer, reqs, hF⟩ := hF
  have hnext : (G (moved i s)).die.nextId = s.die.nextId := hG.ids (moved i s)
  have hplain := hG.plain (i := i) hq
  have hbegun := beginRemote_asked (o := o) (peer := peer) (reqs := reqs) (u := G (moved i s)) (f := fun c => c)
    ⟨fun s => hfree _ s, fun _ => rfl, fun _ => rfl⟩ hslots
  rw [← hF, hnext] at hbegun
  obtain ⟨hop, hclock, hparked, hflow⟩ := stampStarted_asked hbegun [i] s.pc s.die.nextId s.core.fact.isNone
  obtain ⟨⟨x, hmem, hx, hown, hser⟩, hpassed⟩ := passCycle_asked (t := State.modSys SysCtx.stepDelay _)
    ⟨hop, hclock, hparked, hflow⟩ hplain.beats hplain.parked
  exact ⟨_, hi.exec_ok hq hc hl hr ho, hpassed.trans (congrArg (· + 1) hcycle), x, hmem, hx, hown.trans howner,
    hser.trans hserial⟩

end

/-! ## The cope-scale table and MLPROG -/

theorem smGet_foldl_smSet (v : BitVec 32) (gs : List Nat) (m : SMap (BitVec 32)) (j : Nat) :
    smGet 0 (gs.foldl (fun m g => smSet 0 m g v) m) j = if j ∈ gs then v else smGet 0 m j := by
  induction gs generalizing m with
  | nil => rfl
  | cons g gs ih =>
    rw [List.foldl_cons, ih, smGet_smSet]
    by_cases hmem : j ∈ gs
    · rw [if_pos hmem, if_pos (List.mem_cons_of_mem g hmem)]
    · simp only [hmem, if_false, List.mem_cons, or_false]

/-- SCALE stands in the entries that the tile touches, and the others are as they were. -/
theorem copeScale_writeScales {c n : Nat} (hn : 0 < n) (v : BitVec 32) (s : State) (g : Nat) :
    smGet 0 (writeScales c n v s).core.copeScale g = if c / 128 ≤ g ∧ 128 * g < c + n then v else copeScaleAt g s := by
  have hmem : g ∈ (List.range ((c + n - 1) / 128 + 1 - c / 128)).map (fun i => c / 128 + i) ↔ c / 128 ≤ g ∧ 128 * g < c + n := by
    rw [List.mem_map]
    refine ⟨?_, fun ⟨hfirst, hlast⟩ => ⟨g - c / 128, List.mem_range.mpr (by omega), by omega⟩⟩
    rintro ⟨i, hi, rfl⟩
    rw [List.mem_range] at hi
    omega
  exact (smGet_foldl_smSet ..).trans (if_congr hmem rfl rfl)

theorem append_toNat {n m : Nat} (x : BitVec n) (y : BitVec m) : (x ++ y).toNat = x.toNat * 2 ^ m + y.toNat := by
  rw [BitVec.toNat_append, ← Nat.shiftLeft_add_eq_or_of_lt y.isLt, Nat.shiftLeft_eq]

theorem mlprogOf_toNat (f : MF) : (mlprogOf f 0).toNat =
    2 ^ 15 + (mloadN f).toNat * 2 ^ 16 + (mloadB f).toNat * 2 ^ 19 + f.caddr.toNat * 2 ^ 23 := by
  have hzero : (0 : BitVec 24).toNat = 0 := rfl
  have hone : (1 : BitVec 1).toNat = 1 := rfl
  have hgap : (0 : BitVec 6).toNat = 0 := rfl
  simp only [mlprogOf, append_toNat, BitVec.toNat_ofNat, hzero, hone, hgap]
  omega

theorem mloadSkip_own {f : MF} (hn : mloadN f = 0) (v : Word) : mloadSkip f v =
    if v.toNat / 2 ^ 9 = (2 ^ 15 + (mloadB f).toNat * 2 ^ 19 + f.caddr.toNat * 2 ^ 23) / 2 ^ 9 then v.toNat % 512 else 0 := by
  have hiff : v >>> 9 = mlprogOf f 0 >>> 9 ↔
      v.toNat / 2 ^ 9 = (2 ^ 15 + (mloadB f).toNat * 2 ^ 19 + f.caddr.toNat * 2 ^ 23) / 2 ^ 9 := by
    rw [← BitVec.toNat_inj, BitVec.toNat_ushiftRight, BitVec.toNat_ushiftRight, Nat.shiftRight_eq_div_pow,
      Nat.shiftRight_eq_div_pow, mlprogOf_toNat, hn]
    rfl
  rw [mloadSkip, bits_toNat, Nat.pow_zero, Nat.div_one]
  exact if_congr hiff rfl rfl

/-! ## The slot -/

/-- The formats of the tiles that `mload` takes. -/
def CopeFormat (r : Record) : Prop :=
  recFmt r = 12 ∨ recFmt r = 13 ∨ recFmt r = 9 ∨ recFmt r = 8 ∨ recFmt r = 11

/-- Units of the tile of such a format. -/
def copeUnits (r : Record) : Nat := if recFmt r = 12 ∨ recFmt r = 13 then 256 else 128

/-- Units of the tile, 0 where the format has none. -/
def mloadUnits (r : Record) : Nat := match mloadShape r with | some (rows, w) => rows * w / 64 | none => 0

theorem mloadShape_some {r : Record} (h : CopeFormat r) : (mloadShape r).isNone = false ∧ mloadUnits r = copeUnits r := by
  unfold CopeFormat at h
  unfold mloadUnits mloadShape copeUnits
  rcases h with h | h | h | h | h
  · rw [h]; exact ⟨rfl, rfl⟩
  · rw [h]; exact ⟨rfl, rfl⟩
  · rw [h]; exact ⟨rfl, rfl⟩
  · rw [h]; exact ⟨rfl, rfl⟩
  · rw [h]; exact ⟨rfl, rfl⟩

theorem mloadShape_none {r : Record} (h : ¬CopeFormat r) : mloadShape r = none := by
  unfold CopeFormat at h
  simp only [← BitVec.toNat_inj] at h
  unfold mloadShape
  split
  · next hfmt => exact absurd (Or.inl hfmt) h
  · next hfmt => exact absurd (Or.inr (Or.inl hfmt)) h
  · next hfmt => exact absurd (Or.inr (Or.inr (Or.inl hfmt))) h
  · next hfmt => exact absurd (Or.inr (Or.inr (Or.inr (Or.inl hfmt)))) h
  · next hfmt => exact absurd (Or.inr (Or.inr (Or.inr (Or.inr hfmt)))) h
  · rfl

theorem memoryAccess_mload (f : MF) : MemoryAccess (.mload f) (mloadN f) := {}

/-- What the slot of an `mload` does beside its operation. -/
def mloadActs (f : MF) (r : Record) (u : State) : State :=
  writeScales f.caddr.toNat (mloadUnits r) (recScale r) (bumpFor (isRelease r) r (mloadN f != 0) u)

/-- The record register of an `mload`, in use. -/
def mloadRecord (f : MF) (s : State) : Record := s.cur.b[(mloadB f).toNat]

/-- The source of the tile in scratchpad or memory. -/
def mloadSource (r : Record) (t : Int) : List Nat := named (placeAddrs r (tilePlaces r t 0))

/-- The slot of an `mload` whose checks pass. -/
def mloadIssue (f : MF) (r : Record) (t : Int) (s : State) : SlotRes :=
  if recSpace r = 2 && s.spHeld (mloadSource r t) then .engine
  else .ok (fun u => beginMload f (recFmt r) r t (if mloadN f != 0 then s.readN (mloadN f) else s.die.coord)
    (mloadSkip f s.cur.arr.mlprog) (mloadActs f r u))

/-- The slot of an `mload` with a free response slot, where nothing of its tile is held. -/
def mloadAt (f : MF) (r : Record) (v : Word) (s : State) : SlotRes :=
  if (mloadShape r).isNone || !recordOk r (mloadN f != 0) || decide (Config.copeUnits < f.caddr.toNat + mloadUnits r) then
    .trapOf .operandValue
  else match firstOutside r (tilePlaces r v.toInt 0) with
    | some a => .trap .bounds 0 a
    | none => mloadIssue f r v.toInt s

/-- The checks of the record and of the tile. -/
theorem mloadChecks_iff (f : MF) (r : Record) :
    ((mloadShape r).isNone || !recordOk r (mloadN f != 0) || decide (Config.copeUnits < f.caddr.toNat + mloadUnits r)) = false ↔
      CopeFormat r ∧ recordOk r (mloadN f != 0) = true ∧ f.caddr.toNat + copeUnits r ≤ 131072 := by
  by_cases h : CopeFormat r
  · obtain ⟨hshape, hunits⟩ := mloadShape_some h
    simp only [hshape, hunits, h, Bool.false_or, Bool.or_eq_false_iff, Bool.not_eq_false', decide_eq_false_iff_not, Nat.not_lt,
      true_and]
  · rw [mloadShape_none h]
    exact iff_of_false (by simp) (fun hall => h hall.1)

theorem slotMload_clear {f : MF} {s : State} (hq : quiet s = true) (hc : clear s = true) (hfact : s.core.fact = none)
    (hbusy : s.mloadBusy = false) : slotMload f s =
      if mloadUnits (mloadRecord f s) != 0 && s.copeHeld f.caddr.toNat (mloadUnits (mloadRecord f s)) then .engine
      else if mloadN f != 0 && decide (freeSlots s.cur = 0) then .engine
      else if gTag (bits 0 5 f.row) s then .trapOf .poison
      else mloadAt f (mloadRecord f s) (gReg (bits 0 5 f.row) s) s := by
  simp only [slotMload, needArray, hfact, quiet_arrayTaken hq, hbusy, needB_quiet hq, clear_orderHeld hc, clear_conflicts hc,
    cleanG_quiet hq, Option.isSome_none, Bool.false_eq_true, if_false]
  rfl

/-! ## What the slot commits -/

/-- The cope-scale table is written. -/
theorem act_writeScales (c n : Nat) (v : BitVec 32) : Act (writeScales c n v) := {}

theorem mloadActs_eq (f : MF) (r : Record) : mloadActs f r =
    writeScales f.caddr.toNat (mloadUnits r) (recScale r) ∘ (Beside.bump (isRelease r) r (mloadN f != 0)).act :=
  funext fun _ => congrArg _ (bumpFor_eq ..)

theorem act_mload (f : MF) (r : Record) : Act (mloadActs f r) := by
  rw [mloadActs_eq]
  exact (act_writeScales ..).comp (.beside (b := .bump (isRelease r) r (mloadN f != 0)) rfl)

theorem mloadActs_setOps (f : MF) (r : Record) (l : List Op) (n : Nat) (u : State) :
    mloadActs f r (setOps l n u) = setOps l n (mloadActs f r u) := by
  simp only [mloadActs_eq, Function.comp_apply, Beside.act_setOps]
  rfl

/-- The context in focus stays as it is. -/
theorem mloadActs_focus (f : MF) (r : Record) (u : State) :
    (mloadActs f r u).cur = u.cur ∧ (mloadActs f r u).curId = u.curId ∧ (mloadActs f r u).core.cycle = u.core.cycle := by
  rw [mloadActs_eq]
  exact ⟨rfl, rfl, rfl⟩

theorem mloadActs_ops (f : MF) (r : Record) (u : State) : (mloadActs f r u).die.ops = u.die.ops := by
  rw [mloadActs_eq]
  exact ((Beside.bump (isRelease r) r (mloadN f != 0)).ops_act u).1

/-- The operation of an `mload` that skips units. -/
def mloadOp (f : MF) (r : Record) (t : Int) (skip : Nat) (s : State) : Op :=
  { mkOp (.mload f (recFmt r) skip) s with
    record := r, offset := t, space := (recSpace r).setWidth 3, lo := (rangeOf (placeAddrs r (tilePlaces r t 0))).1,
    hi := (rangeOf (placeAddrs r (tilePlaces r t 0))).2, isRead := true, counted := false }

section
variable {f : MF} {s : State} (hq : quiet s = true) (hc : clear s = true) (hl : lone (.mload f) s = true) {r : Record} {t : Int}
  (hr : slotRes (s.nextPc [.mload f]) none (.mload f) s = .ok (fun u => beginMload f (recFmt r) r t
    (if mloadN f != 0 then s.readN (mloadN f) else s.die.coord) (mloadSkip f s.cur.arr.mlprog) (mloadActs f r u)))
include hq hc hl hr

/-- An `mload` of the own die begins its operation. -/
theorem exec_mload_own (hn : mloadN f = 0) : exec (.mload f) s =
    .next (mloadActs f r (begins (.mload f) (mloadOp f r t (mloadSkip f s.cur.arr.mlprog) s) s)) := by
  have hsame : ∀ k, (mloadOp f r t k (mloadActs f r (moved (.mload f) s))).blank = (mloadOp f r t k s).blank := by
    intro k
    rw [mloadActs_eq]
    rfl
  exact (memoryAccess_mload f).exec_acts_begins hq hc hl (act_mload f r) hr (overflows_none rfl) (fun _ _ => rfl) rfl rfl
    (mloadActs_setOps f r) (fun u => (mloadActs_focus f r u).1) (fun u => (mloadActs_focus f r u).2.1) (mloadActs_ops f r)
    (if_pos hn) (hsame _) rfl

/-- An `mload` from a peer asks it. -/
theorem exec_mload_peer (hn : mloadN f ≠ 0) (hslots : freeSlots s.cur ≠ 0) : asksPeer (.mload f) s := by
  obtain ⟨hcur, hid, hcycle⟩ := mloadActs_focus f r (moved (.mload f) s)
  exact (memoryAccess_mload f).exec_acts_asks (o := mloadOp f r t (mloadSkip f s.cur.arr.mlprog) (mloadActs f r (moved (.mload f) s)))
    hq hc hl (act_mload f r) hr (overflows_none rfl) (fun _ _ => rfl) hid ((congrArg Ctx.serial hcur).trans rfl) ⟨_, _, if_neg hn⟩
    (by rw [hcur]; exact hslots) hcycle

end

/-! ## Obligation O28 -/

/-- Settles O28, by the waits and the checks of the slot in their order, and by what it commits. -/
theorem tileLoadIntoCopeStore : Obligations.TileLoadIntoCopeStore := by
  intro f s hq hc hfact hbusy hl reg r n o units taken c places range held from_ stops
  have hi := memoryAccess_mload f
  have hslot : slotRes (s.nextPc [.mload f]) none (.mload f) s = _ := slotMload_clear hq hc hfact hbusy
  have hunits : taken → mloadUnits r = units := fun h => (mloadShape_some h).2
  have hpos : 0 < units := by
    dsimp only [units]
    split
    · decide
    · decide
  have hheld : (mloadUnits r != 0 && s.copeHeld c (mloadUnits r)) = true ↔ held := by
    by_cases htaken : taken
    · simp only [held, htaken, true_and, hunits htaken, bne_iff_ne.mpr (Nat.ne_of_gt hpos), Bool.true_and]
    · have hnone : mloadUnits r = 0 := by rw [mloadUnits, mloadShape_none htaken]
      simp only [held, htaken, false_and, hnone, iff_false]
      exact Bool.false_ne_true
  have hfree := fun h : ¬held => hslot.trans (if_neg (mt hheld.mp h))
  have hstops : ¬held → ∀ {cause a}, cause ≠ .softwareTrap → (if gTag reg s then .trapOf .poison else mloadAt f r o s) =
      SlotRes.trap cause 0 a → stops cause a := by
    intro h cause a hsoft htrap
    by_cases hslots : (n != 0 && decide (freeSlots s.cur = 0)) = true
    · exact (hi.exec_engine hq hc hl ((hfree h).trans (if_pos hslots))).trans (congrArg _ (if_pos hslots).symm)
    · exact hi.exec_trap hq hc hl (((hfree h).trans (if_neg hslots)).trans htrap) hsoft
  refine ⟨fun h => ?_, fun h htag => ?_, fun h htag hbad => ?_, fun h htag htaken hok hroom => ?_⟩
  · exact hi.exec_engine hq hc hl (hslot.trans (if_pos (hheld.mpr h)))
  · exact hstops h (by decide) (if_pos htag)
  · refine hstops h (by decide) ((if_neg (Bool.eq_false_iff.mp htag)).trans (if_pos ?_))
    exact Bool.eq_true_of_not_eq_false fun hgood => hbad ((mloadChecks_iff f r).mp hgood)
  · have hchecked : (if gTag reg s then .trapOf .poison else mloadAt f r o s) = match firstOutside r places with
        | some a => SlotRes.trap .bounds 0 a
        | none => mloadIssue f r o.toInt s := by
      rw [if_neg (Bool.eq_false_iff.mp htag), mloadAt, (mloadChecks_iff f r).mpr ⟨htaken, hok, hroom⟩]
      rfl
    have hpassed : n = 0 ∨ freeSlots s.cur ≠ 0 → firstOutside r places = none →
        slotRes (s.nextPc [.mload f]) none (.mload f) s = mloadIssue f r o.toInt s := by
      intro hslots hin
      rw [hin] at hchecked
      refine ((hfree h).trans (if_neg ?_)).trans hchecked
      rw [Bool.and_eq_true, bne_iff_ne, decide_eq_true_eq]
      exact fun hboth => hslots.elim hboth.1 (fun hsome => hsome hboth.2)
    refine ⟨fun a ha => ?_, fun hin hspace hsource hn => ?_, fun hin hsource hn => ?_, fun hin hn hslots => ?_,
      fun hin hn hslots => ?_⟩
    · rw [ha] at hchecked
      exact hstops h (by decide) hchecked
    · refine hi.exec_engine hq hc hl ((hpassed (.inl hn) hin).trans (if_pos ?_))
      rw [decide_eq_true hspace]
      exact hsource
    · have hissue := (hpassed (.inl hn) hin).trans (if_neg (by
        rw [Bool.and_eq_true, decide_eq_true_eq]
        exact fun hboth => Bool.eq_false_iff.mp (hsource hboth.1) hboth.2))
      intro skip
      refine ⟨(writeScales c units (recScale r) s).core, fun g _ => copeScale_writeScales hpos _ s g, ?_⟩
      rw [exec_mload_own hq hc hl hissue hn, mloadSkip_own hn, mloadActs, hunits htaken, show mloadN f = 0 from hn, ordered, bumpFor_eq,
        bumpFor_eq]
      rfl
    · refine hi.exec_engine hq hc hl ((hfree h).trans (if_pos ?_))
      rw [Bool.and_eq_true, bne_iff_ne, decide_eq_true_eq]
      exact ⟨hn, hslots⟩
    · have hspace : recSpace r ≠ 2 := by
        obtain ⟨-, -, -, -, -, -, -, -, -, hheap⟩ := (recordOk_iff r _).mp hok
        rw [(recSpace_eq_iff r (k := 3) (by decide)).mpr (hheap (bne_iff_ne.mpr hn))]
        decide
      have hissue := (hpassed (.inr hslots) hin).trans (if_neg (by
        rw [Bool.and_eq_true, decide_eq_true_eq]
        exact fun hboth => hspace hboth.1))
      exact exec_mload_peer hq hc hl hissue hn hslots

end Sys2Proof.Machine
end

section
/-! The end of an operation of the context in focus (spec/11_storage.md R165, R167). -/
namespace Sys2Proof.Machine

/-! ## What leaves the focus and the operations of the die alone -/

/-- The context in focus is the same one, and the operations of the die are as before. -/
structure OpsKept (s t : State) : Prop where
  focus : t.curId = s.curId
  ops : t.die.ops = s.die.ops

namespace OpsKept

theorem refl (s : State) : OpsKept s s := ⟨rfl, rfl⟩

theorem trans {s t u : State} (h : OpsKept s t) (h' : OpsKept t u) : OpsKept s u :=
  ⟨h'.focus.trans h.focus, h'.ops.trans h.ops⟩

theorem foldl {α : Type} {f : State → α → State} (hf : ∀ s a, OpsKept s (f s a)) :
    ∀ (l : List α) (s : State), OpsKept s (l.foldl f s)
  | [], s => refl s
  | a :: l, s => (hf s a).trans (foldl hf l _)

end OpsKept

theorem setCtxAt_opsKept (id : CtxId) (c : Ctx) (s : State) : OpsKept s (setCtxAt id c s) where
  focus := by
    by_cases h : id = s.curId
    · rw [h, setCtxAt_cur]
      rfl
    · rw [setCtxAt_parked h, curId_park]
  ops := by rw [setCtxAt_die]

theorem sendPacket_opsKept (p : Packet) (s : State) : OpsKept s (sendPacket p s) := by
  obtain ⟨-, hcore, -⟩ := sendPacket_kept p s
  exact ⟨by rw [State.curId, hcore]; rfl, sendPacket_ops p s⟩

theorem raiseBoundary_opsKept (c : CtxId) (cause : Cause) (aux : BitVec 8) (faddr : Word) (log : Option (Word × List Byte))
    (s : State) : OpsKept s (raiseBoundary c cause aux faddr log s) := by
  unfold raiseBoundary
  dsimp only
  split
  · exact setCtxAt_opsKept ..
  · exact ⟨rfl, rfl⟩
  · exact .refl s

theorem abortMember_opsKept (c : CtxId) (s : State) : OpsKept s (abortMember c s) := by
  unfold abortMember
  split
  · exact (raiseBoundary_opsKept ..).trans (setCtxAt_opsKept ..)
  · exact .refl s

theorem deliverAborts_opsKept (n : RegionName) (s : State) : OpsKept s (deliverAborts n s) :=
  (OpsKept.foldl (fun s c => abortMember_opsKept c s) (membersHere n s) s).trans ⟨rfl, rfl⟩

theorem tellAbort_opsKept (n : RegionName) (s : State) : OpsKept s (tellAbort n s) :=
  .foldl (fun _ _ => sendPacket_opsKept ..) (otherDies s) s

theorem writeCells_kept_ops (cells : List (PByte × Byte)) (s : State) : OpsKept s (writeCells cells s) := by
  refine OpsKept.trans (OpsKept.foldl (fun t c => ?_) cells s) ⟨rfl, rfl⟩
  obtain ⟨-, hcore, -, hdie, -⟩ := physWrite_frame c.1.1 c.1.2 c.2 t
  exact ⟨by rw [State.curId, hcore]; rfl, congrArg Die.ops hdie⟩

theorem writeObj_opsKept (p : Tier × Nat) (o : BitVec 512) (s : State) : OpsKept s (writeObj p o s) := by
  unfold writeObj physPut
  exact writeCells_kept_ops ..

theorem endRegion_opsKept (n : RegionName) (s : State) : OpsKept s (endRegion n s) := by
  have hfree : OpsKept s (freeLines n (dropRegion n s)) := ⟨rfl, rfl⟩
  exact hfree.trans ((deliverAborts_opsKept ..).trans (tellAbort_opsKept ..))

theorem abortRegion_opsKept (n : RegionName) (cause : Nat) (s : State) : OpsKept s (abortRegion n cause s) := by
  unfold abortRegion
  split
  · exact .refl s
  · dsimp only
    split
    · exact .refl s
    · exact (writeObj_opsKept ..).trans (endRegion_opsKept ..)

/-- A write of memory, and the aborts that it brings. -/
theorem storeCells_opsKept (cells : List (PByte × Byte)) (s : State) : OpsKept s (storeCells cells s) := by
  have hreport : ∀ (t : State) (l : ShardLine), OpsKept t (reportAbort l.region 5 t) := by
    intro t l
    unfold reportAbort
    split
    · exact abortRegion_opsKept ..
    · exact sendPacket_opsKept ..
  unfold storeCells
  refine (writeCells_kept_ops cells s).trans (OpsKept.trans ?_ (.foldl hreport _ _))
  split
  · exact .refl _
  · exact ⟨rfl, rfl⟩

/-- Without tentative lines a write of memory is that of its bytes. -/
theorem storeCells_alone {s : State} (h : s.die.shard = []) (cells : List (PByte × Byte)) : storeCells cells s = writeCells cells s := by
  have hnone : clashing cells s = [] := by rw [clashing, h]; rfl
  rw [storeCells, hnone]
  rfl

/-! ## Its end -/

/-- An operation of the task that runs on the context in focus. -/
theorem ours_iff (o : Op) (s : State) : ours o s = true ↔
    o.owner = s.curId ∧ o.serial = s.cur.serial ∧ s.cur.flow.residency = .running ∧ o.remote = none := by
  simp only [ours, Bool.and_eq_true, beq_iff_eq, Option.isNone_iff_eq_none, and_assoc]

theorem foldl_unchanged {α β : Type} {f : β → α → β} {b : β} : ∀ {l : List α}, (∀ a ∈ l, f b a = b) → l.foldl f b = b
  | [], _ => rfl
  | a :: l, h => by
    rw [List.foldl_cons, h a List.mem_cons_self]
    exact foldl_unchanged fun x hx => h x (List.mem_cons_of_mem a hx)

/-- Where nothing waits for operations, the end of one serves none. -/
theorem settleRsync_eq {s : State} (h : noRsync s = true) : settleRsync s = s := by
  rw [noRsync, List.all_eq_true] at h
  refine foldl_unchanged fun o ho => if_neg ?_
  have hkind := h o ho
  unfold Op.settled
  cases hk : o.kind with
  | rsync f n w => rw [hk] at hkind; exact absurd hkind Bool.false_ne_true
  | acquire w => rw [hk] at hkind; exact absurd hkind Bool.false_ne_true
  | _ => exact Bool.false_ne_true

theorem noRsync_dropOp {s : State} (h : noRsync s = true) (id : Nat) : noRsync (dropOp id s) = true := by
  rw [noRsync, List.all_eq_true] at h ⊢
  exact fun o ho => h o (List.mem_of_mem_filter ho)

theorem endOp_local {o : Op} {s : State} (hremote : o.remote = none) (h : noRsync s = true) : endOp o s = dropOp o.id s := by
  rw [endOp, releaseSlot, hremote]
  exact settleRsync_eq (noRsync_dropOp h o.id)

theorem findOp_dropOp (id : Nat) (s : State) : findOp id (dropOp id s) = none := by
  refine List.find?_eq_none.mpr fun o ho => ?_
  simpa using List.of_mem_filter ho

/-- The post of an operation of the context in focus. -/
theorem ended_eq (o : Op) (s : State) : ended o s =
    dropOp o.id (match o.post with | some f => s.modCore (Core.post f 1) | none => s) := rfl

theorem finishOp_ours {o : Op} {s u : State} (hours : ours o s = true) (hno : noRsync s = true) (hu : OpsKept s u) :
    finishOp o u = ended o u := by
  obtain ⟨howner, -, -, hremote⟩ := (ours_iff o s).mp hours
  have hno' : ∀ g : Core → Core, noRsync (u.modCore g) = true := fun g => by
    rw [noRsync, show (u.modCore g).die.ops = s.die.ops from hu.ops]
    exact hno
  have hcore : o.owner.core = u.core.id := congrArg CtxId.core (howner.trans hu.focus.symm)
  rw [ended_eq, finishOp]
  cases o.post with
  | none => exact endOp_local hremote (hno' id)
  | some f =>
    have hpost : postFlag o.owner.core f 1 u = u.modCore (Core.post f 1) := by
      rw [postFlag, modCoreAt, setCoreAt, if_pos hcore, coreAt, if_pos hcore]
      rfl
    dsimp only
    rw [hpost]
    exact endOp_local hremote (hno' _)

/-- The end of an operation leaves the context in focus, its cluster and the memories as they are. -/
theorem ended_frame (o : Op) (u : State) : (ended o u).cur = u.cur ∧ (ended o u).cluster = u.cluster ∧ (ended o u).curId = u.curId ∧
    (ended o u).core.trees = u.core.trees ∧ (ended o u).core.cope = u.core.cope ∧ findOp o.id (ended o u) = none := by
  rw [ended_eq]
  refine ⟨?_, ?_, ?_, ?_, ?_, findOp_dropOp ..⟩
  all_goals cases o.post with
    | none => rfl
    | some f => rfl

/-- The operation numbered `id`, of the task that runs on the context in focus, has nothing to wait for, and nothing waits for
operations of the die. -/
structure Due (id : Nat) (o : Op) (s : State) : Prop where
  find : s.die.ops.find? (fun x => x.id == id) = some o
  ours : ours o s = true
  alone : noRsync s = true
  thawed : o.inCore = true → s.core.frozenLeft = 0
  first : o.follows s = false
  unlocked : o.atLock s = false

namespace Due

variable {id : Nat} {o : Op} {s : State} (h : Due id o s)
include h

theorem number : o.id = id := by simpa using List.find?_some h.find

theorem owner : o.owner = s.curId := ((ours_iff o s).mp h.ours).1

theorem present {u : State} (hflow : u.cur.flow = s.cur.flow) (hid : u.curId = s.curId) : ownerPresent o u = true := by
  obtain ⟨howner, hserial, hrunning, -⟩ := (ours_iff o s).mp h.ours
  rw [ownerPresent, howner, ← hid, ctxAt_cur, hserial, Ctx.serial, Ctx.serial, hflow, hrunning]
  simp

theorem drops {u : State} (hu : OpsKept s u) : endOp o u = dropOp o.id u := by
  obtain ⟨-, -, -, hremote⟩ := (ours_iff o s).mp h.ours
  refine endOp_local hremote ?_
  rw [noRsync, hu.ops]
  exact h.alone

/-- The completion of an operation that has nothing to wait for. -/
theorem completes (hfocus : (completeLocal o s).curId = s.curId) : completeOp id s = completeLocal o s := by
  obtain ⟨howner, -, -, hremote⟩ := (ours_iff o s).mp h.ours
  have hcore : coreAt s.curId.core s = s.core := if_pos rfl
  have hthawed : (o.inCore && decide (0 < (coreAt o.owner.core s).frozenLeft)) = false := by
    rw [howner, hcore]
    cases hin : o.inCore with
    | false => rfl
    | true => rw [h.thawed hin]; rfl
  rw [completeOp, findOp, h.find]
  simp only [hremote, h.first, h.unlocked, hthawed, Option.isSome_none, Bool.or_self, Bool.false_eq_true, if_false]
  rw [howner]
  exact withFocus_curId hfocus

/-- An operation that is performed and then ends. -/
theorem completes_ends {u : State} (hu : OpsKept s u) (hlocal : completeLocal o s = finishOp o u) :
    completeOp id s = ended o u := by
  have heq := hlocal.trans (finishOp_ours h.ours h.alone hu)
  obtain ⟨-, -, hfocus, -⟩ := ended_frame o u
  exact (h.completes ((congrArg State.curId heq).trans (hfocus.trans hu.focus))).trans heq

theorem exec_ends {u : State} (hu : OpsKept s u) (hlocal : completeLocal o s = finishOp o u) :
    exec (.operationComplete id) s = .next (ended o u) :=
  congrArg Host.Outcome.next (h.completes_ends hu hlocal)

end Due

end Sys2Proof.Machine
end

section
/-! What a completing operation of the context in focus delivers (spec/11_storage.md R154, R165 to R169; spec/17_matrix.md R247). -/
namespace Sys2Proof.Machine

/-! ## Delivery to the context in focus -/

/-- The register that an operation owes receives its value, and is owed no more. -/
def Ctx.receivesG (g : BitVec 5) (v : Word) (p : Bool) (id : Nat) (c : Ctx) : Ctx :=
  { c with g := c.g.set g.toNat v, gPoison := setBit c.gPoison g.toNat p, owed := c.owed.filter (fun x => x != (.g g, id)) }

/-- The entry of an interlocked push after its value has come. -/
def QEntry.delivered (e : QEntry) (v : BitVec 1024) (p : Bool) (cyc : Nat) : QEntry :=
  { e with bits := v, poison := p, landed := true, interlocked := false, due := cyc }

section
variable {o : Op} {s : State} (howner : o.owner = s.curId)
include howner

theorem modCtxAt_owner (f : Ctx → Ctx) : modCtxAt o.owner f s = s.modCtx f := by
  rw [modCtxAt, howner, ctxAt_cur, setCtxAt_cur]
  rfl

theorem deliverG_ours {g : BitVec 5} (hg : g ≠ 0) (howed : s.cur.owed.contains (.g g, o.id) = true) (v : Word) (p : Bool) :
    deliverG o g v p s = s.modCtx (Ctx.receivesG g v p o.id) := by
  have hzero : (Dest.g g).isZero = false := by simpa [Dest.isZero] using hg
  have hwidth : (v.setWidth 128).setWidth 64 = v := by rw [BitVec.setWidth_setWidth_of_le v (by decide), BitVec.setWidth_eq]
  rw [deliverG, modCtxAt_owner howner]
  simp only [State.modCtx, howed, if_true, Ctx.writeDest, hzero, Bool.false_eq_true, if_false, hwidth]
  rfl

theorem deliverQueue_ours {q : BitVec 5} {e : QEntry} (hqueue : s.cur.queue q = [e]) (hlanded : e.landed = false)
    (hwaits : e.interlocked = true) (hop : e.op = o.id) (v : BitVec 1024) (p : Bool) :
    deliverQueue o q v p s = s.modCtx (fun c => c.setQueue q [e.delivered v p s.core.cycle]) := by
  have hcycle : (coreAt o.owner.core s).cycle = s.core.cycle := by
    rw [howner]
    exact congrArg Core.cycle (if_pos rfl)
  rw [deliverQueue, modCtxAt_owner howner, hcycle]
  simp only [State.modCtx, Ctx.deliverQ, hqueue, List.map_cons, List.map_nil, hwaits, hop, beq_self_eq_true, Bool.and_self,
    if_true, landQueue, hlanded, Bool.false_eq_true, if_false, Bool.not_false, decide_true, le_refl, QEntry.delivered]

end

/-! ## Accesses of scratchpad that complete -/

theorem opsKept_modCtx (f : Ctx → Ctx) (s : State) : OpsKept s (s.modCtx f) := ⟨rfl, rfl⟩

theorem opsKept_modCluster (f : Cluster → Cluster) (s : State) : OpsKept s (s.modCluster f) := ⟨rfl, rfl⟩

theorem writeScratch_opsKept (l : List (Option Nat)) (bs : List Byte) (s : State) : OpsKept s (writeScratch l bs s) := by
  rw [writeScratch_eq]
  exact ⟨rfl, rfl⟩

/-- The addresses of `n` bytes of an operation. -/
def Op.run (o : Op) (n : Nat) : List (Option Nat) := placeAddrs o.record (recRun o.record o.offset n)

section
variable {o : Op} {s : State} (hfe : o.fe = 0)
include hfe

theorem completeScratch_elemLoad {g : BitVec 5} {n : Nat} {sg spec : Bool} {x : Option (Word × Bool)}
    (hk : o.kind = .elemLoad g n sg spec x) : completeScratch o s =
      finishOp o (deliverG o g (loadValue n sg (readScratch (o.run n) s)) (scratchFault (o.run n) s) s) := by
  simp only [completeScratch, hk, hfe]
  rfl

theorem completeScratch_vecLoad {q : BitVec 5} {spec : Bool} {x : Option (BitVec 1024 × Bool)} (hk : o.kind = .vecLoad q spec x) :
    completeScratch o s = finishOp o
      (deliverQueue o q (BitVec.ofNat 1024 (leNat (readScratch (o.run 128) s))) (scratchFault (o.run 128) s) s) := by
  simp only [completeScratch, hk, hfe]
  rfl

theorem completeScratch_vecStore {d : BitVec 1024} (hk : o.kind = .vecStore d) : completeScratch o s =
    finishOp o (writeScratch (o.run 128) (leBytes 128 d.toNat) s) := by
  simp only [completeScratch, hk, hfe, leBytes_length]
  rfl

theorem completeScratch_elemStore {n : Nat} {v : Word} (hk : o.kind = .elemStore n v) : completeScratch o s =
    finishOp o (writeScratch (o.run n) (leBytes n v.toNat) s) := by
  simp only [completeScratch, hk, hfe, leBytes_length]
  rfl

end

/-! ## What the completion of an access delivers -/

section
variable {id : Nat} {o : Op} {s : State} (h : Due id o s)
include h

/-- A value for a general register. -/
theorem Due.exec_gives {g : BitVec 5} {v : Word} {p : Bool} (hlocal : completeLocal o s = finishOp o (deliverG o g v p s))
    (hg : g ≠ 0) (howed : s.cur.owed.contains (.g g, id) = true) :
    exec (.operationComplete id) s = .next (ended o (s.modCtx (Ctx.receivesG g v p id))) := by
  obtain rfl := h.number
  rw [deliverG_ours h.owner hg howed] at hlocal
  exact h.exec_ends ⟨rfl, rfl⟩ hlocal

/-- An entry for a queue. -/
theorem Due.exec_enters {q : BitVec 5} {v : BitVec 1024} {p : Bool} (hlocal : completeLocal o s = finishOp o (deliverQueue o q v p s))
    {e : QEntry} (hqueue : s.cur.queue q = [e]) (hlanded : e.landed = false) (hwaits : e.interlocked = true) (hop : e.op = id) :
    exec (.operationComplete id) s = .next (ended o (s.modCtx (fun c => { c with
      q := c.q.set q.toNat [e.delivered v p s.core.cycle], sys := { s.cur.sys with fstat := s.cur.sys.fstat ||| 0 } }))) := by
  rw [deliverQueue_ours h.owner hqueue hlanded hwaits (hop.trans h.number.symm)] at hlocal
  have hflags : s.cur.sys.fstat ||| 0 = s.cur.sys.fstat := BitVec.or_zero
  rw [h.exec_ends (opsKept_modCtx _ s) hlocal, hflags]
  rfl

/-- Bytes of memory. -/
theorem Due.exec_stores {cells : List (PByte × Byte)} (hlocal : completeLocal o s = finishOp o (storeCells cells s)) :
    exec (.operationComplete id) s = .next (ended o (storeCells cells s)) :=
  h.exec_ends (storeCells_opsKept ..) hlocal

end

theorem completeLocal_inScratch {o : Op} (h : o.inScratch = true) (s : State) : completeLocal o s = completeScratch o s := if_pos h

/-! ## Loads into scratchpad -/

theorem named_scratchRun (sp n : Nat) : named (scratchRun sp n) = List.range' sp n := by
  rw [List.range'_eq_map_range]
  simp [named, scratchRun, List.filterMap_map]

/-- Bytes land one after the other from an address. -/
theorem scratchRead_landBytes (a : Nat) : ∀ (bs : List Byte) (sp : Nat) (s : State),
    scratchRead a (landBytes ((List.range' sp bs.length).zip bs) s) =
      if sp ≤ a ∧ a < sp + bs.length then bs.getD (a - sp) 0 else scratchRead a s
  | [], sp, s => (if_neg (by simp only [List.length_nil]; omega)).symm
  | b :: bs, sp, s => by
    have ih := scratchRead_landBytes a bs (sp + 1) (scratchWrite sp b s)
    have hcons : landBytes ((List.range' sp (b :: bs).length).zip (b :: bs)) s =
        landBytes ((List.range' (sp + 1) bs.length).zip bs) (scratchWrite sp b s) := rfl
    rw [hcons, ih, scratchRead_scratchWrite, List.length_cons]
    by_cases hfirst : a = sp
    · subst hfirst
      simp
    · by_cases hlater : sp + 1 ≤ a ∧ a < sp + 1 + bs.length
      · have hstep : a - sp = (a - (sp + 1)) + 1 := by omega
        rw [if_pos hlater, if_pos (by omega), hstep, List.getD_cons_succ]
      · rw [if_neg hlater, if_neg hfirst, if_neg (by omega)]

/-- Parts of the scratchpad side that an act on granules and lines leaves alone. -/
structure BytesKept (s t : State) : Prop where
  bytes : t.cluster.sp = s.cluster.sp
  kept : OpsKept s t
  cur : t.cur = s.cur

theorem BytesKept.trans {s t u : State} (h : BytesKept s t) (h' : BytesKept t u) : BytesKept s u :=
  ⟨h'.bytes.trans h.bytes, h.kept.trans h'.kept, h'.cur.trans h.cur⟩

theorem BytesKept.foldl {α : Type} {f : State → α → State} (hf : ∀ s a, BytesKept s (f s a)) :
    ∀ (l : List α) (s : State), BytesKept s (l.foldl f s)
  | [], s => ⟨rfl, .refl s, rfl⟩
  | a :: l, s => (hf s a).trans (foldl hf l _)

theorem setFullAll_bytesKept (gs : List Nat) (full : Bool) (s : State) : BytesKept s (setFullAll gs full s) :=
  .foldl (f := fun s g => setFull g full s) (fun _ _ => ⟨rfl, ⟨rfl, rfl⟩, rfl⟩) gs s

theorem loadClean_bytesKept (k : OpKind) (dst : List Nat) (s : State) : BytesKept s (loadClean k dst s) :=
  (setFullAll_bytesKept ..).trans (.foldl (f := fun s e => setLineFault e false s) (fun _ _ => ⟨rfl, ⟨rfl, rfl⟩, rfl⟩) _ _)

theorem landBytes_opsKept (xs : List (Nat × Byte)) (s : State) : OpsKept s (landBytes xs s) :=
  .foldl (f := fun s (x : Nat × Byte) => scratchWrite x.1 x.2 s) (fun _ _ => ⟨rfl, rfl⟩) xs s

theorem isFull_setFullAll (g : Nat) (full : Bool) : ∀ (gs : List Nat) (s : State),
    isFull g (setFullAll gs full s) = if g ∈ gs then full else isFull g s
  | [], _ => rfl
  | x :: gs, s => by
    have hset : isFull g (setFull x full s) = if g = x then full else isFull g s := smGet_smSet ..
    have hcons : setFullAll (x :: gs) full s = setFullAll gs full (setFull x full s) := rfl
    rw [hcons, isFull_setFullAll g full gs, hset]
    by_cases hmem : g ∈ gs
    · rw [if_pos hmem, if_pos (List.mem_cons_of_mem x hmem)]
    · simp only [hmem, if_false, List.mem_cons, or_false]

/-- A load that has all its bytes leaves every granule of its destination full. -/
theorem isFull_loadClean {k : OpKind} {dst : List Nat} {g : Nat} (hg : g ∈ granulesOf dst) (s : State) :
    isFull g (loadClean k dst s) = true := by
  have hlines : ∀ (l : List Nat) (t : State), isFull g (l.foldl (fun s e => setLineFault e false s) t) = isFull g t := by
    intro l
    induction l with
    | nil => exact fun _ => rfl
    | cons e l ih => exact fun t => ih _
  rw [loadClean, hlines, isFull_setFullAll, if_pos hg]

section
variable {id : Nat} {o : Op} {s : State} (h : Due id o s)
include h

/-- A tile load whose source is read to its end. -/
theorem Due.tileLoad_lands (hout : o.inScratch = false) {spec : Bool} {sp : Nat} {shape : BitVec 16}
    (hk : o.kind = .tileLoad spec sp shape) (hsound : o.doomed = false) {rows w : Nat} {bs : List Byte}
    (hshape : tileShape o.record shape = some (rows, w))
    (hread : engineRead o o.record (tilePlaces o.record o.offset shape) s = (bs, .done)) (hlength : bs.length = rows * w) :
    ∃ t, exec (.operationComplete id) s = .next t ∧ findOp id t = none ∧
      (∀ i, i < rows * w → scratchRead (sp + i) t = bs.getD i 0) ∧
      (∀ a, a < sp ∨ sp + rows * w ≤ a → scratchRead a t = scratchRead a s) ∧
      (∀ i, i < rows * w → isFull ((sp + i) / 16) t = true) := by
  have hdst : loadDst o = List.range' sp (rows * w) := by
    rw [loadDst, hk]
    simp only [hshape]
    exact named_scratchRun ..
  have hplaces : loadPlaces o = tilePlaces o.record o.offset shape := by rw [loadPlaces, hk]
  let put := setFullAll (landedGranules ((loadDst o).map some) bs.length) true (landBytes ((loadDst o).zip bs) s)
  let u := loadClean o.kind (loadDst o) put
  have hput : BytesKept (landBytes ((loadDst o).zip bs) s) put := setFullAll_bytesKept ..
  have hclean : BytesKept put u := loadClean_bytesKept ..
  have hlocal : completeLocal o s = finishOp o u := by
    have hload : completeLocal o s = completeLoad o s := by
      rw [completeLocal, hout, hk]
      rfl
    rw [hload, completeLoad]
    simp only [hsound, Bool.false_eq_true, if_false, hplaces, hread]
    rfl
  have hkept : OpsKept s u := (landBytes_opsKept ..).trans (hput.kept.trans hclean.kept)
  obtain ⟨-, hcluster, -, -, -, hgone⟩ := ended_frame o u
  rw [h.number] at hgone
  have hbytes : ∀ a, scratchRead a (ended o u) = if sp ≤ a ∧ a < sp + rows * w then bs.getD (a - sp) 0 else scratchRead a s := by
    intro a
    have hsame : scratchRead a (ended o u) = scratchRead a (landBytes ((loadDst o).zip bs) s) := by
      rw [scratchRead, hcluster, hclean.bytes, hput.bytes]
      rfl
    rw [hsame, hdst, ← hlength]
    exact scratchRead_landBytes a bs sp s
  refine ⟨ended o u, h.exec_ends hkept hlocal, hgone, fun i hi => ?_, fun a ha => ?_, fun i hi => ?_⟩
  · rw [hbytes, if_pos (by omega), Nat.add_sub_cancel_left]
  · rw [hbytes, if_neg (by omega)]
  · have hmem : (sp + i) / 16 ∈ granulesOf (loadDst o) := by
      rw [granulesOf, List.mem_dedup, List.mem_map, hdst]
      exact ⟨sp + i, List.mem_range'_1.mpr (by omega), rfl⟩
    rw [isFull, hcluster]
    exact isFull_loadClean hmem put

end

/-! ## Atomics -/

theorem writeCells_queuesKept (cells : List (PByte × Byte)) (s : State) : QueuesKept s (writeCells cells s) :=
  QueuesKept.trans (.foldl (f := fun s (c : PByte × Byte) => physWrite c.1.1 c.1.2 c.2 s) (fun _ _ => physWrite_kept ..) cells s)
    ⟨rfl, rfl, rfl⟩

section
variable {id : Nat} {o : Op} {s : State} (h : Due id o s) (hout : o.inScratch = false) (hclean : cellsPoison o.cells s = false)
  {g : BitVec 5} {op : BitVec 3} {un wide nr : Bool} {arg : Word} (hk : o.kind = .amo g op un wide nr arg) {bs : List Byte}
  (hbytes : atomicBytes o.kind (leNat (readCells o.cells s)) = some bs)
include h hout hclean hk hbytes

theorem Due.exec_silentAtomic (hnr : nr = true) :
    exec (.operationComplete id) s = .next (ended o (storeCells (pairCells o.cells bs) s)) := by
  refine h.exec_stores ?_
  have hlocal : completeLocal o s = completeAtomic o none s := by
    rw [completeLocal, hout, hk]
    exact congrArg (completeAtomic o · s) (if_pos hnr)
  rw [hlocal, completeAtomic]
  simp only [hbytes, hclean, Bool.false_eq_true, if_false]

/-- An atomic that returns the old value. -/
theorem Due.exec_atomic (hnr : nr = false) (hg : g ≠ 0) : ∃ t, exec (.operationComplete id) s = .next t ∧
    (s.cur.owed.contains (.g g, id) = true → s.die.shard = [] →
      t.cur.g[g.toNat] = BitVec.ofNat 64 (leNat (readCells o.cells s))) := by
  have hkept := storeCells_opsKept (pairCells o.cells bs) s
  have howner : o.owner = (storeCells (pairCells o.cells bs) s).curId := h.owner.trans hkept.focus.symm
  let u := deliverG o g (BitVec.ofNat 64 (leNat (readCells o.cells s))) false (storeCells (pairCells o.cells bs) s)
  have hu : OpsKept s u := hkept.trans (setCtxAt_opsKept ..)
  have hlocal : completeLocal o s = finishOp o u := by
    have hlocal : completeLocal o s = completeAtomic o (some g) s := by
      rw [completeLocal, hout, hk]
      exact congrArg (completeAtomic o · s) (if_neg (Bool.eq_false_iff.mp hnr))
    rw [hlocal, completeAtomic]
    simp only [hbytes, hclean, Bool.false_eq_true, if_false]
    rfl
  refine ⟨ended o u, h.exec_ends hu hlocal, fun howed halone => ?_⟩
  obtain ⟨hcur, -⟩ := ended_frame o u
  have hsame : (storeCells (pairCells o.cells bs) s).cur = s.cur := by
    rw [storeCells_alone halone]
    exact (writeCells_queuesKept ..).cur
  have hu : u = (storeCells (pairCells o.cells bs) s).modCtx
      (Ctx.receivesG g (BitVec.ofNat 64 (leNat (readCells o.cells s))) false o.id) :=
    deliverG_ours howner hg (by rw [hsame, h.number]; exact howed) _ _
  rw [hcur, hu]
  exact Vector.getElem_set_self _

end

/-! ## Pushes of the array -/

section
variable {id : Nat} {o : Op} {s : State} (h : Due id o s)
include h

theorem Due.exec_push {q : BitVec 5} {v : BitVec 1024} {p : Bool} {fl : Flags} (hout : o.inScratch = false)
    (hk : o.kind = .push q v p fl)
    (hfirst : s.die.ops.find? (fun x => x.owner == s.curId && (match x.kind with | .push r _ _ _ => r == q | _ => false)) = some o)
    (hdue : o.lo ≤ s.core.cycle) {e : QEntry} (hqueue : s.cur.queue q = [e]) (hlanded : e.landed = false)
    (hwaits : e.interlocked = true) (hop : e.op = id) : exec (.arrayPushLanding s.curId q) s =
      .next ((s.modCtx (fun c => { c with
        q := c.q.set q.toNat [e.delivered v p s.core.cycle], sys := { s.cur.sys with fstat := s.cur.sys.fstat ||| fl } })).modDie
          (fun d => { d with ops := d.ops.filter (fun x => x.id != id) })) := by
  let u := s.modCtx (fun c => { c with
    q := c.q.set q.toNat [e.delivered v p s.core.cycle], sys := { s.cur.sys with fstat := s.cur.sys.fstat ||| fl } })
  have hflags : opFlags o fl (deliverQueue o q v p s) = u := by
    rw [deliverQueue_ours h.owner hqueue hlanded hwaits (hop.trans h.number.symm), opFlags,
      if_pos (h.present (by rfl) (by rfl)), modCtxAt_owner (by exact h.owner)]
    rfl
  have hlocal : completeLocal o s = dropOp o.id u := by
    rw [completeLocal, hout, hk]
    change (if s.core.cycle < o.lo then s else endOp o (opFlags o fl (deliverQueue o q v p s))) = _
    rw [if_neg (Nat.not_lt.mpr hdue), hflags]
    exact h.drops ⟨rfl, rfl⟩
  have hland : landPush s.curId q s = completeOp o.id s :=
    congrArg (fun x : Option Op => match x with | some o => completeOp o.id s | none => s) hfirst
  have hcomplete := h.completes (by rw [hlocal]; rfl)
  rw [← h.number] at hcomplete ⊢
  exact congrArg Host.Outcome.next (hland.trans (hcomplete.trans hlocal))

end

end Sys2Proof.Machine
end

section
/-! Engine faults, fills of trees, and tiles for the cope store (spec/11_storage.md R165; spec/19_trees_regions.md R286;
spec/17_matrix.md R258, R259). -/
namespace Sys2Proof.Machine

/-! ## Engine faults -/

/-- A translation that fails for good stops an engine. -/
theorem engineFail_stops {x : Xlate} (habsent : x ≠ .absent) (hpending : ∀ w asked, x ≠ .pending w asked) (o : Op)
    (before : State → State) (va : Nat) (s : State) :
    engineFail o before (.fail x va) s = engineStop o .engineFault (BitVec.ofNat 64 va) (before s) := by
  cases x with
  | absent => exact absurd rfl habsent
  | pending w asked => exact absurd rfl (hpending w asked)
  | _ => rfl

section
variable {id : Nat} {o : Op} {s : State} (h : Due id o s)
include h

/-- A cause of an operation becomes due for the task on the context in focus. -/
theorem Due.raises {u : State} (hcur : u.cur = s.cur) (hid : u.curId = s.curId) (cause : Cause) (aux : BitVec 8) (faddr : Word) :
    raiseFor o cause aux faddr u =
      u.modCtx (fun c => c.addDue (boundaryReq cause aux faddr (some (o.pc, o.logged)) u.core.cycle c)) := by
  obtain ⟨howner, -, hrunning, -⟩ := (ours_iff o s).mp h.ours
  have howner' : o.owner = u.curId := howner.trans hid.symm
  have hcycle : (coreAt u.curId.core u).cycle = u.core.cycle := congrArg Core.cycle (if_pos rfl)
  rw [raiseFor, raiseLogged, if_pos (h.present (congrArg Ctx.flow hcur) hid), raiseBoundary]
  simp only [modCtxAt_owner howner']
  rw [howner', ctxAt_cur, hcur, hrunning, hcycle]

/-- A store from scratchpad that does not reach its memory raises engine fault, and is in flight no longer. -/
theorem Due.tileStore_faults (hout : o.inScratch = false) {sp : Nat} {shape : BitVec 16} (hk : o.kind = .tileStore sp shape)
    {rows w va : Nat} {x : Xlate} (hshape : tileShape o.record shape = some (rows, w)) (hspace : recSpace o.record ≠ 2)
    (halone : s.die.shard = []) (hscan : (scanCells o .write (kindSpace o.record) s
      (placeAddrs o.record (tilePlaces o.record o.offset shape))).2 = .fail x va)
    (habsent : x ≠ .absent) (hpending : ∀ w asked, x ≠ .pending w asked) :
    ∃ t, exec (.engineFault id) s = .next t ∧ findOp id t = none ∧ t.core.f = s.core.f ∧
      dueMore s.cur.flow.due t.cur.flow.due .engineFault 0 (BitVec.ofNat 64 va) := by
  have hparts : storeParts o s = (tilePlaces o.record o.offset shape, readScratch (scratchRun sp (rows * w)) s) := by
    rw [storeParts, hk]
    simp only [hshape]
  let cells := pairCells (scanCells o .write (kindSpace o.record) s
    (placeAddrs o.record (tilePlaces o.record o.offset shape))).1 (readScratch (scratchRun sp (rows * w)) s)
  let u := writeCells cells s
  obtain ⟨hcur, hcore, -⟩ : QueuesKept s u := writeCells_queuesKept cells s
  have hu : OpsKept s u := writeCells_kept_ops cells s
  let t := dropOp o.id (u.modCtx (fun c => c.addDue
    (boundaryReq .engineFault 0 (BitVec.ofNat 64 va) (some (o.pc, o.logged)) u.core.cycle c))).dropEnds
  have hwrite : engineWrite o (storeParts o s).1 (storeParts o s).2 s = (u, .fail x va) := by
    rw [engineWrite, if_neg hspace, hparts]
    exact congrArg₂ Prod.mk (storeCells_alone halone cells) hscan
  have hstop : engineStop o .engineFault (BitVec.ofNat 64 va) u = t := by
    have hfree : landFree o u = u := by rw [landFree, hk]
    rw [engineStop, hfree, h.raises hcur hu.focus]
    exact h.drops ⟨hu.focus, hu.ops⟩
  have hlocal : completeLocal o s = t := by
    have hstore : completeLocal o s = completeStore o s := by
      rw [completeLocal, hout, hk]
      rfl
    rw [hstore, completeStore]
    simp only [hwrite]
    exact (engineFail_stops habsent hpending o (fun _ => u) va s).trans hstop
  have hcomplete : completeOp id s = t := (h.completes (by rw [hlocal]; exact hu.focus)).trans hlocal
  have hdue : t.cur.flow.due = s.cur.flow.due ++
      [boundaryReq .engineFault 0 (BitVec.ofNat 64 va) (some (o.pc, o.logged)) u.core.cycle u.cur] :=
    congrArg (fun c : Ctx => c.flow.due ++ _) hcur
  have hfault : faultOp id s = t := by
    have hthere : ctxAt o.owner t = t.cur := by
      rw [h.owner, ← hu.focus]
      exact ctxAt_cur t
    rw [faultOp, findOp, h.find]
    simp only [hcomplete, hthere]
    rw [h.owner, ctxAt_cur, hdue, List.length_append]
    exact if_pos (Nat.lt_succ_self _)
  refine ⟨t, congrArg Host.Outcome.next hfault, ?_, congrArg Core.f hcore, _, hdue, rfl, rfl, rfl⟩
  rw [← h.number]
  exact findOp_dropOp ..

end

/-! ## Fills of trees -/

/-- The code of a leaf that four bytes of a fill give. -/
def fillCode (bs : List Byte) (i : Nat) : BitVec 32 := BitVec.ofNat 32 (leNat ((bs.drop (4 * i)).take 4))

theorem leafOf_fillLeaves (fp : Bool) (bs : List Byte) {i : Nat} (hi : i < 1024) :
    leafOf (fillLeaves fp bs).1 i = (if fp then (massOf (fillCode bs i)).1 else fillCode bs i).toNat := by
  have hprefix : ∀ n, i < n → leafOf ((List.range n).foldl (fun (acc : Leaves × Flags) i =>
      let w := BitVec.ofNat 32 (leNat ((bs.drop (4 * i)).take 4))
      let q := if fp then massOf w else (w, 0)
      (smSet 0 acc.1 i q.1, acc.2 ||| q.2)) ([], 0)).1 i = (if fp then (massOf (fillCode bs i)).1 else fillCode bs i).toNat := by
    intro n hn
    induction n with
    | zero => exact absurd hn (Nat.not_lt_zero i)
    | succ n ih =>
      rw [List.range_succ, List.foldl_append, List.foldl_cons, List.foldl_nil, leafOf]
      by_cases hlast : i = n
      · subst hlast
        rw [smGet_smSet_same]
        cases fp with
        | true => rfl
        | false => rfl
      · rw [smGet_smSet_other _ _ _ _ _ _ hlast]
        exact ih (by omega)
  exact hprefix 1024 hi

section
variable {id : Nat} {o : Op} {s : State} (h : Due id o s) (hout : o.inScratch = false) {w : BitVec 3} {fp : Bool} {fe : BitVec 2}
  (hk : o.kind = .treeFill w fp fe)
include h hout hk

theorem Due.applyWfill_eq (hfocus : (applyFill o w fp fe s).curId = s.curId) : applyWfill id s = applyFill o w fp fe s := by
  have hlocal : completeLocal o s = applyFill o w fp fe s := by
    rw [completeLocal, hout, hk]
    rfl
  rw [applyWfill, findOp, h.find]
  simp only [hk]
  exact (h.completes (by rw [hlocal]; exact hfocus)).trans hlocal

/-- A fill waits until its granules are full where its qualifier asks for that. -/
theorem Due.fill_waits (hready : fillReady o fe s = false) : exec (.wfillApply id) s = .next s := by
  have hwait : applyFill o w fp fe s = s := by
    rw [applyFill, hready]
    rfl
  exact congrArg Host.Outcome.next ((h.applyWfill_eq hout hk (by rw [hwait])).trans hwait)

/-- A fill that is applied gives the tree the codes of its bytes. -/
theorem Due.fill_lands (hready : fillReady o fe s = true) : ∃ t, exec (.wfillApply id) s = .next t ∧ findOp id t = none ∧
    ∀ i, i < 1024 → leafOf (t.tree w) i =
      (if fp then (massOf (fillCode (readScratch (bulkAddrs o.record o.offset) s) i)).1
        else fillCode (readScratch (bulkAddrs o.record o.offset) s) i).toNat := by
  let r := fillLeaves fp (readScratch (bulkAddrs o.record o.offset) s)
  let v := (if fe = 2 then setFullAll (accessGranules (bulkAddrs o.record o.offset)) false s else s)
  have hv : BytesKept s v := by
    dsimp only [v]
    split
    · exact setFullAll_bytesKept ..
    · exact ⟨rfl, .refl s, rfl⟩
  let u := opFlags o r.2 (v.setTree w r.1)
  have hu : u = (v.setTree w r.1).modCtx (fun c => c.orFlags r.2) := by
    dsimp only [u]
    rw [opFlags, if_pos (h.present (u := v.setTree w r.1) (congrArg Ctx.flow hv.cur) hv.kept.focus),
      modCtxAt_owner (s := v.setTree w r.1) (h.owner.trans hv.kept.focus.symm)]
  have hkept : OpsKept s u := by
    rw [hu]
    exact ⟨hv.kept.focus, hv.kept.ops⟩
  have hfill : applyFill o w fp fe s = ended o u := by
    rw [← finishOp_ours h.ours h.alone hkept, applyFill, hready]
    rfl
  obtain ⟨-, -, hfocus, htrees, -, hgone⟩ := ended_frame o u
  rw [h.number] at hgone
  refine ⟨ended o u, congrArg Host.Outcome.next ((h.applyWfill_eq hout hk ?_).trans hfill), hgone, fun i hi => ?_⟩
  · rw [hfill, hfocus, hkept.focus]
  · have htree : (ended o u).tree w = r.1 := by
      rw [State.tree, htrees, hu]
      exact Vector.getElem_set_self _
    rw [htree]
    exact leafOf_fillLeaves fp _ hi

end

/-! ## Tiles for the cope store -/

theorem readScratch_congr {s t : State} (h : t.cluster = s.cluster) (l : List (Option Nat)) : readScratch l t = readScratch l s := by
  simp only [readScratch, scratchRead, h]

/-- A list cut into runs of 64. -/
theorem flatten_runs {α : Type} (l : List α) : ∀ k, 64 * k ≤ l.length →
    ((List.range k).map (fun i => (l.drop (64 * i)).take 64)).flatten = l.take (64 * k)
  | 0, _ => rfl
  | k + 1, h => by
    rw [List.range_succ, List.map_append, List.flatten_append, flatten_runs l k (by omega), Nat.mul_succ, List.take_add]
    simp

/-- A unit that is written leads on to the next. -/
theorem loadUnits_cons {o : Op} {f : MF} {fm : BitVec 8} {d u : Nat} {a : List (Option Nat)} {as : List (List (Option Nat))}
    {s v : State} (hk : o.kind = .mload f fm d) (h : loadUnit o (f.caddr.toNat + u) a s = (v, .done)) :
    loadUnits o u (a :: as) s = loadUnits o (u + 1) as v := by
  rw [loadUnits]
  simp only [hk, h]

section
variable {o : Op} (hspace : recSpace o.record = 2) {f : MF} {fm : BitVec 8} {d : Nat} (hk : o.kind = .mload f fm d)
include hspace hk

/-- Units from scratchpad are all written, and stand where the tile's address says. -/
theorem loadUnits_scratch : ∀ (as : List (List (Option Nat))) (u : Nat) (s : State), (∀ a ∈ as, a.length = 64) →
    ∃ t, loadUnits o u as s = (t, u + as.length, .done) ∧ t.cluster = s.cluster ∧ t.cur = s.cur ∧ OpsKept s t ∧
      ∀ b, memGet t.core.cope b = if 64 * (f.caddr.toNat + u) ≤ b ∧ b < 64 * (f.caddr.toNat + u + as.length) then
        (readScratch as.flatten s).getD (b - 64 * (f.caddr.toNat + u)) 0 else memGet s.core.cope b
  | [], u, s, _ => ⟨s, rfl, rfl, rfl, .refl s, fun b => (if_neg (by simp only [List.length_nil]; omega)).symm⟩
  | a :: as, u, s, hunits => by
    let v := writeUnit (f.caddr.toNat + u) (readScratch a s) (scratchFault a s) s
    have hunit : loadUnit o (f.caddr.toNat + u) a s = (v, .done) := if_pos hspace
    have hv : OpsKept s v := ⟨rfl, rfl⟩
    obtain ⟨t, hload, hcluster, hcur, hkept, hcope⟩ := loadUnits_scratch as (u + 1) v
      (fun x hx => hunits x (List.mem_cons_of_mem a hx))
    have hlength : (readScratch a s).length = 64 := by
      rw [readScratch, List.length_map]
      exact hunits a List.mem_cons_self
    have hfirst : ∀ b, memGet v.core.cope b = if 64 * (f.caddr.toNat + u) ≤ b ∧ b < 64 * (f.caddr.toNat + u) + 64 then
        (readScratch a s).getD (b - 64 * (f.caddr.toNat + u)) 0 else memGet s.core.cope b := by
      intro b
      have hwrite := memGet_memWrite (readScratch a s) s.core.cope (64 * (f.caddr.toNat + u)) b
      rw [hlength] at hwrite
      exact hwrite
    have hsplit : readScratch (a :: as).flatten s = readScratch a s ++ readScratch as.flatten s := by
      rw [List.flatten_cons, readScratch, List.map_append]
      rfl
    have hlater : readScratch as.flatten v = readScratch as.flatten s := readScratch_congr rfl _
    refine ⟨t, ?_, hcluster, hcur, hv.trans hkept, fun b => ?_⟩
    · rw [loadUnits_cons hk hunit, hload, List.length_cons, Nat.add_assoc, Nat.add_comm 1]
    · rw [hcope, hfirst, hsplit, hlater, List.length_cons]
      by_cases hhere : 64 * (f.caddr.toNat + u) ≤ b ∧ b < 64 * (f.caddr.toNat + u) + 64
      · rw [if_neg (by omega), if_pos hhere, if_pos (by omega), List.getD_append _ _ _ _ (by omega)]
      · by_cases hthere : 64 * (f.caddr.toNat + (u + 1)) ≤ b ∧ b < 64 * (f.caddr.toNat + (u + 1) + as.length)
        · have hstep : b - 64 * (f.caddr.toNat + (u + 1)) = b - 64 * (f.caddr.toNat + u) - (readScratch a s).length := by omega
          rw [if_pos hthere, if_pos (by omega), List.getD_append_right _ _ _ _ (by omega), hstep]
        · rw [if_neg hthere, if_neg hhere, if_neg (by omega)]

end

/-- The addresses of the source of an `mload`. -/
def Op.tile (o : Op) : List (Option Nat) := placeAddrs o.record (tilePlaces o.record o.offset 0)

theorem unitAddrs_length (o : Op) : (unitAddrs o).length = o.tile.length / 64 := by
  rw [unitAddrs, List.length_map, List.length_range]
  rfl

theorem unitAddrs_flatten {o : Op} (h : o.tile.length % 64 = 0) : (unitAddrs o).flatten = o.tile := by
  have hwhole : 64 * (o.tile.length / 64) = o.tile.length := Nat.mul_div_cancel' (Nat.dvd_of_mod_eq_zero h)
  exact (flatten_runs o.tile _ hwhole.le).trans (by rw [hwhole, List.take_length])

theorem length_of_mem_unitAddrs {o : Op} {a : List (Option Nat)} (h : a ∈ unitAddrs o) : a.length = 64 := by
  obtain ⟨i, hi, rfl⟩ := List.mem_map.mp h
  have hi : i < o.tile.length / 64 := List.mem_range.mp hi
  change ((o.tile.drop (64 * i)).take 64).length = 64
  rw [List.length_take, List.length_drop]
  omega

section
variable {id : Nat} {o : Op} {s : State} (h : Due id o s)
include h

/-- An `mload` from scratchpad fills its units and clears MLPROG. -/
theorem Due.mload_lands (hout : o.inScratch = false) {f : MF} {fm : BitVec 8} {d : Nat} (hk : o.kind = .mload f fm d)
    (hidle : s.beatsLeft = false) (hspace : recSpace o.record = 2) (hdone : d = 0)
    (hfirst : s.die.ops.find? (fun x => x.isMload && x.owner == s.curId) = some o) (hsound : o.doomed = false)
    (hlength : o.tile.length % 64 = 0) : ∃ t, exec (.mloadComplete s.curId) s = .next t ∧ findOp id t = none ∧
      t.cur.arr.mlprog = 0 ∧
      ∀ n, n < o.tile.length → memGet t.core.cope (64 * f.caddr.toNat + n) = (readScratch o.tile s).getD n 0 := by
  obtain ⟨t, hload, -, hcur, hkept, hcope⟩ := loadUnits_scratch hspace hk (unitAddrs o) 0 s
    (fun _ => length_of_mem_unitAddrs)
  let u := t.modCtx (Ctx.modArr (fun a => { a with mlprog := 0 }))
  have hlocal : completeLocal o s = dropOp o.id u := by
    have hmload : completeLocal o s = completeMload o f d s := by
      rw [completeLocal, hout, hk]
      rfl
    have hset : setMlprog o 0 t = u := by
      rw [setMlprog, if_pos (h.present (congrArg Ctx.flow hcur) hkept.focus), modCtxAt_owner (h.owner.trans hkept.focus.symm)]
    rw [hmload, completeMload, hidle, hdone, List.drop_zero, hload]
    change finishMload o t = _
    rw [finishMload, hsound]
    simp only [Bool.false_eq_true, if_false, hset]
    exact h.drops ⟨hkept.focus, hkept.ops⟩
  have hcomplete : completeOp id s = dropOp o.id u := (h.completes (by rw [hlocal]; exact hkept.focus)).trans hlocal
  have hend : endMload s.curId s = completeOp o.id s :=
    congrArg (fun x : Option Op => match x with | some o => completeOp o.id s | none => s) hfirst
  refine ⟨dropOp o.id u, congrArg Host.Outcome.next (hend.trans (by rw [h.number, hcomplete, h.number])), ?_, rfl, fun n hn => ?_⟩
  · rw [← h.number]
    exact findOp_dropOp ..
  · have hbyte := hcope (64 * f.caddr.toNat + n)
    rw [unitAddrs_flatten hlength, unitAddrs_length, if_pos (by omega)] at hbyte
    rw [show 64 * f.caddr.toNat + n - 64 * (f.caddr.toNat + 0) = n by omega] at hbyte
    exact hbyte

end

/-! ## Obligation O39 -/

/-- A scalar store to memory, the device page apart. -/
theorem completeElemStore_memory {o : Op} (h : ∀ off, o.cells.head? ≠ some (some (Tier.hbm, Config.devicePage + off)))
    (size : Nat) (v : Word) (s : State) :
    completeElemStore o size v s = finishOp o (storeCells (pairCells o.cells (leBytes size v.toNat)) s) := by
  have hword : ∀ off, (size == 8 && o.cells.head? == some (some ((Tier.hbm, Config.devicePage + off) : PByte))) = false :=
    fun off => by rw [beq_eq_false_iff_ne.mpr (h off), Bool.and_false]
  rw [completeElemStore]
  simp only [hword, Bool.false_eq_true, if_false]

/-- Settles O39, kind by kind of the operation that completes. -/
theorem operationCompletionEvents : Obligations.OperationCompletionEvents := by
  intro id o s hfind hours hno hfrozen hfollows hlock ends value clean gives enters stores run
  have h : Due id o s := ⟨hfind, hours, hno, hfrozen, hfollows, hlock⟩
  refine ⟨fun hspace hfe => ?_, fun hout => ?_⟩
  · have hscratch : ∀ {k}, o.kind = k → (match k with
        | .vecLoad .. | .elemLoad .. | .vecStore _ | .elemStore .. | .amo .. | .amoc .. | .signal .. => true
        | _ => false) = true → completeLocal o s = completeScratch o s := by
      intro k hk hin
      refine completeLocal_inScratch ?_ s
      rw [Op.inScratch, hspace, hk]
      exact hin
    split
    · next hk => exact fun hg howed => h.exec_gives ((hscratch hk rfl).trans (completeScratch_elemLoad hfe hk)) hg howed
    · next hk =>
      intro e hqueue hlanded hwaits hop
      exact h.exec_enters ((hscratch hk rfl).trans (completeScratch_vecLoad hfe hk)) hqueue hlanded hwaits hop
    · next hk =>
      exact h.exec_ends (writeScratch_opsKept ..) ((hscratch hk rfl).trans (completeScratch_vecStore hfe hk))
    · next hk =>
      exact h.exec_ends (writeScratch_opsKept ..) ((hscratch hk rfl).trans (completeScratch_elemStore hfe hk))
    · trivial
  · cases hk : o.kind with
    | elemLoad g size sg spec x =>
      cases x with
      | some x => exact fun hg howed => h.exec_gives (by rw [completeLocal, hout, hk]; rfl) hg howed
      | none =>
        refine fun hclean hg howed => h.exec_gives ?_ hg howed
        rw [completeLocal, hout, hk]
        change completeG o g (loadValue size sg (readCells o.cells s)) (cellsPoison o.cells s) s = _
        rw [completeG, hclean]
        rfl
    | vecLoad q spec x =>
      cases x with
      | some x =>
        intro e hqueue hlanded hwaits hop
        exact h.exec_enters (by rw [completeLocal, hout, hk]; rfl) hqueue hlanded hwaits hop
      | none =>
        intro hclean e hqueue hlanded hwaits hop
        refine h.exec_enters ?_ hqueue hlanded hwaits hop
        rw [completeLocal, hout, hk]
        exact if_neg (Bool.eq_false_iff.mp hclean)
    | vecStore d => exact h.exec_stores (by rw [completeLocal, hout, hk]; rfl)
    | elemStore size v =>
      intro hmemory
      refine h.exec_stores ?_
      rw [completeLocal, hout, hk]
      exact completeElemStore_memory hmemory size v s
    | recStore r => exact h.exec_stores (by rw [completeLocal, hout, hk]; rfl)
    | signal add v =>
      cases add with
      | true => trivial
      | false => exact h.exec_stores (by rw [completeLocal, hout, hk]; rfl)
    | posted => exact h.exec_ends (.refl s) (by rw [completeLocal, hout, hk]; rfl)
    | amo g op un wide nr arg =>
      exact fun hclean => ⟨fun hnr bs hbytes => h.exec_silentAtomic hout hclean hk (by rw [hk]; exact hbytes) hnr,
        fun hnr hg bs hbytes => h.exec_atomic hout hclean hk (by rw [hk]; exact hbytes) hnr hg⟩
    | push q v p fl =>
      intro hfirst hdue e hqueue hlanded hwaits hop
      exact h.exec_push hout hk hfirst hdue hqueue hlanded hwaits hop
    | tileLoad spec sp shape =>
      intro hsound rows w bs hshape hread hlength
      exact h.tileLoad_lands hout hk hsound hshape hread hlength
    | tileStore sp shape =>
      intro rows w va x hshape hspace halone hscan habsent hpending
      exact h.tileStore_faults hout hk hshape hspace halone hscan habsent hpending
    | treeFill w fp fe =>
      refine ⟨fun hfe hany => h.fill_waits hout hk ?_, fun hfull => h.fill_lands hout hk ?_⟩
      · rw [fillReady, beq_eq_false_iff_ne.mpr hfe, Bool.false_or, ← Bool.not_eq_true, List.all_eq_true]
        obtain ⟨g, hg, hempty⟩ := List.any_eq_true.mp hany
        exact fun hall => absurd (hall g hg) (by simpa using hempty)
      · rw [fillReady, Bool.or_eq_true, beq_iff_eq]
        exact hfull
    | mload f fm d =>
      intro hidle hspace hdone hfirst hsound addrs hlength
      exact h.mload_lands hout hk hidle hspace hdone hfirst hsound hlength
    | _ => trivial

end Sys2Proof.Machine
end

section
/-! Requests for heap bytes at their home (spec/11_storage.md R177, R178, R182; spec/15_ordering.md R230; spec/23_fabric.md R351,
R356, R357). -/
namespace Sys2Proof.Machine

/-! ## Arrival -/

section
variable {p : Packet} {s : State}

theorem reachesDie_iff : reachesDie p s = true ↔ onWire p = p ∧ s.deaf p.src = false := by
  simp only [reachesDie, Bool.and_eq_true, beq_iff_eq, Bool.not_eq_true']

theorem whenArrived_fits {fits : Packet → Bool} {f : Packet → State → State} (hreach : reachesDie p s = true)
    (hfits : fits p = true) :
    whenArrived fits f p s = f p (arrived p s) := by
  obtain ⟨hwire, hhears⟩ := reachesDie_iff.mp hreach
  rw [whenArrived, hwire, hfits, hhears]
  rfl

theorem requestOfType_arrives (hreach : reachesDie p s = true) (hcls : p.cls = 0) {k : BitVec 6} (htype : p.type = k) :
    requestOfType k none p s = serveRequest p (arrived p s) :=
  whenArrived_fits hreach (by rw [hcls, htype, beq_self_eq_true, beq_self_eq_true]; rfl)

/-- A packet that does not fit the event, or that the die does not take, changes nothing. -/
theorem requestOfType_ignored (hwire : onWire p = p) {k : BitVec 6} (h : p.cls ≠ 0 ∨ p.type ≠ k ∨ s.deaf p.src = true) :
    requestOfType k none p s = s := by
  rw [requestOfType, whenArrived, hwire]
  refine if_neg ?_
  simp only [Bool.and_eq_true, beq_iff_eq, Bool.not_eq_true', and_true]
  rintro ⟨⟨hcls, htype⟩, hhears⟩
  rcases h with h | h | h
  · exact h hcls
  · exact h htype
  · rw [hhears] at h
    exact Bool.false_ne_true h

theorem inTime_iff {k : BitVec 6} : inTime k p s = true ↔
    reachesDie p s = true ∧ p.cls = 0 ∧ p.type = k ∧ mustWait (clockWith p s) p (atRead p s) = false := by
  simp only [inTime, Bool.and_eq_true, beq_iff_eq, Bool.not_eq_true', and_assoc]

theorem inTime_type {k : BitVec 6} (h : inTime k p s = true) : p.type = k := by
  obtain ⟨-, -, htype, -⟩ := inTime_iff.mp h
  exact htype

/-- A request that has to wait for nothing is served, a write with its clock. -/
theorem requestOfType_served {k : BitVec 6} (h : inTime k p s = true) {act : (State → State) × Bool}
    (hact : requestAct p = some act) :
    requestOfType k none p s = act.1 (if act.2 then atWrite p s else atRead p s) := by
  obtain ⟨hreach, hcls, htype, hwait⟩ := inTime_iff.mp h
  rw [requestOfType_arrives hreach hcls htype, serveRequest, hact]
  exact if_neg (Bool.eq_false_iff.mp hwait)

end

/-! ## The bytes that a request names -/

section
variable {p : Packet} {n : Nat} {access : Access} {s : State} {k : List (Option PByte) → State}

theorem onHeap_ok {cs : List (Option PByte)} (h : cellsFor p.asid true access none s (requestBytes p n) = .ok cs) :
    onHeap p n access s k = k cs := by
  rw [onHeap, h]

theorem onHeap_fail {x : Xlate} {va : Nat} (h : cellsFor p.asid true access none s (requestBytes p n) = .fail x va) :
    onHeap p n access s k = refuses p x s := by
  rw [onHeap, h]
  cases x with
  | _ => rfl

/-- A read or a write names the bytes from its offset. -/
theorem requestBytes_plain (h : p.type.toNat < 3) (n : Nat) : requestBytes p n = heapAddrs p n := by
  refine if_neg fun hnamed => ?_
  omega

end

/-! ## What each request does -/

section
variable {p : Packet} {s : State}

theorem serveRead_clean (htype : p.type = 1) {cs : List (Option PByte)}
    (h : cellsFor p.asid true .read none s (heapAddrs p p.len) = .ok cs) (hclean : cellsPoison cs s = false) :
    serveRead p s = sendPacket (answer p 32 0 0 (readCells cs s) s) s := by
  rw [← requestBytes_plain (by rw [htype]; decide)] at h
  rw [serveRead, onHeap_ok h, hclean]
  rfl

theorem serveRead_poisoned (htype : p.type = 1) {cs : List (Option PByte)}
    (h : cellsFor p.asid true .read none s (heapAddrs p p.len) = .ok cs) (hbad : cellsPoison cs s = true) :
    serveRead p s = sendPacket (answer p 34 3 0 [] s) s := by
  rw [← requestBytes_plain (by rw [htype]; decide)] at h
  rw [serveRead, onHeap_ok h, hbad]
  rfl

theorem serveWrite_ok (htype : p.type = 2) {cs : List (Option PByte)}
    (h : cellsFor p.asid true .write none s (heapAddrs p p.len) = .ok cs) :
    serveWrite p s = sendPacket (answer p 33 0 0 [] (storeCells (pairCells cs p.payload) s))
      (storeCells (pairCells cs p.payload) s) := by
  rw [← requestBytes_plain (by rw [htype]; decide)] at h
  exact onHeap_ok h

variable {n : Nat} {access : Access} {k : OpKind} {reply : Bool}

theorem serveAtomic_poisoned {cs : List (Option PByte)} (h : cellsFor p.asid true .atomic none s (requestBytes p n) = .ok cs)
    (hbad : cellsPoison cs s = true) :
    serveAtomic p n .atomic k reply s = sendPacket (answer p 34 3 0 [] s) s := by
  rw [serveAtomic, onHeap_ok h]
  exact if_pos ⟨rfl, hbad⟩

/-- The bytes that an indivisible update leaves. -/
def updated (cs : List (Option PByte)) (k : OpKind) (s : State) : State :=
  match atomicBytes k (leNat (readCells cs s)) with
  | some bs => storeCells (pairCells cs bs) s
  | none => s

theorem serveAtomic_ok {cs : List (Option PByte)} (h : cellsFor p.asid true access none s (requestBytes p n) = .ok cs)
    (hclean : access = .atomic → cellsPoison cs s = false) {u : State} (hu : updated cs k s = u) :
    serveAtomic p n access k reply s = if reply then replyData p (leBytes n (leNat (readCells cs s))) u else replyAck p u := by
  rw [serveAtomic, onHeap_ok h, ← hu]
  refine if_neg fun hbad => ?_
  rw [hclean hbad.1] at hbad
  exact Bool.false_ne_true hbad.2

/-- Where the requester waits for the old value, the update answers with it. -/
theorem serveAtomic_replied {cs : List (Option PByte)} (h : cellsFor p.asid true .atomic none s (requestBytes p n) = .ok cs)
    (hclean : cellsPoison cs s = false) {u : State} (hu : updated cs k s = u) :
    serveAtomic p n .atomic k true s = sendPacket (answer p 32 0 0 (leBytes n (leNat (readCells cs s))) u) u :=
  serveAtomic_ok h (fun _ => hclean) hu

/-- Else it answers with an acknowledgement. -/
theorem serveAtomic_acknowledged {cs : List (Option PByte)}
    (h : cellsFor p.asid true access none s (requestBytes p n) = .ok cs)
    (hclean : access = .atomic → cellsPoison cs s = false) {u : State} (hu : updated cs k s = u) :
    serveAtomic p n access k false s = sendPacket (answer p 33 0 0 [] u) u :=
  serveAtomic_ok h hclean hu

theorem updated_some {cs : List (Option PByte)} {bs : List Byte} (h : atomicBytes k (leNat (readCells cs s)) = some bs) :
    updated cs k s = storeCells (pairCells cs bs) s := by
  rw [updated, h]

end

theorem updated_signalSet {cs : List (Option PByte)} {s : State} {v : Word} :
    updated cs (.signal false v) s = storeCells (pairCells cs (leBytes 8 v.toNat)) s :=
  updated_some rfl

theorem updated_signalAdd {cs : List (Option PByte)} {s : State} {v : Word} : updated cs (.signal true v) s =
    storeCells (pairCells cs (leBytes 8 ((leNat (readCells cs s) + v.toNat) % 2 ^ 64))) s :=
  updated_some rfl

theorem updated_none {cs : List (Option PByte)} {s : State} {k : OpKind} (h : atomicBytes k (leNat (readCells cs s)) = none) :
    updated cs k s = s := by
  rw [updated, h]

/-- A compare and swap leaves the new bytes where the old value is the one compared with. -/
theorem updated_compareSwap {cs : List (Option PByte)} {s : State} {wide : Bool} {cmp new : Word} :
    updated cs (.amoc 0 wide cmp new) s = if leNat (readCells cs s) = cmp.toNat % 2 ^ (8 * amoBytes wide) then
      storeCells (pairCells cs (leBytes (amoBytes wide) (new.toNat % 2 ^ (8 * amoBytes wide)))) s else s := by
  by_cases hsame : leNat (readCells cs s) = cmp.toNat % 2 ^ (8 * amoBytes wide)
  · rw [if_pos hsame, updated_some (k := .amoc 0 wide cmp new) (if_pos hsame)]
  · rw [if_neg hsame, updated_none (k := .amoc 0 wide cmp new) (if_neg hsame)]

/-! ## The events of the requests -/

section
variable {p : Packet} {s : State}

theorem exec_served {i : Instr} {k : BitVec 6} (hevent : exec i s = .next (requestOfType k none p s)) (h : inTime k p s = true)
    {act : (State → State) × Bool} (hact : p.type = k → requestAct p = some act) :
    exec i s = .next (act.1 (if act.2 then atWrite p s else atRead p s)) := by
  rw [hevent, requestOfType_served h (hact (inTime_type h))]

theorem exec_readRequest (h : inTime 1 p s = true) : exec (.readRequest p) s = .next (serveRead p (atRead p s)) :=
  exec_served (act := (serveRead p, false)) rfl h fun htype => by rw [requestAct, htype]; rfl

theorem exec_writeRequest (h : inTime 2 p s = true) : exec (.writeRequest p) s = .next (serveWrite p (atWrite p s)) :=
  exec_served (act := (serveWrite p, true)) rfl h fun htype => by rw [requestAct, htype]; rfl

theorem exec_atomicRequest (h : inTime 3 p s = true) : exec (.atomicRequest p) s = .next (serveAmo p (atWrite p s)) :=
  exec_served (act := (serveAmo p, true)) rfl h fun htype => by rw [requestAct, htype]; rfl

theorem exec_compareSwapRequest (h : inTime 4 p s = true) :
    exec (.compareSwapRequest p) s = .next (serveCas p (atWrite p s)) :=
  exec_served (act := (serveCas p, true)) rfl h fun htype => by rw [requestAct, htype]; rfl

theorem exec_signalSetRequest (h : inTime 5 p s = true) :
    exec (.signalSetRequest p) s = .next (serveSignal false p (atWrite p s)) :=
  exec_served (act := (serveSignal false p, true)) rfl h fun htype => by rw [requestAct, htype]; rfl

theorem exec_signalAddRequest (h : inTime 6 p s = true) :
    exec (.signalAddRequest p) s = .next (serveSignal true p (atWrite p s)) :=
  exec_served (act := (serveSignal true p, true)) rfl h fun htype => by rw [requestAct, htype]; rfl

theorem exec_flagPostRequest (h : inTime 7 p s = true) : exec (.flagPostRequest p) s = .next (servePost p (atWrite p s)) :=
  exec_served (act := (servePost p, true)) rfl h fun htype => by rw [requestAct, htype]; rfl

end

/-! ## Requests that wait -/

/-- Acts on the counters and the clock of the die leave the held requests and the time alone. -/
theorem atRead_frame (p : Packet) (s : State) : (atRead p s).die.router.heldRequests = s.die.router.heldRequests ∧
    (atRead p s).linesLocked = s.linesLocked ∧ (arrived p s).timeNs = s.timeNs := by
  have harrived : (arrived p s).die.router.heldRequests = s.die.router.heldRequests ∧ (arrived p s).die.shard = s.die.shard ∧
      (arrived p s).timeNs = s.timeNs := by
    unfold arrived countArrival
    split
    · exact ⟨rfl, rfl, rfl⟩
    · exact ⟨rfl, rfl, rfl⟩
  have htaken : (atRead p s).die.router.heldRequests = (arrived p s).die.router.heldRequests ∧
      (atRead p s).die.shard = (arrived p s).die.shard := by
    unfold atRead takeClock
    split
    · exact ⟨rfl, rfl⟩
    · exact ⟨rfl, rfl⟩
  obtain ⟨hheld, hshard, htime⟩ := harrived
  exact ⟨htaken.1.trans hheld, by rw [State.linesLocked, htaken.2, hshard]; rfl, htime⟩

section
variable {p : Packet} {s : State} (hreach : reachesDie p s = true) (hcls : p.cls = 0) {k : BitVec 6} (htype : p.type = k)
  {act : (State → State) × Bool} (hact : requestAct p = some act)
  (hwait : mustWait (clockWith p s) p (atRead p s) = true)
include hreach hcls htype hact hwait

/-- A request that has to wait is held while there is room. -/
theorem requestOfType_held (hroom : s.die.router.heldRequests.length < 4096) : requestOfType k none p s =
    (atRead p s).modRouter (fun r => { r with heldRequests := r.heldRequests ++
      [{ req := p, clock := clockWith p s, since := s.timeNs, stuck := false }] }) := by
  obtain ⟨hheld, -, htime⟩ := atRead_frame p s
  rw [requestOfType_arrives hreach hcls htype, serveRequest, hact, ← htime]
  refine (if_pos hwait).trans (if_pos ?_)
  rw [← hheld] at hroom
  exact hroom

/-- Without room it is answered with a retry. -/
theorem requestOfType_retried (hfull : 4096 ≤ s.die.router.heldRequests.length) : requestOfType k none p s =
    sendPacket (answer p 35 0 0 [] (atRead p s)) (atRead p s) := by
  obtain ⟨hheld, -, -⟩ := atRead_frame p s
  rw [requestOfType_arrives hreach hcls htype, serveRequest, hact]
  refine (if_pos hwait).trans (if_neg ?_)
  rw [← hheld] at hfull
  exact Nat.not_lt.mpr hfull

end

/-- A request of a context waits for its causal predecessors, and one that names memory for locked lines. -/
theorem mustWait_of {p : Packet} {s : State} {c : SMap (BitVec 64)}
    (hpart : p.part ≠ ownPart)
    (h : clockAhead c s = true ∨ (namesMemory p = true ∧ s.linesLocked = true)) : mustWait c p s = true := by
  rw [mustWait, Bool.and_eq_true, Bool.or_eq_true, Bool.or_eq_true, Bool.and_eq_true]
  exact ⟨bne_iff_ne.mpr hpart, .inl h⟩

/-! ## Clock packets -/

theorem smGet_clockHalf (f : Nat → BitVec 64) (half : Nat) (m : SMap (BitVec 64)) (j : Nat) : ∀ n,
    smGet 0 ((List.range n).foldl (fun m i => smSet 0 m (32 * half + i) (f i)) m) j =
      if 32 * half ≤ j ∧ j < 32 * half + n then f (j - 32 * half) else smGet 0 m j
  | 0 => (if_neg (by omega)).symm
  | n + 1 => by
    rw [List.range_succ, List.foldl_append, List.foldl_cons, List.foldl_nil, smGet_smSet, smGet_clockHalf f half m j n]
    by_cases hlast : j = 32 * half + n
    · rw [if_pos hlast, if_pos (by omega), hlast, Nat.add_sub_cancel_left]
    · rw [if_neg hlast]
      exact if_congr (by omega) rfl rfl

/-- The clock kept for a die and class is the one stored last. -/
theorem storedClock_setStored (l : List ((Coord × BitVec 2) × SMap (BitVec 64))) (k : Coord × BitVec 2) (m : SMap (BitVec 64)) :
    storedClock (setStored l k m) k = m := by
  rw [storedClock, setStored, List.lookup_cons_self]
  rfl

section
variable {p : Packet} {s : State}

theorem arrived_domainIndex (c : Coord) : domainIndex c (arrived p s) = domainIndex c s := by
  unfold arrived countArrival
  split
  · rfl
  · rfl

theorem arrived_clocks : (arrived p s).die.clocks = s.die.clocks := by
  unfold arrived countArrival
  split
  · rfl
  · rfl

/-- The clock that a clock packet of one half leaves for its sender and class. -/
theorem takeClockPacket_clocks (hdomain : (domainIndex p.src s).isSome = true) :
    (takeClockPacket p s).die.clocks.own = s.die.clocks.own ∧
    ∀ i, i < 64 → smGet 0 (storedClock (takeClockPacket p s).die.clocks.received (p.src, p.cls)) i =
      if i / 32 = (if p.aux.getLsbD 0 then 1 else 0) then BitVec.ofNat 64 (leNat ((p.payload.drop (8 * (i % 32))).take 8))
      else smGet 0 (storedClock s.die.clocks.received (p.src, p.cls)) i := by
  have hknown : ¬ (domainIndex p.src s).isNone = true := by
    rw [Option.isNone_iff_eq_none, ← Option.not_isSome_iff_eq_none, not_not]
    exact hdomain
  rw [takeClockPacket, if_neg hknown]
  refine ⟨rfl, fun i hi => ?_⟩
  refine (congrArg (smGet 0 · i) (storedClock_setStored _ _ _)).trans ((smGet_clockHalf _ _ _ i 32).trans ?_)
  generalize (if p.aux.getLsbD 0 = true then 1 else 0) = half
  by_cases hhalf : i / 32 = half
  · rw [if_pos hhalf, if_pos (by omega), show i - 32 * half = i % 32 by omega]
  · rw [if_neg hhalf, if_neg (by omega)]

end

/-! ## Obligation O45 -/

/-- The requests of an operation, with their types. -/
noncomputable def heapRequests (p : Packet) : List (Instr × BitVec 6) :=
  [(.readRequest p, 1), (.writeRequest p, 2), (.atomicRequest p, 3), (.compareSwapRequest p, 4), (.signalSetRequest p, 5),
    (.signalAddRequest p, 6), (.flagPostRequest p, 7), (.tentativeReadRequest p, 8), (.tentativeWriteRequest p, 9)]

/-- Each is the event of its type, and has an act. -/
theorem heapRequests_events {p : Packet} {x : Instr × BitVec 6} (hx : x ∈ heapRequests p) (s : State) :
    exec x.1 s = .next (requestOfType x.2 none p s) ∧
      (p.type = x.2 → (requestAct p).isSome = true ∧ (p.type ≠ 7 → namesMemory p = true)) := by
  have hact : ∀ k : BitVec 6, p.type = k → 1 ≤ k.toNat → k.toNat ≤ 9 →
      (requestAct p).isSome = true ∧ (p.type ≠ 7 → namesMemory p = true) := by
    rintro k rfl hfirst hlast
    have hseven : p.type ≠ 7 ↔ p.type.toNat ≠ 7 := not_congr BitVec.toNat_inj.symm
    have height : p.type = 8 ↔ p.type.toNat = 8 := BitVec.toNat_inj.symm
    have hnine : p.type = 9 ↔ p.type.toNat = 9 := BitVec.toNat_inj.symm
    refine ⟨?_, fun hother => ?_⟩
    · unfold requestAct
      generalize p.type.toNat = n at hfirst hlast
      interval_cases n
      all_goals rfl
    · rw [hseven] at hother
      simp only [namesMemory, Bool.or_eq_true, Bool.and_eq_true, decide_eq_true_eq, beq_iff_eq, height, hnine]
      omega
  simp only [heapRequests, List.mem_cons, List.not_mem_nil, or_false] at hx
  rcases hx with rfl | rfl | rfl | rfl | rfl | rfl | rfl | rfl | rfl
  all_goals exact ⟨rfl, fun htype => hact _ htype (Nat.le_of_ble_eq_true rfl) (Nat.le_of_ble_eq_true rfl)⟩

/-- Settles O45, request by request: what it does once it waits for nothing, how it is refused, and how it waits. -/
theorem fabricRequestEvents : Obligations.FabricRequestEvents := by
  refine ⟨fun p s => ⟨fun h => ⟨fun cs hcs => ⟨fun hclean => ?_, fun hbad => ?_⟩, fun x va hfail => ?_⟩,
      fun h => ⟨fun cs hcs => ?_, fun x va hfail => ?_⟩,
      fun h cs hcs => ⟨fun hbad => ?_, fun hclean bs hbs => ⟨fun hreply => ?_, fun hreply => ?_⟩⟩,
      fun h cs hcs hclean => ?_, fun h cs hcs => ?_, fun h cs hcs => ?_, ?_, exec_flagPostRequest⟩,
    fun p s => ?_, fun p s hdomain htype hcls hreach => ?_⟩
  · exact (exec_readRequest h).trans (congrArg _ (serveRead_clean (inTime_type h) hcs hclean))
  · exact (exec_readRequest h).trans (congrArg _ (serveRead_poisoned (inTime_type h) hcs hbad))
  · rw [← requestBytes_plain (by rw [inTime_type h]; decide)] at hfail
    exact (exec_readRequest h).trans (congrArg _ (onHeap_fail hfail))
  · exact (exec_writeRequest h).trans (congrArg _ (serveWrite_ok (inTime_type h) hcs))
  · rw [← requestBytes_plain (by rw [inTime_type h]; decide)] at hfail
    exact (exec_writeRequest h).trans (congrArg _ (onHeap_fail hfail))
  · refine (exec_atomicRequest h).trans (congrArg _ ?_)
    rw [serveAmo]
    exact serveAtomic_poisoned hcs hbad
  · refine (exec_atomicRequest h).trans (congrArg _ ?_)
    rw [serveAmo, hreply]
    exact serveAtomic_replied hcs hclean (updated_some (hreply ▸ hbs))
  · refine (exec_atomicRequest h).trans (congrArg _ ?_)
    rw [serveAmo, hreply]
    exact serveAtomic_acknowledged hcs (fun _ => hclean) (updated_some (hreply ▸ hbs))
  · exact (exec_compareSwapRequest h).trans (congrArg _ (serveAtomic_replied hcs hclean updated_compareSwap))
  · exact (exec_signalSetRequest h).trans (congrArg _ (serveAtomic_acknowledged hcs nofun updated_signalSet))
  · exact (exec_signalAddRequest h).trans (congrArg _ (serveAtomic_acknowledged hcs nofun updated_signalAdd))
  · intro n y hy h x va hfail
    simp only [List.mem_cons, List.not_mem_nil, or_false] at hy
    rcases hy with rfl | rfl | rfl | rfl
    · exact (exec_atomicRequest h).trans (congrArg _ (onHeap_fail hfail))
    · exact (exec_compareSwapRequest h).trans (congrArg _ (onHeap_fail hfail))
    · exact (exec_signalSetRequest h).trans (congrArg _ (onHeap_fail hfail))
    · exact (exec_signalAddRequest h).trans (congrArg _ (onHeap_fail hfail))
  · intro all x hx
    obtain ⟨hevent, hacts⟩ := heapRequests_events hx s
    refine ⟨fun hwire hother => ?_, fun hreach hcls htype hpart hahead => ?_⟩
    · rw [hevent, requestOfType_ignored hwire hother]
    · obtain ⟨hsome, hnames⟩ := hacts htype
      obtain ⟨act, hact⟩ := Option.isSome_iff_exists.mp hsome
      obtain ⟨-, hlocked, -⟩ := atRead_frame p s
      have hwait : mustWait (clockWith p s) p (atRead p s) = true :=
        mustWait_of hpart (hahead.imp_right fun hlock => ⟨hnames hlock.1, hlocked.trans hlock.2⟩)
      rw [hevent]
      exact ⟨fun hroom => congrArg _ (requestOfType_held hreach hcls htype hact hwait hroom),
        fun hfull => congrArg _ (requestOfType_retried hreach hcls htype hact hwait hfull)⟩
  · rw [← arrived_domainIndex (p := p)] at hdomain
    rw [← arrived_clocks (p := p)]
    refine ⟨_, congrArg Host.Outcome.next (whenArrived_fits hreach ?_), takeClockPacket_clocks hdomain⟩
    rw [htype, Bool.and_eq_true]
    exact ⟨rfl, decide_eq_true hcls⟩

end Sys2Proof.Machine
end
